-- ==== Sys2Proof/Word.lean ====
section
/-! DEFINITION. The machine words of the module: bytes, scalar registers, vector
registers, predicates and tiles (R8, R84), and sorted sparse maps of plain data. -/

namespace Sys2Proof

/-- One byte; byte 0 of a field is at the lowest address (R8). -/
abbrev Byte := BitVec 8

/-- A scalar register of a cell (R84). -/
abbrev Word := BitVec 64

/-- A vector register: 256 lanes of 32 bits (R84, R85). -/
abbrev VReg := BitVec 8192

/-- A predicate register: one bit per lane (R84, R85). -/
abbrev PReg := BitVec 256

/-- A scale register: 64 entries of 8 bits (R84). -/
abbrev QReg := BitVec 512

/-- A tile accumulator: 64 × 64 elements of 64 bits, row by row (R84). -/
abbrev Tile := BitVec 262144

/-- A map with natural keys, kept as a list with strictly rising keys. -/
abbrev SMap (α : Type) := List (Nat × α)

/-- The value stored under a key. -/
def SMap.find {α : Type} : SMap α → Nat → Option α
  | [], _ => none
  | (k, v) :: rest, key => if k = key then some v else SMap.find rest key

/-- Store a value under a key; the keys stay in rising order. -/
def SMap.put {α : Type} : SMap α → Nat → α → SMap α
  | [], key, v => [(key, v)]
  | (k, w) :: rest, key, v =>
    if key < k then (key, v) :: (k, w) :: rest
    else if k = key then (key, v) :: rest
    else (k, w) :: SMap.put rest key v

/-- Remove a key. -/
def SMap.del {α : Type} : SMap α → Nat → SMap α
  | [], _ => []
  | (k, w) :: rest, key => if k = key then rest else (k, w) :: SMap.del rest key

/-- The keys rise strictly. -/
def SMap.sorted {α : Type} : SMap α → Bool
  | [] => true
  | [_] => true
  | (k, _) :: (k', v') :: rest => decide (k < k') && SMap.sorted ((k', v') :: rest)

end Sys2Proof
end

