-- ==== Sys2Proof/Syntax.lean ====
section
/-! DEFINITION. The commands of the block: one constructor of `Instr` per row of
spec/opcode_table.json, with the operand records they carry. A command is something
that reaches the module from outside (a pin, a register write, a packet, a sideband
message), an event of one of its own engines, or one instruction of a cell. -/

namespace Sys2Proof

/-! ## Operands of cell instructions (R95 to R98): the fields that an instruction uses -/

/-- Format S. -/
structure SOp where
  sd : BitVec 5
  sa : BitVec 5
  sb : BitVec 5
deriving DecidableEq, Repr

/-- Format I; `sa` is zero for `LUI` and `JAL`. -/
structure IOp where
  sd : BitVec 5
  sa : BitVec 5
  imm : BitVec 41
deriving DecidableEq, Repr

/-- Format B. -/
structure BOp where
  sa : BitVec 5
  sb : BitVec 5
  off : BitVec 41
deriving DecidableEq, Repr

/-- `BPANY` and `BPNONE`: the predicate `SA[3:0]` and the offset. -/
structure BPOp where
  p : BitVec 4
  off : BitVec 41
deriving DecidableEq, Repr

/-- A CSR access: the scalar register (destination of `CSRR`, source of the writes) and
the CSR number `AUX[11:0]`. -/
structure CsrOp where
  r : BitVec 5
  csr : BitVec 12
deriving DecidableEq, Repr

/-- Format V, with the guard of R95. -/
structure VOp where
  pg : BitVec 4
  pn : Bool
  vd : BitVec 5
  va : BitVec 5
  vb : BitVec 5
  vc : BitVec 5
  et : BitVec 4
  ss : BitVec 5
  bs : Bool
  mz : Bool
  aux : BitVec 20
deriving DecidableEq, Repr

/-- `TMMA` (R107). -/
structure TmmaOp where
  pg : BitVec 4
  pn : Bool
  td : BitVec 3
  va : BitVec 5
  vb : BitVec 5
  fa : BitVec 4
  fb : BitVec 4
  qa : BitVec 4
  qb : BitVec 4
  scl : Bool
deriving DecidableEq, Repr

/-- `TWIN` (R107). -/
structure TwinOp where
  td : BitVec 3
  ss : BitVec 5
  mode : BitVec 2
  auto : Bool
  immw : Bool
  win : BitVec 16
deriving DecidableEq, Repr

/-- `XTAL.T` (R107). -/
structure XtalTOp where
  td : BitVec 3
  vd : BitVec 5
  tet : BitVec 4
  rg : BitVec 5
  qd : BitVec 4
  scl : Bool
  sat : Bool
deriving DecidableEq, Repr

/-- `TMOVV` and `VMOVT` (R107): the tile, the vector register and the row pair. -/
structure TMovOp where
  td : BitVec 3
  v : BitVec 5
  rp : BitVec 5
deriving DecidableEq, Repr

/-- Format M, with the guard of R95. -/
structure MOp where
  pg : BitVec 4
  pn : Bool
  d : BitVec 5
  sb : BitVec 5
  xi : BitVec 5
  et : BitVec 4
  am : BitVec 2
  sc : BitVec 2
  nt : Bool
  rel : Bool
  acq : Bool
  off : BitVec 24
deriving DecidableEq, Repr

/-- `VGATHERP` (R119). -/
structure GatherpOp where
  pg : BitVec 4
  pn : Bool
  a : BitVec 5
  b : BitVec 5
  c : BitVec 5
  pd : BitVec 4
deriving DecidableEq, Repr

/-- `MCOPY` (R125). -/
structure McopyOp where
  a : BitVec 5
  b : BitVec 5
  c : BitVec 5
  sw : BitVec 5
  bit : BitVec 6
  sig : Bool
deriving DecidableEq, Repr

/-- `WAITSIG` (R126). -/
structure WaitsigOp where
  a : BitVec 5
  b : BitVec 5
  c : BitVec 5
  any : Bool
  clr : Bool
  tmo : BitVec 5
  pd : BitVec 4
deriving DecidableEq, Repr

/-- `FENCE` (R129). -/
structure FenceOp where
  scope : BitVec 2
  pr : Bool
  pw : Bool
  sr : Bool
  sw : Bool
  async : Bool
deriving DecidableEq, Repr

/-! ## Operands of board, power and start events -/

/-- How a raising of the core rails (R38) ends: `PWR_GOOD` asserts, `COOLANT_STOP_N` is
accepted as asserted before it does (R399), or a rail misses regulation (R40). -/
inductive PowerUp where
  | good
  | coolantStop
  | railFault
deriving DecidableEq, Repr

/-- Input voltage and current at the detection of an emergency (R46), and the other causes
of R49 that are detected in the same `ACLK` cycle: bit k is code k, for codes 2 to 7. -/
structure InputReading where
  mv : Nat
  ma : Nat
  also : BitVec 8
deriving DecidableEq, Repr

/-- One rail as its monitors give it for a frame (R362, R366): energy in µJ, voltage and
set point in mV, and whether both monitors stayed in range. -/
structure RailSample where
  uj : Nat
  mv : Nat
  setMv : Nat
  inRange : Bool
deriving DecidableEq, Repr

/-- One thermal sensor reading in 0.25 °C with its validity bit (R387). -/
structure TempSample where
  q : Int
  valid : Bool
deriving DecidableEq, Repr

/-- An amount of traffic or dynamic energy attributed to a context (R379, R380). -/
structure CtxShare where
  part : Nat
  ctx : Nat
  unit : Nat
  amount : Nat
deriving DecidableEq, Repr

/-- Estimated dynamic energy of an item run in a frame (R380). -/
structure RunShare where
  part : Nat
  ctx : Nat
  cell : Nat
  item : Nat
  amount : Nat
deriving DecidableEq, Repr

/-- The snapshot that the sense step latches (R354): what the monitors, the activity
counters and the sensors show for the frame that ended. -/
structure Snapshot where
  input : RailSample
  /-- Input current in mA (R485). -/
  inputMa : Nat
  /-- The load rails in the order of `IMPLAUSIBLE` bits 1 to 36 (R385). -/
  rails : List RailSample
  /-- 13 activity counts per region (R363). -/
  regionAct : List (List Nat)
  /-- 8 activity counts per I/O die (R363). -/
  iodAct : List (List Nat)
  /-- 192 thermal sensors (R386). -/
  temps : List TempSample
  /-- Estimated dynamic energy per item run (R380). -/
  runDyn : List RunShare
  /-- Estimated dynamic energy of block-mover work: `unit` is the region (R380). -/
  moverDyn : List CtxShare
  /-- HBM lines moved: `unit` is the region (R379). -/
  hbmLines : List CtxShare
  /-- I/O die work: `unit` is the die (R379). -/
  iodWork : List CtxShare
  /-- Fabric and CXL bytes (R379). -/
  serdesBytes : List CtxShare
  /-- DDR lines: `unit` is the channel (R379). -/
  ddrLines : List CtxShare
  /-- Transit flits per I/O die, transit bytes: never attributed (R379). -/
  transitIod : List Nat
  transitBytes : Nat
deriving DecidableEq, Repr

/-- What a start finds in a DIMM slot (R53, R174, R175): whether the clamp switch is closed;
whether a DIMM answers, and what its SPD says; its draw from `V12_DIMMn` in mW; whether it
trains; and its identity (R465). -/
structure DimmFinding where
  closed : Bool
  present : Bool
  /-- A DDR5 MRDIMM with registering clock driver, data buffers, SPD hub and 12 V PMIC. -/
  mrdimm : Bool
  /-- Rated data rate in MT/s. -/
  rate : Nat
  /-- Subchannels of 32 data bits and 8 ECC bits. -/
  subchannels : Nat
  /-- Data bits of one DRAM device. -/
  deviceBits : Nat
  gib : Nat
  mw : Nat
  trains : Bool
  spd : Nat
deriving DecidableEq, Repr

/-- What a start finds (R464 to R466): the outcomes of its tests and of training. -/
structure StartFindings where
  selfTestOk : Bool
  /-- Units that fail BIST, as unit identifiers of R81 with `CAUSE` zero. -/
  bistFailed : List (BitVec 32)
  stacksOk : BitVec 32
  /-- The 12 DIMM slots. -/
  dimms : List DimmFinding
  edgesOk : BitVec 12
  /-- Thermal sensors that fail their self-test (R387). -/
  sensorsFailed : List Nat
  trimReadable : Bool
  coeffsReadable : Bool
  /-- HBM pages that repair returns to service (R184), as page numbers. -/
  repaired : List Nat
  /-- Bit c: component c of R435 writes its first heartbeat in time. -/
  firstBeat : BitVec 6
  ctlAOk : Bool
  /-- Stored images that read back damaged: slot B (`true`) or A, and the component (R439). -/
  damaged : List (Bool × Nat)
  /-- Copies of the boot record whose CRC is wrong (R444). -/
  recordBad : BitVec 2
  /-- The CRC of the stored training results is good (R465). -/
  trainGood : Bool
deriving DecidableEq, Repr

/-- Why a standby takes over (R359). -/
inductive TakeoverCause where
  | missingCopy
  | handover
  | lamplighter
deriving DecidableEq, Repr

/-- What a patrol scrub read finds (R182, R185). -/
inductive ScrubFinding where
  | clean
  | corrected
  | uncorrectable
deriving DecidableEq, Repr

/-- Why a DIMM is lost (R177): its clamp opens while it is powered, or its power-management IC
reports a fault. -/
inductive DimmLoss where
  | clampOpen
  | pmicFault
deriving DecidableEq, Repr

/-- Causes for fencing a block (R59, R81). -/
inductive BlockCause where
  | sramHardFault
  | moverOrMmu
  | lastCell
deriving DecidableEq, Repr

/-! ## Operands of host accesses -/

/-- A register of the host apertures (R198, R205, R206); offsets as the tables give. -/
inductive HostReg where
  | bar0 (off : Nat)
  | bar4 (off : Nat)
  /-- A base address register of the function (R197, R422). -/
  | bar (n : Nat)
  /-- The message control word of the MSI-X capability: bit 15 enable, bit 14 function mask (R204). -/
  | msixControl
deriving DecidableEq, Repr

/-! ## Operands of the fabric -/

/-- A packet (R272): its header fields and its payload. -/
structure Packet where
  ptype : BitVec 5
  dstEp : BitVec 20
  srcEp : BitVec 20
  hops : BitVec 6
  dstPart : BitVec 4
  dstCtx : BitVec 4
  dstPgen : BitVec 8
  dstCgen : BitVec 8
  srcPart : BitVec 4
  srcCtx : BitVec 4
  srcPgen : BitVec 8
  srcCgen : BitVec 8
  obj : BitVec 64
  payload : List Byte
deriving DecidableEq, Repr

/-- A received flit (R265): its 256 bytes, the codewords corrected, and those not correctable by lane (R269, R289). -/
structure Flit where
  bytes : List Byte
  fecCorr : Nat
  fecUncorr : List Nat
deriving DecidableEq, Repr

/-- How a retraining ends (R269, R270, R288). -/
inductive RetrainEnd where
  | ok
  | failed
  /-- It failed, and no signal of the peer is there. -/
  | peerLost
deriving DecidableEq, Repr

/-- What key agreement shows about the peer (R274, R411): its key-encapsulation message (the encapsulation key of an
initiator, the ciphertext of a responder), the nonce of its challenge, whether both signatures verify, and what its
certificates say. -/
structure PeerEvidence where
  kem : List Byte
  nonce : List Byte
  stepsOk : Bool
  chainsOk : Bool
  sameSerial : Bool
  debugOpen : Bool
deriving DecidableEq, Repr

/-- A VL 6 time flit (R282) and the offset that the exchange measures, in 0.25 ns. -/
structure TimeInfo where
  rootStratum : Nat
  rootEp : BitVec 20
  stratum : Nat
  peerEp : BitVec 20
  offset : Int
deriving DecidableEq, Repr

/-! ## Operands of the sideband and of SPDM -/

/-- The coolant report of R393. -/
structure CoolantMsg where
  inlet : Int
  outlet : Int
  flow : Nat
  crflags : BitVec 8
  seq : BitVec 8
deriving DecidableEq, Repr

/-- The transport of an SPDM message (R413). -/
inductive Transport where
  | mctp
  | doe
deriving DecidableEq, Repr

/-- Who sends an SPDM request: the transport, and the secured session it uses, if any. -/
structure Conn where
  tr : Transport
  session : Option Nat
deriving DecidableEq, Repr

/-- The algorithms that a requester offers (R413). -/
structure AlgOffer where
  rsassa3072 : Bool
  sha384 : Bool
  secp384r1 : Bool
  aes256gcm : Bool
  spdmSchedule : Bool
deriving DecidableEq, Repr

/-- TDISP and TSP requests that move state (R422, R423). -/
inductive TdispMsg where
  | getVersion
  | getCapabilities
  | getReport
  | getState
  | lockInterface
  | startInterface
  | stopInterface
  | tspEnable (window : Nat)
  | tspDisable (window : Nat)
deriving DecidableEq, Repr

/-- An IDE stream of the port (R195): CXL.io or CXL.cachemem. -/
inductive IdeStream where
  | ioLink
  | ioSelective
  | cachemem
deriving DecidableEq, Repr

/-- What is wrong with a line of external memory that a read meets: data that is uncorrectable at an address, or a line
that someone has replaced in the memory, by a ciphertext and a tag (R183, R426, R427). -/
inductive BadData where
  | uncorrectable (pa : Nat)
  | replaced (pa : Nat) (cipher : List Byte) (tag : BitVec 64)
deriving DecidableEq, Repr

/-- What an instruction meets: parity errors in a row (R67), whether they are in words of the local
store, and memory that is wrong where its fetch, its page-table reads or its data lie (R183), or an address at which
they are corrected (R182). -/
structure Upset where
  parity : Nat
  store : Bool
  bad : Option BadData
  corrected : Option Nat
deriving DecidableEq, Repr

/-- An instruction that meets nothing of the kind. -/
def Upset.none_ : Upset := { parity := 0, store := false, bad := none, corrected := none }

/-- What the reads of asynchronous work, of a mover, of an engine or of the host meet: external memory that is wrong,
and an address at which data is corrected (R182, R183); and an address of a local store at
which a mover or an engine meets a parity error (R168). -/
structure ReadErr where
  bad : Option BadData
  corrected : Option Nat
  parity : Option Nat
deriving DecidableEq, Repr

def ReadErr.none_ : ReadErr := { bad := none, corrected := none, parity := none }

/-- What a collective data packet meets: a parity error in a pan slot or staging memory (R313),
or memory that is wrong (R183). -/
inductive DataFault where
  | none
  | panParity
  | memory (b : BadData)
deriving DecidableEq, Repr

/-- What a sample shows of time (R353): the clocks from issue to retirement, the cause that held the
instruction longest, and the `ACLK` cycles into the frame. -/
structure SampleInfo where
  latency : Nat
  stall : BitVec 8
  offset : Nat
deriving DecidableEq, Repr

/-! ## Commands -/

/-- The commands, one per row of the table. `c` names a cell by 16 × global block + logical
cell (R56); `slot` a mailbox slot (R208); `pid` a port identifier of R260. -/
inductive Instr where
  -- board, input and pins
  | inputApplied
  | inputLoss (r : InputReading)
  | undervolt (r : InputReading)
  | overvolt (r : InputReading)
  | overcurrent (r : InputReading)
  | railFault (r : InputReading)
  | pwrEnAssert (o : PowerUp)
  | pwrEnDeassert
  | coldResetAssert
  | coldResetDeassert (slotId : BitVec 6) (bootsel : BitVec 2) (o : PowerUp)
  | warmReset
  | snuffer
  | snufferPowerOff (r : InputReading)
  | coolantStopRelease
  | hostPerstAssert
  | hostPerstDeassert (flit256 : Bool)
  | srefclkPresent
  | frameSyncPresent
  | frameSyncAbsent
  | thermalTrip (sensor : Nat) (reading : Int) (r : InputReading)
  | droop (region : Nat) (deep : Bool)
  | droopRecovery (region : Nat)
  | dimmLost (d : Nat) (why : DimmLoss)
  -- frames and control
  | frameTick (m : Snapshot)
  | decideStep
  | actStep (b : Bool)
  | stateCopy (good : Bool)
  | frameOverrun
  | ctlTakeover (why : TakeoverCause)
  | safeState
  | calibrationUpdate
  | trimUpdate (region : Nat) (short : Bool) (step : Nat)
  -- recovery and starts
  | heartbeatCheck (cmd : Bool) (ctl : Bool) (sec : Bool)
  | firstHeartbeatTimeout (comp : Nat)
  | lampWatchdog
  | hangEscalation
  | dumpSummaryWrite
  | coldStart (f : StartFindings)
  | warmStart (bootsel : BitVec 2) (f : StartFindings)
  -- scalar instructions
  | add (c : Nat) (o : SOp) (u : Upset)
  | sub (c : Nat) (o : SOp) (u : Upset)
  | and (c : Nat) (o : SOp) (u : Upset)
  | or (c : Nat) (o : SOp) (u : Upset)
  | xor (c : Nat) (o : SOp) (u : Upset)
  | sll (c : Nat) (o : SOp) (u : Upset)
  | srl (c : Nat) (o : SOp) (u : Upset)
  | sra (c : Nat) (o : SOp) (u : Upset)
  | slt (c : Nat) (o : SOp) (u : Upset)
  | sltu (c : Nat) (o : SOp) (u : Upset)
  | mul (c : Nat) (o : SOp) (u : Upset)
  | mulh (c : Nat) (o : SOp) (u : Upset)
  | mulhu (c : Nat) (o : SOp) (u : Upset)
  | div (c : Nat) (o : SOp) (u : Upset)
  | divu (c : Nat) (o : SOp) (u : Upset)
  | rem (c : Nat) (o : SOp) (u : Upset)
  | remu (c : Nat) (o : SOp) (u : Upset)
  | min (c : Nat) (o : SOp) (u : Upset)
  | max (c : Nat) (o : SOp) (u : Upset)
  | addi (c : Nat) (o : IOp) (u : Upset)
  | andi (c : Nat) (o : IOp) (u : Upset)
  | ori (c : Nat) (o : IOp) (u : Upset)
  | xori (c : Nat) (o : IOp) (u : Upset)
  | slli (c : Nat) (o : IOp) (u : Upset)
  | srli (c : Nat) (o : IOp) (u : Upset)
  | srai (c : Nat) (o : IOp) (u : Upset)
  | lui (c : Nat) (o : IOp) (u : Upset)
  | beq (c : Nat) (o : BOp) (u : Upset)
  | bne (c : Nat) (o : BOp) (u : Upset)
  | blt (c : Nat) (o : BOp) (u : Upset)
  | bge (c : Nat) (o : BOp) (u : Upset)
  | bltu (c : Nat) (o : BOp) (u : Upset)
  | bgeu (c : Nat) (o : BOp) (u : Upset)
  | jal (c : Nat) (o : IOp) (u : Upset)
  | jalr (c : Nat) (o : IOp) (u : Upset)
  | bpany (c : Nat) (o : BPOp) (u : Upset)
  | bpnone (c : Nat) (o : BPOp) (u : Upset)
  | csrr (c : Nat) (o : CsrOp) (u : Upset)
  | csrw (c : Nat) (o : CsrOp) (u : Upset)
  | csrs (c : Nat) (o : CsrOp) (u : Upset)
  | csrc (c : Nat) (o : CsrOp) (u : Upset)
  | scall (c : Nat) (u : Upset)
  | sret (c : Nat) (u : Upset)
  | sexit (c : Nat) (b : BitVec 5) (u : Upset)
  | iend (c : Nat) (b : BitVec 5) (u : Upset)
  | brk (c : Nat) (u : Upset)
  | ifence (c : Nat) (u : Upset)
  | mmuinv (c : Nat) (b : BitVec 5) (all : Bool) (u : Upset)
  | nop (c : Nat) (u : Upset)
  | illegalOpcode (c : Nat) (w : BitVec 64) (u : Upset)
  -- vector instructions
  | vadd (c : Nat) (o : VOp) (u : Upset)
  | vsub (c : Nat) (o : VOp) (u : Upset)
  | vmul (c : Nat) (o : VOp) (u : Upset)
  | vfma (c : Nat) (o : VOp) (u : Upset)
  | vfnma (c : Nat) (o : VOp) (u : Upset)
  | vmin (c : Nat) (o : VOp) (u : Upset)
  | vmax (c : Nat) (o : VOp) (u : Upset)
  | vand (c : Nat) (o : VOp) (u : Upset)
  | vor (c : Nat) (o : VOp) (u : Upset)
  | vxor (c : Nat) (o : VOp) (u : Upset)
  | vsll (c : Nat) (o : VOp) (u : Upset)
  | vsrl (c : Nat) (o : VOp) (u : Upset)
  | vsra (c : Nat) (o : VOp) (u : Upset)
  | vcmp (c : Nat) (o : VOp) (u : Upset)
  | vsel (c : Nat) (o : VOp) (u : Upset)
  | vcvt (c : Nat) (o : VOp) (u : Upset)
  | vperm (c : Nat) (o : VOp) (u : Upset)
  | vreduce (c : Nat) (o : VOp) (u : Upset)
  | vrcp (c : Nat) (o : VOp) (u : Upset)
  | vrsqrt (c : Nat) (o : VOp) (u : Upset)
  | vexp2 (c : Nat) (o : VOp) (u : Upset)
  | vlog2 (c : Nat) (o : VOp) (u : Upset)
  | vext (c : Nat) (o : VOp) (u : Upset)
  | vins (c : Nat) (o : VOp) (u : Upset)
  | vtob (c : Nat) (o : VOp) (u : Upset)
  | vbadd (c : Nat) (o : VOp) (u : Upset)
  | xtalV (c : Nat) (o : VOp) (u : Upset)
  | vtopk (c : Nat) (o : VOp) (u : Upset)
  | viota (c : Nat) (o : VOp) (u : Upset)
  -- matrix instructions
  | tmma (c : Nat) (o : TmmaOp) (u : Upset)
  | twin (c : Nat) (o : TwinOp) (u : Upset)
  | tzero (c : Nat) (t : BitVec 3) (u : Upset)
  | xtalT (c : Nat) (o : XtalTOp) (u : Upset)
  | tmovv (c : Nat) (o : TMovOp) (u : Upset)
  | vmovt (c : Nat) (o : TMovOp) (u : Upset)
  -- memory instructions
  | ld (c : Nat) (o : MOp) (u : Upset)
  | ldu (c : Nat) (o : MOp) (u : Upset)
  | st (c : Nat) (o : MOp) (u : Upset)
  | amoadd (c : Nat) (o : MOp) (u : Upset)
  | amoswap (c : Nat) (o : MOp) (u : Upset)
  | amocas (c : Nat) (o : MOp) (u : Upset)
  | amomin (c : Nat) (o : MOp) (u : Upset)
  | amomax (c : Nat) (o : MOp) (u : Upset)
  | amoand (c : Nat) (o : MOp) (u : Upset)
  | amoor (c : Nat) (o : MOp) (u : Upset)
  | vld (c : Nat) (o : MOp) (u : Upset)
  | vst (c : Nat) (o : MOp) (u : Upset)
  | vldw (c : Nat) (o : MOp) (u : Upset)
  | vgather (c : Nat) (o : MOp) (u : Upset)
  | vscatter (c : Nat) (o : MOp) (u : Upset)
  | vldx (c : Nat) (o : MOp) (u : Upset)
  | vstx (c : Nat) (o : MOp) (u : Upset)
  | vgatherp (c : Nat) (o : GatherpOp) (u : Upset)
  | mcopy (c : Nat) (o : McopyOp) (u : Upset)
  | waitsig (c : Nat) (o : WaitsigOp) (u : Upset)
  | fence (c : Nat) (o : FenceOp) (u : Upset)
  -- events of cells and units
  | vgatherpComplete (c : Nat) (id : Nat) (e : ReadErr)
  | mcopyComplete (c : Nat) (id : Nat) (e : ReadErr)
  | asyncFault (c : Nat)
  | preemptRequest (c : Nat)
  | cancelRequest (c : Nat)
  | forcedStop (c : Nat)
  | waitsigTimeout (c : Nat)
  | cellWatchdogMiss (c : Nat)
  | sramLineRefetch (block : Nat) (line : Nat) (ok : Bool)
  | blockFence (block : Nat) (cause : BlockCause)
  | stackLost (stack : Nat)
  | patrolScrub (pa : Nat) (found : ScrubFinding)
  | granuleZeroed (g : Nat)
  | tierPromotion (region : Nat) (e : ReadErr)
  | edgeReplay (edge : Nat) (sameFlit : Nat)
  | edgeRetrainComplete (edge : Nat) (ok : Bool)
  -- host memory windows
  | hostMemRead (addr : Nat) (len : Nat) (tee : Bool) (e : ReadErr)
  | hostMemWrite (addr : Nat) (data : List Byte) (tee : Bool)
  | biSnoopTimeout (line : Nat) (part : Nat) (ctx : Nat)
  | cxlCacheTimeout (part : Nat) (ctx : Nat)
  -- mailbox mechanics
  | slotPost (slot : Nat)
  | slotWithdraw (slot : Nat)
  | slotWrite (off : Nat) (data : List Byte)
  | slotTake (slot : Nat)
  | mbxCtlWrite (v : BitVec 64)
  | cmplBaseWrite (v : BitVec 64)
  | hdmCommit (w : Nat) (base : Nat) (size : Nat)
  | registerWrite (r : HostReg) (v : BitVec 64)
  -- mailbox commands
  | hello (slot : Nat)
  | getInfo (slot : Nat)
  | configWriteShadow (slot : Nat)
  | configSwap (slot : Nat)
  | configRead (slot : Nat)
  | partCreate (slot : Nat)
  | partDestroy (slot : Nat)
  | ctxOpen (slot : Nat) (list : List Byte)
  | ctxGrant (slot : Nat) (list : List Byte)
  | ctxShare (slot : Nat) (list : List Byte)
  | ctxClose (slot : Nat)
  | submit (slot : Nat)
  | suspend (slot : Nat)
  | resume (slot : Nat)
  | cancel (slot : Nat)
  | query (slot : Nat)
  | copy (slot : Nat)
  | fill (slot : Nat)
  | scrub (slot : Nat)
  | moverTransferComplete (slot : Nat) (e : ReadErr)
  | suspendPoint (slot : Nat)
  | commCreate (slot : Nat)
  | commDestroy (slot : Nat)
  | collBatch (slot : Nat)
  | beaconAssign (slot : Nat)
  | powerCap (slot : Nat)
  | powerFixedEnter (slot : Nat)
  | powerFixedLeave (slot : Nat)
  | energyReadTotals (slot : Nat)
  | energyReadTelemetry (slot : Nat)
  | energyReadStatus (slot : Nat)
  | cntConfigConfigure (slot : Nat)
  | cntConfigRead (slot : Nat)
  | cntConfigClear (slot : Nat)
  | sampleConfig (slot : Nat)
  | sampleTaken (c : Nat) (i : SampleInfo)
  | sampleSpill (c : Nat)
  | fwStage (slot : Nat) (data : List Byte)
  | fwActivate (slot : Nat)
  | fwCommit (slot : Nat)
  | fwStatus (slot : Nat)
  | stagingTimeout
  | activationComplete (pauseUs : Nat)
  | activationTimeout
  | logReadEvents (slot : Nat)
  | logReadRecord (slot : Nat)
  | dumpRead (slot : Nat)
  -- dispatch
  | residencySelect (part : Nat)
  | quantumExpiry (part : Nat)
  | residencyDrainTimeout (part : Nat)
  | itemAdmit (part : Nat)
  | itemEnding (c : Nat)
  | submitAging (slot : Nat)
  | suspendDrainTimeout (slot : Nat)
  | batchSuspendTimeout (slot : Nat)
  -- fabric ports and switch
  | portDetect (pid : Nat)
  | portTrainingDone (pid : Nat) (laneOk : BitVec 8) (reversed : Bool) (inverted : BitVec 8)
  | epIdFlit (pid : Nat) (ep : BitVec 20)
  | epIdResend (pid : Nat)
  | keyAgreement (pid : Nat) (e : PeerEvidence)
  | flitReceive (pid : Nat) (f : Flit)
  | replayRequest (pid : Nat) (ack : BitVec 12)
  | portRetrain (pid : Nat)
  | portRetrainDone (pid : Nat) (e : RetrainEnd)
  | portDownExpiry (pid : Nat)
  | portCtlWrite (pid : Nat) (v : BitVec 64)
  | fabEpWrite (v : BitVec 64)
  | rekey (pid : Nat) (e : PeerEvidence)
  | rekeyOverrun (pid : Nat)
  | packetRoute (iod : Nat) (from? : Option Nat) (p : Packet)
  | routeWaitExpiry (k : Nat)
  | packetIngress (pid : Nat) (p : Packet)
  | timeFlit (pid : Nat) (i : TimeInfo)
  -- collectives
  | collOpStart (h : Nat) (f : DataFault)
  | panSlotGrant (pan : Nat) (f : DataFault)
  | panWaitExpiry (h : Nat) (f : DataFault)
  | chdr (p : Packet) (f : DataFault)
  | cdata (p : Packet) (f : DataFault)
  | credit (p : Packet) (f : DataFault)
  | claim (p : Packet) (f : DataFault)
  | go (p : Packet) (f : DataFault)
  | fallbkUp (p : Packet) (f : DataFault)
  | fallbkDn (p : Packet) (f : DataFault)
  | counts (p : Packet) (f : DataFault)
  | barUp (p : Packet)
  | barDn (p : Packet)
  | collTimeout (h : Nat)
  | beaconTrigger (chan : Nat) (bseq : BitVec 32)
  | beaconUp (p : Packet)
  | beaconDn (p : Packet)
  | beaconTimeout (chan : Nat)
  -- coolant and tray messages
  | coolantReport (m : CoolantMsg) (o : PowerUp)
  | coolantReportStale
  | coolantHoldExpiry
  | rackCeiling (w : Nat)
  | serviceClear
  | fabRead (iod : Nat) (off : Nat) (count : Nat)
  | fabWrite (iod : Nat) (off : Nat) (vals : List (BitVec 64))
  | trayFwCommit (comp : Nat)
  | telemRead (frame : Nat)
  | iodReset (iod : Nat)
  | getState
  -- I3C
  | setdasa (addr : BitVec 7)
  | setaasa
  | entdaa (addr : BitVec 7)
  | rstdaa
  | getmrl
  | getmwl
  | getstatus
  | getbcr
  | getdcr
  | getpid
  -- MCTP control
  | setEndpointId (eid : BitVec 8)
  | getEndpointId
  | getMctpVersionSupport
  | getMessageTypeSupport
  | getVendorDefinedMessageSupport
  -- PLDM
  | getTid
  | setTid (tid : BitVec 8)
  | getPldmVersion (type : Nat)
  | getPldmTypes
  | getPldmCommands (type : Nat)
  | getPdrRepositoryInfo
  | getPdr (handle : Nat)
  | getSensorReading (id : Nat)
  | getStateSensorReadings (id : Nat)
  | pollForPlatformEventMessage (ack : Bool)
  | eventMessageSupported
  | requestUpdate
  | passComponentTable (comps : List Nat)
  | updateComponent (comp : Nat)
  | requestFirmwareData (data : List Byte)
  | activateFirmware
  | cancelUpdateComponent
  | cancelUpdate
  -- SPDM
  | getMeasurements (cn : Conn) (block : Nat) (signed : Bool)
  | getCertificate (cn : Conn) (slot : Nat) (off : Nat) (len : Nat)
  | challenge (cn : Conn) (slot : Nat)
  | keyExchange (cn : Conn)
  | respondIfReady (cn : Conn)
  | cosigFetch (cn : Conn) (id : BitVec 32) (off : Nat) (len : Nat)
  | cosigExpiry (id : BitVec 32)
  | pqChainGet (cn : Conn) (id : BitVec 32) (off : Nat) (len : Nat)
  | debugNonce (cn : Conn)
  | debugToken (cn : Conn) (id : BitVec 32) (off : Nat) (data : List Byte)
  | ideKmQuery (cn : Conn) (st : IdeStream)
  | keyProg (cn : Conn) (st : IdeStream) (set : Nat) (sub : Nat)
  | kSetGo (cn : Conn) (st : IdeStream) (set : Nat) (sub : Nat)
  | kSetStop (cn : Conn) (st : IdeStream) (set : Nat) (sub : Nat)
  | tdispRequest (cn : Conn) (m : TdispMsg)
  -- later rows
  | coolantStopDeassert (o : PowerUp)
  | lamplighterReady (o : PowerUp)
  | restartHoldoffExpiry (o : PowerUp)
  | tripHoldoffExpiry (o : PowerUp)
  | vddSbLoss
  | regionControllerFault (region : Nat)
  | iodFabricError (iod : Nat)
  | flashWriteComplete (o : PowerUp)
  | teardownDrainComplete (part : Nat) (ctx : Nat)
  | getVersion (cn : Conn)
  | getCapabilities (cn : Conn)
  | negotiateAlgorithms (cn : Conn) (a : AlgOffer)
  | getDigests (cn : Conn)
  | finish (cn : Conn)
  | endSession (cn : Conn)
  | keyUpdate (cn : Conn)
  | spdmHeartbeat (cn : Conn)
  | chunkSend (cn : Conn) (handle : BitVec 8) (seq : Nat) (last : Bool) (data : List Byte)
  | chunkGet (cn : Conn) (handle : BitVec 8) (seq : Nat)
  | cdatTableAccess (entry : Nat)
  | unsupportedPldmCommand (type : Nat) (cmd : Nat)
deriving DecidableEq, Repr

end Sys2Proof
end

