-- ==== Sys2Proof/Decode.lean ====
section
/-! DEFINITION. The command that a table word spells (the table gives no row any bits), and
the 64-bit words of the cell instructions, both ways (R95 to R98, R107). -/

namespace Sys2Proof

/-- No row of the table gives bits, so no word spells a command. -/
def decodeTableWord (_nbits _w : Nat) : Option Instr := none

/-! ## Formats (R95, R96): the opcode in bits [63:56], the guard in [55:51] -/

def fmtS (op : BitVec 8) (o : SOp) : BitVec 64 :=
  op ++ (0 : BitVec 5) ++ o.sd ++ o.sa ++ o.sb ++ (0 : BitVec 36)

def fmtI (op : BitVec 8) (o : IOp) : BitVec 64 := op ++ (0 : BitVec 5) ++ o.sd ++ o.sa ++ o.imm

def fmtB (op : BitVec 8) (o : BOp) : BitVec 64 := op ++ (0 : BitVec 5) ++ o.sa ++ o.sb ++ o.off

def fmtV (op : BitVec 8) (o : VOp) : BitVec 64 :=
  op ++ o.pg ++ BitVec.ofBool o.pn ++ o.vd ++ o.va ++ o.vb ++ o.vc ++ o.et ++ o.ss
    ++ BitVec.ofBool o.bs ++ BitVec.ofBool o.mz ++ o.aux

def fmtT (op : BitVec 8) (pg : BitVec 4) (pn : Bool) (td : BitVec 3) (x : BitVec 48) : BitVec 64 :=
  op ++ pg ++ BitVec.ofBool pn ++ td ++ x

def fmtM (op : BitVec 8) (o : MOp) : BitVec 64 :=
  op ++ o.pg ++ BitVec.ofBool o.pn ++ o.d ++ o.sb ++ o.xi ++ o.et ++ o.am ++ o.sc ++ (0 : BitVec 1)
    ++ BitVec.ofBool o.nt ++ BitVec.ofBool o.rel ++ BitVec.ofBool o.acq ++ o.off

def fmtC (op : BitVec 8) (pg : BitVec 4) (pn : Bool) (a b c : BitVec 5) (aux : BitVec 36) : BitVec 64 :=
  op ++ pg ++ BitVec.ofBool pn ++ a ++ b ++ c ++ aux

def asS (w : BitVec 64) : SOp := ⟨w.extractLsb' 46 5, w.extractLsb' 41 5, w.extractLsb' 36 5⟩

def asI (w : BitVec 64) : IOp := ⟨w.extractLsb' 46 5, w.extractLsb' 41 5, w.extractLsb' 0 41⟩

def asB (w : BitVec 64) : BOp := ⟨w.extractLsb' 46 5, w.extractLsb' 41 5, w.extractLsb' 0 41⟩

def asV (w : BitVec 64) : VOp :=
  ⟨w.extractLsb' 52 4, w.getLsbD 51, w.extractLsb' 46 5, w.extractLsb' 41 5, w.extractLsb' 36 5,
   w.extractLsb' 31 5, w.extractLsb' 27 4, w.extractLsb' 22 5, w.getLsbD 21, w.getLsbD 20,
   w.extractLsb' 0 20⟩

def asM (w : BitVec 64) : MOp :=
  ⟨w.extractLsb' 52 4, w.getLsbD 51, w.extractLsb' 46 5, w.extractLsb' 41 5, w.extractLsb' 36 5,
   w.extractLsb' 32 4, w.extractLsb' 30 2, w.extractLsb' 28 2, w.getLsbD 26, w.getLsbD 25,
   w.getLsbD 24, w.extractLsb' 0 24⟩

/-! ## Opcodes (R98) -/

/-- The word of a cell instruction; none for every other command. -/
def encodeCell : Instr → Option (BitVec 64)
  | .add _ o _ => some (fmtS 0x01 o)
  | .sub _ o _ => some (fmtS 0x02 o)
  | .and _ o _ => some (fmtS 0x03 o)
  | .or _ o _ => some (fmtS 0x04 o)
  | .xor _ o _ => some (fmtS 0x05 o)
  | .sll _ o _ => some (fmtS 0x06 o)
  | .srl _ o _ => some (fmtS 0x07 o)
  | .sra _ o _ => some (fmtS 0x08 o)
  | .slt _ o _ => some (fmtS 0x09 o)
  | .sltu _ o _ => some (fmtS 0x0A o)
  | .mul _ o _ => some (fmtS 0x0B o)
  | .mulh _ o _ => some (fmtS 0x0C o)
  | .mulhu _ o _ => some (fmtS 0x0D o)
  | .div _ o _ => some (fmtS 0x0E o)
  | .divu _ o _ => some (fmtS 0x0F o)
  | .rem _ o _ => some (fmtS 0x10 o)
  | .remu _ o _ => some (fmtS 0x11 o)
  | .min _ o _ => some (fmtS 0x12 o)
  | .max _ o _ => some (fmtS 0x13 o)
  | .addi _ o _ => some (fmtI 0x18 o)
  | .andi _ o _ => some (fmtI 0x19 o)
  | .ori _ o _ => some (fmtI 0x1A o)
  | .xori _ o _ => some (fmtI 0x1B o)
  | .slli _ o _ => some (fmtI 0x1C o)
  | .srli _ o _ => some (fmtI 0x1D o)
  | .srai _ o _ => some (fmtI 0x1E o)
  | .lui _ o _ => some (fmtI 0x1F o)
  | .beq _ o _ => some (fmtB 0x20 o)
  | .bne _ o _ => some (fmtB 0x21 o)
  | .blt _ o _ => some (fmtB 0x22 o)
  | .bge _ o _ => some (fmtB 0x23 o)
  | .bltu _ o _ => some (fmtB 0x24 o)
  | .bgeu _ o _ => some (fmtB 0x25 o)
  | .jal _ o _ => some (fmtI 0x26 o)
  | .jalr _ o _ => some (fmtI 0x27 o)
  | .bpany _ o _ => some (fmtB 0x28 ⟨(0 : BitVec 1) ++ o.p, 0, o.off⟩)
  | .bpnone _ o _ => some (fmtB 0x29 ⟨(0 : BitVec 1) ++ o.p, 0, o.off⟩)
  | .csrr _ o _ => some (fmtC 0x30 0 false o.r 0 0 (o.csr.setWidth 36))
  | .csrw _ o _ => some (fmtC 0x31 0 false 0 o.r 0 (o.csr.setWidth 36))
  | .csrs _ o _ => some (fmtC 0x32 0 false 0 o.r 0 (o.csr.setWidth 36))
  | .csrc _ o _ => some (fmtC 0x33 0 false 0 o.r 0 (o.csr.setWidth 36))
  | .scall _ _ => some (fmtC 0x34 0 false 0 0 0 0)
  | .sret _ _ => some (fmtC 0x35 0 false 0 0 0 0)
  | .brk _ _ => some (fmtC 0x38 0 false 0 0 0 0)
  | .ifence _ _ => some (fmtC 0x39 0 false 0 0 0 0)
  | .nop _ _ => some (fmtC 0x3B 0 false 0 0 0 0)
  | .sexit _ b _ => some (fmtC 0x36 0 false 0 b 0 0)
  | .iend _ b _ => some (fmtC 0x37 0 false 0 b 0 0)
  | .mmuinv _ b all _ => some (fmtC 0x3A 0 false 0 b 0 ((BitVec.ofBool all).setWidth 36))
  | .vadd _ o _ => some (fmtV 0x40 o)
  | .vsub _ o _ => some (fmtV 0x41 o)
  | .vmul _ o _ => some (fmtV 0x42 o)
  | .vfma _ o _ => some (fmtV 0x43 o)
  | .vfnma _ o _ => some (fmtV 0x44 o)
  | .vmin _ o _ => some (fmtV 0x45 o)
  | .vmax _ o _ => some (fmtV 0x46 o)
  | .vand _ o _ => some (fmtV 0x47 o)
  | .vor _ o _ => some (fmtV 0x48 o)
  | .vxor _ o _ => some (fmtV 0x49 o)
  | .vsll _ o _ => some (fmtV 0x4A o)
  | .vsrl _ o _ => some (fmtV 0x4B o)
  | .vsra _ o _ => some (fmtV 0x4C o)
  | .vcmp _ o _ => some (fmtV 0x4D o)
  | .vsel _ o _ => some (fmtV 0x4E o)
  | .vcvt _ o _ => some (fmtV 0x50 o)
  | .vperm _ o _ => some (fmtV 0x51 o)
  | .vreduce _ o _ => some (fmtV 0x52 o)
  | .vrcp _ o _ => some (fmtV 0x53 o)
  | .vrsqrt _ o _ => some (fmtV 0x54 o)
  | .vexp2 _ o _ => some (fmtV 0x55 o)
  | .vlog2 _ o _ => some (fmtV 0x56 o)
  | .vext _ o _ => some (fmtV 0x57 o)
  | .vins _ o _ => some (fmtV 0x58 o)
  | .vtob _ o _ => some (fmtV 0x59 o)
  | .vbadd _ o _ => some (fmtV 0x5A o)
  | .xtalV _ o _ => some (fmtV 0x5B o)
  | .vtopk _ o _ => some (fmtV 0x5C o)
  | .viota _ o _ => some (fmtV 0x5D o)
  | .tmma _ o _ => some (fmtT 0x60 o.pg o.pn o.td (o.va ++ o.vb ++ o.fa ++ o.fb ++ o.qa ++ o.qb ++ BitVec.ofBool o.scl ++ (0 : BitVec 21)))
  | .twin _ o _ => some (fmtT 0x61 0 false o.td (o.ss ++ o.mode ++ BitVec.ofBool o.auto ++ BitVec.ofBool o.immw ++ o.win ++ (0 : BitVec 23)))
  | .tzero _ t _ => some (fmtT 0x62 0 false t 0)
  | .xtalT _ o _ => some (fmtT 0x63 0 false o.td (o.vd ++ (0 : BitVec 5) ++ o.tet ++ o.rg ++ o.qd ++ BitVec.ofBool o.scl ++ BitVec.ofBool o.sat ++ (0 : BitVec 23)))
  | .tmovv _ o _ => some (fmtT 0x64 0 false o.td (o.v ++ (0 : BitVec 5) ++ o.rp ++ (0 : BitVec 33)))
  | .vmovt _ o _ => some (fmtT 0x65 0 false o.td (o.v ++ (0 : BitVec 5) ++ o.rp ++ (0 : BitVec 33)))
  | .ld _ o _ => some (fmtM 0x70 o)
  | .ldu _ o _ => some (fmtM 0x71 o)
  | .st _ o _ => some (fmtM 0x72 o)
  | .amoadd _ o _ => some (fmtM 0x73 o)
  | .amoswap _ o _ => some (fmtM 0x74 o)
  | .amocas _ o _ => some (fmtM 0x75 o)
  | .amomin _ o _ => some (fmtM 0x76 o)
  | .amomax _ o _ => some (fmtM 0x77 o)
  | .amoand _ o _ => some (fmtM 0x78 o)
  | .amoor _ o _ => some (fmtM 0x79 o)
  | .vld _ o _ => some (fmtM 0x80 o)
  | .vst _ o _ => some (fmtM 0x81 o)
  | .vldw _ o _ => some (fmtM 0x82 o)
  | .vgather _ o _ => some (fmtM 0x83 o)
  | .vscatter _ o _ => some (fmtM 0x84 o)
  | .vldx _ o _ => some (fmtM 0x85 o)
  | .vstx _ o _ => some (fmtM 0x86 o)
  | .vgatherp _ o _ => some (fmtC 0x87 o.pg o.pn o.a o.b o.c (o.pd.setWidth 36))
  | .mcopy _ o _ => some (fmtC 0x90 0 false o.a o.b o.c (o.sw ++ o.bit ++ BitVec.ofBool o.sig ++ (0 : BitVec 24)))
  | .waitsig _ o _ => some (fmtC 0x91 0 false o.a o.b o.c ((0 : BitVec 25) ++ o.pd ++ o.tmo ++ BitVec.ofBool o.clr ++ BitVec.ofBool o.any))
  | .fence _ o _ => some (fmtC 0x92 0 false 0 0 0 ((0 : BitVec 29) ++ BitVec.ofBool o.async ++ BitVec.ofBool o.sw ++ BitVec.ofBool o.sr ++ BitVec.ofBool o.pw ++ BitVec.ofBool o.pr ++ o.scope))
  | _ => none

/-- The instruction with an opcode, its fields taken from a word. -/
def fieldsOf (c : Nat) (w : BitVec 64) : Option Instr :=
  match (w.extractLsb' 56 8).toNat with
  | 0x01 => some (.add c (asS w) .none_)
  | 0x02 => some (.sub c (asS w) .none_)
  | 0x03 => some (.and c (asS w) .none_)
  | 0x04 => some (.or c (asS w) .none_)
  | 0x05 => some (.xor c (asS w) .none_)
  | 0x06 => some (.sll c (asS w) .none_)
  | 0x07 => some (.srl c (asS w) .none_)
  | 0x08 => some (.sra c (asS w) .none_)
  | 0x09 => some (.slt c (asS w) .none_)
  | 0x0A => some (.sltu c (asS w) .none_)
  | 0x0B => some (.mul c (asS w) .none_)
  | 0x0C => some (.mulh c (asS w) .none_)
  | 0x0D => some (.mulhu c (asS w) .none_)
  | 0x0E => some (.div c (asS w) .none_)
  | 0x0F => some (.divu c (asS w) .none_)
  | 0x10 => some (.rem c (asS w) .none_)
  | 0x11 => some (.remu c (asS w) .none_)
  | 0x12 => some (.min c (asS w) .none_)
  | 0x13 => some (.max c (asS w) .none_)
  | 0x18 => some (.addi c (asI w) .none_)
  | 0x19 => some (.andi c (asI w) .none_)
  | 0x1A => some (.ori c (asI w) .none_)
  | 0x1B => some (.xori c (asI w) .none_)
  | 0x1C => some (.slli c (asI w) .none_)
  | 0x1D => some (.srli c (asI w) .none_)
  | 0x1E => some (.srai c (asI w) .none_)
  | 0x1F => some (.lui c (asI w) .none_)
  | 0x20 => some (.beq c (asB w) .none_)
  | 0x21 => some (.bne c (asB w) .none_)
  | 0x22 => some (.blt c (asB w) .none_)
  | 0x23 => some (.bge c (asB w) .none_)
  | 0x24 => some (.bltu c (asB w) .none_)
  | 0x25 => some (.bgeu c (asB w) .none_)
  | 0x26 => some (.jal c (asI w) .none_)
  | 0x27 => some (.jalr c (asI w) .none_)
  | 0x28 => some (.bpany c ⟨w.extractLsb' 46 4, w.extractLsb' 0 41⟩ .none_)
  | 0x29 => some (.bpnone c ⟨w.extractLsb' 46 4, w.extractLsb' 0 41⟩ .none_)
  | 0x30 => some (.csrr c ⟨w.extractLsb' 46 5, w.extractLsb' 0 12⟩ .none_)
  | 0x31 => some (.csrw c ⟨w.extractLsb' 41 5, w.extractLsb' 0 12⟩ .none_)
  | 0x32 => some (.csrs c ⟨w.extractLsb' 41 5, w.extractLsb' 0 12⟩ .none_)
  | 0x33 => some (.csrc c ⟨w.extractLsb' 41 5, w.extractLsb' 0 12⟩ .none_)
  | 0x34 => some (.scall c .none_)
  | 0x35 => some (.sret c .none_)
  | 0x38 => some (.brk c .none_)
  | 0x39 => some (.ifence c .none_)
  | 0x3B => some (.nop c .none_)
  | 0x36 => some (.sexit c (w.extractLsb' 41 5) .none_)
  | 0x37 => some (.iend c (w.extractLsb' 41 5) .none_)
  | 0x3A => some (.mmuinv c (w.extractLsb' 41 5) (w.getLsbD 0) .none_)
  | 0x40 => some (.vadd c (asV w) .none_)
  | 0x41 => some (.vsub c (asV w) .none_)
  | 0x42 => some (.vmul c (asV w) .none_)
  | 0x43 => some (.vfma c (asV w) .none_)
  | 0x44 => some (.vfnma c (asV w) .none_)
  | 0x45 => some (.vmin c (asV w) .none_)
  | 0x46 => some (.vmax c (asV w) .none_)
  | 0x47 => some (.vand c (asV w) .none_)
  | 0x48 => some (.vor c (asV w) .none_)
  | 0x49 => some (.vxor c (asV w) .none_)
  | 0x4A => some (.vsll c (asV w) .none_)
  | 0x4B => some (.vsrl c (asV w) .none_)
  | 0x4C => some (.vsra c (asV w) .none_)
  | 0x4D => some (.vcmp c (asV w) .none_)
  | 0x4E => some (.vsel c (asV w) .none_)
  | 0x50 => some (.vcvt c (asV w) .none_)
  | 0x51 => some (.vperm c (asV w) .none_)
  | 0x52 => some (.vreduce c (asV w) .none_)
  | 0x53 => some (.vrcp c (asV w) .none_)
  | 0x54 => some (.vrsqrt c (asV w) .none_)
  | 0x55 => some (.vexp2 c (asV w) .none_)
  | 0x56 => some (.vlog2 c (asV w) .none_)
  | 0x57 => some (.vext c (asV w) .none_)
  | 0x58 => some (.vins c (asV w) .none_)
  | 0x59 => some (.vtob c (asV w) .none_)
  | 0x5A => some (.vbadd c (asV w) .none_)
  | 0x5B => some (.xtalV c (asV w) .none_)
  | 0x5C => some (.vtopk c (asV w) .none_)
  | 0x5D => some (.viota c (asV w) .none_)
  | 0x60 => some (.tmma c ⟨w.extractLsb' 52 4, w.getLsbD 51, w.extractLsb' 48 3, w.extractLsb' 43 5, w.extractLsb' 38 5, w.extractLsb' 34 4, w.extractLsb' 30 4, w.extractLsb' 26 4, w.extractLsb' 22 4, w.getLsbD 21⟩ .none_)
  | 0x61 => some (.twin c ⟨w.extractLsb' 48 3, w.extractLsb' 43 5, w.extractLsb' 41 2, w.getLsbD 40, w.getLsbD 39, w.extractLsb' 23 16⟩ .none_)
  | 0x62 => some (.tzero c (w.extractLsb' 48 3) .none_)
  | 0x63 => some (.xtalT c ⟨w.extractLsb' 48 3, w.extractLsb' 43 5, w.extractLsb' 34 4, w.extractLsb' 29 5, w.extractLsb' 25 4, w.getLsbD 24, w.getLsbD 23⟩ .none_)
  | 0x64 => some (.tmovv c ⟨w.extractLsb' 48 3, w.extractLsb' 43 5, w.extractLsb' 33 5⟩ .none_)
  | 0x65 => some (.vmovt c ⟨w.extractLsb' 48 3, w.extractLsb' 43 5, w.extractLsb' 33 5⟩ .none_)
  | 0x70 => some (.ld c (asM w) .none_)
  | 0x71 => some (.ldu c (asM w) .none_)
  | 0x72 => some (.st c (asM w) .none_)
  | 0x73 => some (.amoadd c (asM w) .none_)
  | 0x74 => some (.amoswap c (asM w) .none_)
  | 0x75 => some (.amocas c (asM w) .none_)
  | 0x76 => some (.amomin c (asM w) .none_)
  | 0x77 => some (.amomax c (asM w) .none_)
  | 0x78 => some (.amoand c (asM w) .none_)
  | 0x79 => some (.amoor c (asM w) .none_)
  | 0x80 => some (.vld c (asM w) .none_)
  | 0x81 => some (.vst c (asM w) .none_)
  | 0x82 => some (.vldw c (asM w) .none_)
  | 0x83 => some (.vgather c (asM w) .none_)
  | 0x84 => some (.vscatter c (asM w) .none_)
  | 0x85 => some (.vldx c (asM w) .none_)
  | 0x86 => some (.vstx c (asM w) .none_)
  | 0x87 => some (.vgatherp c ⟨w.extractLsb' 52 4, w.getLsbD 51, w.extractLsb' 46 5, w.extractLsb' 41 5, w.extractLsb' 36 5, w.extractLsb' 0 4⟩ .none_)
  | 0x90 => some (.mcopy c ⟨w.extractLsb' 46 5, w.extractLsb' 41 5, w.extractLsb' 36 5, w.extractLsb' 31 5, w.extractLsb' 25 6, w.getLsbD 24⟩ .none_)
  | 0x91 => some (.waitsig c ⟨w.extractLsb' 46 5, w.extractLsb' 41 5, w.extractLsb' 36 5, w.getLsbD 0, w.getLsbD 1, w.extractLsb' 2 5, w.extractLsb' 7 4⟩ .none_)
  | 0x92 => some (.fence c ⟨w.extractLsb' 0 2, w.getLsbD 2, w.getLsbD 3, w.getLsbD 4, w.getLsbD 5, w.getLsbD 6⟩ .none_)
  | _ => none

/-- The instruction of cell `c` that a word spells: none for a reserved opcode, and none when a
field that the instruction does not have is nonzero (R99). -/
def decodeCell (c : Nat) (w : BitVec 64) : Option Instr :=
  match fieldsOf c w with
  | some i => if encodeCell i = some w then some i else none
  | none => none

end Sys2Proof
end

