-- ==== Sys2Proof/Config.lean ====
section
/-! DEFINITION. What the spec leaves open: constants without a body. Nothing can be proved of
their values, so a statement that holds in the model holds for every choice. -/

namespace Sys2Proof

/-- A fresh free value for each index (assumption log entry 3). -/
opaque Config.freeNat : Nat → Nat

/-- Which of the translations that a block may use for an address an access uses (R134, entry 21): the cached one
of this index, or the tables where there are not so many. -/
opaque Config.stale : Nat → Nat → Nat

/-- A byte of host memory that the module has not written, for each read (entry 5). -/
opaque Config.hostByte : Nat → Nat → Byte

/-- FP32 results of the approximate functions before the bounds of R105 are applied (entry 8):
they are functions of the operand alone (R94). -/
opaque Config.rcp : Nat → Nat
opaque Config.rsqrt : Nat → Nat
opaque Config.exp2 : Nat → Nat
opaque Config.log2 : Nat → Nat

/-- Whether 0 × ∞ + NaN signals the invalid operation: IEEE 754 leaves it open (entry 9). -/
opaque Config.fmaNanInvalid : Bool

/-- The hash that spreads packets over the members of a route group (R278): a function of
`SRC_EP`, `DST_EP`, the class and `OBJ` (entry 32). -/
opaque Config.spread : Nat → Nat → Nat → Nat → Nat

/-- The static energy of a rail in a frame in µJ, from the fused leakage coefficient, the rail
voltage in mV and the hottest sensor of its die in 0.25 °C (R363, entry 40). -/
opaque Config.staticUj : Nat → Nat → Int → Nat

/-- The factory coefficients of a rail (R378), in µJ per volt squared and count (entry 40). -/
opaque Config.factoryCoeff : Nat → Nat → Rat

/-- Planned activity for the next frame (R363): a free value for each decide step, of a rail, a
point and a count (entry 40). -/
opaque Config.planned : Nat → Nat → Nat → Nat → Nat

/-- The part of a planned activity that block movers and tier movers make (R249, entry 40). -/
opaque Config.plannedMover : Nat → Nat → Nat → Nat → Nat

/-- The coefficient format of a `CTL` image, by its `VERSION` (R378, entry 40). -/
opaque Config.coeffFormat : BitVec 32 → BitVec 8

/-- e to the power −x, and x to the power 0.8 (R390, R391, entry 41). -/
opaque Config.expNeg : Rat → Rat
opaque Config.pow08 : Rat → Rat

/-- The heating of the coolant and the plate resistance at no flow (R390 states none, entry 41). -/
opaque Config.noFlow : Nat → Rat

/-- Fused coefficients `R_jp`, `R_pc8`, `C_p`, `C_j` of I/O dies 0 to 3 and stacks 4 to 35 (R392,
entry 41). -/
opaque Config.dieCoeff : Nat → Nat → Rat

/-- The link protection of R273 and R274, uninterpreted (entry 78): the keystream of AES-256-GCM by key, IV and byte,
its tag over additional data and ciphertext, and the tag of a link-control payload by key, salt and `FSEQ`. -/
opaque Config.gcmStream : BitVec 256 → BitVec 96 → Nat → Byte
opaque Config.gcmTag : BitVec 256 → BitVec 96 → List Byte → List Byte → BitVec 128
opaque Config.controlTag : BitVec 256 → BitVec 32 → BitVec 12 → List Byte → BitVec 128

/-- The payload of a link-control flit, by the kind of message and its fields, and the kind that a payload spells
(R275, R276 and R282 give no layout, entry 78). -/
opaque Config.controlPayload : Nat → List Nat → List Byte
opaque Config.controlKind : List Byte → Nat

/-- ML-KEM-1024, by the seed of the link engine and the agreement: the encapsulation key of an agreement, the secret that its ciphertext holds, and the ciphertext and
secret of a responder; and HKDF-SHA-384, by secret, context and label (R274, R409; entries 12 and 78). -/
opaque Config.kemKey : BitVec 384 → Nat → List Byte
opaque Config.kemOpen : BitVec 384 → Nat → List Byte → List Byte
opaque Config.kemCipher : BitVec 384 → Nat → List Byte → List Byte
opaque Config.kemSecret : BitVec 384 → Nat → List Byte → List Byte
opaque Config.hkdf : List Byte → List Byte → Nat → BitVec 384

/-- The unique device secret, and the digests of the root keys, RSA and SLH-DSA, as programmed at test (R408, entry 80). -/
opaque Config.uds : BitVec 384
opaque Config.rootDigest : Bool → List Byte

/-- Cryptographic functions, uninterpreted (R406, entry 12): SHA-384, HMAC-SHA-384 by key and text, the CTR_DRBG by
seed and request, and its entropy source. -/
opaque Config.sha384 : List Byte → List Byte
opaque Config.hmac : List Byte → List Byte → BitVec 384
opaque Config.drbg : BitVec 384 → Nat → BitVec 384
opaque Config.entropy : Nat → BitVec 384

/-- AES-256-XTS by key, address and 64 bytes, its inverse, and AES-256-CMAC by key and text (R425). -/
opaque Config.aesXts : BitVec 256 → Nat → List Byte → List Byte
opaque Config.aesXtsOpen : BitVec 256 → Nat → List Byte → List Byte
opaque Config.cmac : BitVec 256 → List Byte → List Byte

/-- The public and private key that a seed gives, RSA (`true`) or SLH-DSA; RSA and SLH-DSA signatures by private key,
text and randomizer; and what a transcript holds before a response (R409, R413, R417). -/
opaque Config.keyPair : Bool → List Byte → List Byte × List Byte
opaque Config.rsaSign : List Byte → List Byte → Nat → List Byte
opaque Config.slhSign : List Byte → List Byte → Nat → List Byte
opaque Config.transcript : Nat → List Byte

/-- Whether an image or a debug token carries both signatures under the keys with given digests. -/
opaque Config.imageSigned : Bool → List Byte → List Byte → List Byte → Bool
opaque Config.tokenSigned : List Byte → Bool

/-- The certificates stored at test, by kind, serial number and DeviceID key, and an Alias certificate by kind, signing
key, what it certifies, and issue (R410). -/
opaque Config.deviceChain : Bool → BitVec 64 → List Byte → List Byte
opaque Config.aliasCert : Bool → List Byte → List Byte → Nat → List Byte

/-- Length and bytes of a section of a crash dump, by capture and section (R473 leaves the layout
to firmware, entry 33). -/
opaque Config.dumpLen : Nat → Nat → Nat
opaque Config.dumpByte : Nat → Nat → Nat → Byte

/-- Identifiers of the device that the spec does not give: 0 PCIe Vendor ID, 1 `GETBCR`,
2 `GETDCR`, 3 `GETPID`, 4 the size of an SPDM chunk, 5 the MCTP version, 6 the version of PLDM type 0
(entry 34). -/
opaque Config.deviceId : Nat → Nat

/-- Bytes of debug nonces (0) and of the measurement of a component that does not run (2), by identifier, and SHA-384 of the boot ROMs (entry 12). -/
opaque Config.secretByte : Nat → Nat → Nat → Byte
opaque Config.romDigest : List Byte

end Sys2Proof
end

