-- ==== Sys2Proof/Machine/Numeric.lean ====
section
/-! DEFINITION. Number formats, exact values, rounding and the Brine-64 word
(R141 to R163). A real value is a sign, a natural significand and a power of two. -/

namespace Sys2Proof.Machine

/-! ## Signed integers and flag bits -/

/-- A `w`-bit pattern read as two's complement. -/
def signed (w n : Nat) : Int :=
  if n % 2 ^ w < 2 ^ (w - 1) then (n % 2 ^ w : Nat) else ((n % 2 ^ w : Nat) : Int) - (2 ^ w : Nat)

/-- The `w` low bits of an integer. -/
def wrap (w : Nat) (z : Int) : Nat := (z % ((2 ^ w : Nat) : Int)).toNat

/-- Flag bits of `CSTAT` (R88). -/
def flagNV : BitVec 7 := 0x01
def flagDZ : BitVec 7 := 0x02
def flagOF : BitVec 7 := 0x04
def flagUF : BitVec 7 := 0x08
def flagNX : BitVec 7 := 0x10
def flagBOVF : BitVec 7 := 0x20
def flagXSAT : BitVec 7 := 0x40

/-- A flag when its condition holds. -/
def flagIf (c : Bool) (f : BitVec 7) : BitVec 7 := if c then f else 0

/-! ## Exact values -/

/-- NaN, an infinity, or (−1)^neg × m × 2^e. -/
inductive FVal where
  | nan
  | inf (neg : Bool)
  | fin (neg : Bool) (m : Nat) (e : Int)
deriving DecidableEq, Repr

/-- What a format's all-ones exponent encodes (R141). -/
inductive FKind where
  | ieee
  | e4m3
  | finite
deriving DecidableEq, Repr

/-- A floating-point format (R141, R156); `top` is the largest finite magnitude's code. -/
structure FFmt where
  bits : Nat
  ebits : Nat
  mbits : Nat
  bias : Nat
  kind : FKind
  top : Nat
  nan : Nat
deriving DecidableEq, Repr

def fp32 : FFmt := ⟨32, 8, 23, 127, .ieee, 0x7F7FFFFF, 0x7FC00000⟩
def bf16 : FFmt := ⟨16, 8, 7, 127, .ieee, 0x7F7F, 0x7FC0⟩
def fp16 : FFmt := ⟨16, 5, 10, 15, .ieee, 0x7BFF, 0x7E00⟩
def e4m3 : FFmt := ⟨8, 4, 3, 7, .e4m3, 0x7E, 0x7F⟩
def e5m2 : FFmt := ⟨8, 5, 2, 15, .ieee, 0x7B, 0x7E⟩
def e2m3 : FFmt := ⟨6, 2, 3, 1, .finite, 0x1F, 0⟩
def e3m2 : FFmt := ⟨6, 3, 2, 3, .finite, 0x1F, 0⟩
def e2m1 : FFmt := ⟨4, 2, 1, 1, .finite, 0x7, 0⟩

/-- Exponent of the least significant bit of a subnormal. -/
def FFmt.emin (f : FFmt) : Int := 1 - (f.bias : Int) - (f.mbits : Int)

/-- The exact value of a bit pattern (R141, R142). -/
def FFmt.decode (f : FFmt) (w : Nat) : FVal :=
  let neg := w.testBit (f.bits - 1)
  let e := (w >>> f.mbits) % 2 ^ f.ebits
  let m := w % 2 ^ f.mbits
  if f.kind = .ieee ∧ e = 2 ^ f.ebits - 1 then
    if m = 0 then .inf neg else .nan
  else if f.kind = .e4m3 ∧ e = 2 ^ f.ebits - 1 ∧ m = 2 ^ f.mbits - 1 then .nan
  else if e = 0 then .fin neg m f.emin
  else .fin neg (2 ^ f.mbits + m) (f.emin + (e : Int) - 1)

/-- A NaN whose quiet bit is clear (IEEE 754, R101). -/
def FFmt.signalling (f : FFmt) (w : Nat) : Bool :=
  decide (f.decode w = .nan) && !w.testBit (f.mbits - 1)

/-- The sign bit of a format. -/
def FFmt.sign (f : FFmt) (neg : Bool) : Nat := if neg then 2 ^ (f.bits - 1) else 0

/-- An infinity's pattern in a format that has one. -/
def FFmt.infinity (f : FFmt) (neg : Bool) : Nat :=
  f.sign neg + (2 ^ f.ebits - 1) * 2 ^ f.mbits

/-- `m × 2^e` rounded to a multiple of `2^s`, ties to even: the multiple, and whether it is
exact. -/
def roundAt (m : Nat) (e s : Int) : Nat × Bool :=
  if s ≤ e then (m <<< (e - s).toNat, true)
  else
    let sh := (s - e).toNat
    let q := m >>> sh
    let r := m % 2 ^ sh
    let half := 2 ^ (sh - 1)
    if r = 0 then (q, true)
    else if r > half ∨ (r = half ∧ q % 2 = 1) then (q + 1, false)
    else (q, false)

/-- The magnitude of a nonzero finite value rounded under R157: its code if it fits, and
whether it is exact. A code beyond `top` is an overflow. -/
def FFmt.magnitude (f : FFmt) (m : Nat) (e : Int) : Nat × Bool :=
  let s := max ((Nat.log2 m : Int) + e - (f.mbits : Int)) f.emin
  let r := roundAt m e s
  (((s - f.emin).toNat <<< f.mbits) + r.1, r.2)

/-- Round a value to a format: R157 for finite values, R158 for overflow, infinities and NaN,
with the flags of R159. -/
def FFmt.round (f : FFmt) (sat : Bool) : FVal → Nat × BitVec 7
  | .nan => (f.nan, flagNV)
  | .inf neg =>
    if sat then (f.sign neg + f.top, flagXSAT)
    else match f.kind with
      | .ieee => (f.infinity neg, 0)
      | .e4m3 => (f.sign neg + f.nan, flagNV)
      | .finite => (f.sign neg + f.top, flagNV)
  | .fin neg m e =>
    if m = 0 then (0, 0)
    else
      let r := f.magnitude m e
      if f.top < r.1 then
        if sat then (f.sign neg + f.top, flagNX ||| flagXSAT)
        else match f.kind with
          | .ieee => (f.infinity neg, flagNX ||| flagOF)
          | .e4m3 => (f.sign neg + f.nan, flagNX ||| flagOF)
          | .finite => (f.sign neg + f.top, flagNX ||| flagOF)
      else
        (f.sign neg + r.1,
          flagIf (!r.2) flagNX ||| flagIf (!r.2 && decide (r.1 < 2 ^ f.mbits)) flagUF)

/-- An IEEE result: as `round`, but a zero keeps its sign (R101). -/
def FFmt.arith (f : FFmt) (v : FVal) : Nat × BitVec 7 :=
  match v with
  | .nan => (f.nan, 0)
  | .fin neg 0 _ => (f.sign neg, 0)
  | v => f.round false v

/-! ## Exact arithmetic -/

/-- The signed significand of a finite value. -/
def signedOf (neg : Bool) (m : Nat) : Int := if neg then -(m : Int) else (m : Int)

/-- A finite value from a signed significand; a zero takes the sign given. -/
def FVal.ofInt (zeroNeg : Bool) (z : Int) (e : Int) : FVal :=
  if z = 0 then .fin zeroNeg 0 0 else .fin (decide (z < 0)) z.natAbs e

def FVal.neg : FVal → FVal
  | .nan => .nan
  | .inf n => .inf (!n)
  | .fin n m e => .fin (!n) m e

/-- The exact product (R142). -/
def FVal.mul : FVal → FVal → FVal
  | .nan, _ => .nan
  | _, .nan => .nan
  | .inf a, .inf b => .inf (a != b)
  | .inf a, .fin b m _ => if m = 0 then .nan else .inf (a != b)
  | .fin a m _, .inf b => if m = 0 then .nan else .inf (a != b)
  | .fin a m e, .fin b n k => .fin (a != b) (m * n) (e + k)

/-- The exact sum; an exact zero is +0 unless both addends are −0 (R154, IEEE 754). -/
def FVal.add : FVal → FVal → FVal
  | .nan, _ => .nan
  | _, .nan => .nan
  | .inf a, .inf b => if a = b then .inf a else .nan
  | .inf a, .fin _ _ _ => .inf a
  | .fin _ _ _, .inf b => .inf b
  | .fin a m e, .fin b n k =>
    let l := min e k
    FVal.ofInt (a && b && m == 0 && n == 0)
      (signedOf a m * (2 ^ (e - l).toNat : Nat) + signedOf b n * (2 ^ (k - l).toNat : Nat)) l

/-- Multiply by a power of two. -/
def FVal.scale (k : Int) : FVal → FVal
  | .fin n m e => .fin n m (e + k)
  | v => v

/-- Order of two values that are not NaN: less than, with −0 = +0. -/
def FVal.lt : FVal → FVal → Bool
  | .nan, _ => false
  | _, .nan => false
  | .inf a, .inf b => a && !b
  | .inf a, .fin _ _ _ => a
  | .fin _ _ _, .inf b => !b
  | .fin a m e, .fin b n k =>
    let l := min e k
    decide (signedOf a m * (2 ^ (e - l).toNat : Nat) < signedOf b n * (2 ^ (k - l).toNat : Nat))

def FVal.isNan : FVal → Bool
  | .nan => true
  | _ => false

def FVal.isFin : FVal → Bool
  | .fin _ _ _ => true
  | _ => false

/-- The same value, with −0 = +0. -/
def FVal.same (a b : FVal) : Bool := a == b || (a.isFin && b.isFin && !a.lt b && !b.lt a)

/-- The sign, for values that are not NaN. -/
def FVal.isNeg : FVal → Bool
  | .nan => false
  | .inf n => n
  | .fin n _ _ => n

/-! ## IEEE operations of the vector unit (R101) -/

def FFmt.add (f : FFmt) (a b : Nat) : Nat × BitVec 7 :=
  let x := f.decode a
  let y := f.decode b
  let r := x.add y
  let inv := f.signalling a || f.signalling b || (r.isNan && !x.isNan && !y.isNan)
  let o := f.arith r
  (o.1, o.2 ||| flagIf inv flagNV)

/-- Change the sign of a pattern. -/
def FFmt.negate (f : FFmt) (w : Nat) : Nat := w ^^^ 2 ^ (f.bits - 1)

def FFmt.sub (f : FFmt) (a b : Nat) : Nat × BitVec 7 := f.add a (f.negate b)

def FFmt.mul (f : FFmt) (a b : Nat) : Nat × BitVec 7 :=
  let x := f.decode a
  let y := f.decode b
  let r := x.mul y
  let inv := f.signalling a || f.signalling b || (r.isNan && !x.isNan && !y.isNan)
  let o := f.arith r
  (o.1, o.2 ||| flagIf inv flagNV)

/-- `(−1)^neg × a × b + c`, formed exactly and rounded once (R101, R496). -/
def FFmt.fma (f : FFmt) (neg : Bool) (a b c : Nat) : Nat × BitVec 7 :=
  let x := f.decode a
  let y := f.decode b
  let z := f.decode c
  let p := if neg then (x.mul y).neg else x.mul y
  let r := p.add z
  let badProduct := p.isNan && !x.isNan && !y.isNan
  let inv := f.signalling a || f.signalling b || f.signalling c
    || (badProduct && (!z.isNan || Config.fmaNanInvalid))
    || (r.isNan && !p.isNan && !z.isNan)
  let o := f.arith r
  (o.1, o.2 ||| flagIf inv flagNV)

/-- `VMIN` (`max := false`) and `VMAX` (R101). -/
def FFmt.minMax (f : FFmt) (max : Bool) (a b : Nat) : Nat × BitVec 7 :=
  let x := f.decode a
  let y := f.decode b
  let fl := flagIf (f.signalling a || f.signalling b) flagNV
  if x.isNan && y.isNan then (f.nan, fl)
  else if x.isNan then (b, fl)
  else if y.isNan then (a, fl)
  else
    let less := x.lt y || (!y.lt x && x.isNeg && !y.isNeg)
    let aFirst := if max then !less else less
    if x.lt y || y.lt x || x.isNeg != y.isNeg then (if aFirst then a else b, fl) else (a, fl)

/-! ## Integer conversions (R498) -/

/-- The nearest integer, ties to even, and whether the value is one. -/
def roundInt (neg : Bool) (m : Nat) (e : Int) : Int × Bool :=
  let r := roundAt m e 0
  (signedOf neg r.1, r.2)

/-- Floating point to a `w`-bit integer: rounded, then judged against the range. -/
def toInt (w : Nat) (sat : Bool) (v : FVal) : Nat × BitVec 7 :=
  let clampFlag := if sat then flagXSAT else flagNV
  match v with
  | .nan => (0, flagNV)
  | .inf neg => (if neg then 2 ^ (w - 1) else 2 ^ (w - 1) - 1, clampFlag)
  | .fin neg m e =>
    let r := roundInt neg m e
    if r.1 < -((2 ^ (w - 1) : Nat) : Int) then (2 ^ (w - 1), clampFlag)
    else if ((2 ^ (w - 1) : Nat) : Int) - 1 < r.1 then (2 ^ (w - 1) - 1, clampFlag)
    else (wrap w r.1, flagIf (!r.2) flagNX)

/-- Integer to a `w`-bit integer. -/
def intToInt (w : Nat) (sat : Bool) (z : Int) : Nat × BitVec 7 :=
  let lo : Int := -((2 ^ (w - 1) : Nat) : Int)
  let hi : Int := ((2 ^ (w - 1) : Nat) : Int) - 1
  if sat && decide (z < lo) then (wrap w lo, flagXSAT)
  else if sat && decide (hi < z) then (wrap w hi, flagXSAT)
  else (wrap w z, 0)

/-- An exact integer as a value. -/
def FVal.ofInteger (z : Int) : FVal := FVal.ofInt false z 0

/-! ## Brine-64 (R145 to R149) -/

/-- The largest contribution, 2^44 − 1. -/
def brineMax : Nat := 2 ^ 44 - 1

/-- The contribution of a value under window `E`, and whether it overflowed (R146). -/
def contribution (E : Int) : FVal → Int × Bool
  | .nan => (0, true)
  | .inf neg => (signedOf neg brineMax, true)
  | .fin neg m e =>
    if m = 0 then (0, false)
    else if E ≤ (Nat.log2 m : Int) + e then (signedOf neg brineMax, true)
    else
      let d := e - E + 44
      (signedOf neg (if 0 ≤ d then m <<< d.toNat else m >>> (-d).toNat), false)

/-- The saturating addition of Brine-64 words, and whether it saturated (R147). -/
def brineAdd (a b : BitVec 64) : BitVec 64 × Bool :=
  let z := a.toInt + b.toInt
  if z > 2 ^ 63 - 1 then (BitVec.ofInt 64 (2 ^ 63 - 1), true)
  else if z < -(2 ^ 63) then (BitVec.ofInt 64 (-(2 ^ 63)), true)
  else (BitVec.ofInt 64 z, false)

/-- The exact value of a Brine-64 word under window `E` (R145). -/
def brineVal (E : Int) (n : BitVec 64) : FVal := FVal.ofInt false n.toInt (E - 44)

/-- One step of FP32 accumulation, and whether it overflowed to infinity (R154). -/
def fp32Acc (acc : Nat) (p : FVal) : Nat × Bool :=
  let o := fp32.arith ((fp32.decode acc).add p)
  (o.1, (o.2 &&& flagOF) != 0)

/-! ## MX blocks (R144, R160, R161) -/

/-- The value of an E8M0 scale: its exponent, or none for NaN. -/
def scaleExp (x : Nat) : Option Int := if x = 0xFF then none else some ((x : Int) - 127)

/-- Apply a scale byte to a value. -/
def FVal.scaled (x : Nat) (v : FVal) : FVal :=
  match scaleExp x with
  | none => .nan
  | some k => v.scale k

/-- The largest finite magnitude of a list of values. -/
def largest : List FVal → FVal
  | [] => .fin false 0 0
  | v :: rest =>
    let b := largest rest
    match v with
    | .fin _ m e => if b.lt (.fin false m e) then .fin false m e else b
    | _ => b

/-- Exponent of the largest power of two in the format (`e_max` of R156). -/
def FFmt.emax (f : FFmt) : Int := ((f.top >>> f.mbits : Nat) : Int) - (f.bias : Int)

/-- One value over the block scale: `round`, except that a saturated infinity and a clamp at
`X` = 127 write the largest finite value. -/
def mxElem (f : FFmt) (sat : Bool) (X : Int) (v : FVal) : Nat × BitVec 7 := f.round sat (v.scale (-X))

/-- The scale byte, the elements and the flags of one block (R160, R161). With the scale byte 0xFF each finite value
gives a NaN, which differs from it (R144, R159). -/
def mxBlock (f : FFmt) (sat : Bool) (vs : List FVal) : Nat × List Nat × BitVec 7 :=
  let zeros := vs.map fun _ => 0
  let nx := flagIf (vs.any FVal.isFin) flagNX
  if vs.any FVal.isNan then (0xFF, zeros, flagNV ||| nx)
  else
    let anyInf := vs.any fun v => match v with | .inf _ => true | _ => false
    let allInf := vs.all fun v => match v with | .inf _ => true | _ => false
    if anyInf && !sat then (0xFF, zeros, flagNV ||| nx)
    else
      match largest vs with
      | .fin _ m e =>
        let X0 := (Nat.log2 m : Int) + e - f.emax
        let X1 := if f.top < (f.magnitude m (e - X0)).1 then X0 + 1 else X0
        let X := if allInf then 127 else if m = 0 then 0 else if X1 < -127 then -127 else X1
        if X > 127 && !sat then (0xFF, zeros, flagOF ||| flagNX)
        else
          let Y := if X > 127 then 127 else X
          let es := vs.map (mxElem f sat Y)
          ((Y + 127).toNat, es.map Prod.fst, es.foldl (fun a r => a ||| r.2) 0)
      | _ => (0xFF, zeros, flagNV)

/-! ## VRCP, VRSQRT, VEXP2 and VLOG2 (R105)

The FP32 result is any value within the bound of R105: the free function of `Config` where it
is within the bound, else the reference rounded. -/

/-- |y × x − 1| ≤ 2^−23, for a finite nonzero x and a finite y. -/
def rcpClose (x y : FVal) : Bool :=
  match x.mul y with
  | .fin neg m e =>
    match (FVal.fin neg m e).add (.fin true 1 0) with
    | .fin _ n k => !(FVal.fin false 1 (-23)).lt (.fin false n k)
    | _ => false
  | _ => false

/-- |y × √x − 1| ≤ 2^−23 for a positive x and y: (1 − 2^−23)² ≤ y² × x ≤ (1 + 2^−23)². -/
def rsqrtClose (x y : FVal) : Bool :=
  let t := (y.mul y).mul x
  let lo := FVal.fin false ((2 ^ 23 - 1) * (2 ^ 23 - 1)) (-46)
  let hi := FVal.fin false ((2 ^ 23 + 1) * (2 ^ 23 + 1)) (-46)
  !y.isNeg && !t.lt lo && !hi.lt t

/-- A quotient to 90 bits with a sticky bit. -/
def divSticky (m n : Nat) (e : Int) : FVal :=
  if n = 0 then .nan
  else
    let sh := 90 + Nat.log2 n
    let q := (m <<< sh) / n
    .fin false (2 * q + if (m <<< sh) % n = 0 then 0 else 1) (e - sh - 1)

/-- The integer square root by bisection on bits, from bit `k` down. -/
def isqrt (n : Nat) : Nat → Nat → Nat
  | 0, acc => if (acc + 1) * (acc + 1) ≤ n then acc + 1 else acc
  | k + 1, acc =>
    let t := acc + 2 ^ (k + 1)
    isqrt n k (if t * t ≤ n then t else acc)

/-- 1 / √(m × 2^e) to 60 bits with a sticky bit. -/
def rsqrtRef (m : Nat) (e : Int) : FVal :=
  let m2 := if e % 2 = 0 then m else 2 * m
  let e2 := if e % 2 = 0 then e else e - 1
  let sh := 2 * (60 + Nat.log2 m2)
  let q := (2 ^ sh) / m2
  let r := isqrt q (Nat.log2 q / 2) 0
  .fin false (2 * r + if r * r * m2 = 2 ^ sh then 0 else 1) (-(e2 / 2) - (sh / 2 : Nat) - 1)

/-- ln 2 × 2^96. -/
def ln2Fixed : Nat := 0xB17217F7D1CF79ABC9E3B398

/-- e^f for a fixed-point f (96 fraction bits) by the series, `n` terms. -/
def expSeries (f : Nat) : Nat → Nat → Nat → Nat
  | 0, _, _ => 0
  | n + 1, k, term => term + expSeries f n (k + 1) (term * f / (2 ^ 96 * (k + 1)))

/-- 2^x for |x| < 512: a fixed-point fraction and the integer part of x. -/
def exp2Ref (neg : Bool) (m : Nat) (e : Int) : FVal :=
  let z : Int := signedOf neg m
  let fx : Int := if -96 ≤ e then z * (2 ^ (e + 96).toNat : Nat) else z / (2 ^ (-96 - e).toNat : Nat)
  let ip := fx / (2 ^ 96 : Nat)
  let fr := (fx % (2 ^ 96 : Nat)).toNat
  .fin false (expSeries (fr * ln2Fixed / 2 ^ 96) 40 0 (2 ^ 96)) (ip - 96)

/-- Fraction bits of log2 of a fixed-point value in [1, 2) with 96 fraction bits, by squaring. -/
def log2Bits : Nat → Nat → Nat → Nat
  | 0, _, acc => acc
  | n + 1, y, acc =>
    let y2 := y * y / 2 ^ 96
    if 2 ^ 97 ≤ y2 then log2Bits n (y2 / 2) (2 * acc + 1) else log2Bits n y2 (2 * acc)

/-- log2 of m × 2^e, for m > 0, with 64 fraction bits. -/
def log2Ref (m : Nat) (e : Int) : FVal :=
  let l := Nat.log2 m
  let y := if l ≤ 96 then m <<< (96 - l) else m >>> (l - 96)
  FVal.ofInt false (((l : Int) + e) * (2 ^ 64 : Nat) + (log2Bits 64 y 0 : Nat)) (-64)

/-- Whether an FP32 code lies within 2 units in the last place of a reference value. -/
def ulpClose (ref : FVal) (w : Nat) : Bool :=
  let r := (fp32.round false ref).1
  let c := w % 2 ^ 32
  match fp32.decode c with
  | .fin n m e =>
    match ref with
    | .fin n' m' e' =>
      let u := max ((Nat.log2 m' : Int) + e' - 23) fp32.emin
      let d := (FVal.fin n m e).add (.fin (!n') m' e')
      match d with
      | .fin _ k j => !(FVal.fin false 2 u).lt (.fin false k j)
      | _ => false
    | _ => false
  | _ => decide (r = c)

/-- Choose the free result when it meets its bound, else the reference rounded. `exact`: the reference is the
function's value; else no FP32 value is, and the result is inexact. -/
def approx (cand : Nat) (ok : Bool) (exact : Bool) (ref : FVal) : Nat × BitVec 7 :=
  let r := fp32.round false ref
  let c := cand % 2 ^ 32
  if ok then
    (c, (r.2 &&& (flagOF ||| flagUF)) ||| flagIf (!(exact && (fp32.decode c).same ref)) flagNX)
  else (r.1, r.2 ||| flagIf (!exact) flagNX)

/-- A power of two. -/
def pow2 (m : Nat) : Bool := m == 2 ^ Nat.log2 m

/-- The four functions of R105. -/
inductive Fun1 where
  | rcp
  | rsqrt
  | exp2
  | log2
deriving DecidableEq, Repr

/-- A function's FP32 result for an FP32 operand. `VRSQRT` of a zero is IEEE 754's: an infinity of the operand's sign,
with `DZ`, though R88 names only `VRCP` and `VLOG2` (DESIGN CHOICE, assumption log entry 8). -/
def fun32 (k : Fun1) (w : Nat) : Nat × BitVec 7 :=
  let nanIn := (fp32.nan, flagIf (fp32.signalling w) flagNV)
  match k, fp32.decode w with
  | _, .nan => nanIn
  | .rcp, .inf neg => (fp32.sign neg, 0)
  | .rcp, .fin neg m e =>
    if m = 0 then (fp32.infinity neg, flagDZ)
    else
      let q := divSticky 1 m (-e)
      let ref := if neg then q.neg else q
      let c := Config.rcp w % 2 ^ 32
      approx c (rcpClose (.fin neg m e) (fp32.decode c)) (pow2 m) ref
  | .rsqrt, .inf neg => if neg then (fp32.nan, flagNV) else (0, 0)
  | .rsqrt, .fin neg m e =>
    if m = 0 then (fp32.infinity neg, flagDZ)
    else if neg then (fp32.nan, flagNV)
    else
      let c := Config.rsqrt w % 2 ^ 32
      approx c (rsqrtClose (.fin neg m e) (fp32.decode c)) (pow2 m && ((Nat.log2 m : Int) + e) % 2 == 0) (rsqrtRef m e)
  | .exp2, .inf neg => if neg then (0, 0) else (fp32.infinity false, 0)
  | .exp2, .fin neg m e =>
    if m = 0 then (0x3F800000, 0)
    else if 9 ≤ (Nat.log2 m : Int) + e then
      fp32.round false (.fin false 1 (if neg then -600 else 600))
    else
      let ref := exp2Ref neg m e
      let c := Config.exp2 w % 2 ^ 32
      approx c (ulpClose ref c) (roundAt m e 0).2 ref
  | .log2, .inf neg => if neg then (fp32.nan, flagNV) else (fp32.infinity false, 0)
  | .log2, .fin neg m e =>
    if m = 0 then (fp32.infinity true, flagDZ)
    else if neg then (fp32.nan, flagNV)
    else
      let ref := log2Ref m e
      let c := Config.log2 w % 2 ^ 32
      if ref = .fin false 0 0 then (0, 0) else approx c (ulpClose ref c) (pow2 m) ref

/-- A function's result in FP32, BF16 or FP16: the narrow types round the FP32 result once. -/
def funElem (f : FFmt) (k : Fun1) (w : Nat) : Nat × BitVec 7 :=
  if f = fp32 then fun32 k w
  else
    match f.decode w with
    | .nan => (f.nan, flagIf (f.signalling w) flagNV)
    | v =>
      let r := fun32 k (fp32.arith v).1
      match fp32.decode r.1 with
      | .nan => (f.nan, r.2)
      | y =>
        let o := f.arith y
        (o.1, o.2 ||| r.2)

end Sys2Proof.Machine
end

