-- ==== Sys2Proof/Machine/State.lean ====
section
/-! DEFINITION. The state of the module as plain data: one structure per chapter of the
spec, joined in `State`; the reasons for which a command stops; and the state at reset. -/

namespace Sys2Proof.Machine

/-! ## Fuses and flash (R57, R367, R390, R408, R435 to R452, R467 to R474) -/

/-- What test or manufacture fixes in fuses; only the security floors rise later (R408, R440). -/
structure Fuses where
  /-- TK1-B1920 when true, TK1-A2048 when false (R1). -/
  orderB : Bool
  /-- The physical cell, 0 to 16, of each logical cell that is enabled, by block; the physical
  cells that a block's list leaves out are its spares (R57). -/
  cellMap : List (List Nat)
  serial : BitVec 64
  keysetDev : Bool
  debugFuse : Bool
  /-- The unique device secret, and the digests of the root keys (R408). -/
  uds : BitVec 384
  rootRsa : List Byte
  rootSlh : List Byte
  /-- Rollback floors in the order of R435. -/
  svnFloor : List Nat
  /-- Voltage of each V/F point in mV, one list per region (R367). -/
  volts : List (List Nat)
  /-- `R_jp`, `R_pc8`, `C_p`, `C_j` per region (R390). -/
  rjp : List Rat
  rpc8 : List Rat
  cp : List Rat
  cj : List Rat
deriving DecidableEq, Repr

/-- The header fields of a firmware image and the digests of its parts (R437, R438). -/
structure Image where
  compId : Nat
  compatOrder : BitVec 8
  stepMin : Nat
  stepMax : Nat
  evalLine : Bool
  version : BitVec 32
  svn : Nat
  bodySize : Nat
  provides : List (BitVec 16)
  requires : List (BitVec 16)
  /-- Its signatures and its body digest verify under the fused root digests (R438, R439). -/
  signed : Bool
  /-- The whole stored image: header, signature block and body. -/
  bytes : List Byte
deriving DecidableEq, Repr

/-- A boot record entry (R444). -/
structure BootEntry where
  activeB : Bool
  aValid : Bool
  bValid : Bool
  pending : Bool
  fellBack : Bool
deriving DecidableEq, Repr

/-- One copy of the boot record (R444). -/
structure BootRecord where
  seq : Nat
  crcGood : Bool
  entries : List BootEntry
deriving DecidableEq, Repr

/-- An entry of the event log (R468). -/
structure LogEntry where
  seq : Nat
  frame : BitVec 64
  event : BitVec 16
  source : BitVec 8
  repeats : Nat
  object : BitVec 32
  arg : BitVec 32
  dropped : Nat
  rgen : BitVec 16
deriving DecidableEq, Repr

/-- The persistent record (R469). -/
structure Persist where
  shutdownCause : BitVec 8
  startResult : BitVec 8
  oos : Bool
  clearPending : Bool
  hangsLife : BitVec 32
  poweredS : BitVec 64
  hangTimes : List (BitVec 64)
  shutdownFrame : BitVec 64
  shutdownMv : BitVec 32
  shutdownMa : BitVec 32
  shutdownTj : BitVec 16
  shutdownSensor : BitVec 16
  coldStarts : BitVec 32
  warmStarts : BitVec 32
  fencesLife : BitVec 32
  nextSeq : BitVec 64
deriving DecidableEq, Repr

/-- A retired or retire-pending page (R184, R186). -/
structure RetiredPage where
  page : Nat
  retired : Bool
  cause : BitVec 2
deriving DecidableEq, Repr

/-- An entry of the fence list (R64): the unit identifier of R81, with the cause of the unit's
last fence, and how often the unit has been fenced. -/
structure FenceEntry where
  unit : BitVec 32
  count : Nat
deriving DecidableEq, Repr

/-- A crash dump or a summary (R473, R474). -/
structure Dump where
  escalated : Bool
  complete : Bool
  summaryWritten : Bool
  isSummary : Bool
  seq : BitVec 64
  frame : BitVec 64
  resetGen : BitVec 32
  /-- Section identifiers with their contents. -/
  sections : List (BitVec 16 × List Byte)
deriving DecidableEq, Repr

/-- Stored training and equalisation results (R465). -/
structure Training where
  memtVersion : BitVec 32
  serial : BitVec 64
  spd : List Nat
deriving DecidableEq, Repr

/-- The stored coefficient set (R378). -/
structure CoeffSet where
  serial : BitVec 64
  stepping : BitVec 8
  format : BitVec 8
  trims : List Int
  coeffs : List (List Rat)
deriving DecidableEq, Repr

/-- The serial flash (R436, R467). -/
structure Flash where
  persist : Persist
  log : List LogEntry
  fences : List FenceEntry
  trims : List Int
  /-- Whether a trim was ever stored (R368). -/
  trimStored : Bool
  retired : List RetiredPage
  coeffs : Option CoeffSet
  training : Option Training
  summaryA : Option Dump
  summaryB : Option Dump
  /-- Dump captures over the module's life (R473). -/
  dumpSeq : BitVec 64
  /-- What the sensor of the last trip read, kept for the entry of the next start (R402, R468). -/
  tripReading : Int
  boot0 : BootRecord
  boot1 : BootRecord
  slotA : List (Option Image)
  slotB : List (Option Image)
deriving DecidableEq, Repr

/-! ## Board: input, rails, pins (R20 to R50, R399 to R403) -/

structure Board where
  inputOn : Bool
  vddSb : Bool
  lampReady : Bool
  railsUp : Bool
  pwrGood : Bool
  alert : Bool
  thermTrip : Bool
  pwrEn : Bool
  coldReset : Bool
  coolantStop : Bool
  hostPerst : Bool
  srefclk : Bool
  frameSync : Bool
  slotId : BitVec 6
  /-- Clamp switches of the DIMM slots that are closed (R53), as the last start read them and
  losses since have opened them. -/
  clamps : BitVec 12
  bootsel : BitVec 2
  /-- An edge of `PWR_EN`, or a release of `COLD_RESET_N` with it, seen since the last
  power-off (R44). -/
  rearmed : Bool
  /-- Less than 100 ms have passed since `PWR_GOOD` deasserted (R44). -/
  holdoff : Bool
  /-- The module has been powered off since its last power-up (R44 applies). -/
  poweredOff : Bool
  /-- After a hardware trip: its conditions of R403 still apply; 10 s passed; report seen. -/
  tripHold : Bool
  tripTen : Bool
  tripReport : Bool
  /-- A `WARM_RESET_N` held while `COOLANT_STOP_N` is asserted (R401). -/
  warmHeld : Bool
  /-- The 2 s count of R400 runs. -/
  stopCount : Bool
  /-- The shutdown record of a cold reset is being written (R43), and a deassertion that
  waits for it, with the strap levels. -/
  recordBusy : Bool
  coldRelease : Option (BitVec 6 × BitVec 2)
  coldDue : Bool
  warmDue : Bool
  /-- The warm start that is due escalated from a hang recovery (R459). -/
  escalated : Bool
  cxlUp : Bool
  flit256 : Bool
deriving DecidableEq, Repr

/-! ## Units: fences, edges, SRAM lines (R55 to R83) -/

/-- A die-to-die edge (R71). -/
structure Edge where
  up : Bool
  frameReplays : Nat
  retraining : Bool
  failures : Nat
deriving DecidableEq, Repr

/-- What the topology page shows (R82): a copy made at frame boundaries. -/
structure Topology where
  cellFenced : List (BitVec 16)
  blockFenced : BitVec 128
  hbm : BitVec 32
  dimms : List Nat
  edges : BitVec 12
  regions : BitVec 8
  iods : BitVec 4
  noCompute : Bool
  fenceCount : BitVec 16
  dumpBase : Option Nat
  /-- Retired pages in HBM and in the DDR tier. -/
  hbmRetired : Nat
  ddrRetired : Nat
deriving DecidableEq, Repr

structure Units where
  /-- One mask per global block. -/
  cellFenced : List (BitVec 16)
  blockFenced : BitVec 128
  isolated : BitVec 8
  hbm : BitVec 32
  /-- Capacity of each DIMM in GiB, 0 where none is present. -/
  dimms : List Nat
  /-- DIMMs lost since the last cold start, which alone brings them back (R177). -/
  dimmsLost : BitVec 12
  edges : List Edge
  iods : BitVec 4
  noCompute : Bool
  fenceCount : BitVec 16
  dumpBase : Option Nat
  /-- Fences to be logged at the next frame boundary, with the owning partition (R61). -/
  toLog : List (BitVec 32 × Nat)
  topo : Topology
  missed : SMap Nat
deriving DecidableEq, Repr

/-! ## Cells (R84 to R140, R341, R351) -/

/-- A tile status register (R86). -/
structure Tstat where
  win : BitVec 16
  mode : BitVec 2
  auto : Bool
  ovf : Bool
  pend : Bool
deriving DecidableEq, Repr

/-- How an item ends (R91), and what started it last. -/
inductive EndKind where
  | complete
  | saved
  | failedValue
  | failedException
  | forced
deriving DecidableEq, Repr

structure Ending where
  kind : EndKind
  value : Word
  cause : BitVec 8
deriving DecidableEq, Repr

/-- An outstanding `MCOPY` or `VGATHERP` (R124, R125). -/
structure Async where
  id : Nat
  gather : Bool
  dst : Word
  src : Word
  len : Nat
  /-- `MCOPY`: the signal word's device address and the bit. -/
  sig : Option (Nat × Nat)
  /-- `VGATHERP`: level-1 base, page size, panel, row, stride, offset, lanes, tier mode. -/
  l1 : Word
  pgsz : Nat
  panel : Nat
  row : Nat
  stride : Nat
  offset : Nat
  lanes : Nat
  tier : Bool
  idx : VReg
  guardMask : PReg
  pd : BitVec 4
  /-- The privilege at which it was issued (R133, R342). -/
  sup : Bool
deriving DecidableEq, Repr

/-- A fault that waits for delivery as `ASYNC_FAULT` (R139). -/
structure PendFault where
  gather : Bool
  cause : BitVec 8
  addr : Word
deriving DecidableEq, Repr

/-- The work item on a cell. `order` names its `SUBMIT`. -/
structure Run where
  part : Nat
  ctx : Nat
  order : Nat
  item : Nat
deriving DecidableEq, Repr

/-- A sample record (R353). -/
structure Sample where
  part : Nat
  ctx : Nat
  item : Nat
  pc : Word
  insn : BitVec 64
  /-- Executed at supervisor privilege. -/
  sup : Bool
  discarded : Bool
  replayed : Bool
  daddr : Word
  frame : BitVec 64
  time : SampleInfo
deriving DecidableEq, Repr

/-- An owner tag of an on-chip line (R429). -/
structure Tag where
  part : Nat
  ctx : Nat
  cgen : BitVec 8
deriving DecidableEq, Repr

/-- A cached translation (R134): for whom, the page, and its leaf entry. -/
structure Xent where
  tag : Tag
  base : Nat
  size : Nat
  leaf : BitVec 64
deriving DecidableEq, Repr

structure Cell where
  x : Vector Word 32
  v : Vector VReg 32
  p : Vector PReg 16
  t : Vector Tile 8
  tstat : Vector Tstat 8
  q : Vector QReg 16
  pc : Word
  sup : Bool
  cstat : BitVec 7
  uctl : Bool
  svec : Word
  epc : Word
  ecause : BitVec 8
  eaddr : Word
  ppriv : Bool
  asub : BitVec 8
  aop : Bool
  sscratch : Word
  ptroot : Word
  run : Option Run
  /-- The item has ended and the dispatcher has not yet acted on it. -/
  ended : Option Ending
  /-- The item will end once its asynchronous work has completed (R131, R138). -/
  ending : Option Ending
  /-- The cell has stopped issuing for its item (R139, R140). -/
  stopped : Bool
  preempt : Bool
  cancel : Bool
  async : List Async
  asyncNext : Nat
  faults : List PendFault
  /-- A `WAITSIG` in progress: its operands and the word last observed (R126). -/
  wait : Option (WaitsigOp × Word)
  /-- A preempt or cancel request has been raised for the item (R140). -/
  requested : Bool
  cycle : BitVec 64
  pmc : Vector (BitVec 48) 8
  pmsel : Vector (BitVec 64) 8
  pmovf : BitVec 9
  pmaddr : Vector Word 4
  /-- Issue slots retired or wasted since the counters last followed the clock (R340). -/
  slotUsed : Nat
  samples : List Sample
  /-- Samples taken whose records have still to enter the buffer; asynchronous work waits for the
  operation of the given number (R351). -/
  latches : List (Sample × Option Nat)
  /-- Sampling countdowns by context (16 × partition + context). -/
  countdown : SMap Nat
  /-- The sampling setting in force since the item's start (R349). -/
  sampMode : BitVec 8
  sampN : Nat
  /-- Translations that the cell or its block holds for it (R134). -/
  tlb : List Xent
deriving DecidableEq, Repr

/-- The counter bank of a block (R338, R341). -/
structure CounterBank where
  census : Vector (BitVec 48) 96
  ovf : BitVec 96
  /-- Issue slots retired or wasted since the counters last followed the clock (R340). -/
  slotUsed : Nat
deriving DecidableEq, Repr

/-! ## Memory (R166 to R194, R429) -/

inductive Owner where
  | free
  | ctx (part ctx : Nat)
  | shared (part : Nat)
deriving DecidableEq, Repr

inductive ScrubState where
  | clean
  | pending
  | zeroed
deriving DecidableEq, Repr

structure Granule where
  owner : Owner
  scrub : ScrubState
deriving DecidableEq, Repr

/-- A promotion hint (R123, R180): the level-2 entry, its value and the page size. -/
structure Hint where
  part : Nat
  ctx : Nat
  entry : Word
  value : BitVec 64
  pgsz : Nat
  /-- The privilege of the `VGATHERP`. -/
  sup : Bool
deriving DecidableEq, Repr

/-- An uncorrectable error in the CXL RAS capability (R193, R194, R424). -/
structure RasError where
  kind : Nat
  addr : Nat
deriving DecidableEq, Repr

structure Mem where
  /-- HBM, DDR tier and on-chip SRAM at device physical addresses (R78). -/
  cells : List Host.Cell
  /-- Host memory as the module has written it. -/
  host : List Host.Cell
  granules : SMap Granule
  /-- Owner tags by line number (address / 256). -/
  tags : SMap Tag
  /-- Clean shared SRAM lines with the source they were loaded from (R68). -/
  cleanLines : SMap Nat
  /-- Pending gather-feed pieces by piece number (address / 1024) and their communicator. -/
  feed : SMap Nat
  /-- Frames of corrected errors by page (R184). -/
  corrected : SMap (List Nat)
  /-- Uncorrectable errors in this frame per stack (0 to 31) and per DIMM (32 to 43). -/
  uncorr : SMap Nat
  hints : SMap (List Hint)
  /-- Lines the host may hold, oldest first, per I/O die (R193). -/
  snoop : SMap (List Nat)
  ras : List RasError
deriving DecidableEq, Repr

/-! ## Mailbox (R195 to R228) -/

/-- A window descriptor with its HDM decoder (R205 to R207). -/
structure Window where
  en : Bool
  part : BitVec 8
  dpa : BitVec 64
  size : BitVec 64
  refused : Bool
  committed : Bool
  notCommitted : Bool
  base : Nat
  length : Nat
  /-- TSP trusted-execution state of the window's range (R423). -/
  tsp : Bool
deriving DecidableEq, Repr

/-- A taken command (R210, R211). -/
structure Taken where
  slot : Nat
  opcode : BitVec 8
  seq : BitVec 32
  part : BitVec 8
  ctx : BitVec 8
  pgen : BitVec 8
  cgen : BitVec 8
  vec : BitVec 8
  noirq : Bool
  ordered : Bool
  /-- Its row has run and it has not completed. -/
  started : Bool
  /-- Fixed-frequency mode was suspended while it ran (R377). -/
  fixedBroken : Bool
  /-- The frame since which it waits for the security controller (R238 step 7). -/
  waiting : Option Nat
deriving DecidableEq, Repr

structure Mail where
  ready : Bool
  negotiated : Bool
  level : BitVec 8
  start : BitVec 2
  resetGen : BitVec 32
  enable : Bool
  evtVec : BitVec 6
  evtEn : Bool
  cmplBase : BitVec 64
  errTakenWrite : Bool
  errBadOwn : Bool
  errCmplFail : Bool
  errCtlIgnored : Bool
  evtLast : BitVec 16
  evtCount : BitVec 32
  startFrame : BitVec 64
  /-- MSI-X table (R198): two 64-bit words per entry; bit 32 of the second is the mask. -/
  msix : List (BitVec 64 × BitVec 64)
  pba : BitVec 64
  /-- MSI-X Enable and Function Mask of the capability (R204). -/
  msixEn : Bool
  msixMask : Bool
  /-- Vectors with a completion in this frame, and whether an event was logged (R204). -/
  frameVecs : BitVec 64
  frameEvent : Bool
  /-- `BAR2`: 1,024 slots of 256 bytes (R208). -/
  bar2 : List Host.Cell
  /-- `BAR0`, `BAR2` and `BAR4` base addresses (R197). -/
  bars : List (BitVec 64)
  /-- Posted slots in the order of their `OWN` writes. -/
  posted : List Nat
  /-- Commands taken and not completed, in the order taken. -/
  taken : List Taken
  windows : List Window
deriving DecidableEq, Repr

/-- A 256-byte configuration set (R224); byte k is bits [8k + 7:8k]. -/
abbrev ConfigSet := BitVec 2048

/-- A write of `POWER_CAP`, `POWER_FIXED` or `BEACON_ASSIGN` to the active set (R227). -/
structure ActiveWrite where
  slot : Nat
  cap : Option (BitVec 16)
  boost : Option Bool
  fixed : Option Bool
  mhz : Option (BitVec 16)
  beacon : Option (Nat × BitVec 32)
  /-- The write has been made, and the next decide step completes the command. -/
  applied : Bool
deriving DecidableEq, Repr

/-- A `CNT_CONFIG` that waits for the next frame boundary (R345). -/
structure CntPending where
  slot : Nat
  op : Nat
  first : Nat
  n : Nat
  cellMask : BitVec 16
  pmsel : List (BitVec 64)
  pmaddr : List (BitVec 64)
  buf : Nat
  len : Nat
deriving DecidableEq, Repr

structure Config where
  active : ConfigSet
  shadow : ConfigSet
  /-- The slot of the pending `CONFIG_SWAP`. -/
  swap : Option Nat
  writes : List ActiveWrite
  /-- Held `PORT_MODE` bytes by port (R226). -/
  heldModes : SMap (BitVec 8)
  counters : List CntPending
deriving DecidableEq, Repr

/-! ## Partitions, contexts, work (R229 to R259) -/

/-- A DDR range (R229). -/
structure DdrRange where
  chan : Nat
  first : Nat
  gib : Nat
deriving DecidableEq, Repr

inductive CtxState where
  | closed
  | opened
  | resident
  | stopped
  | closing
deriving DecidableEq, Repr

/-- Sampling of a context (R349). -/
structure Sampling where
  mode : BitVec 8
  interval : Nat
  cb : Word
  stopped : Bool
deriving DecidableEq, Repr

/-- The memory keys of a context: encryption and integrity (R425). -/
structure MemKey where
  enc : BitVec 256
  int : BitVec 256
deriving DecidableEq, Repr

structure Ctx where
  st : CtxState
  cgen : BitVec 8
  cls : BitVec 8
  host : Bool
  quantum : Nat
  ptroot : Word
  svec : Word
  tierCb : Word
  /-- Frame in which residency began. -/
  since : Nat
  /-- Frame from which the context has waited with ready work. -/
  waiting : Option Nat
  /-- Admission has stopped because the quantum expired, and in which frame (R240). -/
  leaving : Option Nat
  /-- Generations retired, with the frame of their teardown (R235). -/
  retired : List (BitVec 8 × Nat)
  /-- The keys in the key slots of the partition and context (R425, R428). -/
  key : Option MemKey
  totalUj : Nat
  runUj : Nat
  moverUj : Nat
  /-- The three totals as of the last `SUBMIT` completion of the partition (R430). -/
  coarseUj : Nat
  coarseRunUj : Nat
  coarseMoverUj : Nat
  /-- Remainders below 1 µJ of the three totals (R381). -/
  carries : List Rat
  sampling : Sampling
deriving DecidableEq, Repr

structure Part where
  inService : Bool
  conf : Bool
  regions : BitVec 8
  ranges : List DdrRange
  weight : Nat
  pgen : BitVec 8
  /-- The Sluice balance (R249) and the grant in force (R250). -/
  balance : Int
  grant : Nat
  lastRegion : Nat
  /-- The context that was Resident last (R241). -/
  lastCtx : Option Nat
  totalUj : Nat
  ioUj : Nat
  lossUj : Nat
  /-- Totals as of the last `SUBMIT` completion (R430), rounded where they are read. -/
  coarseUj : Nat
  coarseIoUj : Nat
  coarseLossUj : Nat
  /-- Remainders below 1 µJ of the three totals (R381). -/
  carries : List Rat
  ctxs : List Ctx
deriving DecidableEq, Repr

/-- A failure record (R245). -/
structure FailRec where
  item : Nat
  kind : BitVec 8
  cause : BitVec 8
  value : Word
deriving DecidableEq, Repr

/-- A running item run: its item, its cell and the energy attributed so far, with its remainder
below 1 µJ. -/
structure ItemRun where
  item : Nat
  cell : Nat
  uj : Nat
  carry : Rat
deriving DecidableEq, Repr

/-- A pending `SUSPEND` or `CANCEL` of an operation, with the slot that carries it. -/
structure StopReq where
  slot : Nat
  cancel : Bool
  hard : Bool
  /-- Frame in which it was applied. -/
  since : Nat
deriving DecidableEq, Repr

/-- A `SUBMIT` (R242 to R256). `order` is the order in which it was taken. -/
structure Submit where
  order : Nat
  slot : Nat
  seq : BitVec 32
  part : Nat
  ctx : Nat
  pgen : BitVec 8
  cgen : BitVec 8
  kernel : Word
  args : Word
  items : Nat
  estUj : Nat
  prio : Nat
  restart : Bool
  buf : Nat
  bufLen : Nat
  /-- Next new index; items returned after a unit failure or a forced stop; Saved items. -/
  next : Nat
  reruns : List Nat
  requeued : List Nat
  saved : List Nat
  running : List ItemRun
  complete : Nat
  failed : Nat
  lost : Nat
  /-- Items that have had their one re-run (R254). -/
  rerunDone : List Nat
  records : List FailRec
  kFactor : Nat
  /-- The last ended runs with their attributed energies, newest first (R252). -/
  ended : List Nat
  endedCount : Nat
  runUj : Nat
  held : Bool
  stop : Option StopReq
  /-- Resident, unheld frames with items to start since the last admission (R251). -/
  idleFrames : Nat
  aged : Bool
  /-- When an item of this `SUBMIT` was last admitted, for taking turns (R251). -/
  turn : Nat
  fixedBroken : Bool
  /-- Runs that ended in this frame, and runs that ended before and whose last frame is not
  attributed yet. -/
  tail : List ItemRun
  due : List ItemRun
deriving DecidableEq, Repr

/-- A `COPY`, `FILL` or `SCRUB` under way (R220). -/
structure Transfer where
  slot : Nat
  seq : BitVec 32
  part : Nat
  ctx : Nat
  pgen : BitVec 8
  cgen : BitVec 8
  fill : Bool
  src : Word
  dst : Word
  len : Nat
  pattern : Word
  /-- Whether a tier mover carries it, and the region of the mover (R178, R220). -/
  tier : Bool
  region : Nat
  moved : Nat
  held : Bool
  stop : Option StopReq
  fixedBroken : Bool
deriving DecidableEq, Repr

/-- A `CTX_CLOSE` in progress (R258). -/
structure Teardown where
  part : Nat
  ctx : Nat
  slot : Option Nat
deriving DecidableEq, Repr

structure Disp where
  submits : List Submit
  transfers : List Transfer
  teardowns : List Teardown
  nextOrder : Nat
  turns : Nat
deriving DecidableEq, Repr

/-! ## Fabric (R260 to R289) -/

inductive PortState where
  | disabled
  | detect
  | training
  | secure
  | active
  | paused
  | retraining
  | down
deriving DecidableEq, Repr

/-- A key of one direction of a link (R273, R274): the key, the salt and the packets sent under it. -/
structure LinkKey where
  key : BitVec 256
  salt : BitVec 32
  count : BitVec 64
deriving DecidableEq, Repr

/-- A packet that a die has routed (R277, R278). -/
structure Waiting where
  iod : Nat
  /-- The port half through which it entered. -/
  src : Option Nat
  pkt : Packet
  groupA : Nat
  groupB : Option Nat
  odd : Bool
deriving DecidableEq, Repr

/-- A link-control message that waits to be sent: 0 endpoint ID, 1 switch to the new key, 2 time, 3 key agreement. -/
structure Control where
  kind : Nat
  fields : List Nat
deriving DecidableEq, Repr

/-- A flit in the replay buffer (R268): a data flit on a lane, or a link-control flit. -/
structure SentFlit where
  seq : BitVec 12
  lane : Option Nat
  start : Nat
  payload : List Byte
  /-- The packets whose last byte it carries. -/
  packets : List Waiting
deriving DecidableEq, Repr

/-- The turns of the egress arbitration (R267): the lane whose turn it is, its flits in this turn, and the flits since
the last ones on VL 6 and on VL 7. -/
structure Turn where
  lane : Nat
  used : Nat
  since6 : Nat
  since7 : Nat
deriving DecidableEq, Repr

/-- A port half (R260, R288, R289). -/
structure Port where
  st : PortState
  disable : Bool
  width : BitVec 2
  cause : BitVec 4
  laneOk : BitVec 8
  reversed : Bool
  inverted : BitVec 8
  peerEp : Option (BitVec 20)
  /-- The endpoint ID has been sent in this Secure phase, and whether this end initiates. -/
  idSent : Bool
  initiator : Bool
  /-- Flits sent and received under the current keys (R276). -/
  keyFlits : Nat
  rxKeyFlits : Nat
  /-- The keys of the two directions, those of a rekeying before the switch, and the old key with the number of the
  flit that marked the switch (R274, R276). -/
  txKey : Option LinkKey
  rxKey : Option LinkKey
  nextTx : Option LinkKey
  nextRx : Option LinkKey
  oldTx : Option (LinkKey × BitVec 12)
  trainFails : Nat
  retrainFails : Nat
  authFails : Nat
  storedEq : Bool
  txSeq : BitVec 12
  rxSeq : BitVec 12
  /-- Last sequence number acknowledged, and how often in a row it was asked for again. -/
  ackSeq : BitVec 12
  sameReplays : Nat
  /-- Unacknowledged flits, oldest first. -/
  replay : List SentFlit
  /-- A replay that was asked for while the port was Paused. -/
  resendDue : Bool
  /-- Packets that wait to be sent, with their virtual lanes; the bytes left of those of which a part has been sent; and
  link-control messages. -/
  queue : List (Nat × Waiting)
  cut : List (Nat × List Byte × Waiting)
  control : List Control
  turn : Turn
  credits : List Nat
  frameReplays : Nat
  /-- A replay has been asked for and has not come (R268). -/
  asked : Bool
  /-- By lane, bytes of packets that have not arrived whole; and flits whose credits are still to be returned. -/
  rxBytes : List (List Byte)
  owed : List Nat
  /-- Uncorrectable codewords of the frame, by physical lane (R269). -/
  laneErrors : List Nat
  counters : Vector (BitVec 64) 10
deriving DecidableEq, Repr

/-- The fabric block of an I/O die (R284 to R287). -/
structure FabBlock where
  /-- This die's copy of `FAB_EP`; a write to any copy sets all four (R284). -/
  ep : BitVec 20
  epValid : Bool
  directHi : BitVec 4
  routesValid : Bool
  groups : List (BitVec 72)
  prefixes : SMap (BitVec 64)
  direct : SMap (BitVec 32)
deriving DecidableEq, Repr

/-- A packet addressed to the module, at the die where it arrived (R280). -/
structure Arrival where
  iod : Nat
  src : Option Nat
  pkt : Packet
deriving DecidableEq, Repr

structure Fabric where
  /-- Mode in force and `SPLIT` in force by port (R226, R288). -/
  modes : List (BitVec 2 × Bool)
  /-- Port halves: 2 × port + half. -/
  ports : List Port
  blocks : List FabBlock
  waiting : List Waiting
  arrived : List Arrival
  stratum : BitVec 4
  source : BitVec 2
  parent : BitVec 7
  locked : Bool
  offset : BitVec 16
  /-- What of the offset to the parent is still to be corrected, in units of 0.25 ns (R282). -/
  residual : Int
  root : BitVec 20
  /-- Time information by port identifier (R282). -/
  peers : SMap TimeInfo
  /-- Seeds that the link engines took at the start, by half (R409, R428). -/
  seeds : List (BitVec 384)
deriving DecidableEq, Repr

/-! ## Collectives and Beacon (R290 to R335) -/

/-- A collective descriptor (R299). -/
structure Desc where
  op : BitVec 8
  dtype : BitVec 8
  otype : BitVec 8
  rmode : BitVec 8
  win : BitVec 16
  dflags : BitVec 16
  root : BitVec 32
  src : Word
  dst : Word
  count : Word
  scratch : Word
  sigaddr : Word
  aux : Word
deriving DecidableEq, Repr

/-- A chunk as it is held or sent (R307, R309): words of Brine or FP32, or bytes, one per entry. -/
structure Chunk where
  win : BitVec 16
  ovf : Bool
  mismatch : Bool
  words : List Word
  check : Nat
deriving DecidableEq, Repr

/-- A flow of chunks between this member and another, in one tree and phase (R318). -/
structure FlowKey where
  peer : Nat
  tree : Nat
  phase : Bool
deriving DecidableEq, Repr

/-- What a chunk-sized value of an operation is: `n` elements of the source from element `off`,
a chunk received in a flow, or the result of an addition. -/
inductive Ref where
  | own (off n : Nat)
  | rx (k : FlowKey) (chunk : Nat)
  | sum (stage id : Nat)
deriving DecidableEq, Repr

/-- An addition in the order of `ins`, and the first element of its result (R317 to R321). -/
structure AddTask where
  out : Ref
  ins : List Ref
  pos : Nat
  tree : Nat
deriving DecidableEq, Repr

/-- A chunk to be sent in a flow. -/
structure SendTask where
  key : FlowKey
  chunk : Nat
  val : Ref
deriving DecidableEq, Repr

/-- A value to be written to the destination, at the element that it starts with. -/
structure DlvTask where
  val : Ref
  pos : Nat
deriving DecidableEq, Repr

/-- What an operation still has to do: additions, sends, chunks to come, deliveries. -/
structure Plan where
  adds : List AddTask
  sends : List SendTask
  recvs : List (FlowKey × Nat)
  dlvs : List DlvTask
deriving DecidableEq, Repr

/-- The sending end of a flow: chunks in all, sent, granted, and the final acknowledgement. -/
structure OutFlow where
  key : FlowKey
  total : Nat
  sent : Nat
  granted : Nat
  done : Bool
deriving DecidableEq, Repr

/-- The receiving end of a flow: chunks in all, received, granted. -/
structure InFlow where
  key : FlowKey
  total : Nat
  got : Nat
  granted : Nat
deriving DecidableEq, Repr

/-- A chunk under reassembly (R307): its header, and data packets by index. -/
structure Partial where
  key : FlowKey
  chunk : Nat
  header : Option (List Byte)
  pkts : SMap (List Byte)
deriving DecidableEq, Repr

inductive PathState where
  | claiming
  | pan
  | endpoint
deriving DecidableEq, Repr

/-- A stage's request for pan slots (R322, R323). -/
structure PanReq where
  comm : Nat
  tree : Nat
  slots : Nat
  frame : Nat
deriving DecidableEq, Repr

/-- Pan slots that a stage holds: its tree, the pan, and how many. -/
structure PanHold where
  tree : Nat
  pan : Nat
  slots : Nat
deriving DecidableEq, Repr

/-- The running operation of a communicator. `wide` is the mode of a reduction (R315). -/
structure CollOp where
  desc : Desc
  wide : Bool
  path : PathState
  claimSent : Bool
  /-- The wait of a stage has expired, or `FALLBK_UP` has been sent. -/
  fbSent : Bool
  fellBack : Bool
  claims : List Nat
  pans : List PanHold
  plan : Plan
  vals : List (Ref × Chunk)
  outs : List OutFlow
  ins : List InFlow
  /-- Credits that came before their flow was planned. -/
  credits : List (FlowKey × Nat)
  partials : List Partial
  /-- V-variants (R325): send counts, counts received, members that acknowledged ours, and
  whether the receive counts have been summed. -/
  sendCounts : List Nat
  counts : SMap Nat
  countAcks : List Nat
  counted : Bool
  /-- Barrier (R316): arrivals, rounds received, rounds sent, and the release. -/
  barUps : List Nat
  barDns : List Nat
  barRound : Nat
  barSent : Bool
  barDone : Bool
  ovf : Bool
  mismatch : Bool
  checkFail : Bool
  /-- Elements of the destination still to be written, by signal chunk (R326) and, in bytes, by
  piece of gather-feed (R327). -/
  sigLeft : SMap Nat
  feedLeft : SMap Nat
  lastRx : Nat
deriving DecidableEq, Repr

/-- A communicator: `opSeq` is the operation started last (R305). -/
structure Comm where
  handle : Nat
  part : Nat
  ctx : Nat
  key : BitVec 20
  n : Nat
  rank : Nat
  trees : Nat
  panSlots : Nat
  timeoutMs : Nat
  table : Word
  beaconArea : Word
  peerArea : Word
  /-- Parents by tree (`none` for the root), the stage's I/O die, and the children. -/
  parents : List (Option Nat)
  stages : List Nat
  children : List (List Nat)
  broken : Bool
  opSeq : BitVec 16
  op : Option CollOp
deriving DecidableEq, Repr

/-- A `COLL_BATCH` (R297, R298). -/
structure Batch where
  slot : Nat
  seq : BitVec 32
  part : Nat
  ctx : Nat
  pgen : BitVec 8
  cgen : BitVec 8
  handle : Nat
  desc : Word
  count : Nat
  idx : Nat
  ended : Nat
  fell : Nat
  ovf : Bool
  dropped : Nat
  held : Bool
  stop : Option StopReq
  fixedBroken : Bool
deriving DecidableEq, Repr

/-- A contribution to a Beacon operation (R329, R330). -/
structure BeaconVal where
  bop : BitVec 8
  btype : BitVec 8
  blen : BitVec 8
  bwin : BitVec 16
  ovf : Bool
  bad : Bool
  mismatch : Bool
  payload : List Byte
deriving DecidableEq, Repr

structure Beacon where
  /-- Refuses triggers after a timeout until disabled and enabled again (R332). -/
  failed : Bool
  /-- The operation in progress at this member: its `BSEQ` and its trigger frame. -/
  busy : Option (BitVec 32 × Nat)
  own : Option BeaconVal
  ups : SMap BeaconVal
  /-- The combined contribution has gone up (R330), and the handle of the communicator of the operation. -/
  sent : Bool
  comm : Nat
  seq : BitVec 16
deriving DecidableEq, Repr

structure Coll where
  comms : List Comm
  batches : List Batch
  /-- Pan slots in use and the queue of each pan. -/
  panUsed : List Nat
  panQueue : List (List PanReq)
  beacons : List Beacon
  /-- Handles of communicators that a teardown or reset destroyed in this frame (R328). -/
  dead : List Nat
deriving DecidableEq, Repr

/-! ## Power control (R354 to R385) -/

/-- What a control processor decides (R357). -/
structure Outputs where
  points : List Nat
  grants : List Nat
  boost : Bool
  fixed : Bool
  fixedPoint : Nat
deriving DecidableEq, Repr

/-- A telemetry record (R384). -/
structure Telem where
  frame : BitVec 64
  inputW : Nat
  capW : Nat
  capSrc : Nat
  tflags : BitVec 8
  droops : Nat
  regionW : List Nat
  regionPt : List Nat
  partW : List Nat
  confMask : BitVec 8
deriving DecidableEq, Repr

/-- Accumulators of a telemetry period. -/
structure TelemAcc where
  /-- Frames of the period. -/
  len : Nat
  first : BitVec 64
  frames : Nat
  inputUj : Nat
  regionUj : List Nat
  partUj : List Nat
  droops : Nat
  tflags : BitVec 8
  /-- Cap, source and points at the end of its last frame. -/
  capW : Nat
  capSrc : Nat
  points : List Nat
deriving DecidableEq, Repr

/-- What telemetry takes from a frame (R384): its cap, flags, points and droop entries, and the
energies attributed for it. -/
structure FrameEnergy where
  frame : BitVec 64
  /-- Frames of a period at the rate in force. -/
  period : Nat
  capW : Nat
  capSrc : Nat
  tflags : BitVec 8
  droops : Nat
  points : List Nat
  inputUj : Nat
  regionUj : List Nat
  partUj : List Nat
deriving DecidableEq, Repr

structure Power where
  frame : BitVec 64
  /-- Snapshot of the running frame, and the one before. -/
  snap : Snapshot
  decided : Bool
  overran : Bool
  rack : Nat
  /-- Ceiling that takes effect at the next tick (R355). -/
  rackNew : Option Nat
  /-- A decide step has completed since the core rails were last raised (R492). -/
  everDecided : Bool
  /-- 0 A, 1 B, 2 safe state (R385). -/
  active : Nat
  tokenB : Bool
  /-- The former holder may still write in this frame's act step (R357, R360). -/
  formerWrites : Bool
  /-- Takeover by handover: the new holder acts first in the next frame. -/
  actsNext : Bool
  standbyGood : Bool
  /-- A good copy has arrived in this frame; none arrived in the frame before. -/
  copied : Bool
  copyMissing : Bool
  handover : Bool
  aOut : Bool
  bOut : Bool
  overruns : Nat
  failovers : BitVec 32
  frameOverrun : BitVec 32
  dualActive : BitVec 32
  next : Outputs
  /-- Actuator registers, and what was written to them in this frame by A and by B. -/
  act : Outputs
  wroteA : Option Outputs
  wroteB : Option Outputs
  /-- Points in force, and the points that R371 chose last. -/
  points : List Nat
  choice : List Nat
  /-- Run energy of the last frame less the grant, by partition (R371 step 2). -/
  partOver : List Int
  effCap : Nat
  capSrc : Nat
  thermalW : Nat
  coolantW : Nat
  /-- Cap events (R375): rack ceiling and host cap as last seen, frames for which the source has
  bound, the source last reported, the last event, and a change that waits to be reported. -/
  capSeen : Nat × Nat
  capBound : Nat
  capLogged : Nat
  capEventFrame : Nat
  capDirty : Bool
  coeffs : List (List Rat)
  /-- Calibration window by rail: the normal equations of the fit, rows and right side (R364),
  and the sums of all estimates and measurements. -/
  calSums : List (List (List Rat) × List Rat)
  calEst : Rat
  calMeas : Rat
  calFrames : Nat
  lastCal : BitVec 64
  firstUse : Bool
  runFrames : Nat
  coeffStoredAt : Nat
  mismatchRun : Nat
  mismatch : Bool
  mismatchFrames : Nat
  /-- The calibration update of the hold has been made (R365 step 4). -/
  mismatchUpd : Bool
  mismatchBelow : Nat
  implausible : BitVec 37
  plausibleRun : List Nat
  /-- Input energies of the last 100 frames, newest first (R372, R485). -/
  inputs : List Nat
  fixedSuspend : Bool
  fixedOkRun : Nat
  regionSuspend : BitVec 8
  regionOkRun : List Nat
  /-- Droop stretch in eighths by region, entries in this frame, history of 50 frames. -/
  stretch : List Nat
  droopNow : List Nat
  droopHist : List (List Bool)
  trims : List Int
  trimAt : List Nat
  moduleUj : Nat
  railsUj : Nat
  unattributedUj : Nat
  carry : Rat
  attributed : BitVec 64
  ended : Option FrameEnergy
  telem : List Telem
  telemAcc : TelemAcc
  trayRing : List Telem
  trayAcc : TelemAcc
  /-- 1 s windows of R430: averages of the last completed window and the running sums. -/
  coarse : TelemAcc
  coarseRun : TelemAcc
  coarseTemp : List Int
  coarseTempRun : List Int
deriving DecidableEq, Repr

/-! ## Thermal model and coolant (R386 to R405) -/

structure Thermal where
  /-- Sensors excluded from control (R389), and by self-test (R387). -/
  excluded : BitVec 192
  selfTest : BitVec 192
  /-- Stuck detection: last reading and frames unchanged. -/
  stuck : List (Int × Nat)
  /-- Disagreement of the two hot-spot sensors reported, and frames below 3 °C. -/
  disagree : BitVec 8
  agreeRun : List Nat
  /-- Measured energies of the last 500 frames by rail, newest first (R389). -/
  railHist : List (List Nat)
  /-- Plate node temperatures: 8 regions, 4 I/O dies, 32 stacks; allowances `T_g` and forecasts of
  the regions, and hot spots in °C where a sensor is left (R389 to R391). -/
  tp : List Rat
  tg : List Nat
  forecast : List Rat
  forecastB : List Rat
  hot : List (Option Rat)
  /-- Residuals of the last frame and frames above 5 °C (R396). -/
  residRun : List Nat
  /-- Regions held at P0 by the measured limit and frames below target (R391). -/
  limited : BitVec 8
  limitedRun : List Nat
  /-- I/O die and stack limits (R392): allowance in force and frames below target. -/
  ioAllow : Option Nat
  ioOver : Bool
  ioLimited : List Bool
  ioRun : List Nat
  /-- Coolant values in use, the reports that the next decide step uses, and their history (R393
  to R397). -/
  inlet : Int
  outlet : Int
  flow : Nat
  next : List (CoolantMsg × Bool)
  /-- Reports that have arrived in the running frame, each with whether it is a repeat (R494). -/
  arrived : List (CoolantMsg × Bool)
  everValid : Bool
  lastValid : Nat
  /-- `REPORT_SEQ` of the last valid report since Lamplighter started. -/
  lastSeq : Option (BitVec 8)
  held : Bool
  held3000 : Bool
  flowLow : Bool
  flowOkRun : Nat
  goodRun : Nat
  /-- The Snuffer's gate, closed by the halt path or by `COOLANT_STOP_N` (R397, R400). -/
  haltClosed : Bool
  snuffed : Bool
  /-- The frame in which the gate closed (R398). -/
  gateAt : Nat
deriving DecidableEq, Repr

/-! ## Security (R406 to R434) and update (R435 to R452) -/

inductive TdiState where
  | configUnlocked
  | configLocked
  | run
  | error
deriving DecidableEq, Repr

/-- An SPDM session (R413). -/
structure Session where
  id : Nat
  tr : Transport
  established : Bool
  /-- What its keys are derived from (R409). -/
  secret : BitVec 384
deriving DecidableEq, Repr

/-- A co-signature that can be fetched (R419). -/
structure Cosig where
  id : BitVec 32
  conn : Conn
  frame : Nat
  sig : List Byte
deriving DecidableEq, Repr

/-- IDE key sets of a stream by sub-stream: programmed and active (R422). -/
structure IdeState where
  programmed : List (Nat × Nat)
  go : List (Nat × Nat)
deriving DecidableEq, Repr

/-- A request over SPDM or DOE that can wait (R420, R421). -/
inductive Request where
  | getVersion
  | getCapabilities
  | negotiateAlgorithms (a : AlgOffer)
  | getDigests
  | getCertificate (slot off len : Nat)
  | challenge (slot : Nat)
  | getMeasurements (block : Nat) (signed : Bool)
  | keyExchange
  | finish
  | endSession
  | keyUpdate
  | heartbeat
  | chunkSend (handle : BitVec 8) (seq : Nat) (data : List Byte)
  | chunkGet (handle : BitVec 8) (seq : Nat)
  | respondIfReady
  | cosigFetch (id : BitVec 32) (off len : Nat)
  | pqChainGet (id : BitVec 32) (off len : Nat)
  | debugNonce
  | debugToken (id : BitVec 32) (off : Nat) (data : List Byte)
  | ideKmQuery (st : IdeStream)
  | keyProg (st : IdeStream) (set sub : Nat)
  | kSetGo (st : IdeStream) (set sub : Nat)
  | kSetStop (st : IdeStream) (set sub : Nat)
  | tdisp (m : TdispMsg)
  | cdat (entry : Nat)
deriving DecidableEq, Repr

/-- A connection's SPDM negotiation (R413). -/
structure Nego where
  version : Bool
  caps : Bool
  /-- Hash and signature algorithm agreed; and all that a session needs besides. -/
  algs : Bool
  session : Bool
deriving DecidableEq, Repr

/-- The random bit generator: its seed, and the requests since (R406). -/
structure Drbg where
  seed : BitVec 384
  drawn : Nat
deriving DecidableEq, Repr

/-- Seeds of the key pairs and the CDI that the security controller holds, the lock of the UDS fuse, and the issue of
the Alias certificates (R409, R410, R412). -/
structure DiceKeys where
  udsLocked : Bool
  cdi : BitVec 384
  deviceRsa : List Byte
  deviceSlh : List Byte
  aliasRsa : List Byte
  aliasSlh : List Byte
  issue : Nat
deriving DecidableEq, Repr

def noKeys : DiceKeys :=
  { udsLocked := false, cdi := 0, deviceRsa := [], deviceSlh := [], aliasRsa := [], aliasSlh := [], issue := 0 }

structure Security where
  /-- The security controller is in its error state (R407), or unavailable for a pause or
  reset, or not started. -/
  error : Bool
  running : Bool
  paused : Bool
  /-- Digest sources of blocks 2 to 7: the images that run (R414). -/
  runningImages : List (Option Image)
  keys : DiceKeys
  drbg : Drbg
  debugOpen : Bool
  debugScope : BitVec 32
  tdi : TdiState
  ideIo : IdeState
  ideSel : IdeState
  ideMem : IdeState
  sessions : List Session
  nextSession : Nat
  nego : List Nego
  cosigs : List Cosig
  nextCosig : BitVec 32
  nonce : Option (BitVec 32 × Nat)
  nextNonce : BitVec 32
  token : List Byte
  /-- An accepted debug token that takes effect at the next warm start (R432). -/
  tokenScope : Option (BitVec 32)
  /-- A large request that arrives in chunks, and the number of chunks (R413 `CHUNK_CAP`). -/
  chunks : List Byte
  chunkSeq : Nat
  /-- The last response sent, from which `CHUNK_GET` takes its chunks. -/
  large : List Byte
  /-- DOE requests that wait for the end of a `CMD` pause (R420). -/
  waiting : List (Conn × Request)
  /-- The last request of each transport that the relay answered (R421). -/
  deferred : List (Conn × Request)
deriving DecidableEq, Repr

/-- A staging in progress (R446). -/
structure Staging where
  comp : Nat
  byPldm : Bool
  /-- The image slot that it writes: B (`true`) or A. -/
  toB : Bool
  /-- Checks 1 to 4 of R439 have passed. -/
  checked : Bool
  bytes : List Byte
  lastFrame : Nat
  /-- The slot whose piece is being written to flash. -/
  slot : Option Nat
  last : Bool
deriving DecidableEq, Repr

/-- An activation in progress (R448). -/
structure Activation where
  comp : Nat
  slot : Option Nat
  fromB : Bool
  /-- `LINK`: port halves that retrain with the new image (R449). -/
  linkDown : List Nat
  /-- `LINK`: those of them whose turn has not come, in port order (R449). -/
  linkLeft : List Nat
deriving DecidableEq, Repr

/-- Update mode of PLDM (R488). -/
structure PldmUpdate where
  mode : Bool
  table : List Nat
  comp : Option Nat
  applied : List Nat
  /-- Components that `ActivateFirmware` has still to activate, while it is under way. -/
  queue : Option (List Nat)
deriving DecidableEq, Repr

structure Update where
  staging : Option Staging
  activation : Option Activation
  /-- Images loaded by recovery (R451): by component, whether slot B holds it. -/
  recovered : SMap Bool
  pldm : PldmUpdate
deriving DecidableEq, Repr

/-! ## Recovery and sideband (R453 to R495) -/

/-- What a completion reports. -/
structure Report where
  status : Nat
  r0 : Nat
  r1 : Nat
  r2 : Nat
  r3 : Nat
  /-- `CFLAGS` but bit 0. -/
  flags : Nat
  energy : Nat
deriving DecidableEq, Repr

def Report.of (status : Nat) : Report := { status, r0 := 0, r1 := 0, r2 := 0, r3 := 0, flags := 0, energy := 0 }

structure Recovery where
  /-- Consecutive failed heartbeat checks: command, active control, security (R455). -/
  fails : List Nat
  /-- The command processor is held in reset or has not yet beaten since its release. -/
  cmdHeld : Bool
  ctlHeld : Bool
  secHeld : Bool
  /-- A hang recovery is under way, with its declaration frame. -/
  hang : Option (BitVec 64)
  /-- What the commands that the recovery ends report, by slot. -/
  killed : List (Nat × Report)
  /-- A summary that waits to be written (R474). -/
  summaryDue : Option Dump
  dump : Option Dump
  /-- Events logged in the running frame and not committed; entries that did not fit. -/
  fresh : List LogEntry
  droppedPrev : Nat
  persistDirty : Bool
  /-- Region resets that wait for the gate (R460). -/
  regionResets : BitVec 8
deriving DecidableEq, Repr

/-- An entry of the tray event queue (R482, R483). -/
inductive TrayEvent where
  | log (e : LogEntry)
  | shutdown (p : Persist)
deriving DecidableEq, Repr

structure Sideband where
  dynAddr : Option (BitVec 7)
  eid : BitVec 8
  /-- MCTP transmission unit in bytes (R480). -/
  unit : Nat
  tid : BitVec 8
  queue : List TrayEvent
  discarded : Nat
  /-- The tray has read the oldest entry and not acknowledged it. -/
  polled : Bool
  /-- PDRs of the repository: the port halves that existed at the end of the last start. -/
  pdrPorts : List Nat
deriving DecidableEq, Repr

/-! ## What the module sends out -/

/-- PLDM completion codes that the spec names (R481, R484, R488, R489), and those of DSP0240
and DSP0267 for the cases it leaves to them. -/
inductive PldmCode where
  | success
  | error
  | notReady
  | errorUnsupportedPldmCmd
  | alreadyInUpdateMode
  | notInUpdateMode
  | invalidType
  | invalidSensorId
  | invalidRecordHandle
  | updateInProgress
  | invalidState
  | activationNotRequired
deriving DecidableEq, Repr

/-- SPDM responses. -/
inductive SpdmKind where
  | version
  | capabilities
  | algorithms
  | digests
  | certificate
  | challengeAuth
  | measurements
  | keyExchangeRsp
  | finishRsp
  | endSessionAck
  | keyUpdateAck
  | heartbeatAck
  | chunkSendAck
  | chunkResponse
deriving DecidableEq, Repr

/-- SPDM error codes: those that the spec names (R413, R420, R421), and those of DSP0274 for a
request that is not valid or not expected. -/
inductive SpdmError where
  | invalidRequest
  | unexpectedRequest
  | busy
  | sessionLimitExceeded
  | responseNotReady
deriving DecidableEq, Repr

/-- A message that leaves the module. -/
inductive OutMsg where
  /-- A flit on a link (R265). -/
  | flit (pid : Nat) (bytes : List Byte)
  | msix (vec : Nat) (addr data : BitVec 64)
  | hostData (data : List Byte)
  | snoop (line : Nat)
  | i3c (data : List Nat)
  | mctp (code : Nat) (data : List Nat)
  | pldm (code : PldmCode) (data : List Nat)
  | pldmEvent (e : TrayEvent) (discarded : Nat)
  /-- A numeric sensor; none where its operational state is `unavailable`. -/
  | sensor (id : Nat) (reading : Option Int)
  /-- The states of a state sensor, by component. -/
  | states (id : Nat) (states : Option (List Nat))
  /-- What the firmware device sends on its own in an update (R488). -/
  | requestFirmwareData (offset len : Nat)
  | transferComplete (result : Nat)
  | verifyComplete (result : Nat)
  | applyComplete (result : Nat)
  | tray (cmd : Nat) (code : Nat) (data : List Byte)
  | spdm (tr : Transport) (kind : SpdmKind) (data : List Byte)
  | spdmError (tr : Transport) (code : SpdmError) (data : List Nat)
  | vendor (tr : Transport) (code status : Nat) (id : BitVec 32) (data : List Byte)
  | doe (data : List Nat)
deriving DecidableEq, Repr

/-- A state copy (R358): of these records, the items of the table of R358, and the attribution carries of R379 by
partition, its own and those of its contexts. -/
structure StateCopy where
  power : Power
  thermal : Thermal
  carries : List (List Rat × List (List Rat))
deriving DecidableEq, Repr

/-! ## The state -/

structure State where
  fuses : Fuses
  flash : Flash
  board : Board
  units : Units
  cells : SMap Cell
  banks : SMap CounterBank
  mem : Mem
  mail : Mail
  config : Config
  parts : List Part
  disp : Disp
  fabric : Fabric
  coll : Coll
  power : Power
  thermal : Thermal
  /-- The standby's last good copy (R358). -/
  copy : Option StateCopy
  sec : Security
  upd : Update
  rcv : Recovery
  side : Sideband
  /-- Messages sent so far, oldest first: the model's own field. -/
  out : List OutMsg
  /-- The index of the next free value: the model's own field. -/
  freeCtr : Nat
  /-- Commands that wait, first in, first out. -/
  pending : List Instr
deriving DecidableEq, Repr

/-! ## Reset

The state before the board applies its 50 V input (R38): rails down, flash as test and
manufacture left it, registers at the reset values of their tables. -/

/-- Fuses of a production TK1-A2048 module; R367 and R390 give the typical values. -/
def resetFuses : Fuses :=
  { orderB := false, cellMap := List.replicate 128 (List.range 16), serial := 0, keysetDev := false, debugFuse := true
    uds := Config.uds, rootRsa := Config.rootDigest true, rootSlh := Config.rootDigest false
    svnFloor := List.replicate 6 0
    volts := List.replicate 8 [600, 620, 640, 660, 680, 700, 720, 745, 770, 795, 820, 845, 870, 895, 920, 950]
    rjp := List.replicate 8 (9 / 100), rpc8 := List.replicate 8 (57 / 1000)
    cp := List.replicate 8 (7 / 2), cj := List.replicate 8 (22 / 1000) }

/-- Interfaces that an image of each component provides and requires at level 1.0 (R442). -/
def factoryProvides (comp : Nat) : List (BitVec 16) :=
  [[], [0x1005], [0x1004], [0x1001], [0x1002, 0x1003], [0x1006], [0x1007]].getD comp []

def factoryRequires (comp : Nat) : List (BitVec 16) :=
  [[], [0x1004], [0x1005], [0x1003, 0x1004, 0x1005, 0x1006, 0x1007], [0x1002, 0x1004, 0x1005],
    [0x1004], []].getD comp []

/-- The image that manufacture leaves in image slot A of a component. -/
def resetImage (comp : Nat) : Image :=
  { compId := comp, compatOrder := 3, stepMin := 0xA1, stepMax := 0xA1, evalLine := false,
    version := 0x01000000, svn := 0, bodySize := 1, provides := factoryProvides comp,
    requires := factoryRequires comp, signed := true, bytes := [] }

def resetBootEntry : BootEntry :=
  { activeB := false, aValid := true, bValid := false, pending := false, fellBack := false }

def resetPersist : Persist :=
  { shutdownCause := 0, startResult := 0, oos := false, clearPending := false, hangsLife := 0
    poweredS := 0, hangTimes := [0, 0, 0], shutdownFrame := 0, shutdownMv := 0, shutdownMa := 0
    shutdownTj := 0, shutdownSensor := 0xFFFF, coldStarts := 0, warmStarts := 0, fencesLife := 0
    nextSeq := 0 }

def resetFlash : Flash :=
  { persist := resetPersist, log := [], fences := [], trims := List.replicate 8 0
    trimStored := false, retired := [], coeffs := none, training := none
    summaryA := none, summaryB := none, dumpSeq := 0, tripReading := 0
    boot0 := { seq := 1, crcGood := true, entries := List.replicate 6 resetBootEntry }
    boot1 := { seq := 0, crcGood := true, entries := List.replicate 6 resetBootEntry }
    slotA := (List.range 6).map fun c => some (resetImage (c + 1))
    slotB := List.replicate 6 none }

/-- Every `MGMT` input at its module-side default (R29). -/
def resetBoard : Board :=
  { inputOn := false, vddSb := false, lampReady := false, railsUp := false, pwrGood := false
    alert := false, thermTrip := false, pwrEn := false, coldReset := true, coolantStop := true
    hostPerst := true, srefclk := false, frameSync := false, slotId := 0x3F, clamps := 0, bootsel := 0
    rearmed := false, holdoff := false, poweredOff := false
    tripHold := false, tripTen := false, tripReport := false, warmHeld := false
    stopCount := false, recordBusy := false, coldRelease := none
    coldDue := false, warmDue := false, escalated := false, cxlUp := false, flit256 := false }

def resetTopology : Topology :=
  { cellFenced := List.replicate 128 0, blockFenced := 0, hbm := 0, dimms := List.replicate 12 0
    edges := 0, regions := 0, iods := 0, noCompute := false, fenceCount := 0, dumpBase := none
    hbmRetired := 0, ddrRetired := 0 }

def resetUnits : Units :=
  { cellFenced := List.replicate 128 0, blockFenced := 0, isolated := 0, hbm := 0
    dimms := List.replicate 12 0, dimmsLost := 0
    edges := List.replicate 12 { up := false, frameReplays := 0, retraining := false, failures := 0 }
    iods := 0, noCompute := false, fenceCount := 0, dumpBase := none, toLog := []
    topo := resetTopology, missed := [] }

/-- A cell after its reset: registers, tiles and `CSTAT` at zero (R89, R453). -/
def Cell.reset : Cell :=
  { x := Vector.replicate 32 0, v := Vector.replicate 32 0, p := Vector.replicate 16 0
    t := Vector.replicate 8 0
    tstat := Vector.replicate 8 { win := 0, mode := 0, auto := false, ovf := false, pend := false }
    q := Vector.replicate 16 0, pc := 0, sup := false, cstat := 0, uctl := false
    svec := 0, epc := 0, ecause := 0, eaddr := 0, ppriv := false, asub := 0, aop := false
    sscratch := 0, ptroot := 0, run := none, ended := none, ending := none, stopped := false
    preempt := false, cancel := false, async := [], asyncNext := 0, faults := [], wait := none
    requested := false, cycle := 0, pmc := Vector.replicate 8 0, pmsel := Vector.replicate 8 0
    pmovf := 0, pmaddr := Vector.replicate 4 0, slotUsed := 0, samples := [], latches := [], countdown := [], sampMode := 0
    sampN := 0, tlb := [] }

def resetMem : Mem :=
  { cells := [], host := [], granules := [], tags := [], cleanLines := [], feed := []
    corrected := [], uncorr := [], hints := [], snoop := [], ras := [] }

def Window.reset : Window :=
  { en := false, part := 0, dpa := 0, size := 0, refused := false, committed := false
    notCommitted := false, base := 0, length := 0, tsp := false }

def resetMail : Mail :=
  { ready := false, negotiated := false, level := 0, start := 0, resetGen := 0, enable := false
    evtVec := 0, evtEn := false, cmplBase := 0, errTakenWrite := false, errBadOwn := false
    errCmplFail := false, errCtlIgnored := false, evtLast := 0, evtCount := 0, startFrame := 0
    msix := List.replicate 64 (0, 0x100000000), pba := 0, msixEn := false, msixMask := false, frameVecs := 0, frameEvent := false
    bar2 := [], bars := [0, 0, 0], posted := [], taken := [], windows := List.replicate 8 Window.reset }

/-- The default configuration set (R224). -/
def defaultConfig : ConfigSet :=
  (0x01 : ConfigSet) ||| ((5000 : ConfigSet) <<< (8 * 0x02)) ||| ((0x01 : ConfigSet) <<< (8 * 0x04))
    ||| ((2000 : ConfigSet) <<< (8 * 0x06)) ||| ((1 : ConfigSet) <<< (8 * 0x08))
    ||| ((2000 : ConfigSet) <<< (8 * 0x20)) ||| ((25 : ConfigSet) <<< (8 * 0x24))
    ||| (List.range 36).foldl (fun a p => a ||| ((0x01 : ConfigSet) <<< (8 * (0x70 + p)))) 0

def resetConfig : Config :=
  { active := defaultConfig, shadow := defaultConfig, swap := none, writes := []
    heldModes := [], counters := [] }

def Ctx.reset : Ctx :=
  { st := .closed, cgen := 0, cls := 0, host := false, quantum := 0, ptroot := 0, svec := 0
    tierCb := 0, since := 0, waiting := none, leaving := none, retired := [], key := none
    totalUj := 0, runUj := 0, moverUj := 0, coarseUj := 0, coarseRunUj := 0, coarseMoverUj := 0
    carries := [0, 0, 0]
    sampling := { mode := 0, interval := 0, cb := 0, stopped := false } }

def Part.reset : Part :=
  { inService := false, conf := false, regions := 0, ranges := [], weight := 0, pgen := 0
    balance := 0, grant := 0, lastRegion := 0, lastCtx := none, totalUj := 0, ioUj := 0, lossUj := 0
    coarseUj := 0, coarseIoUj := 0, coarseLossUj := 0, carries := [0, 0, 0], ctxs := List.replicate 16 Ctx.reset }

/-- Partitions after a power-off: every generation is 1 (R233). -/
def freshParts : List Part :=
  List.replicate 8 { Part.reset with pgen := 1, ctxs := List.replicate 16 { Ctx.reset with cgen := 1 } }

def resetDisp : Disp :=
  { submits := [], transfers := [], teardowns := [], nextOrder := 0, turns := 0 }

def Port.reset : Port :=
  { st := .disabled, disable := false, width := 0, cause := 0, laneOk := 0, reversed := false
    inverted := 0, peerEp := none, idSent := false, initiator := false
    keyFlits := 0, rxKeyFlits := 0, txKey := none, rxKey := none, nextTx := none, nextRx := none, oldTx := none
    trainFails := 0, retrainFails := 0, authFails := 0
    storedEq := false, txSeq := 0, rxSeq := 0, ackSeq := 0, sameReplays := 0, replay := [], resendDue := false
    queue := [], cut := [], control := [], turn := { lane := 0, used := 0, since6 := 15, since7 := 3 }, credits := []
    frameReplays := 0, asked := false, rxBytes := [], owed := [], laneErrors := []
    counters := Vector.replicate 10 0 }

def FabBlock.reset : FabBlock :=
  { ep := 0, epValid := false, directHi := 0, routesValid := false, groups := List.replicate 64 0, prefixes := [], direct := [] }

def resetFabric : Fabric :=
  { modes := List.replicate 36 (0, false)
    ports := List.replicate 72 Port.reset, blocks := List.replicate 4 FabBlock.reset
    waiting := [], arrived := [], stratum := 0xF, source := 0, parent := 0x7F, locked := false, offset := 0, residual := 0
    root := 0, peers := [], seeds := [] }

def Beacon.reset : Beacon :=
  { failed := false, busy := none, own := none, ups := [], sent := false, comm := 0, seq := 0 }

def resetColl : Coll :=
  { comms := [], batches := [], panUsed := List.replicate 4 0, panQueue := List.replicate 4 []
    beacons := List.replicate 16 Beacon.reset, dead := [] }

/-- Safe-state outputs (R385): P0 in every region, grants zero, boost off. -/
def safeOutputs : Outputs :=
  { points := List.replicate 8 0, grants := List.replicate 8 0, boost := false, fixed := false
    fixedPoint := 0 }

def TelemAcc.reset : TelemAcc :=
  { len := 0, first := 0, frames := 0, inputUj := 0, regionUj := List.replicate 8 0
    partUj := List.replicate 8 0, droops := 0, tflags := 0, capW := 0, capSrc := 0, points := List.replicate 8 0 }

def RailSample.zero : RailSample := { uj := 0, mv := 0, setMv := 0, inRange := true }

def resetSnapshot : Snapshot :=
  { input := RailSample.zero, inputMa := 0, rails := List.replicate 36 RailSample.zero
    regionAct := List.replicate 8 (List.replicate 13 0)
    iodAct := List.replicate 4 (List.replicate 8 0)
    temps := List.replicate 192 { q := 0, valid := true }
    runDyn := [], moverDyn := [], hbmLines := [], iodWork := [], serdesBytes := [], ddrLines := []
    transitIod := List.replicate 4 0, transitBytes := 0 }

def resetPower : Power :=
  { frame := 0, snap := resetSnapshot, decided := false, overran := false, rack := 3000
    rackNew := none, everDecided := false, active := 0, tokenB := false, formerWrites := false
    actsNext := false, standbyGood := false, copied := false, copyMissing := false, handover := false
    aOut := true, bOut := true, overruns := 0, failovers := 0, frameOverrun := 0
    dualActive := 0, next := safeOutputs, act := safeOutputs, wroteA := none, wroteB := none
    points := List.replicate 8 0, choice := List.replicate 8 0
    partOver := List.replicate 8 0, effCap := 3000, capSrc := 0, thermalW := 5000, coolantW := 5000
    capSeen := (3000, 5000), capBound := 0, capLogged := 0, capEventFrame := 0, capDirty := false, coeffs := []
    calSums := [], calEst := 0, calMeas := 0, calFrames := 0, lastCal := 0, firstUse := true, runFrames := 0
    coeffStoredAt := 0, mismatchRun := 0, mismatch := false, mismatchFrames := 0
    mismatchUpd := false, mismatchBelow := 0, implausible := 0, plausibleRun := List.replicate 37 0, inputs := []
    fixedSuspend := false, fixedOkRun := 0, regionSuspend := 0, regionOkRun := List.replicate 8 0
    stretch := List.replicate 8 8, droopNow := List.replicate 8 0, droopHist := List.replicate 8 []
    trims := List.replicate 8 0, trimAt := List.replicate 8 0, moduleUj := 0, railsUj := 0
    unattributedUj := 0, carry := 0, attributed := 0, ended := none, telem := [], telemAcc := TelemAcc.reset
    trayRing := [], trayAcc := TelemAcc.reset, coarse := TelemAcc.reset
    coarseRun := TelemAcc.reset, coarseTemp := List.replicate 192 0
    coarseTempRun := List.replicate 192 (-200) }

def resetThermal : Thermal :=
  { excluded := 0, selfTest := 0, stuck := List.replicate 192 (0, 0), disagree := 0
    agreeRun := List.replicate 8 0, railHist := List.replicate 37 []
    tp := List.replicate 44 0, tg := List.replicate 8 0, forecast := List.replicate 8 0
    forecastB := List.replicate 8 0, hot := List.replicate 8 none, residRun := List.replicate 8 0
    limited := 0, limitedRun := List.replicate 8 0, ioAllow := none, ioOver := false, ioLimited := List.replicate 44 false, ioRun := List.replicate 44 0
    inlet := 0, outlet := 0, flow := 0, next := [], arrived := [], everValid := false, lastValid := 0
    lastSeq := none, held := false, held3000 := false, flowLow := false, flowOkRun := 0, goodRun := 0
    haltClosed := false, snuffed := false, gateAt := 0 }

def resetSecurity : Security :=
  { error := false, running := false, paused := false, runningImages := List.replicate 6 none
    keys := noKeys, drbg := { seed := 0, drawn := 0 }
    debugOpen := false, debugScope := 0, tdi := .configUnlocked
    ideIo := { programmed := [], go := [] }, ideSel := { programmed := [], go := [] }
    ideMem := { programmed := [], go := [] }, sessions := [], nextSession := 1
    nego := List.replicate 2 { version := false, caps := false, algs := false, session := false }
    cosigs := [], nextCosig := 1, nonce := none, nextNonce := 1, token := []
    tokenScope := none, chunks := [], chunkSeq := 0, large := [], waiting := [], deferred := [] }

def resetUpdate : Update :=
  { staging := none, activation := none, recovered := []
    pldm := { mode := false, table := [], comp := none, applied := [], queue := none } }

def resetRecovery : Recovery :=
  { fails := [0, 0, 0], cmdHeld := true, ctlHeld := true, secHeld := true, hang := none, killed := []
    summaryDue := none, dump := none, fresh := [], droppedPrev := 0, persistDirty := false
    regionResets := 0 }

def resetSideband : Sideband :=
  { dynAddr := none, eid := 0, unit := 64, tid := 0, queue := [], discarded := 0, polled := false, pdrPorts := [] }

/-- The module right after reset: before the input is applied, every register at the value
its table gives. -/
def State.reset : State :=
  { fuses := resetFuses, flash := resetFlash, board := resetBoard, units := resetUnits
    cells := [], banks := [], mem := resetMem, mail := resetMail, config := resetConfig
    parts := freshParts, disp := resetDisp, fabric := resetFabric
    coll := resetColl, power := resetPower, thermal := resetThermal, copy := none, sec := resetSecurity
    upd := resetUpdate, rcv := resetRecovery, side := resetSideband, out := [], freeCtr := 0
    pending := [] }

/-- Reasons for which the module stops with a fault. No command of this part does: the spec
gives every access outside the address map an effect (a translation fault of the cell under
R133, `BAD_FIELD` of a command under R80). -/
inductive Fault where
  /-- Raised by nobody; it keeps the type inhabited. Safe. -/
  | none_
deriving DecidableEq, Repr

/-- Reasons for which a command has no meaning in the model. -/
inductive Refusal where
  /-- A command whose meaning is not written. Safe. -/
  | notModelled (mnemonic : String)
deriving DecidableEq, Repr

end Sys2Proof.Machine
end

