-- ==== Sys2Proof/Machine/Ops.lean ====
section
/-! DEFINITION. The operations that every family of commands shares: free values, cells,
lists by index, bytes, the event log, the address map and device memory. -/

namespace Sys2Proof.Machine

/-! ## Free values and small helpers -/

/-- A free value, and the state in which the next one differs (assumption log entry 3). -/
def State.free (s : State) : Nat × State :=
  (Config.freeNat s.freeCtr, { s with freeCtr := s.freeCtr + 1 })

/-- The state after the free values of `n` reads. -/
def State.spend (s : State) (n : Nat) : State := { s with freeCtr := s.freeCtr + n }

/-- Append a message to what the module has sent. -/
def State.emit (s : State) (m : OutMsg) : State := { s with out := s.out ++ [m] }

/-- Replace the element at an index; nothing outside the list. -/
def setAt {α : Type} (l : List α) (i : Nat) (a : α) : List α := l.set i a

/-- Change the element at an index. -/
def modifyAt {α : Type} (l : List α) (i : Nat) (f : α → α) : List α := l.modify i f

/-- A bit of a mask set or cleared. -/
def putBit {w : Nat} (m : BitVec w) (i : Nat) (b : Bool) : BitVec w :=
  if b then m ||| ((1 : BitVec w) <<< i) else m &&& ~~~((1 : BitVec w) <<< i)

/-- The number of set bits. -/
def popCount {w : Nat} (m : BitVec w) : Nat := ((List.range w).filter fun i => m.getLsbD i).length

/-- Division rounded to nearest, halves up. -/
def divRound (a b : Nat) : Nat := (2 * a + b) / (2 * b)

/-- Division rounded up. -/
def divUp (a b : Nat) : Nat := (a + b - 1) / b

/-- `n` bytes of a number, little-endian (R8). -/
def leBytes : Nat → Nat → List Byte
  | 0, _ => []
  | n + 1, v => BitVec.ofNat 8 v :: leBytes n (v / 256)

/-- A number from bytes, little-endian. -/
def leNat : List Byte → Nat
  | [] => 0
  | b :: rest => b.toNat + 256 * leNat rest

/-- A little-endian field of a list of bytes. -/
def gatherDesc (l : List Byte) (off n : Nat) : Nat := leNat ((l.drop off).take n)

/-- A list cut or padded with zeros to a length. -/
def padTo (n : Nat) (l : List Byte) : List Byte := (l ++ List.replicate n 0).take n

/-! ## Cells -/

/-- `PMSEL` at reset: `INST_RETIRED` at every privilege but firmware, the cell itself (R342). -/
def pmselReset (c : Nat) : BitVec 64 := BitVec.ofNat 64 (0x0F004C04 + (c % 16) * 2 ^ 17)

/-- A cell that nothing has used since its reset. -/
def Cell.fresh (c : Nat) : Cell :=
  { Cell.reset with pmsel := Vector.replicate 8 (pmselReset c) }

/-- The cell numbered 16 × block + cell. -/
def State.cell (s : State) (c : Nat) : Cell := (s.cells.find c).getD (Cell.fresh c)

def State.setCell (s : State) (c : Nat) (k : Cell) : State := { s with cells := s.cells.put c k }

/-- The counter bank of a block. -/
def State.bank (s : State) (b : Nat) : CounterBank :=
  (s.banks.find b).getD { census := Vector.replicate 96 0, ovf := 0, slotUsed := 0 }

def State.setBank (s : State) (b : Nat) (k : CounterBank) : State :=
  { s with banks := s.banks.put b k }

/-- A scalar register; `s0` reads as zero (R84). -/
def Cell.rs (k : Cell) (r : BitVec 5) : Word := if r = 0 then 0 else k.x[r.toNat]

/-- Write a scalar register; writes to `s0` are discarded (R84). -/
def Cell.ws (k : Cell) (r : BitVec 5) (w : Word) : Cell :=
  if r = 0 then k else { k with x := k.x.set r.toNat w }

/-- A predicate; `p0` reads as all ones (R84). -/
def Cell.rp (k : Cell) (r : BitVec 4) : PReg := if r = 0 then BitVec.allOnes 256 else k.p[r.toNat]

/-- Write a predicate; writes to `p0` are discarded (R84). -/
def Cell.wp (k : Cell) (r : BitVec 4) (w : PReg) : Cell :=
  if r = 0 then k else { k with p := k.p.set r.toNat w }

def Cell.rv (k : Cell) (r : BitVec 5) : VReg := k.v[r.toNat]

def Cell.wv (k : Cell) (r : BitVec 5) (w : VReg) : Cell := { k with v := k.v.set r.toNat w }

def Cell.rq (k : Cell) (r : BitVec 4) : QReg := k.q[r.toNat]

def Cell.wq (k : Cell) (r : BitVec 4) (w : QReg) : Cell := { k with q := k.q.set r.toNat w }

def Cell.tile (k : Cell) (r : BitVec 3) : Tile := k.t[r.toNat]

def Cell.wtile (k : Cell) (r : BitVec 3) (w : Tile) : Cell := { k with t := k.t.set r.toNat w }

def Cell.stat (k : Cell) (r : BitVec 3) : Tstat := k.tstat[r.toNat]

def Cell.wstat (k : Cell) (r : BitVec 3) (w : Tstat) : Cell :=
  { k with tstat := k.tstat.set r.toNat w }

/-- Advance past the instruction. -/
def Cell.adv (k : Cell) : Cell := { k with pc := k.pc + 8 }

/-! ## Partitions and contexts -/

def State.part (s : State) (p : Nat) : Part := s.parts.getD p Part.reset

def State.setPart (s : State) (p : Nat) (v : Part) : State := { s with parts := setAt s.parts p v }

def State.ctx (s : State) (p c : Nat) : Ctx := (s.part p).ctxs.getD c Ctx.reset

def State.setCtx (s : State) (p c : Nat) (v : Ctx) : State :=
  s.setPart p { s.part p with ctxs := setAt (s.part p).ctxs c v }

/-! ## Units (R55 to R64, R82) -/

/-- Enabled cells of every block: 16, or 15 on TK1-B1920 (R57). -/
def State.enabledCells (s : State) : BitVec 16 := if s.fuses.orderB then 0x7FFF else 0xFFFF

/-- Physical cells of a block. -/
def physCells : Nat := 17

/-- The physical cell that the fuses give a logical cell of a block (R57). -/
def State.physCell (s : State) (c : Nat) : Option Nat := (s.fuses.cellMap.getD (c / 16) [])[c % 16]?

/-- The spare physical cells of a block, which are never brought into service (R57). -/
def State.spareCells (s : State) (b : Nat) : List Nat :=
  (List.range physCells).filter fun k => !(s.fuses.cellMap.getD b []).contains k

def State.regionPresent (s : State) (g : Nat) : Bool := decide (g < 8) && !s.units.isolated.getLsbD g

def State.blockPresent (s : State) (b : Nat) : Bool :=
  decide (b < 128) && s.regionPresent (b / 16) && !s.units.blockFenced.getLsbD b

/-- A cell is present when it is enabled and neither it nor its block is fenced. -/
def State.cellPresent (s : State) (c : Nat) : Bool :=
  s.blockPresent (c / 16) && s.enabledCells.getLsbD (c % 16) && (s.physCell c).isSome
    && !(s.units.cellFenced.getD (c / 16) 0).getLsbD (c % 16)

def State.stackPresent (s : State) (n : Nat) : Bool := decide (n < 32) && s.units.hbm.getLsbD n

/-- The partition that holds a region, if any. -/
def State.ownerOf (s : State) (g : Nat) : Option Nat :=
  (List.range 8).find? fun p => (s.part p).inService && (s.part p).regions.getLsbD g

/-- A region's clocks run: rails up, and neither the Snuffer, the halt gate nor the hardware
trip holds them (R75, R397, R400). -/
def State.clocksRun (s : State) : Bool :=
  s.board.railsUp && !s.thermal.snuffed && !s.thermal.haltClosed

/-! ## The event log (R203, R468, R469, R482) -/

/-- Event codes of R217. -/
def evFlowLow : BitVec 16 := 0x0101
def evFlowStop : BitVec 16 := 0x0102
def evTrip : BitVec 16 := 0x0103
def evSensorDisagree : BitVec 16 := 0x0104
def evEstMismatch : BitVec 16 := 0x0105
def evFixedBroken : BitVec 16 := 0x0106
def evCapChange : BitVec 16 := 0x0107
def evFailover : BitVec 16 := 0x0201
def evDualActive : BitVec 16 := 0x0202
def evFrameOverrun : BitVec 16 := 0x0203
def evHang : BitVec 16 := 0x0301
def evOutOfService : BitVec 16 := 0x0302
def evUnitFenced : BitVec 16 := 0x0303
def evPageRetired : BitVec 16 := 0x0304
def evPanFallback : BitVec 16 := 0x0401
def evWindowMismatch : BitVec 16 := 0x0402
def evCheckFail : BitVec 16 := 0x0403
def evPortDown : BitVec 16 := 0x0404
def evFwStaged : BitVec 16 := 0x0501
def evFwActivated : BitVec 16 := 0x0502
def evMeasChanged : BitVec 16 := 0x0503

/-- Sources of R468. -/
def srcLamp : BitVec 8 := 0x00
def srcSec : BitVec 8 := 0x01
def srcCmd : BitVec 8 := 0x02
def srcCtlA : BitVec 8 := 0x03
def srcCtlB : BitVec 8 := 0x04
def srcLink : BitVec 8 := 0x05
def srcHardware : BitVec 8 := 0x06

/-- The source code of the active control processor; Lamplighter in the safe state. -/
def State.ctlSource (s : State) : BitVec 8 :=
  if s.power.active = 0 then srcCtlA else if s.power.active = 1 then srcCtlB else srcLamp

/-- Add to the tray event queue: 1,024 entries, the oldest discarded (R482). -/
def Sideband.enqueue (q : Sideband) (e : TrayEvent) : Sideband :=
  if q.queue.length < 1024 then { q with queue := q.queue ++ [e] }
  else { q with queue := q.queue.drop 1 ++ [e], discarded := q.discarded + 1, polled := false }

/-- Two entries of one frame are identical (R468 `REPEAT`). -/
def LogEntry.same (a b : LogEntry) : Bool :=
  a.event == b.event && a.source == b.source && a.object == b.object && a.arg == b.arg
    && a.frame == b.frame

def LogEntry.again (e : LogEntry) : LogEntry := { e with repeats := min 255 (e.repeats + 1) }

/-- Count a repeat in the queue's entry. -/
def TrayEvent.again (e : LogEntry) : TrayEvent → TrayEvent
  | .log x => if x.same e && x.seq == e.seq then .log x.again else .log x
  | t => t

/-- Log an event: it enters the log of the running frame, the tray queue and `EVT_STATUS`. -/
def State.log (s : State) (event : BitVec 16) (source : BitVec 8) (object arg : BitVec 32) : State :=
  let p := s.flash.persist
  let e : LogEntry :=
    { seq := p.nextSeq.toNat, frame := s.power.frame, event, source, repeats := 0, object, arg,
      dropped := if s.rcv.fresh = [] then s.rcv.droppedPrev else 0,
      rgen := s.mail.resetGen.setWidth 16 }
  let s := { s with mail := { s.mail with evtLast := event, evtCount := s.mail.evtCount + 1,
                                          frameEvent := true } }
  match s.rcv.fresh.find? (fun x => x.same e) with
  | some x =>
    { s with
      rcv := { s.rcv with fresh := s.rcv.fresh.map fun y => if y.same e then y.again else y }
      side := { s.side with queue := s.side.queue.map (TrayEvent.again x) } }
  | none =>
    if s.rcv.fresh.length < 64 then
      { s with
        rcv := { s.rcv with fresh := s.rcv.fresh ++ [e], droppedPrev := if s.rcv.fresh = [] then 0 else s.rcv.droppedPrev }
        flash := { s.flash with persist := { p with nextSeq := p.nextSeq + 1 } }
        side := s.side.enqueue (.log e)
        board := { s.board with alert := true } }
    else { s with rcv := { s.rcv with droppedPrev := s.rcv.droppedPrev + 1 } }

/-- Entries of the ring of R467. -/
def logRing : Nat := 983040

/-- The commit of R468 at the end of a frame. -/
def State.commitLog (s : State) : State :=
  let l := s.flash.log ++ s.rcv.fresh
  { s with flash := { s.flash with log := l.drop (l.length - logRing) }
           rcv := { s.rcv with fresh := [], persistDirty := false } }

/-! ## The address map (R78, R79) -/

/-- What lies at a device physical address. -/
inductive Place where
  | hbm (stack off : Nat)
  | ddr (chan off : Nat)
  | shared (block off : Nat)
  | control (block : Nat)
  | local_ (block cell off : Nat)
  | package
  | host (addr : Nat)
  | hole
deriving DecidableEq, Repr

def hbmSize : Nat := 2 ^ 36
def ddrBase : Nat := 0x100000000000
def sramBase : Nat := 0x200000000000
def packageBase : Nat := 0xF00000000000
def hostBase : Nat := 0x8000000000000

def place (pa : Nat) : Place :=
  if pa < 2 ^ 41 then .hbm (pa / hbmSize) (pa % hbmSize)
  else if ddrBase ≤ pa ∧ pa < ddrBase + 12 * 2 ^ 38 then
    .ddr ((pa - ddrBase) / 2 ^ 38) ((pa - ddrBase) % 2 ^ 38)
  else if sramBase ≤ pa ∧ pa < sramBase + 2 ^ 33 then
    let off := pa - sramBase
    let b := off / 2 ^ 26
    let o := off % 2 ^ 26
    if o < 2 ^ 24 then .shared b o
    else if o < 2 ^ 25 then .control b
    else .local_ b ((o - 2 ^ 25) / 2 ^ 21) ((o - 2 ^ 25) % 2 ^ 21)
  else if packageBase ≤ pa ∧ pa < packageBase + 2 ^ 40 then .package
  else if hostBase ≤ pa ∧ pa < 2 ^ 52 then .host (pa - hostBase)
  else .hole

/-- The first address of a block's shared SRAM. -/
def sharedBase (b : Nat) : Nat := sramBase + b * 2 ^ 26

/-- The first address of a cell's local store. -/
def localBase (c : Nat) : Nat := sharedBase (c / 16) + 2 ^ 25 + (c % 16) * 2 ^ 21

/-- The crash dump holds an address (R79, R191). -/
def State.inDump (s : State) (pa : Nat) : Bool :=
  match s.units.dumpBase with
  | some b => decide (b ≤ pa ∧ pa < b + 2 ^ 28)
  | none => false

/-- An address lies in present memory of its kind. -/
def State.present (s : State) (pa : Nat) : Bool :=
  match place pa with
  | .hbm n _ => s.stackPresent n
  | .ddr n off => decide (off < s.units.dimms.getD n 0 * 2 ^ 30)
  | .shared b _ => s.blockPresent b
  | .control b => s.blockPresent b
  | .local_ b c _ => s.cellPresent (16 * b + c)
  | .package => true
  | .host _ => true
  | .hole => false

/-! ## Granules (R187 to R192) -/

def granuleSize : Nat := 2 ^ 21

def State.granule (s : State) (g : Nat) : Granule :=
  (s.mem.granules.find g).getD { owner := .free, scrub := .pending }

/-- Record a granule; the default condition is not listed. -/
def State.setGranule (s : State) (g : Nat) (v : Granule) : State :=
  let gs := if v = ⟨.free, .pending⟩ then s.mem.granules.del g else SMap.put s.mem.granules g v
  { s with mem := { s.mem with granules := gs } }

/-- The span that holds an address within a partition: a present stack of its regions or a
range of its DDR share, as base and length. -/
def State.span (s : State) (p : Nat) (pa : Nat) : Option (Nat × Nat) :=
  match place pa with
  | .hbm n _ =>
    if s.stackPresent n && (s.part p).regions.getLsbD (n / 4) then some (n * hbmSize, hbmSize) else none
  | .ddr n off =>
    match (s.part p).ranges.find? (fun r => r.chan == n && decide (r.first * 2 ^ 30 ≤ off ∧ off < (r.first + r.gib) * 2 ^ 30)) with
    | some r => if s.present pa then some (ddrBase + n * 2 ^ 38 + r.first * 2 ^ 30, r.gib * 2 ^ 30) else none
    | none => none
  | _ => none

/-- Granules of a span that can hold data: all but the crash dump and, in a confidential
partition, the top ninth (R192). -/
def State.dataGranules (s : State) (p : Nat) (span : Nat × Nat) : Nat :=
  let dump := match s.units.dumpBase with
    | some b => if span.1 ≤ b ∧ b < span.1 + span.2 then 128 else 0
    | none => 0
  let g := span.2 / granuleSize - dump
  if (s.part p).conf then g - divUp g 9 else g

/-- An address lies in a data area of a partition. -/
def State.inData (s : State) (p : Nat) (pa : Nat) : Bool :=
  match s.span p pa with
  | some sp => decide ((pa - sp.1) / granuleSize < s.dataGranules p sp) && !s.inDump pa
  | none => false

/-- A page is retired, or its tags lie in a retired page (R184, R192). -/
def State.retired (s : State) (p : Nat) (page : Nat) : Bool :=
  s.flash.retired.any fun r => r.retired && (r.page == page ||
    match s.span p (page * 4096) with
    | some sp =>
      (s.part p).conf &&
        decide (r.page * 4096 ≥ sp.1 + s.dataGranules p sp * granuleSize ∧ r.page * 4096 < sp.1 + sp.2
          ∧ (r.page * 4096 - (sp.1 + s.dataGranules p sp * granuleSize)) * 8 ≤ page * 4096 - sp.1
          ∧ page * 4096 - sp.1 < (r.page * 4096 - (sp.1 + s.dataGranules p sp * granuleSize)) * 8 + 8 * 4096)
    | none => false)

/-- The target checks of R80, R187 and R194 for the page that holds an address. -/
def State.refuses (s : State) (p c : Nat) (pa : Nat) : Bool :=
  match place pa with
  | .hbm _ _ | .ddr _ _ =>
    let o := (s.granule (pa / granuleSize)).owner
    !s.inData p pa || s.retired p (pa / 4096) || !(o == .ctx p c || o == .shared p)
  | .shared b _ => !s.blockPresent b || !(s.part p).regions.getLsbD (b / 16)
  | .local_ b k _ => !s.cellPresent (16 * b + k) || !(s.part p).regions.getLsbD (b / 16)
  | .host _ => !(s.ctx p c).host
  | .control _ | .package | .hole => true

/-! ## Bytes of memory in canonical form -/

/-- The byte of a list of cells; an unlisted address reads as zero (R188, R429). -/
def Cells.get (l : List Host.Cell) (a : Nat) : Byte := (SMap.find l a).getD 0

/-- Store a byte; zero removes the entry. -/
def Cells.set (l : List Host.Cell) (a : Nat) (b : Byte) : List Host.Cell :=
  if b = 0 then SMap.del l a else SMap.put l a b

/-- Store bytes at rising addresses. -/
def Cells.setAll (l : List Host.Cell) (a : Nat) : List Byte → List Host.Cell
  | [] => l
  | b :: rest => Cells.setAll (Cells.set l a b) (a + 1) rest

/-- Make a range of addresses read as zero. -/
def Cells.zero (l : List Host.Cell) (a n : Nat) : List Host.Cell :=
  l.filter fun c => !(decide (a ≤ c.1) && decide (c.1 < a + n))

/-- The canonical form: addresses strictly rising, no entry equal to what an unlisted address
reads as. -/
def Memory.wf (l : List Host.Cell) : Bool := SMap.sorted l && l.all fun c => c.2 != 0

/-! ## Access to device memory -/

/-- For whom an access is made: the tag of R429. -/
def State.tagOf (s : State) (p c : Nat) : Tag := { part := p, ctx := c, cgen := (s.ctx p c).cgen }

/-- One byte as an agent working for a context reads it: R188 for external memory, the owner
tags of R429 on chip, what the module wrote (else a free value) for host memory. -/
def State.readByte (s : State) (t : Tag) (pa : Nat) : Byte :=
  match place pa with
  | .hbm _ _ | .ddr _ _ =>
    if (s.granule (pa / granuleSize)).scrub = .clean then Cells.get s.mem.cells pa else 0
  | .shared _ _ | .local_ _ _ _ =>
    if s.mem.tags.find (pa / 256) = some t then Cells.get s.mem.cells pa else 0
  | .host a => (SMap.find s.mem.host a).getD (Config.hostByte s.freeCtr a)
  | .control _ | .package | .hole => 0

def State.readBytes (s : State) (t : Tag) (pa n : Nat) : List Byte :=
  (List.range n).map fun i => s.readByte t (pa + i)

def State.readNat (s : State) (t : Tag) (pa n : Nat) : Nat := leNat (s.readBytes t pa n)

/-- The first write to a granule that is not clean zeroes it (R188). -/
def State.firstWrite (s : State) (g : Nat) : State :=
  if (s.granule g).scrub = .clean then s
  else
    let s1 := s.setGranule g { s.granule g with scrub := .clean }
    { s1 with mem := { s1.mem with cells := Cells.zero s1.mem.cells (g * granuleSize) granuleSize } }

/-- A write takes a line over: the rest of a line with another tag reads as zero (R429). A
written line is dirty (R68, R170). -/
def State.takeLine (s : State) (t : Tag) (line : Nat) : State :=
  let m := s.mem
  let cells := if m.tags.find line = some t then m.cells else Cells.zero m.cells (line * 256) 256
  { s with mem := { m with cells, tags := m.tags.put line t, cleanLines := m.cleanLines.del line } }

/-- Store one byte for a context. -/
def State.writeByte (s : State) (t : Tag) (pa : Nat) (b : Byte) : State :=
  match place pa with
  | .hbm _ _ | .ddr _ _ =>
    let s1 := s.firstWrite (pa / granuleSize)
    { s1 with mem := { s1.mem with cells := Cells.set s1.mem.cells pa b } }
  | .shared _ _ | .local_ _ _ _ =>
    let s1 := s.takeLine t (pa / 256)
    { s1 with mem := { s1.mem with cells := Cells.set s1.mem.cells pa b } }
  | .host a => { s with mem := { s.mem with host := SMap.put s.mem.host a b } }
  | .control _ | .package | .hole => s

def State.writeBytes (s : State) (t : Tag) (pa : Nat) : List Byte → State
  | [] => s
  | b :: rest => (s.writeByte t pa b).writeBytes t (pa + 1) rest

/-- Before a device agent accesses lines that the host may hold, the module sends a
back-invalidate snoop for each; the answer takes the line out of the filter (R193). -/
def State.recall (s : State) (pa n : Nat) : State :=
  let hit := fun (l : Nat) => decide (0 < n ∧ pa / 64 ≤ l ∧ l * 64 < pa + n)
  let sent := (s.mem.snoop.flatMap fun x => x.2).filter hit
  if sent = [] then s
  else
    { s with
      mem := { s.mem with snoop := s.mem.snoop.map fun x => (x.1, x.2.filter fun l => !hit l) }
      out := s.out ++ sent.map OutMsg.snoop }

/-- Store bytes in host memory, as the module does for results and completions. -/
def putBytes (m : SMap Byte) (a : Nat) : List Byte → SMap Byte
  | [] => m
  | b :: rest => putBytes (SMap.put m a b) (a + 1) rest

/-- Whether the next write to host memory fails: the link is down, or the host does not take it, which is free
(assumption log entry 5). -/
def State.hostFails (s : State) : Bool := !s.board.cxlUp || Config.freeNat s.freeCtr % 2 == 1

/-- The module writes a result or a completion to host memory; a failed write is noted in `MBX_ERR` (R202, R213). -/
def State.hostWrite (s : State) (a : Nat) (l : List Byte) : State :=
  { s with
    freeCtr := s.freeCtr + 1
    mem := { s.mem with host := if s.hostFails then s.mem.host else putBytes s.mem.host a l }
    mail := { s.mail with errCmplFail := s.mail.errCmplFail || s.hostFails } }

/-- A granule becomes pending (R189). -/
def State.markPending (s : State) (g : Nat) : State :=
  s.setGranule g { s.granule g with scrub := .pending }

end Sys2Proof.Machine
end

