-- ==== Sys2Proof/Machine/Link.lean ====
section
/-! DEFINITION. The link layer of a port half: flits and their CRC, packets and their protection, egress arbitration,
credits and the replay buffer (R265 to R268, R272, R273, R276). -/

namespace Sys2Proof.Machine

/-! ## CRC-64 (R265) -/

/-- One bit of the division by the polynomial, most significant bit first. -/
def crc64Bit (c : BitVec 64) : BitVec 64 := if c.msb then (c <<< 1) ^^^ 0x42F0E1EBA9EA3693 else c <<< 1

def crc64Byte (c : BitVec 64) (b : Byte) : BitVec 64 :=
  crc64Bit (crc64Bit (crc64Bit (crc64Bit (crc64Bit (crc64Bit (crc64Bit (crc64Bit (c ^^^ (b.setWidth 64 <<< 56)))))))))

/-- Initial value all ones, final inversion (R265). That bits enter from the most significant end of each byte is
DEDUCED (assumption log entry 78). -/
def crc64 (l : List Byte) : BitVec 64 := ~~~ (l.foldl crc64Byte (BitVec.allOnes 64))

/-! ## Flits (R265) -/

def ftIdle : Nat := 0
def ftData : Nat := 1
def ftReplay : Nat := 2
def ftControl : Nat := 3

/-- The link header. -/
structure FlitHead where
  ftype : Nat
  vl : Nat
  fseq : BitVec 12
  ack : BitVec 12
  start : Nat
  crVl : Nat
  crCnt : Nat
deriving DecidableEq, Repr

def FlitHead.bytes (h : FlitHead) : List Byte :=
  leBytes 6 (h.ftype % 16 + h.vl % 8 * 2 ^ 4 + h.fseq.toNat * 2 ^ 8 + h.ack.toNat * 2 ^ 20 + h.start % 256 * 2 ^ 32
    + h.crVl % 8 * 2 ^ 40 + h.crCnt % 32 * 2 ^ 43)

def flitHead (l : List Byte) : FlitHead :=
  let n := leNat (l.take 6)
  { ftype := n % 16, vl := n / 2 ^ 4 % 8, fseq := BitVec.ofNat 12 (n / 2 ^ 8), ack := BitVec.ofNat 12 (n / 2 ^ 20)
    start := n / 2 ^ 32 % 256, crVl := n / 2 ^ 40 % 8, crCnt := n / 2 ^ 43 % 32 }

/-- Header, payload and CRC; the CRC, like every field, is little-endian (DEDUCED, assumption log entry 78). -/
def flitBytes (h : FlitHead) (payload : List Byte) : List Byte :=
  let l := h.bytes ++ padTo 242 payload
  l ++ leBytes 8 (crc64 l).toNat

/-- A receiver discards a flit of another length, with a bad CRC, a reserved `FTYPE` or a nonzero reserved bit. -/
def flitGood (l : List Byte) : Bool :=
  l.length == 256 && leNat (l.drop 248) == (crc64 (l.take 248)).toNat && decide ((flitHead l).ftype ≤ 3)
    && leNat (l.take 1) / 2 ^ 7 == 0

def flitPayload (l : List Byte) : List Byte := (l.drop 6).take 242

/-! ## Packets (R272, R273) -/

def packetHeader (p : Packet) : List Byte :=
  leBytes 24 (p.ptype.toNat + p.dstEp.toNat * 2 ^ 8 + p.srcEp.toNat * 2 ^ 28 + p.hops.toNat * 2 ^ 48
    + p.dstPart.toNat * 2 ^ 56 + p.dstCtx.toNat * 2 ^ 60 + p.dstPgen.toNat * 2 ^ 64 + p.dstCgen.toNat * 2 ^ 72
    + p.srcPart.toNat * 2 ^ 80 + p.srcCtx.toNat * 2 ^ 84 + p.srcPgen.toNat * 2 ^ 88 + p.srcCgen.toNat * 2 ^ 96
    + p.payload.length % 2 ^ 13 * 2 ^ 104 + p.obj.toNat * 2 ^ 128)

/-- `LEN` of a header. -/
def headerLen (l : List Byte) : Nat := leNat (l.take 24) / 2 ^ 104 % 2 ^ 13

/-- The reserved bits of a header are zero and `LEN` is in range. -/
def headerClean (l : List Byte) : Bool :=
  let n := leNat (l.take 24)
  n / 2 ^ 5 % 8 == 0 && n / 2 ^ 54 % 4 == 0 && n / 2 ^ 117 % 2 ^ 11 == 0 && decide (headerLen l ≤ 4096)

/-- The packet of a header and a payload. -/
def packetOf (l payload : List Byte) : Packet :=
  let n := leNat (l.take 24)
  { ptype := BitVec.ofNat 5 n, dstEp := BitVec.ofNat 20 (n / 2 ^ 8), srcEp := BitVec.ofNat 20 (n / 2 ^ 28)
    hops := BitVec.ofNat 6 (n / 2 ^ 48), dstPart := BitVec.ofNat 4 (n / 2 ^ 56), dstCtx := BitVec.ofNat 4 (n / 2 ^ 60)
    dstPgen := BitVec.ofNat 8 (n / 2 ^ 64), dstCgen := BitVec.ofNat 8 (n / 2 ^ 72)
    srcPart := BitVec.ofNat 4 (n / 2 ^ 80), srcCtx := BitVec.ofNat 4 (n / 2 ^ 84)
    srcPgen := BitVec.ofNat 8 (n / 2 ^ 88), srcCgen := BitVec.ofNat 8 (n / 2 ^ 96)
    obj := BitVec.ofNat 64 (n / 2 ^ 128), payload }

/-- The IV of a packet: the salt, then the count of packets under the key. -/
def LinkKey.iv (k : LinkKey) : BitVec 96 := k.salt ++ k.count

/-- Encrypt or decrypt: AES-GCM adds one keystream both ways. -/
def LinkKey.crypt (k : LinkKey) (l : List Byte) : List Byte := l.mapIdx fun i b => b ^^^ Config.gcmStream k.key k.iv i

def LinkKey.tag (k : LinkKey) (head cipher : List Byte) : List Byte :=
  leBytes 16 (Config.gcmTag k.key k.iv head cipher).toNat

/-- A packet on the link: header, encrypted payload, tag. -/
def LinkKey.seal (k : LinkKey) (p : Packet) : List Byte :=
  let c := k.crypt p.payload
  packetHeader p ++ c ++ k.tag (packetHeader p) c

/-- The packet that bytes on the link hold, when its tag verifies. -/
def LinkKey.unseal (k : LinkKey) (l : List Byte) : Option Packet :=
  let head := l.take 24
  let c := (l.drop 24).take (headerLen l)
  if l.drop (24 + headerLen l) = k.tag head c then some (packetOf head (k.crypt c)) else none

def LinkKey.next (k : LinkKey) : LinkKey := { k with count := k.count + 1 }

/-! ## Egress (R266 to R268) -/

/-- Ingress credits of a port at the start of a link. -/
def fullCredits (split : Bool) : List Nat :=
  let k := if split then 2 else 1
  List.replicate 6 (320 / k) ++ List.replicate 2 (64 / k)

/-- Unacknowledged flits. -/
def Port.inFlight (k : Port) : Nat := (k.txSeq - k.ackSeq).toNat

/-- A lane has bytes to send. -/
def Port.hasData (k : Port) (vl : Nat) : Bool := k.cut.any (·.1 == vl) || k.queue.any (·.1 == vl)

/-- A data flit can be sent on a lane: a credit, replay space, a key and its count. -/
def Port.canSend (k : Port) (vl : Nat) : Bool :=
  k.st == .active && k.hasData vl && k.txKey.isSome
    && decide (1 ≤ k.credits.getD vl 0 ∧ k.inFlight < 1024 ∧ k.keyFlits < 2 ^ 32)

/-- A link-control flit can be sent. -/
def Port.canControl (k : Port) : Bool :=
  (k.st == .secure || k.st == .active || k.st == .paused) && k.control != [] && decide (k.inFlight < 1024)

/-- Weights of lanes 0 to 5. -/
def laneWeight (vl : Nat) : Nat := if vl < 2 then 2 else 4

/-- The lane of 0 to 5 whose turn it is. -/
def Port.roundRobin (k : Port) (ready : List Nat) : Option Nat :=
  if ready.contains k.turn.lane ∧ k.turn.used < laneWeight k.turn.lane then some k.turn.lane
  else ((List.range 6).map fun i => (k.turn.lane + 1 + i) % 6).find? ready.contains

/-- What goes next: a lane, or a link-control message (none as the lane). VL 7 goes first but at most once in 4 flits
while others wait, VL 6 next but at most once in 16. -/
def Port.choose (k : Port) : Option (Option Nat) :=
  let low := (List.range 6).filter k.canSend
  let v7 := k.canSend 7
  let v6 := k.canControl
  if v7 && ((low.isEmpty && !v6) || decide (3 ≤ k.turn.since7)) then some (some 7)
  else if v6 && ((low.isEmpty && !v7) || decide (15 ≤ k.turn.since6)) then some none
  else match k.roundRobin low with
    | some vl => some (some vl)
    | none => if v7 then some (some 7) else if v6 then some none else none

/-- The arbitration after a flit. -/
def Turn.after (t : Turn) : Option Nat → Turn
  | none => { t with since6 := 0, since7 := t.since7 + 1 }
  | some vl =>
    if vl = 7 then { t with since7 := 0, since6 := t.since6 + 1 }
    else { lane := vl, used := if vl = t.lane then (if t.used < laneWeight vl then t.used + 1 else 1) else 1
           since6 := t.since6 + 1, since7 := t.since7 + 1 }

/-- The next bytes of a lane: what is left of a packet, or the next packet, sealed. -/
def Port.nextBytes (k : Port) (vl : Nat) : Option (List Byte × Waiting × Bool × Port) :=
  match k.cut.find? (·.1 == vl) with
  | some x => some (x.2.1, x.2.2, false, { k with cut := k.cut.filter (·.1 != vl) })
  | none =>
    match k.queue.findIdx? (·.1 == vl), k.txKey with
    | some i, some key =>
      (k.queue[i]?).map fun x =>
        (key.seal x.2.pkt, x.2, true, { k with queue := k.queue.eraseIdx i, txKey := some key.next })
    | _, _ => none

/-- Fill the payload of a data flit: the bytes of a lane's packets without gaps. -/
def Port.fill (vl : Nat) : Nat → Port → SentFlit → Port × SentFlit
  | 0, k, f => (k, f)
  | fuel + 1, k, f =>
    let room := 242 - f.payload.length
    if room = 0 then (k, f)
    else
      match k.nextBytes vl with
      | none => (k, f)
      | some (l, w, fresh, k1) =>
        let g := { f with
          payload := f.payload ++ l.take room
          start := if fresh && f.start == 0xFF then f.payload.length else f.start }
        if room < l.length then ({ k1 with cut := k1.cut ++ [(vl, l.drop room, w)] }, g)
        else Port.fill vl fuel k1 { g with packets := g.packets ++ [w] }

/-- The credits that a header returns: those of the lowest lane that owes 4 flits or more; none while Paused (R270). -/
def Port.returns (k : Port) : (Nat × Nat) × Port :=
  match (List.range 8).find? (fun vl => decide (4 ≤ k.owed.getD vl 0)) with
  | some vl =>
    if k.st = .paused then ((0, 0), k)
    else
      let n := min 31 (k.owed.getD vl 0 / 4)
      ((vl, n), { k with owed := setAt k.owed vl (k.owed.getD vl 0 - 4 * n) })
  | none => ((0, 0), k)

/-- A flit of the replay buffer on the link. -/
def Port.emitSent (k : Port) (c : Nat × Nat) (f : SentFlit) : List Byte :=
  flitBytes { ftype := if f.lane.isSome then ftData else ftControl, vl := f.lane.getD 0, fseq := f.seq, ack := k.rxSeq
              start := f.start, crVl := c.1, crCnt := c.2 } f.payload

/-- A flit that carries no sequence number: idle, or a replay request. -/
def Port.plain (k : Port) (ftype : Nat) : Port × List Byte :=
  let r := k.returns
  (r.2, flitBytes { ftype, vl := 0, fseq := 0, ack := k.rxSeq, start := 0xFF, crVl := r.1.1, crCnt := r.1.2 } [])

/-- The payload of a link-control flit; under a key its last 16 bytes are the tag. -/
def Port.controlPayload (k : Port) (c : Control) (seq : BitVec 12) : List Byte :=
  let l := padTo 226 (Config.controlPayload c.kind c.fields)
  match k.txKey with
  | some key => l ++ leBytes 16 (Config.controlTag key.key key.salt seq l).toNat
  | none => padTo 242 l

/-- The marker of a switch has been sent: the new key takes effect from the next data flit (R276). -/
def Port.switched (k : Port) (c : Control) (seq : BitVec 12) : Port :=
  if c.kind = 1 ∧ k.nextTx.isSome then
    { k with txKey := k.nextTx, nextTx := none, oldTx := k.txKey.map fun x => (x, seq), keyFlits := 0 }
  else k

/-- Send one flit, if any can be sent. -/
def Port.sendOne (k : Port) : Option (Port × List Byte) :=
  let seq := k.txSeq + 1
  let next := fun (k1 : Port) (f : SentFlit) =>
    let r := { k1 with txSeq := seq, keyFlits := k1.keyFlits + 1, turn := k1.turn.after f.lane
                       replay := k1.replay ++ [f] }.returns
    (r.2, r.2.emitSent r.1 f)
  match k.choose with
  | none => none
  | some (some vl) =>
    let r := Port.fill vl 7 k { seq, lane := some vl, start := 0xFF, payload := [], packets := [] }
    some (next { r.1 with credits := modifyAt r.1.credits vl (· - 1) } r.2)
  | some none =>
    match k.control with
    | [] => none
    | c :: rest =>
      let r := next { k with control := rest } { seq, lane := none, start := 0xFF, payload := k.controlPayload c seq, packets := [] }
      some (r.1.switched c seq, r.2)

/-- Send what can be sent: the port and the flits. At most 1,024 flits are in flight. -/
def Port.drain : Nat → Port → Port × List (List Byte)
  | 0, k => (k, [])
  | fuel + 1, k =>
    match k.sendOne with
    | none => (k, [])
    | some (k1, l) =>
      let r := Port.drain fuel k1
      (r.1, l :: r.2)

/-- Acknowledge every flit up to a sequence number; the old key of a rekeying is destroyed once the flit that marked the
switch is acknowledged (R276). -/
def Port.acked (k : Port) (ack : BitVec 12) : Port :=
  if (ack - k.ackSeq).toNat ≤ k.inFlight then
    let covers := fun (x : BitVec 12) => decide ((x - k.ackSeq).toNat ≤ (ack - k.ackSeq).toNat)
    { k with
      ackSeq := ack, sameReplays := if ack = k.ackSeq then k.sameReplays else 0
      oldTx := k.oldTx.filter fun x => !covers x.2
      replay := k.replay.filter fun x => !covers x.seq }
  else k

/-- Credits that a header returns to this end. -/
def Port.returned (k : Port) (h : FlitHead) : Port :=
  { k with credits := modifyAt k.credits h.crVl (· + 4 * h.crCnt) }

/-- Every packet of the port that the peer has not acknowledged whole, with its lane, oldest first. -/
def Port.packets (k : Port) : List (Nat × Waiting) :=
  k.replay.flatMap (fun f => f.packets.map fun w => (f.lane.getD 0, w)) ++ k.cut.map (fun x => (x.1, x.2.2)) ++ k.queue

/-! ## Ingress (R266, R273) -/

/-- What the bytes of a lane hold: whole packets, the bytes left of one that has not arrived whole, and whether every tag
verified. Padding runs to the end of a flit. -/
def takePackets : Nat → LinkKey → List Byte → List (Option Packet) → List (Option Packet) × List Byte × LinkKey × Bool
  | 0, key, l, acc => (acc, l, key, true)
  | fuel + 1, key, l, acc =>
    if l.head? = none ∨ l.head? = some 0 then (acc, [], key, true)
    else if l.length < 24 ∨ l.length < 40 + headerLen l then (acc, l, key, true)
    else
      let n := 40 + headerLen l
      match key.unseal (l.take n) with
      | some p => takePackets fuel key.next (l.drop n) (acc ++ [if headerClean l then some p else none])
      | none => (acc, [], key, false)

/-- The tag of a link-control payload verifies; there is none before key agreement. -/
def Port.controlOk (k : Port) (seq : BitVec 12) (payload : List Byte) : Bool :=
  match k.rxKey with
  | some key => payload.drop 226 == leBytes 16 (Config.controlTag key.key key.salt seq (payload.take 226)).toNat
  | none => true

/-- The peer's marker of a switch to the new key. -/
def Port.peerSwitched (k : Port) (payload : List Byte) : Port :=
  if Config.controlKind (payload.take 226) = 1 ∧ k.nextRx.isSome then
    { k with rxKey := k.nextRx, nextRx := none, rxKeyFlits := 0 }
  else k

end Sys2Proof.Machine
end

