-- ==== Sys2Proof/Machine/Flags.lean ====
section
/-! DEFINITION. The sticky arithmetic flags of `CSTAT` and `TSTATn` (R86, R88, R149, R159). -/

namespace Sys2Proof.Machine

/-- Set sticky flags. -/
def Cell.flag (k : Cell) (f : BitVec 7) : Cell := { k with cstat := k.cstat ||| f }

/-- The flags of `XTAL.V`: a clamp also sets `BOVF` (R106, R159). -/
def withBovf (f : BitVec 7) : BitVec 7 := if f &&& flagXSAT = 0 then f else f ||| flagBOVF

/-- A tile status register as `CSRR` reads it (R86). -/
def Tstat.word (t : Tstat) : Word :=
  t.win.setWidth 64 ||| (t.mode.setWidth 64 <<< 16) ||| (if t.auto then 0x40000 else 0)
    ||| (if t.ovf then 0x80000 else 0) ||| (if t.pend then 0x100000 else 0)

/-- A tile status register from a written word; `PEND` only with `AUTO` = 1 and `MODE` = 0b01 (R86). R86 says so of a
`CSRW`; the same holds here of the word that a `CSRS` or `CSRC` makes (DESIGN CHOICE, assumption log entry 73). -/
def Tstat.ofWord (w : Word) : Tstat :=
  { win := w.extractLsb' 0 16, mode := w.extractLsb' 16 2, auto := w.getLsbD 18,
    ovf := w.getLsbD 19,
    pend := w.getLsbD 20 && w.getLsbD 18 && w.extractLsb' 16 2 == 1 }

/-- `ESTAT` as `CSRR` reads it (R88). -/
def Cell.estat (k : Cell) : Word :=
  (if k.ppriv then 1 else 0) ||| (if k.preempt then 2 else 0) ||| (if k.cancel then 4 else 0)
    ||| (k.asub.setWidth 64 <<< 8) ||| (if k.aop then 0x10000 else 0)

/-- A tile is open in a mode that `TMMA` knows (R86, R110). -/
def Tstat.isOpen (t : Tstat) : Bool := t.mode == 1 || t.mode == 2

end Sys2Proof.Machine
end

