-- ==== Sys2Proof/Machine/Operands.lean ====
section
/-! DEFINITION. Element types, the elements of vector registers, guards and broadcast
(R85, R95 to R97). -/

namespace Sys2Proof.Machine

/-! ## Element types (R97) -/

def etFP32 : Nat := 0x0
def etBF16 : Nat := 0x1
def etFP16 : Nat := 0x2
def etE4M3 : Nat := 0x3
def etE5M2 : Nat := 0x4
def etE2M3 : Nat := 0x5
def etE3M2 : Nat := 0x6
def etE2M1 : Nat := 0x7
def etINT8 : Nat := 0x8
def etINT4 : Nat := 0x9
def etINT16 : Nat := 0xA
def etINT32 : Nat := 0xB
def etINT64 : Nat := 0xC
def etBrine : Nat := 0xD

/-- Bits that an element takes in a register: FP6 is held one to a byte (R85). -/
def etWidth (et : Nat) : Nat :=
  if et = etFP32 ∨ et = etINT32 then 32
  else if et = etBF16 ∨ et = etFP16 ∨ et = etINT16 then 16
  else if et = etE2M1 ∨ et = etINT4 then 4
  else if et = etINT64 ∨ et = etBrine then 64
  else 8

/-- The floating-point format of a code, if it is one. -/
def etFormat (et : Nat) : Option FFmt :=
  if et = etFP32 then some fp32
  else if et = etBF16 then some bf16
  else if et = etFP16 then some fp16
  else if et = etE4M3 then some e4m3
  else if et = etE5M2 then some e5m2
  else if et = etE2M3 then some e2m3
  else if et = etE3M2 then some e3m2
  else if et = etE2M1 then some e2m1
  else none

/-- A reserved code of R97. -/
def etReserved (et : Nat) : Bool := decide (0xE ≤ et)

/-- The types of vector arithmetic: FP32, BF16, FP16, INT8, INT16, INT32, INT64 (R496). -/
def etArith (et : Nat) : Bool :=
  decide (et ≤ 2) || et == etINT8 || et == etINT16 || et == etINT32 || et == etINT64

/-- The floating-point types of vector arithmetic (R101). -/
def etFloat (et : Nat) : Bool := decide (et ≤ 2)

/-- The integer types of vector arithmetic. -/
def etInt (et : Nat) : Bool := etArith et && !etFloat et

/-! ## Elements -/

/-- Element `i` of `b` bits of a register's bits (R85). -/
def elemOf (b : Nat) (r i : Nat) : Nat := (r >>> (b * i)) % 2 ^ b

/-- The bits of elements 0 to n − 1, least significant first. -/
def packElems (b : Nat) (f : Nat → Nat) : Nat → Nat
  | 0 => 0
  | n + 1 => packElems b f n + (f n % 2 ^ b) <<< (b * n)

/-- Element `i` of a vector register. -/
def vecElem (b : Nat) (v : VReg) (i : Nat) : Nat := elemOf b v.toNat i

/-- A vector register from its elements of `b` bits. -/
def vecOf (b : Nat) (f : Nat → Nat) : VReg := BitVec.ofNat 8192 (packElems b f (8192 / b))

/-! ## Guards -/

/-- The guard that an instruction names: a predicate, inverted with `PN` (R95). -/
def Cell.guard (k : Cell) (pg : BitVec 4) (pn : Bool) : PReg :=
  if pn then ~~~(k.rp pg) else k.rp pg

/-- Whether the guard bit that governs element `i` of `b` bits is true (R85). -/
def guardOn (g : PReg) (b i : Nat) : Bool := g.getLsbD (b * i / 32)

/-- Write elements `lo` to `lo + n − 1` under a guard: unguarded ones are zeroed with `MZ` = 1
and kept otherwise (R96); elements outside the part keep their values (R102). -/
def vecWrite (b lo n : Nat) (g : PReg) (mz : Bool) (old : VReg) (res : Nat → Nat) : VReg :=
  vecOf b fun i =>
    if lo ≤ i ∧ i < lo + n then
      if guardOn g b i then res (i - lo) else if mz then 0 else vecElem b old i
    else vecElem b old i

/-- The union of the flags of the guarded elements. -/
def vecFlags (b lo n : Nat) (g : PReg) (fl : Nat → BitVec 7) : BitVec 7 :=
  (List.range n).foldl (fun a i => if guardOn g b (lo + i) then a ||| fl i else a) 0

/-- How many guarded elements satisfy a condition. -/
def vecCount (b lo n : Nat) (g : PReg) (p : Nat → Bool) : Nat :=
  ((List.range n).filter fun i => guardOn g b (lo + i) && p i).length

/-- The second operand: `VB`, or with `BS` = 1 the broadcast of `s[SS]` (R96). -/
def Cell.operandB (k : Cell) (o : VOp) (b i : Nat) : Nat :=
  if o.bs then (k.rs o.ss).toNat % 2 ^ b else vecElem b (k.rv o.vb) i

end Sys2Proof.Machine

namespace Sys2Proof

/-- Instructions with an operand `VB` that use `SS` for the broadcast only: the field that is
not selected is zero (R96). -/
def VOp.bOk (o : VOp) : Bool := if o.bs then o.vb == 0 else o.ss == 0

/-- Instructions without an operand `VB`. -/
def VOp.noB (o : VOp) : Bool := !o.bs && o.vb == 0

/-! ## AUX fields (R101) -/

def VOp.auxHi (o : VOp) : Nat := o.aux.toNat / 2 ^ 16
def VOp.part (o : VOp) : Nat := o.aux.toNat / 2 ^ 13 % 8
def VOp.satBit (o : VOp) : Bool := o.aux.getLsbD 12
def VOp.op3 (o : VOp) : Nat := o.aux.toNat / 2 ^ 9 % 8
def VOp.lane (o : VOp) : Nat := o.aux.toNat % 256

/-- `AUX` has no bit outside a mask. -/
def VOp.auxIn (o : VOp) (mask : BitVec 20) : Bool := o.aux &&& ~~~mask == 0

end Sys2Proof
end

