-- ==== Sys2Proof/Machine/CellOps.lean ====
section
/-! DEFINITION. What every cell instruction shares: performance events, translation, exceptions
and the issue of one instruction (R84 to R94, R132 to R140, R338 to R343). -/

namespace Sys2Proof.Machine

/-! ## Performance events (R336 to R343) -/

/-- Occurrences of an event: `n` of them, the k-th at address `addr` + 64 k when it has one; `block` counts
them where it is not the block of the master. -/
structure Ev where
  code : Nat
  n : Nat
  addr : Option Nat
  block : Option Nat := none
deriving DecidableEq, Repr

/-- `n` occurrences of an event without an address. -/
def ev (code n : Nat) : Ev := { code, n, addr := none }

/-- Classes of R339 and privileges of R342. -/
def clsCompute : Nat := 0
def clsMemory : Nat := 1
def clsFabric : Nat := 2
def clsControl : Nat := 3
def privUser : Nat := 0
def privSup : Nat := 1
def privFirmware : Nat := 2

/-- Masters of `PMSEL.MKIND`. -/
def mkCell : Nat := 1
def mkMover : Nat := 2
def mkTier : Nat := 3
def mkEngine : Nat := 4
def mkHost : Nat := 5

/-- The block runs in census mode (R336). -/
def State.census (s : State) (b : Nat) : Bool := s.config.active.getLsbD (8 * 0x10 + b)

/-- Lines `a` to `a + n − 1` (in units of 64 bytes) within a range with inclusive bounds. -/
def linesIn (lo hi a n : Nat) : Nat := min (a + n) (hi + 1) - max a lo

/-- Lines of a range of `n` lines from `a` that lie in either of two ranges, each counted once. -/
def linesInEither (lo0 hi0 lo1 hi1 a n : Nat) : Nat :=
  linesIn lo0 hi0 a n + linesIn lo1 hi1 a n - linesIn (max lo0 lo1) (min hi0 hi1) a n

/-- How many occurrences satisfy the address filter of a `PMSEL` (R342). -/
def addrHits (k : Cell) (sel : BitVec 64) (e : Ev) : Nat :=
  let ar := (sel.extractLsb' 21 3).toNat
  match e.addr with
  | none => if ar = 0 then e.n else 0
  | some a =>
    let b := fun (i : Nat) => (k.pmaddr.toList.getD i 0).toNat / 64
    if ar = 0 then e.n
    else if ar = 1 then linesIn (b 0) (b 1) (a / 64) e.n
    else if ar = 2 then linesIn (b 2) (b 3) (a / 64) e.n
    else linesInEither (b 0) (b 1) (b 2) (b 3) (a / 64) e.n

/-- How many occurrences a counter counts (R342). -/
def pmselHits (k : Cell) (sel : BitVec 64) (mk cl priv cls : Nat) (e : Ev) : Nat :=
  let kind := (sel.extractLsb' 14 3).toNat
  if sel.getLsbD 28 && (sel.extractLsb' 0 8).toNat == e.code && sel.getLsbD (10 + priv)
      && sel.getLsbD (24 + cls)
      && (kind == 0 || (kind == mk && (mk != mkCell || (sel.extractLsb' 17 4).toNat == cl % 16)))
  then addrHits k sel e else 0

/-- A cell's counters after an event, as far as the counter with index below the fuel. -/
def Cell.bump (k : Cell) (mk cl priv cls : Nat) (e : Ev) : Nat → Cell
  | 0 => k
  | j + 1 =>
    let k1 := k.bump mk cl priv cls e j
    let v := (k1.pmc.toList.getD j 0).toNat + pmselHits k (k.pmsel.toList.getD j 0) mk cl priv cls e
    { k1 with pmc := k1.pmc.setIfInBounds j (BitVec.ofNat 48 v)
              pmovf := if 2 ^ 48 ≤ v then putBit k1.pmovf j true else k1.pmovf }

/-- A census counter after an event. -/
def CounterBank.bump (b : CounterBank) (e : Ev) : CounterBank :=
  let v := (b.census.toList.getD e.code 0).toNat + e.n
  { b with
    census := b.census.setIfInBounds e.code (BitVec.ofNat 48 v)
    ovf := if 2 ^ 48 ≤ v then putBit b.ovf e.code true else b.ovf }

/-- Count an event of a block: in the bank in census mode, else in the counters of the cells that no
fence has stopped (R346). -/
def State.countOne (s : State) (b mk cl priv cls : Nat) (e : Ev) : State :=
  if s.census b then s.setBank b ((s.bank b).bump e)
  else { s with cells := s.cells.map fun x =>
    if x.1 / 16 = b ∧ s.cellPresent x.1 then (x.1, x.2.bump mk cl priv cls e 8) else x }

/-- Count events of a master of block `b`. For another block a cell is no cell of its own, so that only a counter
for any master counts it there. -/
def State.count (s : State) (b mk cl priv cls : Nat) (es : List Ev) : State :=
  es.foldl (fun t e => t.countOne (e.block.getD b) (if mk = mkCell ∧ e.block.getD b ≠ b then 0 else mk) cl priv cls e) s

/-- Count events of a cell at its present privilege. -/
def State.countCell (s : State) (c cls : Nat) (es : List Ev) : State :=
  s.count (c / 16) mkCell c (if (s.cell c).sup then privSup else privUser) cls es

/-! ## Translation (R132 to R134) -/

/-- The kinds of access a page table entry allows. -/
inductive Acc where
  | load
  | store
  | fetch
deriving DecidableEq, Repr

/-- Cause codes of R137. -/
def cIllegal : BitVec 8 := 0x01
def cPrivileged : BitVec 8 := 0x02
def cMisaligned : BitVec 8 := 0x03
def cXlate : BitVec 8 := 0x04
def cPermission : BitVec 8 := 0x05
def cRefused : BitVec 8 := 0x06
def cTileState : BitVec 8 := 0x07
def cBadOperand : BitVec 8 := 0x08
def cBreakpoint : BitVec 8 := 0x09
def cScall : BitVec 8 := 0x0A
def cPreempt : BitVec 8 := 0x10
def cCancel : BitVec 8 := 0x11
def cAsyncFault : BitVec 8 := 0x12

/-- A translation: the physical address, or the cause of the fault. -/
inductive Xlat where
  | ok (pa : Nat)
  | fault (cause : BitVec 8)
deriving DecidableEq, Repr

/-- Reserved bits of a page table entry. -/
def pteReserved (e : BitVec 64) : Bool := e.extractLsb' 6 6 != 0 || e.extractLsb' 52 12 != 0

/-- The address field of a page table entry. -/
def pteAddr (e : BitVec 64) : Nat := (e.extractLsb' 12 40).toNat * 4096

/-- Whether a leaf allows an access. -/
def pteAllows (e : BitVec 64) (acc : Acc) (user : Bool) : Bool :=
  (match acc with
   | .load => e.getLsbD 1
   | .store => e.getLsbD 2
   | .fetch => e.getLsbD 3) && (!user || e.getLsbD 4)

/-- What a walk finds: the addresses of the entries that it reads, and the leaf with the size of its page; no
leaf where an entry raises `XLATE`. -/
structure Found where
  reads : List Nat
  leaf : Option (BitVec 64 × Nat)
deriving DecidableEq, Repr

/-- The walk below a table: `lvl + 1` levels remain, the next table is at `table` (R132, R133). A pointer
entry with `R`, `W`, `X` or `U` set, which R133 forbids without naming a cause, raises `XLATE` too (DESIGN CHOICE,
assumption log entry 68). -/
def State.walk (s : State) (t : Tag) (va : Nat) : Nat → Nat → Found
  | 0, _ => ⟨[], none⟩
  | lvl + 1, table =>
    let a := table + 8 * (va / 2 ^ (12 + 9 * lvl) % 512)
    let e := BitVec.ofNat 64 (s.readNat t a 8)
    let size := 2 ^ (12 + 9 * lvl)
    if !e.getLsbD 0 || pteReserved e then ⟨[a], none⟩
    else if e.getLsbD 5 then
      if 2 < lvl ∨ pteAddr e % size ≠ 0 then ⟨[a], none⟩ else ⟨[a], some (e, size)⟩
    else if lvl = 0 || e.extractLsb' 1 4 != 0 then ⟨[a], none⟩
    else
      let r := s.walk t va lvl (pteAddr e)
      ⟨a :: r.reads, r.leaf⟩

/-- The walk of an address from a root table. -/
def State.walkFrom (s : State) (t : Tag) (root : Word) (va : Nat) : Found :=
  if 2 ^ 57 ≤ va then ⟨[], none⟩ else s.walk t va 5 root.toNat

/-- An access through a leaf (R80, R133). -/
def State.useLeaf (s : State) (t : Tag) (acc : Acc) (user : Bool) (va : Nat) (e : BitVec 64) (size : Nat) : Xlat :=
  if !pteAllows e acc user then .fault cPermission
  else
    let pa := pteAddr e + va % size
    if s.refuses t.part t.ctx pa then .fault cRefused else .ok pa

/-- Where an agent translates: from a root table, with the translations that it may hold. -/
structure Space where
  root : Word
  cached : List Xent
deriving DecidableEq, Repr

/-- The tables of a cell, with the translations held for it. -/
def Cell.space (k : Cell) : Space := { root := k.ptroot, cached := k.tlb }

/-- The tables of a context, with the translations that any block holds for it: a mover or an engine that works for
the context may use one of them. -/
def State.space (s : State) (p c : Nat) : Space :=
  { root := (s.ctx p c).ptroot, cached := s.cells.flatMap fun x => x.2.tlb }

/-- The translations held for the page of an address. -/
def Space.held (sp : Space) (t : Tag) (va : Nat) : List Xent :=
  sp.cached.filter fun x => x.tag == t && x.base == va / x.size * x.size

/-- An access by the tables as they are in memory. -/
def State.byTables (s : State) (t : Tag) (root : Word) (acc : Acc) (user : Bool) (va : Nat) : Xlat :=
  match (s.walkFrom t root va).leaf with
  | some (e, size) => s.useLeaf t acc user va e size
  | none => .fault cXlate

/-- Translate a virtual address for a context: by the tables, or by one of the translations held; which of
them an access uses is open until `MMUINV` (R134). -/
def State.translate (s : State) (t : Tag) (sp : Space) (acc : Acc) (user : Bool) (va : Nat) : Xlat :=
  if 2 ^ 57 ≤ va then .fault cXlate
  else
    match sp.held t va with
    | [] => s.byTables t sp.root acc user va
    | x :: l =>
      match (x :: l).drop (Config.stale s.freeCtr va) with
      | y :: _ => s.useLeaf t acc user va y.leaf y.size
      | [] => s.byTables t sp.root acc user va

/-- A piece of a translated range: virtual address, physical address, length. -/
structure Piece where
  va : Nat
  pa : Nat
  len : Nat
deriving DecidableEq, Repr

/-- The parts of a range that lie in one 4 KiB page each. -/
def pageParts (va n : Nat) : List (Nat × Nat) :=
  (List.range ((va % 4096 + n + 4095) / 4096)).map fun k =>
    let lo := max va ((va / 4096 + k) * 4096)
    let hi := min (va + n) ((va / 4096 + k + 1) * 4096)
    (lo, hi - lo)

/-- Translate parts in order, up to the first fault: the pieces, and the fault with its address. -/
def State.translateParts (s : State) (t : Tag) (sp : Space) (acc : Acc) (user : Bool) :
    List (Nat × Nat) → List Piece × Option (BitVec 8 × Nat)
  | [] => ([], none)
  | (va, n) :: rest =>
    match s.translate t sp acc user va with
    | .fault c => ([], some (c, va))
    | .ok pa =>
      let r := s.translateParts t sp acc user rest
      ({ va, pa, len := n } :: r.1, r.2)

/-- Translate a range. -/
def State.translateRange (s : State) (t : Tag) (sp : Space) (acc : Acc) (user : Bool) (va n : Nat) :
    List Piece × Option (BitVec 8 × Nat) :=
  s.translateParts t sp acc user (pageParts va n)

/-- The bytes of translated pieces. -/
def State.readPieces (s : State) (t : Tag) (ps : List Piece) : List Byte :=
  ps.flatMap fun p => s.readBytes t p.pa p.len

/-- Snoop the lines of translated pieces that the host may hold (R193). -/
def State.recallPieces (s : State) (ps : List Piece) : State := ps.foldl (fun a p => a.recall p.pa p.len) s

/-- Store bytes over translated pieces, after the snoops that they need. -/
def State.writePieces (s : State) (t : Tag) : List Piece → List Byte → State
  | [], _ => s
  | p :: rest, l => ((s.recall p.pa p.len).writeBytes t p.pa (l.take p.len)).writePieces t rest (l.drop p.len)

/-! ## The context of a cell -/

/-- The tag of the item on a cell. -/
def State.cellTag (s : State) (k : Cell) : Tag :=
  match k.run with
  | some r => s.tagOf r.part r.ctx
  | none => { part := 0, ctx := 0, cgen := 0 }

/-- Translate a range for a cell at its present privilege. -/
def State.cellRange (s : State) (k : Cell) (acc : Acc) (va n : Nat) :
    List Piece × Option (BitVec 8 × Nat) :=
  s.translateRange (s.cellTag k) k.space acc (!k.sup) va n

/-! ## Memory events (R338) -/

/-- The events of a line that a cell `c` of block `b` reads or writes, with the block that counts them: a line of
external memory counts for the block that asks, a line of on-chip memory for the block that holds it. -/
def lineEvents (b c : Nat) (write : Bool) (pa : Nat) : List (Nat × Nat) :=
  match place pa with
  | .hbm n _ => [(if n / 4 = b / 16 then (if write then 0x3C else 0x38) + n % 4 else 0x40, b)]
  | .ddr _ _ => [(0x41, b)]
  | .host _ => [(0x42, b)]
  | .shared b' _ => (if write then 0x33 else 0x32, b') :: if b' ≠ b ∧ !write then [(0x37, b)] else []
  | .local_ b' c' _ => if 16 * b' + c' = c then [] else [(0x31, b')]
  | _ => []

/-- The lines of a piece of an access. -/
def pieceEvents (b c : Nat) (write : Bool) (p : Piece) : List Ev :=
  if p.len = 0 then []
  else (lineEvents b c write p.pa).map fun x =>
    { code := x.1, n := (p.va + p.len - 1) / 64 - p.va / 64 + 1, addr := some p.va, block := some x.2 }

/-- A load that reaches external memory (event 0x49). -/
def extLoads (ps : List Piece) : List Ev :=
  if ps.any fun p => match place p.pa with
    | .hbm _ _ | .ddr _ _ => true
    | _ => false
  then [ev 0x49 1] else []

/-- Lines read as zero from granules that are not clean (R188, event 0x4E). -/
def State.pendingEvents (s : State) (p : Piece) : List Ev :=
  match place p.pa with
  | .hbm _ _ | .ddr _ _ =>
    if (s.granule (p.pa / granuleSize)).scrub = .clean then []
    else [{ code := 0x4E, n := (p.va + p.len - 1) / 64 - p.va / 64 + 1, addr := some p.va }]
  | _ => []

/-- The events of an access of a cell. -/
def State.accessEvents (s : State) (c : Nat) (write : Bool) (ps : List Piece) : List Ev :=
  (if write then [] else extLoads ps)
    ++ ps.flatMap fun p => pieceEvents (c / 16) c write p ++ (if write then [] else s.pendingEvents p)

/-! ## Exceptions (R136 to R139) -/

/-- Registers of an exception entry (R138). -/
def Cell.enter (k : Cell) (cause : BitVec 8) (addr : Word) : Cell :=
  { k with epc := k.pc, ecause := cause, eaddr := addr, ppriv := k.sup, sup := true, pc := k.svec,
           wait := none }

/-- Whether an exception can be taken: in user mode with a handler (R138). -/
def Cell.handles (k : Cell) : Bool := !k.sup && k.svec != 0

/-- The item ends; while asynchronous work is outstanding the dispatcher does not learn of it
(R131, R138, R140). -/
def Cell.finish (k : Cell) (e : Ending) : Cell :=
  if k.async = [] then { k with ended := some e, wait := none, faults := [] }
  else { k with ending := some e, wait := none, faults := [] }

/-- Leave a cell as `k`; where that ends its item, the ending is counted (R338). -/
def State.putEnd (s : State) (c : Nat) (k : Cell) : State :=
  let s1 := s.setCell c k
  if k.ended.isSome && (s.cell c).ended.isNone then s1.countCell c clsControl [ev 0x5E 1] else s1

/-- Take an exception on a cell: enter the supervisor, or end the item `FAILED` (R138). -/
def State.raise (s : State) (c : Nat) (cause : BitVec 8) (addr : Word) : State :=
  let k := s.cell c
  if k.handles then
    let s1 := s.countCell c clsControl [ev 0x59 1]
    s1.setCell c ((s1.cell c).enter cause addr)
  else s.putEnd c (k.finish { kind := .failedException, value := 0, cause })

/-- Deliver what is pending at a boundary in user mode: an asynchronous fault first, then a
cancel request, then a preempt request (R139). -/
def State.deliver (s : State) (c : Nat) : State :=
  let k := s.cell c
  if k.sup || k.ended.isSome || k.ending.isSome || k.stopped then s
  else
    match k.faults with
    | f :: rest =>
      let s1 := s.setCell c { k with faults := rest, asub := f.cause, aop := f.gather }
      s1.raise c cAsyncFault f.addr
    | [] =>
      if k.cancel then
        let s1 := s.countCell c clsControl [ev 0x5F 1]
        (s1.setCell c { s1.cell c with cancel := false }).raise c cCancel 0
      else if k.preempt then
        let s1 := s.countCell c clsControl [ev 0x5F 1]
        (s1.setCell c { s1.cell c with preempt := false }).raise c cPreempt 0
      else s

/-! ## What an instruction does -/

/-- What an instruction does: a next state with the events it caused and the pieces of memory that it
read and wrote, an exception, or nothing because the conditions for its issue do not hold yet. -/
inductive Eff where
  | next (s : State) (evs : List Ev) (reads writes : List Piece)
  | exc (cause : BitVec 8) (addr : Word)
  | stall (s : State)
deriving DecidableEq, Repr

/-- An effect on the cell alone. -/
def Eff.put (s : State) (c : Nat) (k : Cell) (evs : List Ev) : Eff := .next (s.setCell c k) evs [] []

/-- An effect on the cell alone, advancing past the instruction. -/
def Eff.cell (s : State) (c : Nat) (k : Cell) (evs : List Ev) : Eff := .put s c k.adv evs

/-- A load of pieces of memory, after the snoops that it needs, that leaves the cell as `k`. -/
def Eff.load (s : State) (c : Nat) (k : Cell) (ps : List Piece) (evs : List Ev) : Eff :=
  .next (({ s with freeCtr := s.freeCtr + 1 }.recallPieces ps).setCell c k.adv) evs ps []

/-- A store over pieces of memory that leaves the cell as `k`. -/
def Eff.store (s : State) (c : Nat) (k : Cell) (ps : List Piece) (l : List Byte) (evs : List Ev) : Eff :=
  .next ((s.writePieces (s.cellTag k) ps l).setCell c k.adv) evs [] ps

/-- A condition whose failure raises `ILLEGAL` (R99). -/
def Eff.legal (b : Bool) (e : Eff) : Eff := if b then e else .exc cIllegal 0

/-- An instruction runs only on a present cell whose clock runs and which issues for an item. -/
def State.canIssue (s : State) (c : Nat) : Bool :=
  let k := s.cell c
  s.cellPresent c && s.clocksRun && k.run.isSome && k.ended.isNone && k.ending.isNone && !k.stopped

/-- An outstanding `VGATHERP` has still to write one of these predicates (R92, R124). -/
def Cell.predBusy (k : Cell) (ps : List (BitVec 4)) : Bool :=
  k.async.any fun a => a.gather && a.pd != 0 && ps.contains a.pd

end Sys2Proof.Machine
end

