-- ==== Sys2Proof/Machine/Clock.lean ====
section
/-! DEFINITION. Counters that follow the clock (R338 to R342). What they count depends on time, which the model
does not hold: whenever a counter is read or written, a free amount of time has passed since the last such moment,
and the counters take what has happened in it (assumption log entry 69). -/

namespace Sys2Proof.Machine

/-- Events whose counts depend on time, on queueing or on caches (R94). Of `SLOT_WASTED` that is the part which
mispredicted branches squash. -/
def timedEvent (e : Nat) : Bool :=
  decide (1 ≤ e ∧ e ≤ 3) || e == 0x05 || e == 0x07 || e == 0x08 || decide (0x0D ≤ e ∧ e ≤ 0x30)
    || e == 0x35 || e == 0x36 || e == 0x48 || e == 0x4A || e == 0x4B || e == 0x4F || e == 0x54 || e == 0x57
    || e == 0x5B || e == 0x5C

/-- The classes of what may cause a timed event, as a mask of `PMSEL.CLASS` (R338, R339): a slot or a stall takes any
class of a cell's slots, a wait for a bank comes from cells, movers and engines. -/
def timedClasses (e : Nat) : BitVec 4 :=
  if e ≤ 0x03 ∨ (0x0D ≤ e ∧ e ≤ 0x0F) then 0b1011
  else if e < 0x10 then 0b0001
  else if e < 0x30 ∨ (0x50 ≤ e ∧ e < 0x58) then 0b0110
  else if e < 0x50 then 0b0010
  else 0b1000

/-- Timed events whose occurrences have an address. -/
def timedAddressed (e : Nat) : Bool :=
  decide (0x10 ≤ e ∧ e ≤ 0x30) || e == 0x35 || e == 0x36 || e == 0x48 || e == 0x4F || e == 0x54

/-- How many occurrences of timed event `e` a counter of cell `c` takes, of which the cell itself has caused `n`
(R342): none where a filter excludes them, all of its own where none excludes any, else a free number. -/
def timedHits (c : Nat) (sel : BitVec 64) (e n f : Nat) : Nat :=
  let cls := sel.extractLsb' 24 4 &&& timedClasses e
  let range := sel.extractLsb' 21 3 != 0
  let own := (sel.extractLsb' 14 3).toNat == mkCell && (sel.extractLsb' 17 4).toNat == c % 16
  let full := cls == timedClasses e && sel.getLsbD 10 && sel.getLsbD 11 && !range
  if !sel.getLsbD 28 || cls == 0 || sel.extractLsb' 10 3 == 0 || (range && !timedAddressed e) then 0
  else if own then (if full then n else f % (n + 1))
  else f

/-- What happens in the four slots of a cell over the clocks that pass (R340): `used` were retired or wasted, and
of the rest `back` were back-starved. The occurrences of event `e`. -/
def slotShare (clocks used squashed back f : Nat) (e : Nat) : Nat :=
  if e = 1 then squashed else if e = 2 then 4 * clocks - used - back else if e = 3 then back else f

/-- The counters of a cell after `d` clocks with `n e` occurrences of each timed event, as far as the counter with
index below the fuel. -/
def Cell.timePmc (k : Cell) (c : Nat) (n f : Nat → Nat) : Nat → Cell
  | 0 => k
  | j + 1 =>
    let k1 := k.timePmc c n f j
    let sel := k.pmsel.toList.getD j 0
    let e := (sel.extractLsb' 0 8).toNat
    let v := (k1.pmc.toList.getD j 0).toNat + if timedEvent e then timedHits c sel e (n e) (f j) else 0
    { k1 with pmc := k1.pmc.setIfInBounds j (BitVec.ofNat 48 v)
              pmovf := if 2 ^ 48 ≤ v then putBit k1.pmovf j true else k1.pmovf }

/-- The clock of a cell has advanced (R341): `CYCLE` wraps with its sticky bit. -/
def Cell.timeCycle (k : Cell) (d : Nat) : Cell :=
  { k with
    cycle := k.cycle + BitVec.ofNat 64 d
    pmovf := if 2 ^ 64 ≤ k.cycle.toNat + d then putBit k.pmovf 8 true else k.pmovf
    slotUsed := 0 }

/-- Time passes for the counters of a cell in select mode. A cell that is fenced or whose clocks stand counts
nothing (R337, R341, R346). -/
def State.elapseCell (s : State) (c : Nat) : State :=
  if s.census (c / 16) || !(s.cellPresent c && s.clocksRun) then s
  else
    let k := s.cell c
    let f := fun (i : Nat) => Config.freeNat (s.freeCtr + i)
    let used := k.slotUsed + f 1
    let d := f 0 + divUp used 4
    let n := fun (e : Nat) => slotShare d used (f 1) (f 2 % (4 * d - used + 1)) (f (16 + e)) e
    { s with freeCtr := s.freeCtr + 512 }.setCell c ((k.timePmc c n (fun j => f (256 + j)) 8).timeCycle d)

/-- Census counters after `n e` occurrences of each timed event. -/
def CounterBank.pass (b : CounterBank) (n : Nat → Nat) : CounterBank :=
  let b1 := ((List.range 96).filter timedEvent).foldl (fun a e => a.bump { code := e, n := n e, addr := none }) b
  { b1 with slotUsed := 0 }

/-- Time passes for the census counters of a block. -/
def State.elapseBank (s : State) (b : Nat) : State :=
  if !s.census b || !(s.blockPresent b && s.clocksRun) then s
  else
    let k := s.bank b
    let f := fun (i : Nat) => Config.freeNat (s.freeCtr + i)
    let used := k.slotUsed + f 1
    let d := f 0 + divUp used 4
    let n := fun (e : Nat) => slotShare d used (f 1) (f 2 % (4 * d - used + 1)) (f (16 + e)) e
    { s with freeCtr := s.freeCtr + 512 }.setBank b (k.pass n)

/-- Time passes before the register numbered `n` of a cell is read or written. -/
def State.elapse (s : State) (c n : Nat) : State :=
  if n < 0x100 then s else if n < 0x180 then s.elapseCell c else s.elapseBank (c / 16)

/-- Issue slots of a cell are retired or wasted (R340). -/
def State.useSlots (s : State) (c n : Nat) : State :=
  if s.census (c / 16) then s.setBank (c / 16) { s.bank (c / 16) with slotUsed := (s.bank (c / 16)).slotUsed + n }
  else s.setCell c { s.cell c with slotUsed := (s.cell c).slotUsed + n }

end Sys2Proof.Machine
end

