-- ==== Sys2Proof/Machine/Desc.lean ====
section
/-! DEFINITION. Collective descriptors: their fields, the sizes of elements and chunks, and the buffers that an
operation uses (R299 to R304, R307). -/

namespace Sys2Proof.Machine

/-! ## Sizes (R299 to R302) -/

/-- Bits of an element in memory. -/
def memBits (et : Nat) : Nat := if et = etE2M3 ∨ et = etE3M2 then 6 else etWidth et

def Desc.reducing (d : Desc) : Bool := decide (1 ≤ d.op.toNat ∧ d.op.toNat ≤ 3)

/-- `SIG`, `FEED`, `SAT` of `DFLAGS`. -/
def Desc.sat (d : Desc) : Bool := d.dflags.getLsbD 0
def Desc.sig (d : Desc) : Bool := d.dflags.getLsbD 1
def Desc.feed (d : Desc) : Bool := d.dflags.getLsbD 2

/-- A v-variant. -/
def Desc.isV (d : Desc) : Bool := decide (8 ≤ d.op.toNat ∧ d.op.toNat ≤ 10)

/-- Bytes of `n` elements of a type. -/
def bytesOf (et n : Nat) : Nat := n * memBits et / 8

/-- Bytes of the block of a non-reducing operation. -/
def Desc.blk (d : Desc) : Nat := bytesOf d.dtype.toNat d.count.toNat

/-- Elements per chunk (R307); the elements of a non-reducing operation are bytes. -/
def chunkElems (d : Desc) (wide : Bool) : Nat :=
  if d.reducing then (if wide then 8192 else 4096) else 32768

/-- The elements that a member's destination receives, as a range of the whole operation. -/
def Desc.dstRange (d : Desc) (n r : Nat) : Nat × Nat :=
  let c := d.count.toNat
  if d.op = 1 then (0, c)
  else if d.op = 2 then (if r = d.root.toNat then (0, c) else (0, 0))
  else if d.op = 3 then (r * (c / n), (r + 1) * (c / n))
  else if d.op = 4 ∨ d.op = 7 then (0, n * d.blk)
  else if d.op = 5 ∨ d.op = 8 ∨ d.op = 10 then (0, d.blk)
  else if d.op = 9 then (if r = d.root.toNat then (0, d.blk) else (0, 0))
  else (0, 0)

/-- A descriptor from its 64 bytes (R299). -/
def Desc.parse (l : List Byte) : Desc :=
  let w := fun off => BitVec.ofNat 64 (gatherDesc l off 8)
  { op := BitVec.ofNat 8 (gatherDesc l 0 1), dtype := BitVec.ofNat 8 (gatherDesc l 1 1)
    otype := BitVec.ofNat 8 (gatherDesc l 2 1), rmode := BitVec.ofNat 8 (gatherDesc l 3 1)
    win := BitVec.ofNat 16 (gatherDesc l 4 2), dflags := BitVec.ofNat 16 (gatherDesc l 6 2)
    root := BitVec.ofNat 32 (gatherDesc l 8 4), src := w 0x10, dst := w 0x18, count := w 0x20
    scratch := w 0x28, sigaddr := w 0x30, aux := w 0x38 }

/-- Bytes of an element of the destination. -/
def Desc.dstBytes (d : Desc) : Nat := if d.reducing then memBits d.otype.toNat / 8 else 1

/-- Bytes of the source. -/
def Desc.srcLen (d : Desc) (n r : Nat) (send : List Nat) : Nat :=
  if d.reducing then bytesOf d.dtype.toNat d.count.toNat
  else if d.op = 4 then d.blk
  else if d.op = 5 then (if r = d.root.toNat then d.blk else 0)
  else if d.op = 7 then n * d.blk
  else if d.isV then bytesOf d.dtype.toNat send.sum
  else 0

/-- Signal chunks of a destination (R326). -/
def Desc.sigChunks (d : Desc) (wide : Bool) (n r : Nat) : Nat := divUp (d.dstRange n r).2 (chunkElems d wide)

/-- The buffers of an operation: source, destination, scratch, signal array and counts array, as addresses and bytes;
one that the operation does not use at this member has none (R300, R304). -/
def Desc.buffers (d : Desc) (wide : Bool) (n r : Nat) (send : List Nat) : List (Nat × Nat) :=
  let dr := d.dstRange n r
  [(d.src.toNat, d.srcLen n r send), (d.dst.toNat, (dr.2 - dr.1) * d.dstBytes),
    (d.scratch.toNat, if d.reducing then d.aux.toNat else 0),
    (d.sigaddr.toNat, if d.sig then 8 * divUp (d.sigChunks wide n r) 64 else 0),
    (d.aux.toNat, if d.isV then 16 * n else 0)]

end Sys2Proof.Machine
end

