-- ==== Sys2Proof/Machine/Mbox.lean ====
section
/-! DEFINITION. The mailbox: slots, completion records, result buffers, the checks of every
taken command, and the rows of slots and mailbox registers (R198 to R213). -/

namespace Sys2Proof.Machine

/-! ## Status codes (R216) and opcodes (R215) -/

def stDone : Nat := 0x00
def stDegraded : Nat := 0x01
def stSuspended : Nat := 0x02
def stCancelled : Nat := 0x03
def stBadOpcode : Nat := 0x10
def stBadField : Nat := 0x11
def stBadLevel : Nat := 0x12
def stNoResource : Nat := 0x13
def stRefusedPower : Nat := 0x14
def stBusy : Nat := 0x15
def stWrongState : Nat := 0x16
def stWindowMismatch : Nat := 0x1A
def stTimeout : Nat := 0x20
def stCheckFail : Nat := 0x21
def stUnitFailed : Nat := 0x22
def stKilled : Nat := 0x23
def stOutOfService : Nat := 0x24
def stAuthFail : Nat := 0x30
def stRollback : Nat := 0x31
def stHeaderReject : Nat := 0x32
def stIncompatible : Nat := 0x33

def opHello : Nat := 0x01
def opGetInfo : Nat := 0x02
def opConfigWrite : Nat := 0x03
def opConfigSwap : Nat := 0x04
def opConfigRead : Nat := 0x05
def opPartCreate : Nat := 0x10
def opPartDestroy : Nat := 0x11
def opCtxOpen : Nat := 0x12
def opCtxClose : Nat := 0x13
def opSubmit : Nat := 0x20
def opSuspend : Nat := 0x21
def opResume : Nat := 0x22
def opCancel : Nat := 0x23
def opQuery : Nat := 0x24
def opCopy : Nat := 0x30
def opFill : Nat := 0x31
def opScrub : Nat := 0x32
def opCommCreate : Nat := 0x40
def opCommDestroy : Nat := 0x41
def opCollBatch : Nat := 0x42
def opBeaconAssign : Nat := 0x43
def opPowerCap : Nat := 0x50
def opPowerFixed : Nat := 0x51
def opEnergyRead : Nat := 0x52
def opCntConfig : Nat := 0x60
def opSampleConfig : Nat := 0x61
def opFwStage : Nat := 0x70
def opFwActivate : Nat := 0x71
def opFwCommit : Nat := 0x72
def opFwStatus : Nat := 0x73
def opLogRead : Nat := 0x78
def opDumpRead : Nat := 0x79

/-- What the opcode table says of a header field. -/
inductive FieldRule where
  | none_
  | required
  | optional
deriving DecidableEq, Repr

/-- The `PART` and `CTX` columns of R215; "Target's" allows either. -/
def opcodeRule (op : Nat) : Option (FieldRule × FieldRule) :=
  if op ∈ [0x01, 0x02, 0x03, 0x04, 0x05, 0x43, 0x50, 0x51, 0x70, 0x71, 0x72, 0x73, 0x78, 0x79] then
    some (.none_, .none_)
  else if op ∈ [0x10, 0x11] then some (.required, .none_)
  else if op ∈ [0x12, 0x13, 0x20, 0x30, 0x31, 0x40, 0x41, 0x42, 0x61] then some (.required, .required)
  else if op = 0x32 then some (.required, .optional)
  else if op ∈ [0x21, 0x22, 0x23, 0x24, 0x52, 0x60] then some (.optional, .optional)
  else none

/-- The "Long" column of R215. -/
def opcodeLong (op : Nat) : Bool := op == 0x20 || op == 0x30 || op == 0x31 || op == 0x32 || op == 0x42

/-- A field of a configuration set. -/
def cfg (k : ConfigSet) (off n : Nat) : Nat := k.toNat / 2 ^ (8 * off) % 2 ^ (8 * n)

/-! ## Slots (R208, R209) -/

def ownFree : Byte := 0
def ownPosted : Byte := 1
def ownTaken : Byte := 2
def ownReturned : Byte := 3

def Mail.bytes (m : Mail) (off n : Nat) : List Byte := (List.range n).map fun i => Cells.get m.bar2 (off + i)

/-- A field of a slot, by its offset in the slot. -/
def Mail.field (m : Mail) (slot off n : Nat) : Nat := leNat (m.bytes (slot * 256 + off) n)

def Mail.own (m : Mail) (slot : Nat) : Byte := Cells.get m.bar2 (slot * 256)

def Mail.setOwn (m : Mail) (slot : Nat) (b : Byte) : Mail :=
  { m with bar2 := Cells.set m.bar2 (slot * 256) b }

/-- A body field of the command in a slot. -/
def State.body (s : State) (slot off n : Nat) : Nat := s.mail.field slot (0x20 + off) n

def State.bodyBytes (s : State) (slot off n : Nat) : List Byte := s.mail.bytes (slot * 256 + 0x20 + off) n

/-- The host reaches the apertures while the port answers requests (R27, R203). -/
def State.hostUp (s : State) : Bool := s.board.cxlUp

/-! ## Completion (R212, R213) -/

def cflagOvf : Nat := 2
def cflagTrunc : Nat := 4
def cflagCoarse : Nat := 8

/-- A completion record; `off` is the `ACLK` cycle in the frame (R212). -/
def completionRecord (t : Taken) (r : Report) (frame : BitVec 64) (off : Nat) : List Byte :=
  leBytes 4 t.seq.toNat ++ leBytes 1 r.status ++ leBytes 1 t.opcode.toNat
    ++ leBytes 2 (r.flags + if t.fixedBroken then 1 else 0)
    ++ leBytes 8 r.r0 ++ leBytes 8 r.r1 ++ leBytes 8 r.r2 ++ leBytes 8 r.r3
    ++ leBytes 8 r.energy ++ leBytes 8 frame.toNat ++ leBytes 4 off ++ leBytes 4 0

/-- Complete a taken command: the record, then `OWN`, then the interrupt of the frame (R204,
R213). The cycle in the frame is free. A record that fails to be written causes no interrupt: R204 sends one for a
record that was written. -/
def State.complete (s : State) (t : Taken) (r : Report) : State :=
  let fr := s.free
  let u := fr.2.hostWrite (s.mail.cmplBase.toNat + t.slot * 64)
    (completionRecord t r s.power.frame (fr.1 % 4000))
  let m := u.mail.setOwn t.slot ownReturned
  { u with mail := { m with
      taken := m.taken.filter fun x => x.slot != t.slot
      frameVecs := if t.noirq || decide (63 < t.vec.toNat) || fr.2.hostFails then m.frameVecs
        else putBit m.frameVecs t.vec.toNat true } }

/-- Complete whatever command a slot carries. -/
def State.completeSlot (s : State) (slot : Nat) (r : Report) : State :=
  match s.mail.taken.find? fun t => t.slot == slot with
  | some t => s.complete t r
  | none => s

/-- Write result data to a host buffer, cut to its length: the report of R218. -/
def State.giveData (s : State) (t : Taken) (addr len : Nat) (data : List Byte) : State :=
  let s1 := s.hostWrite addr (data.take len)
  s1.complete t { Report.of stDone with
    r0 := data.length, r1 := min len data.length
    flags := if len < data.length then cflagTrunc else 0 }

/-! ## Starting a taken command -/

/-- A command of `FLAGS.ORDER` waits for earlier ones of its partition and context (R208). -/
def Mail.waits (m : Mail) (t : Taken) : Bool :=
  t.ordered && (m.taken.takeWhile fun x => x.slot != t.slot).any fun x => x.part == t.part && x.ctx == t.ctx

/-- A taken command whose opcode has no meaning here: one of the diagnostic ones. -/
def diagnostic (op : Nat) : Bool := decide (0xF0 ≤ op)

/-- Every command taken before this one has started, or waits (R210). -/
def Mail.inTurn (m : Mail) (t : Taken) : Bool :=
  (m.taken.takeWhile fun x => x.slot != t.slot).all fun x => x.started || x.waiting.isSome || m.waits x || diagnostic x.opcode.toNat

/-- The command processor is reloaded (R449). -/
def State.cmdReloads (s : State) : Bool := s.upd.activation.any fun a => a.comp == 3

/-- The command in a slot, when it has been taken, has not started, and may start. -/
def State.startable (s : State) (slot op : Nat) : Option Taken :=
  match s.mail.taken.find? fun t => t.slot == slot with
  | some t =>
    if t.opcode.toNat = op && !t.started && !s.mail.waits t && s.mail.inTurn t && !s.cmdReloads then some t else none
  | none => none

/-- A command starts and stays `TAKEN`. -/
def State.markStarted (s : State) (slot : Nat) : State :=
  { s with mail := { s.mail with
      taken := s.mail.taken.map fun t => if t.slot = slot then { t with started := true } else t } }

/-- Run the command of a slot; nothing happens where no such command can start. -/
def command (slot op : Nat) (s : State) (f : Taken → State) : Host.Outcome State Fault Refusal :=
  match s.startable slot op with
  | some t => .next (f t)
  | none => .next s

/-! ## The checks of R211 -/

/-- Reserved bytes of a body: every byte but the listed fields (offset and length) is zero. -/
def State.bodyZeroBut (s : State) (slot : Nat) (fields : List (Nat × Nat)) : Bool :=
  (List.range 192).all fun i =>
    fields.any (fun f => decide (f.1 ≤ i ∧ i < f.1 + f.2)) || s.body slot i 1 == 0

/-- The fields of a command's body (offset and length), by its opcode and its first byte; every
other byte is reserved. -/
def bodyFields (op b0 : Nat) : List (Nat × Nat) :=
  if op = opHello then [(0, 2)]
  else if op = opGetInfo then [(0, 1), (4, 4), (8, 8), (0x10, 4)]
  else if op = opConfigWrite then [(0, 4), (0x10, 176)]
  else if op = opConfigRead then [(0, 1), (8, 8), (0x10, 4)]
  else if op = opPartCreate then [(0, 5), (0x40, 128)]
  else if op = opCtxOpen then [(0, 3), (4, 0x28)]
  else if op = opSubmit then [(0, 0x1A), (0x20, 12)]
  else if op = opSuspend ∨ op = opResume ∨ op = opCancel ∨ op = opQuery then [(0, 2), (4, 5)]
  else if op = opCopy ∨ op = opFill then [(0, 24)]
  else if op = opScrub then [(0, 12)]
  else if op = opCommCreate then [(0, 0x16), (0x18, 4), (0x20, 16)]
  else if op = opCommDestroy then [(0, 2)]
  else if op = opCollBatch then [(0, 14)]
  else if op = opBeaconAssign then [(0, 4)]
  else if op = opPowerCap then [(0, 3)]
  else if op = opPowerFixed then [(0, 1), (2, 2)]
  else if op = opEnergyRead then
    if b0 = 1 then [(0, 1), (8, 12), (0x18, 8)] else if b0 = 2 then [(0, 1), (8, 12)] else [(0, 1)]
  else if op = opCntConfig then
    if b0 = 0 then [(0, 3), (4, 2), (8, 96)] else if b0 = 1 then [(0, 3), (8, 12)] else [(0, 3)]
  else if op = opSampleConfig then [(0, 1), (4, 12)]
  else if op = opFwStage then [(0, 2), (4, 16)]
  else if op = opFwActivate ∨ op = opFwCommit then [(0, 1)]
  else if op = opFwStatus then [(8, 12)]
  else if op = opLogRead then if b0 = 0 then [(0, 1), (8, 12), (0x18, 8)] else [(0, 1), (8, 12)]
  else if op = opDumpRead then [(0, 1), (4, 16)]
  else []

/-- Reserved bits and reserved encodings of listed fields (R11). -/
def State.bodyBitsZero (s : State) (slot op : Nat) : Bool :=
  let b0 := s.body slot 0 1
  if op = opPartCreate then
    s.body slot 1 1 < 2 && (32 < s.body slot 4 1
      || (s.bodyBytes slot (0x40 + 4 * s.body slot 4 1) (128 - 4 * s.body slot 4 1)).all (· == 0))
  else if op = opCtxOpen then decide (b0 < 3 ∧ s.body slot 2 1 < 2)
  else if op = opSubmit then s.body slot 0x19 1 < 2
  else if op = opFwStage then s.body slot 1 1 < 4
  else if op = opSuspend then s.body slot 8 1 < 2
  else if op = opResume ∨ op = opCancel ∨ op = opQuery then s.body slot 8 1 == 0
  else if op = opConfigRead ∨ op = opPowerFixed ∨ op = opLogRead then b0 < 2
  else if op = opGetInfo ∨ op = opEnergyRead ∨ op = opCntConfig ∨ op = opSampleConfig then b0 < 3
  else true

/-- Step 6 for one of `PART` and `CTX`: set or unset as the table says; `creates` names the field
that the command creates, whose generation is zero (R208). -/
def fieldOk (r : FieldRule) (creates : Bool) (v gen : Nat) : Bool :=
  match r with
  | .none_ => v == 0xFF && gen == 0
  | .required => v != 0xFF && (if creates then gen == 0 else gen != 0)
  | .optional => v != 0xFF || gen == 0

/-- A suspended operation is held under this name (R221). -/
def State.heldName (s : State) (slot : Nat) (seq : BitVec 32) : Bool :=
  s.disp.submits.any (fun x => x.held && x.slot == slot && x.seq == seq)
    || s.disp.transfers.any (fun x => x.held && x.slot == slot && x.seq == seq)
    || s.coll.batches.any (fun x => x.held && x.slot == slot && x.seq == seq)

/-- Step 6 of R211. -/
def State.headerOk (s : State) (t : Taken) (pr cr : FieldRule) : Bool :=
  let op := t.opcode.toNat
  let opens := op == opCtxOpen && s.body t.slot 0 1 == 0
  s.mail.field t.slot 0x0A 2 < 4
    && (s.mail.bytes (t.slot * 256 + 0x0E) 18).all (· == 0)
    && (diagnostic op || s.bodyZeroBut t.slot (bodyFields op (s.body t.slot 0 1))) && s.bodyBitsZero t.slot op
    && fieldOk pr (op == opPartCreate) t.part.toNat t.pgen.toNat
    && fieldOk cr opens t.ctx.toNat t.cgen.toNat
    && (t.part.toNat < 8 || t.part.toNat == 0xFF) && (t.ctx.toNat < 16 || t.ctx.toNat == 0xFF)
    && (t.part.toNat != 0xFF || t.ctx.toNat == 0xFF)
    && t.vec.toNat < 64 && !s.heldName t.slot t.seq

/-- Step 7 of R211: the partition is in service, the context is not Closed, and the generations
agree. A partition that a command creates is not checked, nor is a context (R238). -/
def State.namesOk (s : State) (t : Taken) : Bool :=
  let op := t.opcode.toNat
  let p := t.part.toNat
  let c := t.ctx.toNat
  op == opPartCreate || p == 0xFF
    || ((s.part p).inService && (s.part p).pgen == t.pgen
      && (c == 0xFF || (op == opCtxOpen && s.body t.slot 0 1 == 0)
        || ((s.ctx p c).st != .closed && (s.ctx p c).st != .closing && (s.ctx p c).cgen == t.cgen)))

/-- A generation of the header differs from the current one (R234). -/
def State.genDiffers (s : State) (t : Taken) : Bool :=
  t.pgen != (s.part t.part.toNat).pgen
    || (t.ctx.toNat != 0xFF && t.cgen != (s.ctx t.part.toNat t.ctx.toNat).cgen)

/-- No region of a partition is present (R62). -/
def State.noRegion (s : State) (p : Nat) : Bool :=
  (List.range 8).all fun g => !((s.part p).regions.getLsbD g && s.regionPresent g)

/-- Debug is open with diagnostics (R432: `SCOPE` bit 0). -/
def State.diagOpen (s : State) : Bool := s.sec.debugOpen && s.sec.debugScope.getLsbD 0

/-- Steps 1 to 7 of R211 and the refusals of R62: the failing completion, if any. -/
def State.checkTaken (s : State) (t : Taken) : Option Report :=
  let op := t.opcode.toNat
  let lvl := s.mail.field t.slot 2 1
  let top := if op = opHello ∨ !s.mail.negotiated then 0x10 else s.mail.level.toNat
  if s.flash.persist.oos ∧ op ∉ [opGetInfo, opLogRead, opDumpRead, opFwStatus] then
    some (.of stOutOfService)
  else if s.units.noCompute ∧ op ∉ [opGetInfo, opLogRead, opDumpRead] then some (.of stUnitFailed)
  else if lvl < 0x10 ∨ top < lvl then some (.of stBadLevel)
  else
    match if diagnostic op && s.diagOpen then some (.optional, .optional) else opcodeRule op with
    | none => some (.of stBadOpcode)
    | some (pr, cr) =>
      if !s.mail.negotiated ∧ op ∉ [opHello, opGetInfo, opLogRead, opDumpRead, opFwStatus] then
        some (.of stWrongState)
      else if !s.headerOk t pr cr then some (.of stBadField)
      else if !s.namesOk t then
        some { Report.of stWrongState with
          r0 := if s.genDiffers t then
              (s.part t.part.toNat).pgen.toNat + 256 *
                (if t.ctx.toNat = 0xFF then 0 else (s.ctx t.part.toNat t.ctx.toNat).cgen.toNat)
            else 0 }
      else if t.part.toNat ≠ 0xFF ∧ op ≠ opPartCreate ∧ op ≠ opCtxClose ∧ op ≠ opPartDestroy
          ∧ s.noRegion t.part.toNat then some (.of stUnitFailed)
      else if t.part.toNat ≠ 0xFF ∧ t.ctx.toNat ≠ 0xFF ∧ op ≠ opCtxClose
          ∧ (s.ctx t.part.toNat t.ctx.toNat).st = .stopped then some (.of stWrongState)
      else none

/-! ## Rows of the slots -/

/-- The header of a slot as the module takes it. -/
def State.header (s : State) (slot : Nat) : Taken :=
  { slot, opcode := BitVec.ofNat 8 (s.mail.field slot 1 1)
    seq := BitVec.ofNat 32 (s.mail.field slot 4 4)
    part := BitVec.ofNat 8 (s.mail.field slot 3 1), ctx := BitVec.ofNat 8 (s.mail.field slot 8 1)
    pgen := BitVec.ofNat 8 (s.mail.field slot 0x0C 1), cgen := BitVec.ofNat 8 (s.mail.field slot 0x0D 1)
    vec := BitVec.ofNat 8 (s.mail.field slot 9 1)
    noirq := s.mail.field slot 0x0A 1 % 2 == 1, ordered := s.mail.field slot 0x0A 1 / 2 % 2 == 1
    started := false, waiting := none, fixedBroken := s.power.fixedSuspend || s.power.regionSuspend != 0 }

/-- `SLOT_POST`: a host write of 0x01 to `OWN`. -/
def execSlotPost (slot : Nat) (s : State) : Host.Outcome State Fault Refusal :=
  .next (if !s.hostUp || decide (1024 ≤ slot) then s
    else if s.mail.own slot = ownTaken then { s with mail := { s.mail with errTakenWrite := true } }
    else if s.mail.own slot = ownPosted then s
    else { s with mail := { s.mail.setOwn slot ownPosted with posted := s.mail.posted ++ [slot] } })

/-- `SLOT_WITHDRAW`: a host write of 0x00 to `OWN`. -/
def execSlotWithdraw (slot : Nat) (s : State) : Host.Outcome State Fault Refusal :=
  .next (if !s.hostUp || decide (1024 ≤ slot) then s
    else if s.mail.own slot = ownTaken then { s with mail := { s.mail with errTakenWrite := true } }
    else { s with mail := { s.mail.setOwn slot ownFree with
                            posted := s.mail.posted.filter (· != slot) } })

/-- One byte of a host write to `BAR2`. -/
def Mail.hostByte (m : Mail) (off : Nat) (b : Byte) : Mail :=
  let slot := off / 256
  if 1024 ≤ slot then m
  else if m.own slot = ownTaken then { m with errTakenWrite := true }
  else if off % 256 ≠ 0 then { m with bar2 := Cells.set m.bar2 off b }
  else if b = ownFree then { m.setOwn slot ownFree with posted := m.posted.filter (· != slot) }
  else if b = ownPosted then
    if m.own slot = ownPosted then m else { m.setOwn slot ownPosted with posted := m.posted ++ [slot] }
  else { m with errBadOwn := true }

/-- Bytes of a host write, the `OWN` byte of a slot last. -/
def Mail.hostBytes (m : Mail) (off : Nat) : List Byte → Mail
  | [] => m
  | b :: rest =>
    if off % 256 = 0 then (m.hostBytes (off + 1) rest).hostByte off b
    else (m.hostByte off b).hostBytes (off + 1) rest

/-- `SLOT_WRITE`. -/
def execSlotWrite (off : Nat) (data : List Byte) (s : State) : Host.Outcome State Fault Refusal :=
  .next (if s.hostUp then { s with mail := s.mail.hostBytes off data } else s)

/-- Slots are taken (R210, R398); not in the pause of a `CMD` activation (R449). -/
def State.takes (s : State) : Bool :=
  s.hostUp && s.mail.ready && s.mail.enable && !s.upd.activation.any fun a => a.comp == 3

/-- The slot that is taken next (R210): the wake takes slots in the order of their `OWN` writes, the frame scan in
ascending order; which of the two finds a slot is open. -/
def Mail.nextTaken (m : Mail) (slot : Nat) : Bool := m.posted.head? == some slot || m.posted.all fun x => decide (slot ≤ x)

/-- `SLOT_TAKE`: the slot becomes `TAKEN`, and its command is checked under R211. What a diagnostic command does that
passes the checks, R215 and R432 do not say: it stays `TAKEN` without an effect (DESIGN CHOICE, assumption log entry
60). -/
def execSlotTake (slot : Nat) (s : State) : Host.Outcome State Fault Refusal :=
  if s.takes && decide (slot < 1024) && s.mail.own slot == ownPosted && s.mail.nextTaken slot then
    let t := s.header slot
    let s1 := { s with mail := { s.mail.setOwn slot ownTaken with
                                 posted := s.mail.posted.filter (· != slot)
                                 taken := s.mail.taken ++ [t] } }
    match s.checkTaken t with
    | some r => .next (s1.complete t r)
    | none => .next s1
  else .next s

/-- `MBX_CTL`: its fields (R200). -/
def execMbxCtlWrite (v : BitVec 64) (s : State) : Host.Outcome State Fault Refusal :=
  .next (if s.hostUp then
    { s with mail := { s.mail with enable := v.getLsbD 0, evtVec := v.extractLsb' 8 6, evtEn := v.getLsbD 14 } }
  else s)

/-- `CMPL_BASE` (R201). -/
def execCmplBaseWrite (v : BitVec 64) (s : State) : Host.Outcome State Fault Refusal :=
  .next (if !s.hostUp then s
    else if s.mail.enable then { s with mail := { s.mail with errCtlIgnored := true } }
    else { s with mail := { s.mail with cmplBase := v &&& ~~~0xFFF } })

end Sys2Proof.Machine
end

