-- ==== Sys2Proof/Machine/Protect.lean ====
section
/-! DEFINITION. Keys: the random bit generator, the derivation of the module's keys, and the protection of the external
memory of confidential partitions (R406, R408 to R410, R425 to R428). -/

namespace Sys2Proof.Machine

/-! ## Random numbers (R406) -/

/-- Requests after which the generator is reseeded. -/
def reseedAfter : Nat := 1048576

/-- The generator takes a seed from the entropy source. -/
def State.seedDrbg (s : State) : State :=
  { s with freeCtr := s.freeCtr + 1
           sec := { s.sec with drbg := { seed := Config.entropy s.freeCtr, drawn := 0 } } }

/-- One request of 384 bits. -/
def State.random (s : State) : BitVec 384 × State :=
  let d := s.sec.drbg
  let s1 := if d.drawn < reseedAfter then s else s.seedDrbg
  let e := s1.sec.drbg
  (Config.drbg e.seed e.drawn, { s1 with sec := { s1.sec with drbg := { e with drawn := e.drawn + 1 } } })

/-- Several requests. -/
def State.randoms (s : State) : Nat → List (BitVec 384) × State
  | 0 => ([], s)
  | n + 1 =>
    let a := s.random
    let b := a.2.randoms n
    (a.1 :: b.1, b.2)

/-! ## The keys of the security controller (R408, R409) -/

/-- A label in ASCII. -/
def label (t : String) : List Byte := t.toList.map fun c => BitVec.ofNat 8 c.toNat

/-- Bytes of HKDF-SHA-384 output over a secret, for a label. -/
def derived (secret : List Byte) (t : String) (n : Nat) : List Byte :=
  ((List.range ((n + 47) / 48)).flatMap fun i => leBytes 48 (Config.hkdf secret (label t) (i + 1)).toNat).take n

/-- The seed of an RSA pair, and the three seeds of 24 bytes of an SLH-DSA pair. -/
def rsaSeed (secret : List Byte) (t : String) : List Byte := derived secret t 48

def slhSeed (secret : List Byte) (t : String) : List Byte := derived secret t 72

/-- The CDI of layer 1 under a `SEC` image. -/
def State.cdiOf (s : State) (i : Image) : BitVec 384 :=
  Config.hmac (leBytes 48 s.fuses.uds.toNat) (Config.sha384 i.bytes ++ leBytes 4 i.svn)

/-- The ROM derives the keys for the `SEC` image that it starts, locks the UDS fuse, and starts the random bit generator
(R409, R412 step 3); without an image no key is there. -/
def State.deriveKeys (s : State) (i : Option Image) : State :=
  let s1 := s.seedDrbg
  let uds := leBytes 48 s.fuses.uds.toNat
  { s1 with sec := { s1.sec with keys := match i with
      | none => noKeys
      | some x =>
        let cdi := s.cdiOf x
        let secret := leBytes 48 cdi.toNat
        { udsLocked := true, cdi, deviceRsa := rsaSeed uds "DeviceID-RSA", deviceSlh := slhSeed uds "DeviceID-SLH"
          aliasRsa := rsaSeed secret "Alias-RSA", aliasSlh := slhSeed secret "Alias-SLH", issue := s.freeCtr } } }

/-- The private Alias keys, RSA and SLH-DSA. -/
def State.aliasRsa (s : State) : List Byte := (Config.keyPair true s.sec.keys.aliasRsa).2

def State.aliasSlh (s : State) : List Byte := (Config.keyPair false s.sec.keys.aliasSlh).2

/-! ## Certificates (R410) -/

/-- What an Alias certificate certifies: the key, and the TcbInfo with the layer-1 measurement, the security version
and whether debug is open (R410, R411). -/
def State.aliasBody (s : State) (rsa : Bool) : List Byte :=
  let k := s.sec.keys
  let i := s.sec.runningImages.getD 1 none
  (Config.keyPair rsa (if rsa then k.aliasRsa else k.aliasSlh)).1
    ++ (i.map fun x => Config.sha384 x.bytes ++ leBytes 4 x.svn).getD []
    ++ leBytes 1 (if s.sec.debugOpen then 1 else 0)

/-- A chain: root, intermediate and DeviceID as stored at test, and the Alias certificate that the security controller
issued, signed by the DeviceID key. -/
def State.certChain (s : State) (rsa : Bool) : List Byte :=
  let k := s.sec.keys
  let device := Config.keyPair rsa (if rsa then k.deviceRsa else k.deviceSlh)
  Config.deviceChain rsa s.fuses.serial device.1 ++ Config.aliasCert rsa device.2 (s.aliasBody rsa) k.issue

/-! ## Memory keys, encryption and tags (R425 to R428) -/

/-- The keys of a context: two requests to the generator. -/
def State.newMemKey (s : State) : MemKey × State :=
  let a := s.random
  let b := a.2.random
  ({ enc := a.1.setWidth 256, int := b.1.setWidth 256 }, b.2)

/-- The key slot, the context's number and its generation under which a line is protected: that of the context that owns
it in a confidential partition. Reads of a granule that is not clean do not reach memory (R188). -/
def State.protects (s : State) (pa : Nat) : Option (MemKey × Nat × BitVec 8) :=
  let g := s.granule (pa / granuleSize)
  match g.owner, place pa with
  | .ctx p c, .hbm _ _ | .ctx p c, .ddr _ _ =>
    if g.scrub = .clean ∧ (s.part p).conf then (s.ctx p c).key.map fun k => (k, c, (s.ctx p c).cgen) else none
  | _, _ => none

/-- The tag of a ciphertext: AES-256-CMAC over it, the line's address, and the owner's number and generation, cut to the
first 64 bits. -/
def lineTag (k : MemKey) (line c : Nat) (gen : BitVec 8) (cipher : List Byte) : BitVec 64 :=
  BitVec.ofNat 64 (leNat ((Config.cmac k.int
    (cipher ++ leBytes 8 (line * 64) ++ leBytes 1 c ++ leBytes 1 gen.toNat)).take 8))

/-- The 64 bytes of a line as the context reads them. -/
def State.lineBytes (s : State) (line : Nat) : List Byte :=
  (List.range 64).map fun i => Cells.get s.mem.cells (line * 64 + i)

/-- What the memory holds for a protected line: its ciphertext and its tag. -/
def State.storedLine (s : State) (line : Nat) : Option (List Byte × BitVec 64) :=
  (s.protects (line * 64)).map fun x =>
    let cipher := Config.aesXts x.1.enc (line * 64) (s.lineBytes line)
    (cipher, lineTag x.1 line x.2.1 x.2.2 cipher)

/-- Where the tag of a line of a confidential partition lies (R192 step 3). -/
def State.tagAddr (s : State) (p line : Nat) : Option Nat :=
  (s.span p (line * 64)).map fun sp =>
    sp.1 + s.dataGranules p sp * granuleSize + (line * 64 - sp.1) / 64 * 8

/-- A line of memory holds other bytes. -/
def State.putLine (s : State) (line : Nat) (l : List Byte) : State :=
  { s with mem := { s.mem with cells := Cells.setAll s.mem.cells (line * 64) l } }

/-- What is wrong with memory that a read meets: the state with a replaced line in place, and the address of data that
is uncorrectable. A replaced line whose tag does not match is uncorrectable data (R426); one with a tag that matches, an
earlier value of the line under its key, is read (R427). A line without a tag is read as it was replaced. -/
def State.meets (s : State) (b : Option BadData) : State × Option Nat :=
  match b with
  | none => (s, none)
  | some (.uncorrectable pa) => (s, some pa)
  | some (.replaced pa cipher tag) =>
    let line := pa / 64
    match s.protects pa with
    | some (k, c, gen) =>
      if lineTag k line c gen cipher = tag then
        (s.putLine line (padTo 64 (Config.aesXtsOpen k.enc (line * 64) cipher)), none)
      else (s, some pa)
    | none =>
      match place pa with
      | .hbm _ _ | .ddr _ _ =>
        if (s.granule (pa / granuleSize)).scrub = .clean then (s.putLine line (padTo 64 cipher), none) else (s, none)
      | _ => (s, none)

end Sys2Proof.Machine
end

