-- ==== Sys2Proof/Machine/Work.lean ====
section
/-! DEFINITION. What every unit does to running work: ending operations, stopping and tearing
down contexts, fencing units, retiring pages (R59 to R72, R183, R184, R244, R254, R257, R258). -/

namespace Sys2Proof.Machine

/-! ## Memory of a context as movers and engines reach it

Work of mailbox commands, tier movers and engines translates through the context's tables
without the user check (assumption log entry 31). -/

/-- The block whose on-chip memory holds a device address. -/
def State.blockAt (pa : Nat) : Option Nat :=
  match place pa with
  | .shared b _ | .local_ b _ _ => some b
  | _ => none

/-- Count events of the collective engines and Beacon, each of which names its block: the work of a mailbox
command, so at firmware privilege (R339, R342). -/
def State.countEngine (s : State) (es : List Ev) : State := s.count 0 mkEngine 0 privFirmware clsFabric es

/-- Count one occurrence in the block that holds an address. -/
def State.countAt (s : State) (pa code : Nat) : State :=
  match State.blockAt pa with
  | some b => s.countEngine [{ code, n := 1, addr := none, block := some b }]
  | none => s

/-- Snoop page table entries that the host may hold before they are read (R193). -/
def State.recallEntries (s : State) (l : List Nat) : State := l.foldl (fun a x => a.recall x 8) s

/-- The page table entries that the walks of addresses read. -/
def State.entriesOf (s : State) (t : Tag) (root : Word) (vas : List Nat) : List Nat :=
  vas.flatMap fun va => (s.walkFrom t root va).reads

/-- The translated pieces of a range. -/
def State.vpieces (s : State) (p c : Nat) (acc : Acc) (va n : Nat) : List Piece × Option (BitVec 8 × Nat) :=
  s.translateRange (s.tagOf p c) (s.space p c) acc false va n

def State.vread (s : State) (p c va n : Nat) : Option (List Byte) :=
  match s.vpieces p c .load va n with
  | (ps, none) => some (s.readPieces (s.tagOf p c) ps)
  | _ => none

/-- The snoops that an access to a range needs: for the page table entries and the lines of the range (R193). -/
def State.vsnoop (s : State) (p c va n : Nat) : State :=
  (s.recallEntries (s.entriesOf (s.tagOf p c) (s.ctx p c).ptroot ((pageParts va n).map (·.1)))).recallPieces
    (s.vpieces p c .load va n).1

def State.vwrite (s : State) (p c va : Nat) (l : List Byte) : Option State :=
  match s.vpieces p c .store va l.length with
  | (ps, none) => some ((s.vsnoop p c va l.length).writePieces (s.tagOf p c) ps l)
  | _ => none

/-- The place of the byte at a context-virtual address, if it translates. -/
def State.vplace (s : State) (p c : Nat) (acc : Acc) (va : Nat) : Option Place :=
  match s.translate (s.tagOf p c) (s.space p c) acc false va with
  | .ok pa => some (place pa)
  | .fault _ => none

/-! ## Ready work and residency (R239, R240, R304) -/

/-- Items Queued (re-runs, returned items, new indices) or Saved. -/
def Submit.toStart (u : Submit) : Bool :=
  u.reruns != [] || u.requeued != [] || u.saved != [] || decide (u.next < u.items)

/-- A place on chip. -/
def onChip : Place → Bool
  | .shared _ _ | .local_ _ _ _ => true
  | _ => false

/-- The send counts of a v-variant, if the array can be read (R324). -/
def State.readCounts (s : State) (p c n : Nat) (d : Desc) : Option (List Nat) :=
  if d.isV then
    (s.vread p c d.aux.toNat (8 * n)).map fun l => (List.range n).map fun j => gatherDesc l (8 * j) 8
  else some []

/-- An operation reduces in FP32 words: by its own mode, or by the configuration (R299). -/
def State.descWide (s : State) (d : Desc) : Bool :=
  d.reducing && (d.rmode.toNat % 4 == 1 || (d.rmode.toNat % 4 == 2 && cfg s.config.active 0x26 1 == 1))

/-- Some byte of the range lies on chip. -/
def State.rangeOnChip (s : State) (p c : Nat) (x : Nat × Nat) : Bool :=
  (s.vpieces p c .load x.1 x.2).1.any fun q => onChip (place q.pa)

/-- The next operation of a batch has a buffer on chip, among those that it uses here (R304). -/
def State.batchOnChip (s : State) (b : Batch) : Bool :=
  match s.vread b.part b.ctx (b.desc.toNat + 64 * b.idx) 64, s.coll.comms.find? fun k => k.handle == b.handle with
  | some l, some k =>
    let d := Desc.parse l
    let send := (s.readCounts b.part b.ctx k.n d).getD []
    (d.buffers (s.descWide d) k.n k.rank send).any (s.rangeOnChip b.part b.ctx)
  | _, _ => false

/-- An operation of the batch runs. -/
def State.batchRuns (s : State) (b : Batch) : Bool :=
  s.coll.comms.any fun k => k.handle == b.handle && k.op.isSome

/-- Ready work of a context. -/
def State.ready (s : State) (p c : Nat) : Bool :=
  s.disp.submits.any (fun u => u.part == p && u.ctx == c && !u.held && u.toStart)
    || s.coll.batches.any (fun b => b.part == p && b.ctx == c && !b.held && !s.batchRuns b && s.batchOnChip b)

/-- A batch of the context has an operation running and is not complete. -/
def State.batchKeeps (s : State) (p c : Nat) : Bool :=
  s.coll.batches.any fun b => b.part == p && b.ctx == c && !b.held && (b.ended != 0 || s.batchRuns b)

/-- Items Queued, Saved or Running in a `SUBMIT` that is not held. -/
def State.hasItems (s : State) (p c : Nat) : Bool :=
  s.disp.submits.any fun u => u.part == p && u.ctx == c && !u.held && (u.toStart || u.running != [])

def State.itemsRun (s : State) (p c : Nat) : Bool :=
  s.disp.submits.any fun u => u.part == p && u.ctx == c && u.running != []

/-- The Resident context of a partition. -/
def State.resident (s : State) (p : Nat) : Option Nat :=
  (List.range 16).find? fun c => (s.ctx p c).st == .resident

/-- Keep the frame since which an Open context waits with ready work. -/
def State.noteWaiting (s : State) (p c : Nat) : State :=
  let k := s.ctx p c
  if k.st = .opened then
    s.setCtx p c { k with waiting := if s.ready p c then some (k.waiting.getD s.power.frame.toNat) else none }
  else s

/-- A Resident context without work, or drained after its quantum, leaves residency (R240). -/
def State.settleResidency (s : State) (p : Nat) : State :=
  match s.resident p with
  | some c =>
    let k := s.ctx p c
    if (!s.hasItems p c && !s.batchKeeps p c && !s.ready p c) || (k.leaving.isSome && !s.itemsRun p c && !s.batchKeeps p c) then
      (s.setCtx p c { k with st := .opened, leaving := none, waiting := none }).noteWaiting p c
    else s
  | none => s

/-! ## Ending a `SUBMIT` (R244, R245) -/

def FailRec.bytes (f : FailRec) : List Byte :=
  leBytes 4 f.item ++ [f.kind, f.cause] ++ leBytes 2 0 ++ leBytes 8 f.value.toNat

def Submit.recordBytes (u : Submit) : List Byte := u.records.flatMap FailRec.bytes

/-- The partition of an operation is confidential (R430). -/
def State.confidential (s : State) (p : Nat) : Bool := (s.part p).conf

/-- `ENERGY_MJ` (R381, R430): zero before the final completion of a confidential partition. -/
def State.energyMj (s : State) (u : Submit) (final : Bool) : Nat :=
  if s.confidential u.part then
    if final then divRound (u.runUj / 1000) 1000 * 1000 else 0
  else u.runUj / 1000

def State.coarseFlag (s : State) (p : Nat) : Nat := if s.confidential p then cflagCoarse else 0

/-- The statuses with which failure records are written. -/
def writesRecords (status : Nat) : Bool := status == stDone || status == stDegraded || status == stUnitFailed

/-- The result words of R244. -/
def State.submitReport (s : State) (u : Submit) (status : Nat) : Report :=
  let all := u.records.length * 16
  let given := if writesRecords status then min u.bufLen all else 0
  let base := { Report.of status with
    energy := s.energyMj u (status != stSuspended), flags := s.coarseFlag u.part }
  if status = stSuspended then { base with r0 := u.complete }
  else if status = stCancelled then { base with r0 := u.complete, r1 := u.failed + u.lost }
  else
    { base with
      r0 := all, r1 := given, r2 := u.complete, r3 := u.failed % 2 ^ 32 + u.lost * 2 ^ 32
      flags := base.flags + if writesRecords status && decide (u.bufLen < all) then cflagTrunc else 0 }

/-- The totals that a confidential partition shows are those of its last `SUBMIT` completion. -/
def State.freezeTotals (s : State) (p : Nat) : State :=
  let q := s.part p
  s.setPart p { q with
    coarseUj := q.totalUj, coarseIoUj := q.ioUj, coarseLossUj := q.lossUj
    ctxs := q.ctxs.map fun c => { c with coarseUj := c.totalUj, coarseRunUj := c.runUj, coarseMoverUj := c.moverUj } }

def State.dropSubmit (s : State) (order : Nat) : State :=
  { s with disp := { s.disp with submits := s.disp.submits.filter fun x => x.order != order } }

def State.setSubmit (s : State) (u : Submit) : State :=
  { s with disp := { s.disp with submits := s.disp.submits.map fun x => if x.order = u.order then u else x } }

def State.submitBy (s : State) (order : Nat) : Option Submit :=
  s.disp.submits.find? fun u => u.order == order

/-- A pending `SUSPEND` or `CANCEL` of an operation completes with a status. -/
def State.endStop (s : State) (stop : Option StopReq) (status : Nat) : State :=
  match stop with
  | some r => s.completeSlot r.slot (.of status)
  | none => s

/-- A `SUBMIT` ends: records, completion of its carrier, then of a pending stop (R223). -/
def State.endSubmit (s : State) (u : Submit) (status stopStatus : Nat) : State :=
  let r := s.submitReport u status
  let s1 := if writesRecords status then s.hostWrite u.buf (u.recordBytes.take u.bufLen) else s
  let s2 := ((s1.completeSlot u.slot r).dropSubmit u.order).freezeTotals u.part
  s2.endStop u.stop stopStatus

/-- Every index has ended. -/
def Submit.allEnded (u : Submit) : Bool :=
  u.next == u.items && u.reruns == [] && u.requeued == [] && u.saved == [] && u.running == []

/-- The status of a `SUBMIT` whose items have all ended. -/
def Submit.finalStatus (u : Submit) : Nat :=
  if u.lost ≠ 0 then stUnitFailed else if u.rerunDone ≠ [] then stDegraded else stDone

/-- A cancel request of the operation is pending. -/
def cancelled (stop : Option StopReq) : Bool :=
  match stop with
  | some r => r.cancel
  | none => false

/-- No item of a `SUBMIT` that is not held will run again: its completion is due. -/
def Submit.over (u : Submit) : Bool := u.allEnded && !u.held

/-- The completion of a `SUBMIT` that is over: `CANCELLED` where a `CANCEL` is pending (R223, R244). -/
def State.endOver (s : State) (u : Submit) : State :=
  if cancelled u.stop then s.endSubmit u stCancelled stDone else s.endSubmit u u.finalStatus stWrongState

/-- Keep a `SUBMIT`; one that is over completes once the last frame of each of its runs is attributed, so that
`ENERGY_MJ` is the sum over all their frames (R244, R380, R381; DEDUCED, assumption log entry 43). -/
def State.keepOrEnd (s : State) (u : Submit) : State :=
  if u.over && u.tail == [] && u.due == [] then s.endOver u else s.setSubmit u

def State.settle (s : State) (u : Submit) : State := (s.keepOrEnd u).settleResidency u.part

/-- The `SUBMIT`s that are over and meet a condition complete. -/
def State.finishSubmits (s : State) (f : Submit → Bool) : State :=
  (s.disp.submits.filter fun u => u.over && f u).foldl (fun a u => a.endOver u) s

/-! ## Ending other commands -/

/-- The result words of a batch (R298); `idx` names the descriptor that ended it. -/
def Batch.report (b : Batch) (status idx : Nat) : Report :=
  { Report.of status with
    r0 := b.ended, r1 := idx, r2 := b.fell, r3 := b.dropped % 2 ^ 32
    flags := if b.ovf then cflagOvf else 0 }

def State.dropBatch (s : State) (slot : Nat) : State :=
  { s with coll := { s.coll with batches := s.coll.batches.filter fun b => b.held || b.slot != slot } }

def State.dropTransfer (s : State) (slot : Nat) : State :=
  { s with disp := { s.disp with transfers := s.disp.transfers.filter fun x => x.held || x.slot != slot } }

/-- Pending writes of configuration and counters that a slot carries are dropped with it. -/
def State.dropWaiting (s : State) (slot : Nat) : State :=
  { s with config := { s.config with
      swap := if s.config.swap = some slot then none else s.config.swap
      writes := s.config.writes.filter fun w => w.slot != slot
      counters := s.config.counters.filter fun w => w.slot != slot } }

/-- What a taken command reports that ends with a status for a reason not its own. -/
def State.endReport (s : State) (status : Nat) (t : Taken) : Report :=
  match s.disp.submits.find? (fun u => !u.held && u.slot == t.slot) with
  | some u => s.submitReport u status
  | none =>
    match s.disp.transfers.find? (fun x => !x.held && x.slot == t.slot) with
    | some x => { Report.of status with r0 := x.moved }
    | none =>
      match s.coll.batches.find? (fun b => !b.held && b.slot == t.slot) with
      | some b => b.report status b.idx
      | none => .of status

/-- End a taken command, whatever it carries, with a status. -/
def State.endCommand (s : State) (status : Nat) (t : Taken) : State :=
  match s.disp.submits.find? (fun u => !u.held && u.slot == t.slot) with
  | some u =>
    let s1 := if writesRecords status then s.hostWrite u.buf (u.recordBytes.take u.bufLen) else s
    ((s1.completeSlot u.slot (s.endReport status t)).dropSubmit u.order).freezeTotals u.part
  | none => (((s.complete t (s.endReport status t)).dropTransfer t.slot).dropBatch t.slot).dropWaiting t.slot

/-- End every outstanding command of a context but the one in slot `but`. -/
def State.endCommands (s : State) (p c status : Nat) (but : Option Nat) : State :=
  (s.mail.taken.filter fun t => t.part.toNat == p && t.ctx.toNat == c && some t.slot != but).foldl
    (fun a t => a.endCommand status t) s

/-! ## Collective operations of a context -/

/-- Give back pan slots. -/
def Coll.freePans (k : Coll) (l : List PanHold) : Coll :=
  { k with panUsed := l.foldl (fun u x => modifyAt u x.pan (fun n => n - x.slots)) k.panUsed }

/-- Drop a communicator's waiting requests for pan slots. -/
def Coll.unqueue (k : Coll) (h : Nat) : Coll :=
  { k with panQueue := k.panQueue.map fun q => q.filter fun r => r.comm != h }

/-- Cancel the operation of a communicator locally: pan slots and queue places are freed. -/
def Coll.cancelOp (k : Coll) (h : Nat) : Coll :=
  let k1 := (k.comms.filter fun c => c.handle == h).foldl
    (fun a c => match c.op with | some o => a.freePans o.pans | none => a) k
  { k1.unqueue h with comms := k1.comms.map fun c => if c.handle = h then { c with op := none } else c }

/-- Release a communicator's pending gather-feed pieces (R327). -/
def Mem.dropFeed (m : Mem) (h : Nat) : Mem := { m with feed := m.feed.filter fun x => x.2 != h }

/-- Destroy the communicators of a context (R258, R296). -/
def State.dropComms (s : State) (p c : Nat) : State :=
  let hs := (s.coll.comms.filter fun k => k.part == p && k.ctx == c).map (·.handle)
  let k := hs.foldl Coll.cancelOp s.coll
  { s with
    coll := { k with comms := k.comms.filter (fun x => !(x.part == p && x.ctx == c)), dead := k.dead ++ hs }
    mem := hs.foldl Mem.dropFeed s.mem }

/-! ## Cells of a context -/

/-- A cell that holds no item. -/
def Cell.release (k : Cell) : Cell :=
  { k with run := none, ended := none, ending := none, stopped := false, preempt := false,
           cancel := false, async := [], faults := [], wait := none, requested := false }

def Cell.runs (k : Cell) (p c : Nat) : Bool :=
  match k.run with
  | some r => r.part == p && r.ctx == c
  | none => false

/-- Discard the samples of a context and its countdown (R352), and the translations held for it (R134). -/
def Cell.dropSamples (k : Cell) (p c : Nat) : Cell :=
  { k with samples := (k.samples.filter fun x => !(x.part == p && x.ctx == c))
           latches := k.latches.filter fun x => !(x.1.part == p && x.1.ctx == c)
           countdown := k.countdown.del (16 * p + c)
           tlb := k.tlb.filter fun x => !(x.tag.part == p && x.tag.ctx == c) }

/-- Cells that run a context's items become free; hints and samples are discarded. -/
def State.freeCells (s : State) (p c : Nat) : State :=
  { s with
    cells := s.cells.map fun x =>
      (x.1, (if x.2.runs p c then x.2.release else x.2).dropSamples p c)
    mem := { s.mem with hints := s.mem.hints.map fun x =>
      (x.1, x.2.filter fun h => !(h.part == p && h.ctx == c)) } }

/-- Cells that run a context's items stop issuing (R139). -/
def State.haltCells (s : State) (p c : Nat) : State :=
  { s with cells := s.cells.map fun x => (x.1, if x.2.runs p c then { x.2 with stopped := true } else x.2) }

/-! ## Work cut short -/

/-- Fill pieces with free bytes: data that the spec leaves unspecified. -/
def State.freeFill (s : State) (t : Tag) (ps : List Piece) : State :=
  let n := (ps.map (·.len)).sum
  { s with freeCtr := s.freeCtr + n }.writePieces t ps
    ((List.range n).map fun i => BitVec.ofNat 8 (Config.freeNat (s.freeCtr + i)))

/-- The part of a destination that a copy cut short may or may not have written is free. -/
def State.cutAsync (s : State) (c : Nat) : State :=
  let k := s.cell c
  k.async.foldl (fun a x =>
    a.freeFill (a.cellTag k) (a.translateRange (a.cellTag k) k.space .store (!x.sup) x.dst.toNat x.len).1) s

/-- The same for the cells and movers that work for a context. -/
def State.cutShort (s : State) (p c : Nat) : State :=
  let s1 := (s.cells.filter fun x => x.2.runs p c).foldl (fun a x => a.cutAsync x.1) s
  (s1.disp.transfers.filter fun x => !x.held && x.part == p && x.ctx == c).foldl (fun a x =>
    a.freeFill (a.tagOf p c) (a.vpieces p c .store (x.dst.toNat + x.moved) (x.len - x.moved)).1) s1

/-! ## Stopping a context (R257) -/

/-- A context becomes Stopped and its outstanding commands complete with a status. -/
def State.stopContext (s : State) (p c status : Nat) : State :=
  let k := s.ctx p c
  if k.st = .opened ∨ k.st = .resident then
    ((((s.cutShort p c).setCtx p c { k with st := .stopped, leaving := none, waiting := none }).endCommands p c status
      none).freeCells p c).dropComms p c
  else s

/-- Stop every context of a partition. -/
def State.stopPart (s : State) (p status : Nat) : State :=
  (List.range 16).foldl (fun a c => a.stopContext p c status) s

/-- Stop the contexts of the partition that owns a region, if one does. -/
def State.stopOwner (s : State) (g status : Nat) : State :=
  match s.ownerOf g with
  | some p => s.stopPart p status
  | none => s

/-! ## Fences (R59 to R64) -/

def unitId (kind hi lo cause : Nat) : BitVec 32 :=
  BitVec.ofNat 32 (kind * 2 ^ 28 + cause * 2 ^ 16 + hi * 256 + lo)

/-- Note a fence for the next frame boundary, with its owning partition or 0xFF (R61, R63). -/
def State.noteFence (s : State) (u : BitVec 32) (g : Option Nat) : State :=
  let owner := match g with
    | some r => (s.ownerOf r).getD 0xFF
    | none => 0xFF
  { s with units := { s.units with toLog := s.units.toLog ++ [(u, owner)] } }

/-- Insert in rising order. -/
def insertNat : List Nat → Nat → List Nat
  | [], a => [a]
  | b :: rest, a => if a < b then a :: b :: rest else if a = b then b :: rest else b :: insertNat rest a

/-- The run of an item ends: it leaves the running list and waits for its last attribution. -/
def Submit.endRun (u : Submit) (item : Nat) : Submit :=
  { u with tail := u.tail ++ u.running.filter (fun r => r.item == item)
           running := u.running.filter fun r => r.item != item }

/-- An item is lost with its cell: one re-run, or Lost (R254). The items of a context that is
being closed belong to its teardown, which a fence does not change (R63). -/
def State.loseItem (s : State) (c : Nat) (unit : BitVec 32) : State :=
  let k := s.cell c
  match k.run with
  | some r =>
    if k.ended.isSome || (s.ctx r.part r.ctx).st == .closing then s
    else
      match s.submitBy r.order with
      | some u =>
        let v := u.endRun r.item
        let again := u.restart && !u.rerunDone.contains r.item
        let rec_ : FailRec :=
          { item := r.item, kind := if again then 0x05 else 0x04, cause := 0, value := unit.setWidth 64 }
        let w := { v with records := v.records ++ [rec_] }
        s.settle (if again then { w with reruns := insertNat w.reruns r.item, rerunDone := w.rerunDone ++ [r.item] }
          else { w with lost := w.lost + 1 })
      | none => s
  | none => s

/-- A fenced cell keeps its counters (R346) and an ending on which the dispatcher has still to
act. What the destination of an outstanding `MCOPY` or `VGATHERP` holds once its requests have
drained (R61) is not stated: the model leaves it unchanged (DESIGN CHOICE, assumption log entry
67). -/
def Cell.fenced (c : Nat) (k : Cell) : Cell :=
  { Cell.fresh c with
    cycle := k.cycle, slotUsed := k.slotUsed, pmc := k.pmc, pmovf := k.pmovf, pmsel := k.pmsel, pmaddr := k.pmaddr
    run := if k.ended.isSome then k.run else none, ended := k.ended }

/-- Cells present in a block. -/
def State.presentCells (s : State) (b : Nat) : List Nat :=
  (List.range 16).filter fun i => s.cellPresent (16 * b + i)

/-- Fence a block: the contexts of the owning partition stop (R59). -/
def State.fenceBlock (s : State) (b cause : Nat) : State :=
  if s.blockPresent b then
    let s1 := s.noteFence (unitId 2 b 0 cause) (some (b / 16))
    let s2 := { s1 with units := { s1.units with blockFenced := putBit s1.units.blockFenced b true } }
    s2.stopOwner (b / 16) stUnitFailed
  else s

/-- Isolate a region: its blocks and stacks are fenced (R59). The region is logged and counted,
not each of its blocks and stacks (DESIGN CHOICE, assumption log entry 67). -/
def State.isolate (s : State) (g cause : Nat) : State :=
  if s.regionPresent g then
    let s1 := s.noteFence (unitId 3 g 0 cause) (some g)
    let s2 := { s1 with units := { s1.units with
      isolated := putBit s1.units.isolated g true
      hbm := s1.units.hbm &&& ~~~((0xF : BitVec 32) <<< (4 * g)) } }
    s2.stopOwner g stUnitFailed
  else s

/-- All blocks of a region are fenced. -/
def State.blocksGone (s : State) (g : Nat) : Bool :=
  (List.range 16).all fun b => s.units.blockFenced.getLsbD (16 * g + b)

/-- Fence a block, and isolate its region with its last block. R81 has no cause for that isolation:
the model gives it 0x05, last cell fenced (DESIGN CHOICE, assumption log entry 67). -/
def State.fenceBlockUp (s : State) (b cause : Nat) : State :=
  let s1 := s.fenceBlock b cause
  if s.blockPresent b && s1.blocksGone (b / 16) then s1.isolate (b / 16) 0x05 else s1

/-- Take a cell out of service (R61); the block follows its last cell. -/
def State.dropCell (s : State) (c cause : Nat) : State :=
  if s.cellPresent c then
    let u := unitId 1 (c / 16) (c % 16) cause
    let s1 := ((s.elapseCell c).noteFence u (some (c / 256))).loseItem c u
    let s2 := s1.setCell c ((s1.cell c).fenced c)
    let s3 := { s2 with units := { s2.units with
      cellFenced := modifyAt s2.units.cellFenced (c / 16) fun m => putBit m (c % 16) true } }
    if s3.presentCells (c / 16) = [] then s3.fenceBlockUp (c / 16) 0x05 else s3
  else s

/-- Fence a cell. No fence is detected while the clocks are held (R63). -/
def State.fenceCell (s : State) (c cause : Nat) : State := if s.clocksRun then s.dropCell c cause else s

/-- A stack is lost: its range is removed, the contexts of the owning partition stop (R59). -/
def State.loseStack (s : State) (n : Nat) : State :=
  if s.stackPresent n then
    let s1 := s.noteFence (unitId 4 n 0 0x06) (some (n / 4))
    let s2 := { s1 with units := { s1.units with hbm := putBit s1.units.hbm n false } }
    s2.stopOwner (n / 4) stUnitFailed
  else s

/-- A DIMM is lost: the contexts of every partition with a range on it stop (R177). -/
def State.loseDimm (s : State) (d : Nat) : State :=
  if s.units.dimms.getD d 0 ≠ 0 then
    let s1 := s.noteFence (unitId 7 d 0 0x06) none
    let s2 := { s1 with units := { s1.units with
      dimms := setAt s1.units.dimms d 0, dimmsLost := putBit s1.units.dimmsLost d true } }
    (List.range 8).foldl
      (fun a p => if (a.part p).inService && (a.part p).ranges.any (fun r => r.chan == d) then
        a.stopPart p stUnitFailed else a) s2
  else s

/-! ## Retired pages (R183, R184) -/

/-- `MEM` of R186 for a page. -/
def pageMem (page : Nat) : Nat := if page * 4096 < 2 ^ 41 then 1 else 2

/-- Insert in rising order of page, replacing an entry for the same page. -/
def putPage : List RetiredPage → RetiredPage → List RetiredPage
  | [], r => [r]
  | x :: rest, r =>
    if r.page < x.page then r :: x :: rest else if r.page = x.page then r :: rest else x :: putPage rest r

/-- Retired pages in the range of one stack or one channel. -/
def State.retiredIn (s : State) (lo n : Nat) : Nat :=
  (s.flash.retired.filter fun r => r.retired && decide (lo ≤ r.page * 4096 ∧ r.page * 4096 < lo + n)).length

/-- Losses that follow from retired pages and from uncorrectable errors in one frame. -/
def State.memoryLimits (s : State) (pa : Nat) : State :=
  match place pa with
  | .hbm n _ =>
    if 16384 < s.retiredIn (n * hbmSize) hbmSize ∨ 64 < (s.mem.uncorr.find n).getD 0 then s.loseStack n else s
  | .ddr d _ =>
    if 16384 < s.retiredIn (ddrBase + d * 2 ^ 38) (2 ^ 38) ∨ 64 < (s.mem.uncorr.find (32 + d)).getD 0 then
      s.loseDimm d
    else s
  | _ => s

/-- Retire a page at once and log it; `cause` as in R186. -/
def State.retirePage (s : State) (page : Nat) (cause : BitVec 2) : State :=
  if s.flash.retired.any (fun r => r.retired && r.page == page) then s
  else
    let s1 := { s with flash := { s.flash with retired := putPage s.flash.retired { page, retired := true, cause } } }
    (s1.log evPageRetired srcCmd (BitVec.ofNat 32 page)
      (BitVec.ofNat 32 (page / 2 ^ 32 + pageMem page * 256 + cause.toNat * 4096))).memoryLimits (page * 4096)

/-- Retire-pending pages of a granule become retired when it leaves its owner. -/
def State.retirePending (s : State) (g : Nat) : State :=
  (s.flash.retired.filter fun r => !r.retired && r.page / 512 == g).foldl
    (fun a r => a.retirePage r.page r.cause) s

/-- Count an uncorrectable error of this frame by stack or by DIMM. -/
def State.countUncorr (s : State) (pa : Nat) : State :=
  match place pa with
  | .hbm n _ => { s with mem := { s.mem with uncorr := s.mem.uncorr.put n ((s.mem.uncorr.find n).getD 0 + 1) } }
  | .ddr d _ =>
    { s with mem := { s.mem with uncorr := s.mem.uncorr.put (32 + d) ((s.mem.uncorr.find (32 + d)).getD 0 + 1) } }
  | _ => s

/-- An uncorrectable error at an address of external memory: the page is retired (R183). -/
def State.uncorrectable (s : State) (pa : Nat) (cause : BitVec 2) : State :=
  match place pa with
  | .hbm _ _ | .ddr _ _ => ((s.countUncorr pa).retirePage (pa / 4096) cause).memoryLimits pa
  | _ => s

/-- The contexts that an error in a granule stops: its owner, or every context of the partition
where it is shared (R183). -/
def State.stopGranule (s : State) (g : Nat) : State :=
  match (s.granule g).owner with
  | .free => s
  | .ctx p c => s.stopContext p c stKilled
  | .shared p => s.stopPart p stKilled

/-- Frames of 24 h. -/
def dayFrames : Nat := 4320000000

/-- A corrected error: the third in 24 h makes the page retire-pending (R184). -/
def State.correctedError (s : State) (page : Nat) : State :=
  let f := s.power.frame.toNat
  let l := ((s.mem.corrected.find page).getD []).filter (fun x => f < x + dayFrames) ++ [f]
  let s1 := { s with mem := { s.mem with corrected := s.mem.corrected.put page l } }
  if 3 ≤ l.length && !s.flash.retired.any (fun r => r.page == page) then
    { s1 with flash := { s1.flash with
      retired := putPage s1.flash.retired { page, retired := false, cause := 2 } } }
  else s1

/-! ## What reads of external memory meet (R182 to R184) -/

/-- The piece of external memory in which an error lies, among what is read. -/
def hitPiece (ps : List Piece) (e : Option Nat) : Option (Nat × Piece) :=
  match e with
  | none => none
  | some pa =>
    match place pa with
    | .hbm _ _ | .ddr _ _ => (ps.find? fun p => decide (p.pa ≤ pa ∧ pa < p.pa + p.len)).map fun p => (pa, p)
    | _ => none

/-- A read of pieces by an agent of block `b` meets corrected data: the error counts for its page and as event 0x47. -/
def State.readCorrected (s : State) (b mk cl priv : Nat) (ps : List Piece) (e : Option Nat) : State :=
  match hitPiece ps e with
  | some (pa, p) => (s.correctedError (pa / 4096)).count b mk cl priv clsMemory
      [{ code := 0x47, n := 1, addr := some (p.va + (pa - p.pa)) }]
  | none => s

/-- A read of pieces for a context meets uncorrectable data: the context stops and the page retires. -/
def State.readBad (s : State) (p c : Nat) (ps : List Piece) (e : Option Nat) : Option State :=
  (hitPiece ps e).map fun x => (s.stopContext p c stKilled).uncorrectable x.1 1

/-- The block in whose local stores a mover or an engine meets a parity error, among what it reads. -/
def hitLocal (ps : List Piece) (e : Option Nat) : Option Nat :=
  match e with
  | none => none
  | some pa =>
    match place pa with
    | .local_ b _ _ => if ps.any fun p => decide (p.pa ≤ pa ∧ pa < p.pa + p.len) then some b else none
    | _ => none

/-- Work of a mover or an engine for a context reads pieces: uncorrectable data stops the context (R183); a parity
error in a local store loses the word and stops the contexts of the partition that owns it (R68, R168); else the work goes on,
and a corrected error counts. -/
def State.readMeets (s : State) (b mk priv p c : Nat) (ps : List Piece) (e : ReadErr) (go : State → State) : State :=
  let m := s.meets e.bad
  match m.1.readBad p c ps m.2 with
  | some t => t
  | none =>
    match hitLocal ps e.parity with
    | some b' => (m.1.count b' mk 0 priv clsMemory [ev 0x4D 1]).stopOwner (b' / 16) stKilled
    | none => (go m.1).readCorrected b mk 0 priv ps e.corrected

/-- Page table entries as pieces of memory. -/
def entryPieces (l : List Nat) : List Piece := l.map fun a => { va := a, pa := a, len := 8 }

/-- What the accesses of a context to a range read: the page table entries and the pieces (R183). -/
def State.vreads (s : State) (p c va n : Nat) : List Piece :=
  entryPieces (s.entriesOf (s.tagOf p c) (s.ctx p c).ptroot ((pageParts va n).map (·.1)))
    ++ (s.vpieces p c .load va n).1

/-- Free a granule and mark it pending (R184, R189). -/
def State.freeGranule (s : State) (g : Nat) : State :=
  (s.setGranule g { owner := .free, scrub := .pending }).retirePending g

/-! ## Tearing a context down (R258) -/

/-- A generation after its advance (R233). -/
def genNext (g : BitVec 8) : BitVec 8 := if g = 255 then 1 else g + 1

/-- Held operations of a context are discarded (R223). -/
def State.dropHeld (s : State) (p c : Nat) : State :=
  { s with
    disp := { s.disp with
      submits := s.disp.submits.filter fun u => !(u.held && u.part == p && u.ctx == c)
      transfers := s.disp.transfers.filter fun u => !(u.held && u.part == p && u.ctx == c) }
    coll := { s.coll with batches := s.coll.batches.filter fun u => !(u.held && u.part == p && u.ctx == c) } }

/-- Granules with the given owner. -/
def State.granulesOf (s : State) (o : Owner) : List Nat :=
  (s.mem.granules.filter fun x => x.2.owner == o).map (·.1)

/-- Uncommit the HDM decoders that satisfy a condition (R207). -/
def State.uncommit (s : State) (f : Window → Bool) : State :=
  { s with mail := { s.mail with windows := s.mail.windows.map fun w =>
      if (w.committed && f w) = true then { w with committed := false } else w } }

/-- The reset of a region (R348, R453): its cells, counters and tier mover queue; a hang is
no part of it, and the local stores keep their contents under their tags. -/
def State.resetRegion (s : State) (g : Nat) : State :=
  { s with
    cells := s.cells.filter fun x => x.1 / 256 != g
    banks := s.banks.filter fun x => x.1 / 16 != g
    mem := { s.mem with hints := s.mem.hints.del g } }

/-- Reset the regions of a mask. -/
def State.resetRegions (s : State) (m : BitVec 8) : State :=
  ((List.range 8).filter fun g => m.getLsbD g).foldl State.resetRegion s

/-! ## Admission to confidential partitions (R422, R423) -/

/-- A CXL.io IDE stream is in `K_SET_GO`. -/
def State.ideIoGo (s : State) : Bool := s.sec.ideIo.go != [] || s.sec.ideSel.go != []

/-- CXL.cachemem IDE is active. -/
def State.ideMemGo (s : State) : Bool := s.sec.ideMem.go != []

/-- The conditions of `PART_CREATE` with `CONF` = 1. -/
def State.admission (s : State) : Bool :=
  !s.sec.debugOpen && s.sec.running && !s.sec.error
    && (s.sec.tdi == .configLocked || s.sec.tdi == .run) && s.ideIoGo

/-- The conditions of host access in a confidential partition. -/
def State.hostAdmission (s : State) : Bool := s.sec.tdi == .run && s.ideMemGo

end Sys2Proof.Machine
end

