-- ==== Sys2Proof/Machine/Issue.lean ====
section
/-! DEFINITION. The issue of one instruction on a cell: its fetch, what it meets in memory, its retirement with the
counters and samples that it moves, and the translations that it leaves cached (R67, R92, R131, R134, R183,
R193, R339, R340, R349 to R353). -/

namespace Sys2Proof.Machine

/-! ## Kinds of instructions (R135, R339) -/

/-- The class of an instruction's issue slot, and the class of its events. -/
structure Kind where
  slot : Nat
  cls : Nat
deriving DecidableEq, Repr

/-- Scalar instructions. -/
def kScalar : Kind := { slot := clsControl, cls := clsCompute }

/-- Branches, CSR accesses, system calls and item ends. -/
def kControl : Kind := { slot := clsControl, cls := clsControl }

/-- Vector and matrix instructions. -/
def kCompute : Kind := { slot := clsCompute, cls := clsCompute }

/-- Memory instructions. -/
def kMemory : Kind := { slot := clsMemory, cls := clsMemory }

/-- `FENCE` and `WAITSIG`, which issue in the memory slot. -/
def kOrder : Kind := { slot := clsMemory, cls := clsControl }

/-- The privilege of a cell as `PMSEL` names it. -/
def Cell.priv (k : Cell) : Nat := if k.sup then privSup else privUser

/-! ## The fetch (R133, R137) -/

/-- The fetch of the instruction at the PC: the fault that it meets. -/
def State.fetch (s : State) (c : Nat) : Option (BitVec 8) :=
  let k := s.cell c
  match s.translate (s.cellTag k) k.space .fetch (!k.sup) k.pc.toNat with
  | .ok _ => none
  | .fault f => some f

/-- The pieces that the fetch reads: page table entries and the instruction. -/
def State.fetchReads (s : State) (c : Nat) : List Piece :=
  let k := s.cell c
  entryPieces (s.walkFrom (s.cellTag k) k.ptroot k.pc.toNat).reads
    ++ match s.translate (s.cellTag k) k.space .fetch (!k.sup) k.pc.toNat with
      | .ok pa => [{ va := k.pc.toNat, pa, len := 8 }]
      | .fault _ => []

/-- The instruction word at the PC, as memory holds it. -/
def State.insnWord (s : State) (c : Nat) : BitVec 64 :=
  let k := s.cell c
  match s.translate (s.cellTag k) k.space .fetch (!k.sup) k.pc.toNat with
  | .ok pa => BitVec.ofNat 64 (s.readNat (s.cellTag k) pa 8)
  | .fault _ => 0

/-- The page table entries that accesses of a cell read. -/
def State.dataEntries (s : State) (c : Nat) (vas : List Nat) : List Nat :=
  s.entriesOf (s.cellTag (s.cell c)) (s.cell c).ptroot vas

/-! ## Translations held (R134) -/

/-- The leaf of an address as a cached translation. -/
def State.xentOf (s : State) (t : Tag) (root : Word) (va : Nat) : Option Xent :=
  (s.walkFrom t root va).leaf.map fun x => { tag := t, base := va / x.2 * x.2, size := x.2, leaf := x.1 }

/-- A cell takes a translation over, once. -/
def Cell.hold (k : Cell) (x : Xent) : Cell := if k.tlb.contains x then k else { k with tlb := k.tlb ++ [x] }

/-- The translations of an access are held for the cells of its block. -/
def State.holdXlat (s : State) (b : Nat) (l : List Xent) : State :=
  { s with cells := s.cells.map fun x => (x.1, if x.1 / 16 = b then l.foldl Cell.hold x.2 else x.2) }

/-- Discard the translations of a context that satisfy a condition, in the cells that satisfy another. -/
def State.dropXlat (s : State) (p c : Nat) (cells : Nat → Bool) (f : Xent → Bool) : State :=
  { s with cells := s.cells.map fun x => (x.1, if cells x.1 then
      { x.2 with tlb := x.2.tlb.filter fun y => !(y.tag.part == p && y.tag.ctx == c && f y) } else x.2) }

/-- Every translation of a context is discarded, at a `SUBMIT` start and when the context resumes. -/
def State.dropXlats (s : State) (p c : Nat) : State := s.dropXlat p c (fun _ => true) fun _ => true

/-! ## Samples (R349 to R353) -/

/-- The first data address of an instruction; for asynchronous work its source or descriptor. -/
def dataAddr (before after : Cell) (ps : List Piece) : Word :=
  if before.asyncNext < after.asyncNext then ((after.async.getLast?).map (·.src)).getD 0
  else ((ps.head?).map fun p => BitVec.ofNat 64 p.va).getD 0

/-- Whether a sample is due with this instruction, and the countdown that remains: in mode 1 each retired
instruction counts, in mode 2 each clock, of which a free number has passed since the instruction before. -/
def sampleDue (k : Cell) (n f : Nat) (retired : Bool) : Bool × Nat :=
  if k.sampMode = 1 ∧ retired then (decide (n ≤ 1), if n ≤ 1 then k.sampN else n - 1)
  else if k.sampMode = 2 then (decide (n ≤ f), if n ≤ f then k.sampN else n - f)
  else (false, n)

/-- The sampling countdown of the running context goes on, and a sample that is due is taken of the instruction
that cell `c` ran as `k`: its record enters the buffer with `SAMPLE_TAKEN`. -/
def State.sample (s : State) (c : Nat) (k : Cell) (insn : BitVec 64) (ps : List Piece) (retired replayed : Bool) : State :=
  match k.run with
  | none => s
  | some r =>
    match k.countdown.find (16 * r.part + r.ctx) with
    | none => s
    | some n =>
      let d := sampleDue k n (Config.freeNat s.freeCtr) retired
      let j := s.cell c
      let async := if k.asyncNext < j.asyncNext then some k.asyncNext else none
      let x : Sample :=
        { part := r.part, ctx := r.ctx, item := r.item, pc := k.pc, insn, sup := k.sup, discarded := !retired, replayed
          daddr := dataAddr k j ps, frame := s.power.frame, time := { latency := 0, stall := 0, offset := 0 } }
      let j1 := { j with countdown := j.countdown.put (16 * r.part + r.ctx) d.2 }
      s.setCell c (if d.1 && !(s.ctx r.part r.ctx).sampling.stopped then { j1 with latches := j1.latches ++ [(x, async)] }
        else j1)

/-! ## What an instruction meets -/

/-- The parity errors of an instruction that ran at privilege `priv` are counted, with its replays, of which there
are at most 3, and the issue slots that they wasted (R67, R338, R340). -/
def State.replay (s : State) (c : Nat) (u : Upset) (κ : Kind) (priv : Nat) : State :=
  let n := min u.parity 4
  if n = 0 then s
  else ((s.count (c / 16) mkCell c priv κ.cls (ev 0x0C (min n 3) :: if u.store then [ev 0x4D n] else [])).count
    (c / 16) mkCell c priv κ.slot [ev 0x01 n]).useSlots c n

/-- The cell consumes uncorrectable data: its context is stopped and the page retired (R183). -/
def State.consumeBad (s : State) (c pa : Nat) : State :=
  match (s.cell c).run with
  | some r => (s.stopContext r.part r.ctx stKilled).uncorrectable pa 1
  | none => s

/-- An instruction retires: its events are counted at the privilege at which it ran, with the slot that it took;
one whose guard excludes every lane wastes its slot (R340). -/
def State.retire (s : State) (c : Nat) (κ : Kind) (priv : Nat) (idle : Bool) (evs : List Ev) : State :=
  (((s.setCell c { s.cell c with wait := none }).count (c / 16) mkCell c priv κ.cls (ev 0x04 1 :: evs)).count
    (c / 16) mkCell c priv κ.slot [ev (if idle then 0x01 else 0x00) 1]).useSlots c 1

/-- The snoops, the cached translations and the sample of an instruction that cell `c` has run in state `s`, with
its data accesses (R134, R193, R351). -/
def State.afterRun (s t : State) (c : Nat) (reads writes : List Piece) (retired replayed : Bool) : State :=
  let k := s.cell c
  let vas := (reads ++ writes).map (·.va)
  let t1 := (t.recallEntries (s.dataEntries c vas)).recallPieces (s.fetchReads c)
  let t2 := t1.holdXlat (c / 16) ((k.pc.toNat :: vas).filterMap (s.xentOf (s.cellTag k) k.ptroot))
  let t3 := t2.sample c k (s.insnWord c) (reads ++ writes) retired replayed
  { t3 with freeCtr := t3.freeCtr + 1 }

/-- What an instruction without upset does to the module, once its fetch has succeeded. -/
def State.finish (s : State) (c : Nat) (κ : Kind) (idle replayed : Bool) (e : Eff) : State :=
  match e with
  | .next t evs reads writes =>
    s.afterRun (t.retire c κ (s.cell c).priv idle evs) c reads writes true replayed
  | .exc cause addr => s.afterRun (s.raise c cause addr) c [] [] false replayed
  | .stall t => t

/-- The pieces that an instruction reads as it runs: its fetch, and the page table entries and data of its accesses;
a fault has read the entries of its address. A stalled one is issued again and consumes nothing. -/
def State.consumed (s : State) (c : Nat) : Eff → List Piece
  | .next _ _ reads writes =>
    s.fetchReads c ++ entryPieces (s.dataEntries c ((reads ++ writes).map (·.va))) ++ reads
  | .exc _ addr => s.fetchReads c ++ entryPieces (s.dataEntries c [addr.toNat])
  | .stall _ => []

/-- Run one instruction on cell `c`: `f` is its effect, `idle` says that its guard excludes everything. A fourth
parity error in a row fences the cell; uncorrectable data stops the context of the item. -/
def State.issueAs (s : State) (c : Nat) (u : Upset) (κ : Kind) (idle : Cell → Bool) (f : State → Cell → Eff) :
    Host.Outcome State Fault Refusal :=
  if !s.canIssue c then .next s
  else
    let m := s.meets u.bad
    let s := m.1
    let k := s.cell c
    if 4 ≤ u.parity then .next ((s.replay c u κ k.priv).fenceCell c 0x01)
    else
      let e := match s.fetch c with
        | some cause => .exc cause k.pc
        | none => f s k
      match hitPiece (s.consumed c e) m.2 with
      | some (pa, _) => .next ((s.replay c u κ k.priv).consumeBad c pa)
      | none =>
        .next (((s.finish c κ (idle k) (u.parity != 0) e).readCorrected (c / 16) mkCell c k.priv (s.consumed c e)
          u.corrected).replay c u κ k.priv)

/-- Run an instruction without a guard. -/
def State.issue (s : State) (c : Nat) (u : Upset) (κ : Kind) (f : State → Cell → Eff) :
    Host.Outcome State Fault Refusal :=
  s.issueAs c u κ (fun _ => false) f

/-- Run an instruction that reads or writes the predicates `ps`: it waits for an outstanding
gather that writes one of them. -/
def State.issueP (s : State) (c : Nat) (u : Upset) (κ : Kind) (ps : List (BitVec 4)) (f : State → Cell → Eff) :
    Host.Outcome State Fault Refusal :=
  if (s.cell c).predBusy ps then .next s else s.issue c u κ f

/-- Run an instruction under the guard `pg`, `pn`, with `ps` the predicates that it reads or writes besides. -/
def State.issueG (s : State) (c : Nat) (u : Upset) (κ : Kind) (pg : BitVec 4) (pn : Bool) (ps : List (BitVec 4))
    (f : State → Cell → Eff) : Host.Outcome State Fault Refusal :=
  if (s.cell c).predBusy (pg :: ps) then .next s else s.issueAs c u κ (fun k => k.guard pg pn == 0) f

end Sys2Proof.Machine
end

