-- ==== Sys2Proof/Machine/Matrix.lean ====
section
/-! DEFINITION. Matrix instructions: `TMMA`, `TWIN`, `TZERO`, `XTAL.T`, `TMOVV` and `VMOVT`
(R107 to R113, R144 to R161). -/

namespace Sys2Proof.Machine

/-! ## Tiles -/

/-- Element `i × 64 + j` of a tile. -/
def tileElem (t : Tile) (i : Nat) : Nat := elemOf 64 t.toNat i

/-- A tile from its elements. -/
def tileOf (f : Nat → Nat) : Tile := BitVec.ofNat 262144 (packElems 64 f 4096)

/-! ## TMMA -/

/-- K of an operand pairing, or none where it is not allowed (R108). -/
def tmmaK (fa fb : Nat) : Option Nat :=
  if fa = etE2M1 ∧ fb = etE2M1 then some 32
  else if (fa = etE4M3 ∨ fa = etE5M2) ∧ (fb = etE4M3 ∨ fb = etE5M2) then some 16
  else if fa = etINT8 ∧ fb = etINT8 then some 16
  else if (fa = etBF16 ∨ fa = etFP16) ∧ (fb = etBF16 ∨ fb = etFP16) then some 8
  else if fa = etFP32 ∧ fb = etFP32 then some 4
  else none

/-- The exact value of an operand element, with its block scale when there is one (R142 to R144). -/
def operandVal (et x : Nat) (scale : Option Nat) : FVal :=
  match scale with
  | none =>
    match etFormat et with
    | some f => f.decode x
    | none => FVal.ofInteger (signed 8 x)
  | some q =>
    match etFormat et with
    | some f => (f.decode x).scaled q
    | none => ((FVal.ofInteger (signed 8 x)).scale (-6)).scaled q

/-- The magnitude bound C of a format (R151). -/
def boundC (et : Nat) : Int :=
  if et = etE4M3 then 9 else if et = etE5M2 then 16 else if et = etE2M1 then 3 else 2

/-- The largest scale byte of the entries with a property, 0xFF left out. -/
def maxScale (q : QReg) (p : Nat → Bool) : Option Nat :=
  (List.range 64).foldl (fun a i =>
    let x := elemOf 8 q.toNat i
    if p i && x != 0xFF then some (max x (a.getD 0)) else a) none

/-- Row i and column j are updated when guard bits i and 64 + j are both true (R108). -/
def rowOn (g : PReg) (i : Nat) : Bool := g.getLsbD i && (List.range 64).any fun j => g.getLsbD (64 + j)

def colOn (g : PReg) (j : Nat) : Bool := g.getLsbD (64 + j) && (List.range 64).any fun i => g.getLsbD i

/-- The auto window of the first scaled `TMMA` (R151). -/
def autoWindow (k : Cell) (o : TmmaOp) (g : PReg) : Int :=
  match maxScale (k.rq o.qa) (rowOn g), maxScale (k.rq o.qb) (colOn g) with
  | some x, some y => (x : Int) + y - 254 + boundC o.fa.toNat + boundC o.fb.toNat
  | _, _ => 0

/-- Product k of row i and column j (R108, R109). -/
def tmmaProduct (k : Cell) (o : TmmaOp) (kk i j n : Nat) : FVal :=
  let fa := o.fa.toNat
  let fb := o.fb.toNat
  let qa := if o.scl then some (elemOf 8 (k.rq o.qa).toNat i) else none
  let qb := if o.scl then some (elemOf 8 (k.rq o.qb).toNat j) else none
  (operandVal fa (vecElem (etWidth fa) (k.rv o.va) (i * kk + n)) qa).mul
    (operandVal fb (vecElem (etWidth fb) (k.rv o.vb) (n * 64 + j)) qb)

/-- Add contributions in ascending order: the word, and how many conversions or additions
overflowed (R110, R146, R147). -/
def brineSum (E : Int) : List FVal → BitVec 64 → Nat → BitVec 64 × Nat
  | [], acc, n => (acc, n)
  | p :: rest, acc, n =>
    let c := contribution E p
    let a := brineAdd acc (BitVec.ofInt 64 c.1)
    brineSum E rest a.1 (n + (if c.2 then 1 else 0) + if a.2 then 1 else 0)

/-- FP32 accumulation in ascending order, and how many steps overflowed (R154). -/
def fp32Sum : List FVal → Nat → Nat → Nat × Nat
  | [], acc, n => (acc, n)
  | p :: rest, acc, n =>
    let r := fp32Acc acc p
    fp32Sum rest r.1 (n + if r.2 then 1 else 0)

/-- An element after a `TMMA`, with the number of overflows. -/
def tmmaElem (k : Cell) (o : TmmaOp) (kk : Nat) (win : BitVec 16) (i j : Nat) : Nat × Nat :=
  let ps := (List.range kk).map (tmmaProduct k o kk i j)
  let old := tileElem (k.tile o.td) (i * 64 + j)
  if (k.stat o.td).mode = 1 then
    let r := brineSum win.toInt ps (BitVec.ofNat 64 old) 0
    (r.1.toNat, r.2)
  else fp32Sum ps (old % 2 ^ 32) 0

/-- What a `TMMA` does once its checks have passed (R108 to R110). -/
def tmmaRun (s : State) (c : Nat) (k : Cell) (o : TmmaOp) (kk : Nat) : Eff :=
  let g := k.guard o.pg o.pn
  let st := k.stat o.td
  let win := if st.pend then BitVec.ofInt 16 (autoWindow k o g) else st.win
  let on := fun i j => g.getLsbD i && g.getLsbD (64 + j)
  let el := fun n => if on (n / 64) (n % 64) then tmmaElem k o kk win (n / 64) (n % 64)
    else (tileElem (k.tile o.td) n, 0)
  let ovf := (List.range 4096).foldl (fun a n => a + (el n).2) 0
  let st' := { st with win, pend := false, ovf := st.ovf || decide (0 < ovf) }
  .cell s c ((k.wtile o.td (tileOf fun n => (el n).1)).wstat o.td st')
    (ev 0x06 1 :: if st.mode = 1 ∧ ovf ≠ 0 then [ev 0x0A ovf] else [])

/-- `TMMA` (R108 to R110). -/
def tmmaEff (s : State) (c : Nat) (o : TmmaOp) (k : Cell) : Eff :=
  let st := k.stat o.td
  match tmmaK o.fa.toNat o.fb.toNat with
  | none => .exc cIllegal 0
  | some kk =>
    .legal (!(o.scl && (o.fa.toNat == etFP32 || o.fa.toNat == etBF16 || o.fa.toNat == etFP16))
        && (o.scl || (o.qa == 0 && o.qb == 0)))
      (if !st.isOpen || (o.fa.toNat == etINT8 && st.mode == 2) || (st.pend && !o.scl) then
        .exc cTileState 0
      else tmmaRun s c k o kk)

def execTmma (c : Nat) (o : TmmaOp) (u : Upset) (s : State) : Host.Outcome State Fault Refusal :=
  s.issueG c u kCompute o.pg o.pn [] fun s k => tmmaEff s c o k

/-! ## TWIN and TZERO (R111) -/

def execTwin (c : Nat) (o : TwinOp) (u : Upset) (s : State) : Host.Outcome State Fault Refusal :=
  s.issue c u kCompute fun s k =>
    let win := if o.immw then o.win else (k.rs o.ss).setWidth 16
    .legal (o.mode != 3 && (!o.auto || o.mode == 1) && (if o.immw then o.ss == 0 else o.win == 0))
      (.cell s c ((k.wtile o.td 0).wstat o.td
        { win, mode := o.mode, auto := o.auto, ovf := false, pend := o.auto }) [])

def execTzero (c : Nat) (t : BitVec 3) (u : Upset) (s : State) : Host.Outcome State Fault Refusal :=
  s.issue c u kCompute fun s k =>
    let st := k.stat t
    if !st.isOpen then .exc cTileState 0
    else .cell s c ((k.wtile t 0).wstat t { st with ovf := false, pend := st.auto || st.pend }) []

/-! ## XTAL.T (R112, R155 to R161) -/

/-- Rows per group of a target, or none for a combination that is not allowed. -/
def xtalRows (tet : Nat) (scl : Bool) : Option Nat :=
  if scl then
    if tet = etE4M3 ∨ tet = etE5M2 then some 16 else if tet = etE2M1 then some 32 else none
  else if tet = etFP32 then some 4
  else if tet = etBF16 ∨ tet = etFP16 then some 8
  else if tet = etE4M3 ∨ tet = etE5M2 then some 16
  else none

/-- The exact value of a tile element (R155). -/
def tileVal (k : Cell) (td : BitVec 3) (n : Nat) : FVal :=
  let st := k.stat td
  let x := tileElem (k.tile td) n
  if st.mode = 1 then brineVal st.win.toInt (BitVec.ofNat 64 x) else fp32.decode (x % 2 ^ 32)

/-- The MX block h of row r of a group. -/
def xtalBlock (k : Cell) (o : XtalTOp) (f : FFmt) (rows r h : Nat) : Nat × List Nat × BitVec 7 :=
  mxBlock f o.sat ((List.range 32).map fun n =>
    tileVal k o.td ((rows * o.rg.toNat + r) * 64 + 32 * h + n))

/-- A row group in plain elements. -/
def xtalPlain (s : State) (c : Nat) (k : Cell) (o : XtalTOp) (f : FFmt) (rows : Nat) : Eff :=
  let b := etWidth o.tet.toNat
  let el := fun n => f.round o.sat (tileVal k o.td (rows * o.rg.toNat * 64 + n))
  let fl := (List.range (rows * 64)).foldl (fun a n => a ||| (el n).2) 0
  .cell s c ((k.wv o.vd (vecOf b fun n => (el n).1)).flag fl)
    (ev 0x09 1 :: if fl = 0 then [] else [ev 0x0B 1])

/-- A row group in MX blocks, with its scales. -/
def xtalMx (s : State) (c : Nat) (k : Cell) (o : XtalTOp) (f : FFmt) (rows : Nat) : Eff :=
  let b := etWidth o.tet.toNat
  let blocks := (List.range (2 * rows)).map fun n => xtalBlock k o f rows (n / 2) (n % 2)
  let block := fun n => blocks.getD n (0, [], 0)
  let fl := blocks.foldl (fun a x => a ||| x.2.2) 0
  let q := packElems 8 (fun n =>
    if n < 2 * rows then (block n).1 else elemOf 8 (k.rq o.qd).toNat n) 64
  .cell s c (((k.wv o.vd (vecOf b fun n => (block (n / 32)).2.1.getD (n % 32) 0)).wq o.qd
      (BitVec.ofNat 512 q)).flag fl)
    (ev 0x09 1 :: if fl = 0 then [] else [ev 0x0B 1])

def execXtalT (c : Nat) (o : XtalTOp) (u : Upset) (s : State) : Host.Outcome State Fault Refusal :=
  s.issue c u kCompute fun s k =>
    let st := k.stat o.td
    match xtalRows o.tet.toNat o.scl, etFormat o.tet.toNat with
    | some rows, some f =>
      .legal (decide (o.rg.toNat < 64 / rows) && (o.scl || o.qd == 0))
        (if !st.isOpen || st.pend then .exc cTileState 0
        else if o.scl then xtalMx s c k o f rows else xtalPlain s c k o f rows)
    | _, _ => .exc cIllegal 0

/-! ## Moves of raw elements (R113) -/

def execTmovv (c : Nat) (o : TMovOp) (u : Upset) (s : State) : Host.Outcome State Fault Refusal :=
  s.issue c u kCompute fun s k =>
    .cell s c (k.wv o.v (vecOf 64 fun n => tileElem (k.tile o.td) (o.rp.toNat * 128 + n))) []

def execVmovt (c : Nat) (o : TMovOp) (u : Upset) (s : State) : Host.Outcome State Fault Refusal :=
  s.issue c u kCompute fun s k =>
    let lo := o.rp.toNat * 128
    .cell s c (k.wtile o.td (tileOf fun n =>
      if lo ≤ n ∧ n < lo + 128 then vecElem 64 (k.rv o.v) (n - lo) else tileElem (k.tile o.td) n)) []

end Sys2Proof.Machine
end

