-- ==== Sys2Proof/Machine/Gather.lean ====
section
/-! DEFINITION. The lanes of a `VGATHERP` (R120 to R122), and the accesses of a cell that wait for its outstanding
gathers (R124, R128). -/

namespace Sys2Proof.Machine

/-- What a lane of a gather finds. -/
inductive LaneRes where
  | skip
  | row (ps : List Piece) (entry : Nat) (value : Nat)
  | fault (cause : BitVec 8) (va : Nat)
deriving DecidableEq, Repr

/-- The place of a table entry. -/
def State.gatherEntry (s : State) (t : Tag) (sp : Space) (user : Bool) (va : Nat) : Except (BitVec 8) Piece :=
  match s.translate t sp .load user va with
  | .ok pa => .ok { va, pa, len := 8 }
  | .fault c => .error c

/-- A valid entry: `V` set, reserved bits zero (R121). -/
def gatherValid (e : Nat) : Bool := e % 2 == 1 && e / 4 % 1024 == 0

/-- One lane: what it reads, and what it finds (R120, R121). -/
def State.laneRead (s : State) (k : Cell) (a : Async) (i : Nat) : List Piece × LaneRes :=
  let t := s.cellTag k
  let tok := vecElem 32 a.idx i
  let slots := a.pgsz - Nat.log2 a.stride
  let page := tok / 2 ^ slots
  let slot := tok % 2 ^ slots
  if i ≥ a.lanes ∨ !a.guardMask.getLsbD i ∨ 512 ≤ page / 512 then ([], .skip)
  else
    let va1 := a.l1.toNat + 8 * (page / 512)
    match s.gatherEntry t k.space (!a.sup) va1 with
    | .error c => ([], .fault c va1)
    | .ok p1 =>
      let e1 := s.readNat t p1.pa 8
      if !gatherValid e1 || e1 / 2 % 2 == 1 then ([p1], .skip)
      else
        let va2 := e1 / 4096 * 4096 + 8 * (page % 512)
        match s.gatherEntry t k.space (!a.sup) va2 with
        | .error c => ([p1], .fault c va2)
        | .ok p2 =>
          let e2 := s.readNat t p2.pa 8
          if !gatherValid e2 || e2 / 4096 * 4096 % 2 ^ a.pgsz != 0 then ([p1, p2], .skip)
          else
            match s.translateRange t k.space .load (!a.sup)
              (e2 / 4096 * 4096 + slot * a.stride + a.offset) a.row with
            | (ps, some (c, va)) => (p1 :: p2 :: ps, .fault c va)
            | (ps, none) => (p1 :: p2 :: ps, .row ps va2 e2)

/-- What a lane finds. -/
def State.gatherLane (s : State) (k : Cell) (a : Async) (i : Nat) : LaneRes := (s.laneRead k a i).2

/-- What the lanes of a gather read. -/
def State.gatherReads (s : State) (k : Cell) (a : Async) : List Piece :=
  (List.range 256).flatMap fun i => (s.laneRead k a i).1

/-- The destination of a gather. -/
def State.gatherDst (s : State) (k : Cell) (a : Async) : List Piece :=
  (s.translateRange (s.cellTag k) k.space .store (!a.sup) a.dst.toNat a.len).1

/-- Two pieces share a byte of memory. -/
def Piece.meets (p q : Piece) : Bool := decide (p.pa < q.pa + q.len ∧ q.pa < p.pa + p.len)

/-- An access waits: to a byte of the destination of a gather `f` selects (R124), or, where it writes, to a byte that
such a gather, whose reads are loads that the cell has issued before, has still to read (R128). -/
def State.gatherHolds (s : State) (k : Cell) (f : Async → Bool) (write : Bool) (ps : List Piece) : Bool :=
  (k.async.filter fun a => a.gather && f a).any fun a =>
    (s.gatherDst k a ++ if write then s.gatherReads k a else []).any fun q => ps.any (Piece.meets q)

end Sys2Proof.Machine
end

