-- ==== Sys2Proof/Machine/Memory.lean ====
section
/-! DEFINITION. Loads, stores, atomics, gathers, `VGATHERP`, `MCOPY`, `WAITSIG` and `FENCE`
(R115 to R131). -/

namespace Sys2Proof.Machine

/-! ## Access of a cell -/

/-- A piece touches a pending gather-feed piece (R327). -/
def State.feedPending (s : State) (p : Piece) : Bool :=
  (List.range ((p.pa % 1024 + p.len + 1023) / 1024)).any fun i => (s.mem.feed.find (p.pa / 1024 + i)).isSome

/-- The pieces of an access, its fault, or a wait. -/
inductive MemRes where
  | ok (ps : List Piece)
  | fault (cause : BitVec 8) (va : Nat)
  | wait
deriving DecidableEq, Repr

/-- Translate the parts of an access of a cell (R124, R133, R327). -/
def State.memParts (s : State) (k : Cell) (acc : Acc) (parts : List (Nat × Nat)) : MemRes :=
  match s.translateParts (s.cellTag k) k.space acc (!k.sup) parts with
  | (_, some (cause, va)) => .fault cause va
  | (ps, none) =>
    if s.gatherHolds k (fun _ => true) (acc == .store) ps || (acc == .load && ps.any s.feedPending) then .wait else .ok ps

def State.memRange (s : State) (k : Cell) (acc : Acc) (va n : Nat) : MemRes :=
  s.memParts k acc (pageParts va n)

/-- Continue an instruction with the pieces of its access. -/
def withPieces (s : State) (r : MemRes) (f : List Piece → Eff) : Eff :=
  match r with
  | .ok ps => f ps
  | .fault cause va => .exc cause (BitVec.ofNat 64 va)
  | .wait => .stall s

/-- An address that is not aligned raises `MISALIGNED` (R115). -/
def aligned (va : Word) (n : Nat) (e : Eff) : Eff := if va.toNat % n = 0 then e else .exc cMisaligned va

/-- Base + `OFF24`, or base + `s[XI]` + `OFF24` (R96). -/
def Cell.address (k : Cell) (o : MOp) : Word :=
  k.rs o.sb + (if o.am = 1 then k.rs o.xi else 0) + o.off.signExtend 64

/-- Fields of a scalar or whole-register access: `AM` 0b00 or 0b01, unused fields zero. `cas`:
`XI` also names the value stored (R118). -/
def plainFields (guarded atomic cas : Bool) (o : MOp) : Bool :=
  (guarded || (o.pg == 0 && !o.pn)) && (o.am == 0 || o.am == 1) && o.sc == 0
    && (o.am == 1 || cas || o.xi == 0) && (atomic || (!o.rel && !o.acq))

/-- Bytes of a scalar access, or none where the type is not allowed (R115). -/
def scalarSize (et : BitVec 4) : Option Nat :=
  if et.toNat = etINT8 then some 1
  else if et.toNat = etINT16 then some 2
  else if et.toNat = etINT32 then some 4
  else if et.toNat = etINT64 then some 8
  else none

/-- Heads of runs of pieces in one 64-byte line. -/
def lineHeads : Nat → List Piece → List Piece
  | _, [] => []
  | last, p :: rest =>
    if last = p.va / 64 + 1 then lineHeads last rest else p :: lineHeads (p.va / 64 + 1) rest

/-! ## Scalar loads and stores (R115) -/

/-- A scalar load; `sgn` extends the sign. -/
def loadEff (sgn : Bool) (s : State) (c : Nat) (o : MOp) (k : Cell) : Eff :=
  match scalarSize o.et with
  | none => .exc cIllegal 0
  | some n =>
    let va := k.address o
    .legal (plainFields false false false o) (aligned va n
      (withPieces s (s.memRange k .load va.toNat n) fun ps =>
        let v := leNat (s.readPieces (s.cellTag k) ps)
        let r := if sgn then BitVec.ofInt 64 (signed (8 * n) v) else BitVec.ofNat 64 v
        .load s c (k.ws o.d r) ps (s.accessEvents c false ps)))

/-- `LD` extends the sign. -/
def execLd (c : Nat) (o : MOp) (u : Upset) (s : State) : Host.Outcome State Fault Refusal :=
  s.issue c u kMemory fun s k => loadEff true s c o k

def execLdu (c : Nat) (o : MOp) (u : Upset) (s : State) : Host.Outcome State Fault Refusal :=
  s.issue c u kMemory fun s k => loadEff false s c o k

/-- Store bytes over the pieces of an access and advance. -/
def storeEff (s : State) (c : Nat) (k : Cell) (ps : List Piece) (l : List Byte) : Eff :=
  .store s c k ps l (s.accessEvents c true ps)

def execSt (c : Nat) (o : MOp) (u : Upset) (s : State) : Host.Outcome State Fault Refusal :=
  s.issue c u kMemory fun s k =>
    match scalarSize o.et with
    | none => .exc cIllegal 0
    | some n =>
      let va := k.address o
      .legal (plainFields false false false o) (aligned va n
        (withPieces s (s.memRange k .store va.toNat n) fun ps =>
          storeEff s c k ps (leBytes n (k.rs o.d).toNat)))

/-! ## Atomics (R118) -/

/-- An atomic on `n` bytes: `f old operand third` is the value stored, if any. With release order it waits for the
reads of outstanding gathers, which are loads that come before it (R124, R128). -/
def atomic (cas : Bool) (f : Nat → Nat → Nat → Nat → Option Nat) (c : Nat) (o : MOp) (u : Upset) (s : State) :
    Host.Outcome State Fault Refusal :=
  s.issue c u kMemory fun s k =>
    match scalarSize o.et with
    | some n =>
      let va := k.address o
      .legal (decide (4 ≤ n) && plainFields false true cas o) (aligned va n
        (withPieces s (s.memRange k .store va.toNat n) fun ps =>
          match ps with
          | p :: _ =>
            match place p.pa with
            | .host _ => .exc cRefused va
            | _ =>
              if s.feedPending p || (o.rel && k.async.any fun a => a.gather) then .stall s
              else
                let old := leNat (s.readPieces (s.cellTag k) ps)
                let m := 2 ^ (8 * n)
                let new := f n old ((k.rs o.d).toNat % m) ((k.rs o.xi).toNat % m)
                let s1 := match new with
                  | some v => s.writePieces (s.cellTag k) ps (leBytes n v)
                  | none => s.recallPieces ps
                .next (s1.setCell c (k.ws o.d (BitVec.ofInt 64 (signed (8 * n) old))).adv)
                  (ev 0x46 1 :: s.accessEvents c true ps) ps ps
          | [] => .stall s))
    | none => .exc cIllegal 0

def execAmoadd (c : Nat) (o : MOp) (u : Upset) (s : State) : Host.Outcome State Fault Refusal :=
  atomic false (fun n a b _ => some ((a + b) % 2 ^ (8 * n))) c o u s

def execAmoswap (c : Nat) (o : MOp) (u : Upset) (s : State) : Host.Outcome State Fault Refusal :=
  atomic false (fun _ _ b _ => some b) c o u s

/-- The comparand is `s[D]`, the value stored `s[XI]`. -/
def execAmocas (c : Nat) (o : MOp) (u : Upset) (s : State) : Host.Outcome State Fault Refusal :=
  atomic true (fun _ a b x => if a = b then some x else none) c o u s

def execAmomin (c : Nat) (o : MOp) (u : Upset) (s : State) : Host.Outcome State Fault Refusal :=
  atomic false (fun n a b _ => some (if signed (8 * n) a ≤ signed (8 * n) b then a else b)) c o u s

def execAmomax (c : Nat) (o : MOp) (u : Upset) (s : State) : Host.Outcome State Fault Refusal :=
  atomic false (fun n a b _ => some (if signed (8 * n) b ≤ signed (8 * n) a then a else b)) c o u s

def execAmoand (c : Nat) (o : MOp) (u : Upset) (s : State) : Host.Outcome State Fault Refusal :=
  atomic false (fun _ a b _ => some (a &&& b)) c o u s

def execAmoor (c : Nat) (o : MOp) (u : Upset) (s : State) : Host.Outcome State Fault Refusal :=
  atomic false (fun _ a b _ => some (a ||| b)) c o u s

/-! ## Whole registers (R115, R116) -/

/-- `VLD`. -/
def vldEff (s : State) (c : Nat) (o : MOp) (k : Cell) : Eff :=
  let va := k.address o
  .legal (!etReserved o.et.toNat && plainFields false false false o) (aligned va 64
    (withPieces s (s.memRange k .load va.toNat 1024) fun ps =>
      .load s c (k.wv o.d (BitVec.ofNat 8192 (leNat (s.readPieces (s.cellTag k) ps)))) ps
        (s.accessEvents c false ps)))

/-- The guarded elements of `w` bytes of a register of `n` elements. -/
def guardedElems (g : PReg) (w n : Nat) : List Nat :=
  (List.range n).filter fun j => guardOn g (8 * w) j

/-- `VST`: guarded lanes only; a 64-bit element follows bit 2j (R115). -/
def vstEff (s : State) (c : Nat) (o : MOp) (k : Cell) : Eff :=
  let va := k.address o
  let w := if o.et.toNat = etINT64 ∨ o.et.toNat = etBrine then 8 else 4
  let js := guardedElems (k.guard o.pg o.pn) w (1024 / w)
  .legal (!etReserved o.et.toNat && plainFields true false false o) (aligned va 64
    (withPieces s (s.memParts k .store (js.map fun j => (va.toNat + w * j, w))) fun ps =>
      .store s c k ps (js.flatMap fun j => leBytes w (vecElem (8 * w) (k.rv o.d) j))
        ((lineHeads 0 ps).flatMap (pieceEvents (c / 16) c true))))

def execVld (c : Nat) (o : MOp) (u : Upset) (s : State) : Host.Outcome State Fault Refusal :=
  s.issue c u kMemory fun s k => vldEff s c o k

def execVst (c : Nat) (o : MOp) (u : Upset) (s : State) : Host.Outcome State Fault Refusal :=
  s.issueG c u kMemory o.pg o.pn [] fun s k => vstEff s c o k

/-- The FP6 or INT4 elements widened to bytes (R116). -/
def widen (et e : Nat) (bits : Nat) : Nat :=
  if et = etE2M3 then (e4m3.arith (e2m3.decode (elemOf 6 bits e))).1
  else if et = etE3M2 then (e4m3.arith (e3m2.decode (elemOf 6 bits e))).1
  else wrap 8 (signed 4 (elemOf 4 bits e))

/-- `VLDW` (R116). -/
def execVldw (c : Nat) (o : MOp) (u : Upset) (s : State) : Host.Outcome State Fault Refusal :=
  s.issue c u kMemory fun s k =>
    let et := o.et.toNat
    let n := if et = etINT4 then 512 else 768
    let va := k.address o
    .legal ((et == etINT4 || et == etE2M3 || et == etE3M2) && plainFields false false false o)
      (aligned va 64 (withPieces s (s.memRange k .load va.toNat n) fun ps =>
        let bits := leNat (s.readPieces (s.cellTag k) ps)
        .load s c (k.wv o.d (vecOf 8 fun e => widen et e bits)) ps
          (s.accessEvents c false ps)))

/-- `VLDX`: the 64 bytes of `q[D]`. -/
def execVldx (c : Nat) (o : MOp) (u : Upset) (s : State) : Host.Outcome State Fault Refusal :=
  s.issue c u kMemory fun s k =>
    let va := k.address o
    .legal (!etReserved o.et.toNat && decide (o.d.toNat < 16) && plainFields false false false o)
      (aligned va 64 (withPieces s (s.memRange k .load va.toNat 64) fun ps =>
        .load s c (k.wq (o.d.setWidth 4) (BitVec.ofNat 512 (leNat (s.readPieces (s.cellTag k) ps)))) ps
          (s.accessEvents c false ps)))

def execVstx (c : Nat) (o : MOp) (u : Upset) (s : State) : Host.Outcome State Fault Refusal :=
  s.issue c u kMemory fun s k =>
    let va := k.address o
    .legal (!etReserved o.et.toNat && decide (o.d.toNat < 16) && plainFields false false false o)
      (aligned va 64 (withPieces s (s.memRange k .store va.toNat 64) fun ps =>
        storeEff s c k ps (leBytes 64 (k.rq (o.d.setWidth 4)).toNat)))

/-! ## Gathers and scatters (R117) -/

/-- Bytes of an element, or none for a type that is not allowed. -/
def gatherSize (et : BitVec 4) : Option Nat :=
  if et.toNat = etFP32 ∨ et.toNat = etINT32 then some 4
  else if et.toNat = etINT64 ∨ et.toNat = etBrine then some 8
  else none

/-- `s[SB]` + index × 2^`SC`, the index zero-extended. -/
def Cell.gatherAddr (k : Cell) (o : MOp) (j : Nat) : Nat :=
  ((k.rs o.sb).toNat + vecElem 32 (k.rv o.xi) j * 2 ^ o.sc.toNat) % 2 ^ 64

/-- `AM` = 0b10 with no offset and no ordering bit. -/
def gatherFields (o : MOp) : Bool := o.am == 2 && o.off == 0 && !o.rel && !o.acq

/-- Translate the elements in order: the lowest-numbered faulting element is reported, a
misaligned one as `MISALIGNED`. -/
def State.gatherParts (s : State) (k : Cell) (acc : Acc) (w : Nat) (as : List Nat) : MemRes :=
  match s.memParts k acc ((as.takeWhile fun a => a % w == 0).map fun a => (a, w)) with
  | .ok ps =>
    match as.dropWhile (fun a => a % w == 0) with
    | a :: _ => .fault cMisaligned a
    | [] => .ok ps
  | r => r

def execVgather (c : Nat) (o : MOp) (u : Upset) (s : State) : Host.Outcome State Fault Refusal :=
  s.issueG c u kMemory o.pg o.pn [] fun s k =>
    match gatherSize o.et with
    | none => .exc cIllegal 0
    | some w =>
      let g := k.guard o.pg o.pn
      let js := guardedElems g w (1024 / w)
      .legal (gatherFields o)
        (withPieces s (s.gatherParts k .load w (js.map (k.gatherAddr o))) fun ps =>
          let vals := ps.map fun p => leNat (s.readBytes (s.cellTag k) p.pa p.len)
          let val := fun j => vals.getD ((js.takeWhile fun i => decide (i < j)).length) 0
          .load s c (k.wv o.d (vecWrite (8 * w) 0 (1024 / w) g false (k.rv o.d) val)) ps
            (extLoads ps ++ (lineHeads 0 ps).flatMap fun p => pieceEvents (c / 16) c false p ++ s.pendingEvents p))

/-- Every guarded element is translated before any is written; a later element overwrites an
earlier one at the same address. -/
def execVscatter (c : Nat) (o : MOp) (u : Upset) (s : State) : Host.Outcome State Fault Refusal :=
  s.issueG c u kMemory o.pg o.pn [] fun s k =>
    match gatherSize o.et with
    | none => .exc cIllegal 0
    | some w =>
      let js := guardedElems (k.guard o.pg o.pn) w (1024 / w)
      .legal (gatherFields o)
        (withPieces s (s.gatherParts k .store w (js.map (k.gatherAddr o))) fun ps =>
          .store s c k ps (js.flatMap fun j => leBytes w (vecElem (8 * w) (k.rv o.d) j))
            ((lineHeads 0 ps).flatMap (pieceEvents (c / 16) c true)))

/-! ## VGATHERP (R119 to R124) -/

/-- A power of two. -/
def isPow2 (n : Nat) : Bool := n != 0 && n == 2 ^ Nat.log2 n

/-- The conditions of R119. -/
def gatherDescOk (l : List Byte) : Bool :=
  let pgsz := gatherDesc l 0x08 1
  let panel := gatherDesc l 0x09 1
  let row := gatherDesc l 0x0A 2
  let stride := gatherDesc l 0x0C 4
  let off := gatherDesc l 0x10 4
  let lanes := gatherDesc l 0x14 2
  decide (gatherDesc l 0 8 % 4096 = 0 ∧ 14 ≤ pgsz ∧ pgsz ≤ 20)
    && (panel == 0 || decide (2 ≤ panel ∧ panel ≤ 6 ∧ row % 2 ^ panel = 0))
    && decide (4 ≤ row ∧ row ≤ 1024 ∧ row % 4 = 0)
    && isPow2 stride && decide (4 ≤ stride ∧ stride ≤ 2 ^ pgsz)
    && decide (off % 4 = 0 ∧ off + row ≤ stride ∧ 1 ≤ lanes ∧ lanes ≤ 256)
    && decide (gatherDesc l 0x16 1 < 2) && decide (gatherDesc l 0x17 41 = 0)

/-- Whether every part that translates lies in the cell's own local store. -/
def State.ownLocal (s : State) (c : Nat) (k : Cell) (parts : List (Nat × Nat)) : Bool :=
  parts.all fun p =>
    match s.translate (s.cellTag k) k.space .store (!k.sup) p.1 with
    | .ok pa => decide (localBase c ≤ pa ∧ pa + p.2 ≤ localBase c + 2 ^ 21)
    | .fault _ => true

/-- Outstanding operations of a kind, with those whose fault has still to be delivered: each keeps its place, so that
no more than 12 faults are ever pending (R139). -/
def Cell.inFlight (k : Cell) (gather : Bool) : Nat :=
  (k.async.filter fun a => a.gather == gather).length + (k.faults.filter fun f => f.gather == gather).length

/-- `VGATHERP`: the checks of issue, a fault on the descriptor before every other; the lanes run until
`VGATHERP_COMPLETE` (R119, R124). -/
def execVgatherp (c : Nat) (o : GatherpOp) (u : Upset) (s : State) : Host.Outcome State Fault Refusal :=
  s.issueG c u kMemory o.pg o.pn [o.pd] fun s k =>
    let da := k.rs o.c
    if 4 ≤ k.inFlight true then .stall s
    else
      withPieces s (s.memRange k .load da.toNat 64) fun dp =>
        let l := s.readPieces (s.cellTag k) dp
        let n := gatherDesc l 0x14 2
        let len := n * gatherDesc l 0x0A 2
        let parts := pageParts (k.rs o.a).toNat len
        if da.toNat % 8 ≠ 0 || !gatherDescOk l || !s.ownLocal c k parts then .exc cBadOperand da
        else
          withPieces s (s.memParts k .store parts) fun wp =>
            .next ((({ s with freeCtr := s.freeCtr + 1 } : State).recallPieces dp).setCell c (Cell.adv
              { k with
                asyncNext := k.asyncNext + 1
                async := k.async ++ [
                  { id := k.asyncNext, gather := true, dst := k.rs o.a, src := da, len, sig := none,
                    l1 := BitVec.ofNat 64 (gatherDesc l 0 8), pgsz := gatherDesc l 0x08 1,
                    panel := gatherDesc l 0x09 1, row := gatherDesc l 0x0A 2,
                    stride := gatherDesc l 0x0C 4, offset := gatherDesc l 0x10 4, lanes := n,
                    tier := gatherDesc l 0x16 1 == 1, idx := k.rv o.b,
                    guardMask := k.guard o.pg o.pn, pd := o.pd, sup := k.sup }] }))
              (s.accessEvents c false dp) dp wp

/-! ## Signals, MCOPY, WAITSIG, FENCE (R125 to R131) -/

/-- The device address of a signal word: 8-byte aligned, in the shared SRAM of the cell's block
(R126). A word whose page does not allow an access that the instruction makes, a store for `CLR` = 1 and for `MCOPY`, does
not translate for it and raises `BAD_OPERAND`, not `PERMISSION` (DESIGN CHOICE, assumption log entry 71). -/
def State.signalWord (s : State) (c : Nat) (k : Cell) (acc : Acc) (va : Word) : Option Nat :=
  if va.toNat % 8 ≠ 0 then none
  else
    match s.translate (s.cellTag k) k.space acc (!k.sup) va.toNat with
    | .ok pa =>
      match place pa with
      | .shared b _ => if b = c / 16 then some pa else none
      | _ => none
    | .fault _ => none

/-- Set a bit of a signal word by atomic OR (R127). -/
def State.setSignal (s : State) (t : Tag) (pa bit : Nat) : State :=
  s.writeBytes t pa (leBytes 8 ((s.readNat t pa 8) ||| 2 ^ bit))

/-- `MCOPY`: the checks of issue; the data moves until `MCOPY_COMPLETE` (R125). -/
def execMcopy (c : Nat) (o : McopyOp) (u : Upset) (s : State) : Host.Outcome State Fault Refusal :=
  s.issue c u kMemory fun s k =>
    let dst := k.rs o.a
    let src := k.rs o.b
    let len := (k.rs o.c).toNat
    let word := s.signalWord c k .store (k.rs o.sw)
    .legal (o.sig || (o.sw == 0 && o.bit == 0))
      (if 2 ^ 30 < len then .exc cBadOperand 0
      else if o.sig && word.isNone then .exc cBadOperand (k.rs o.sw)
      else if src.toNat % 4 ≠ 0 then .exc cMisaligned src
      else if dst.toNat % 4 ≠ 0 ∨ len % 4 ≠ 0 then .exc cMisaligned dst
      else if 8 ≤ k.inFlight false then .stall s
      else if len = 0 then
        match o.sig, word with
        | true, some pa => .cell (s.setSignal (s.cellTag k) pa o.bit.toNat) c k [ev 0x53 1]
        | _, _ => .cell s c k []
      else
        .cell s c
          { k with
            asyncNext := k.asyncNext + 1
            async := k.async ++ [
              { id := k.asyncNext, gather := false, dst, src, len,
                sig := if o.sig then word.map fun pa => (pa, o.bit.toNat) else none,
                l1 := 0, pgsz := 0, panel := 0, row := 0, stride := 0, offset := 0, lanes := 0,
                tier := false, idx := 0, guardMask := 0, pd := 0, sup := k.sup }] } [])

/-- Whether a wait succeeds on a word (R126). -/
def waitDone (any : Bool) (mask w : Nat) : Bool :=
  if any then w &&& mask != 0 else w &&& mask == mask

/-- The address check of `WAITSIG`; `CLR` also writes the word. -/
def State.waitWord (s : State) (c : Nat) (k : Cell) (o : WaitsigOp) : Option Nat :=
  match s.signalWord c k .load (k.rs o.b) with
  | some pa => if o.clr then s.signalWord c k .store (k.rs o.b) else some pa
  | none => none

/-- A wait that succeeds: the word observed, and with `CLR` the observed mask bits cleared. -/
def waitSuccess (s : State) (c : Nat) (k : Cell) (o : WaitsigOp) (pa w mask : Nat) : Eff :=
  let s1 := if o.clr then s.writeBytes (s.cellTag k) pa (leBytes 8 (w &&& (2 ^ 64 - 1 - mask))) else s
  .next (s1.setCell c ((k.ws o.a (BitVec.ofNat 64 w)).wp o.pd (BitVec.allOnes 256)).adv) []
    [{ va := (k.rs o.b).toNat, pa, len := 8 }] []

/-- `WAITSIG` (R126, R127). -/
def execWaitsig (c : Nat) (o : WaitsigOp) (u : Upset) (s : State) : Host.Outcome State Fault Refusal :=
  s.issueP c u kOrder [o.pd] fun s k =>
    let mask := (k.rs o.c).toNat
    match s.waitWord c k o with
    | none => .exc cBadOperand (k.rs o.b)
    | some pa =>
      if mask = 0 then .exc cBadOperand (k.rs o.b)
      else
        let w := s.readNat (s.cellTag k) pa 8
        if waitDone o.any mask w then waitSuccess s c k o pa w mask
        else .stall (s.setCell c { k with wait := some (o, BitVec.ofNat 64 w) })

/-- `FENCE`: accesses of this machine take effect in order, but for those of asynchronous work. Earlier loads take in
the reads of outstanding gathers, so that `PR` waits for them (R124, R128); `ASYNC` waits for copies too (R129). -/
def execFence (c : Nat) (o : FenceOp) (u : Upset) (s : State) : Host.Outcome State Fault Refusal :=
  s.issue c u kOrder fun s k =>
    .legal ((o.pr || o.pw) && (o.sr || o.sw))
      (if k.async.any fun a => o.async || (o.pr && a.gather) then .stall s else .cell s c k [])

end Sys2Proof.Machine
end

