-- ==== Sys2Proof/Machine/CellEvents.lean ====
section
/-! DEFINITION. What happens to cells: parity errors and uncorrectable data under an
instruction, completion of asynchronous work, requests and stops (R60, R67, R120 to R127,
R139, R140, R183). -/

namespace Sys2Proof.Machine

/-! ## Completion of asynchronous work -/

/-- Remove an outstanding operation; an item that waits for its last one ends (R131, R138). -/
def Cell.dropAsync (k : Cell) (id : Nat) : Cell :=
  let l := k.async.filter fun a => a.id != id
  match l, k.ending with
  | [], some e => { k with async := [], ending := none, ended := some e, faults := [] }
  | _, _ => { k with async := l }

/-- Record a fault of asynchronous work; none is delivered to an item that is ending (R138). -/
def Cell.pushFault (k : Cell) (gather : Bool) (cause : BitVec 8) (addr : Nat) : Cell :=
  if k.ending.isSome then k
  else { k with faults := k.faults ++ [{ gather, cause, addr := BitVec.ofNat 64 addr }] }

/-- An outstanding operation of a cell whose clocks run. -/
def State.asyncOf (s : State) (c id : Nat) (gather : Bool) : Option Async :=
  let k := s.cell c
  if s.cellPresent c && s.clocksRun && !k.stopped then
    k.async.find? fun a => a.id == id && a.gather == gather
  else none

/-- The block whose mover serves a region's transfers, its lowest-numbered present one (R220). What a region's tier
mover does is counted there too: it is in no block, and the spec names none (DESIGN CHOICE, assumption log entry 74). -/
def State.moverBlock (s : State) (g : Nat) : Nat :=
  (((List.range 16).map (16 * g + ·)).find? s.blockPresent).getD (16 * g)

/-- Lines of pieces that a mover or a gather of block `b` reads or writes. -/
def moverEvents (b : Nat) (write : Bool) (ps : List Piece) : List Ev :=
  ps.flatMap (pieceEvents b (16 * 128) write)

/-! ### VGATHERP (R120 to R124) -/

/-- Where the bytes of lane `i` go: destination offsets with the slice of the row (R120). -/
def gatherDest (a : Async) (i : Nat) : List (Nat × Nat × Nat) :=
  if a.panel = 0 then [(i * a.row, 0, a.row)]
  else
    let w := 2 ^ a.panel
    (List.range (a.row / w)).map fun p => (p * a.lanes * w + i * w, p * w, w)

/-- Write the row of a lane. -/
def State.gatherStore (s : State) (k : Cell) (a : Async) (i : Nat) (row : List Byte) : State :=
  (gatherDest a i).foldl (fun x d =>
    x.writePieces (x.cellTag k)
      (x.translateRange (x.cellTag k) k.space .store (!a.sup) (a.dst.toNat + d.1) d.2.2).1
      ((row.drop d.2.1).take d.2.2)) s

/-- Add to `DROPPED` of a context's tier control block (R179). -/
def State.dropHint (s : State) (p c : Nat) : State :=
  let cb := (s.ctx p c).tierCb.toNat
  let s1 := s.vsnoop p c (cb + 0x2C) 4
  match s1.vread p c (cb + 0x2C) 4 with
  | some l => (s1.vwrite p c (cb + 0x2C) (leBytes 4 (leNat l + 1))).getD s1
  | none => s1

/-- Post a promotion hint to a region's tier mover (R123, R180). -/
def State.postHint (s : State) (g : Nat) (h : Hint) : State :=
  if (s.ctx h.part h.ctx).tierCb = 0 then s
  else
    let q := (s.mem.hints.find g).getD []
    if q.any (fun x => x.part == h.part && x.ctx == h.ctx && x.entry == h.entry) || decide (256 ≤ q.length) then
      s.dropHint h.part h.ctx
    else { s with mem := { s.mem with hints := s.mem.hints.put g (q ++ [h]) } }

/-- The hints of a gather: one for each distinct level-2 entry with `D` = 1. -/
def gatherHints (a : Async) (p c : Nat) (rs : List LaneRes) : List Hint :=
  rs.foldl (fun l r =>
    match r with
    | .row _ e v =>
      if a.tier && v / 2 % 2 == 1 && !l.any (fun h => h.entry.toNat == e) then
        let h : Hint := { part := p, ctx := c, entry := BitVec.ofNat 64 e, value := BitVec.ofNat 64 v, pgsz := a.pgsz,
                          sup := a.sup }
        l ++ [h]
      else l
    | _ => l) []

def LaneRes.pieces : LaneRes → List Piece
  | .row ps _ _ => ps
  | _ => []

/-- A gather that a fault stops: free destination, `PD` zero, `ASYNC_FAULT` pending (R124). It posts no hint for the
entries that its lanes have used (DESIGN CHOICE: R123 is silent; assumption log entry 72). -/
def State.gatherFault (s : State) (c : Nat) (a : Async) (cause : BitVec 8) (va : Nat) : State :=
  let k := s.cell c
  let s1 := s.freeFill (s.cellTag k) (s.translateRange (s.cellTag k) k.space .store (!a.sup) a.dst.toNat a.len).1
  s1.putEnd c (((k.wp a.pd 0).pushFault true cause va).dropAsync a.id)

/-- A gather that completes: rows, hints and `PD` (R120 to R123). -/
def State.gatherDone (s : State) (c : Nat) (a : Async) (rs : List LaneRes) : State :=
  let k := s.cell c
  let t := s.cellTag k
  let s1 := (List.range rs.length).foldl (fun x i =>
    match rs.getD i .skip with
    | .row ps _ _ => x.gatherStore k a i (s.readPieces t ps)
    | _ => x) s
  let valid := (List.range rs.length).filter fun i => rs.getD i .skip != .skip
  let hs := match k.run with
    | some r => gatherHints a r.part r.ctx rs
    | none => []
  let s2 := hs.foldl (fun x h => x.postHint (c / 256) h) s1
  let s3 := s2.putEnd c (((s2.cell c).wp a.pd (valid.foldl (fun m i => putBit m i true) 0)).dropAsync a.id)
  s3.count (c / 16) mkCell c (if a.sup then privSup else privUser) clsMemory
    (ev 0x44 valid.length :: ev 0x45 hs.length ::
      (lineHeads 0 (rs.flatMap LaneRes.pieces)).flatMap fun p => pieceEvents (c / 16) c false p ++ s.pendingEvents p)

/-- The snoops for what asynchronous work of a cell reads: page table entries and data (R193). -/
def State.asyncSnoop (s : State) (c : Nat) (ps : List Piece) : State :=
  (s.recallEntries (s.dataEntries c (ps.map (·.va)))).recallPieces ps

/-- What asynchronous work of a cell reads, with the page table entries. -/
def State.asyncReads (s : State) (c : Nat) (ps : List Piece) : List Piece :=
  entryPieces (s.dataEntries c (ps.map (·.va))) ++ ps

/-- `VGATHERP_COMPLETE`. The reads are loads: one in a pending gather-feed piece waits (R327), and so does one in the
destination of a gather issued before (R124). -/
def execVgatherpComplete (c : Nat) (id : Nat) (e : ReadErr) (s : State) : Host.Outcome State Fault Refusal :=
  let m := s.meets e.bad
  let s := m.1
  match s.asyncOf c id true with
  | none => .next s
  | some a =>
    let k := s.cell c
    let rs := (List.range 256).map (s.gatherLane k a)
    let ps := s.gatherReads k a
    let reads := s.asyncReads c ps
    let priv := if a.sup then privSup else privUser
    if ps.any s.feedPending || s.gatherHolds k (fun b => decide (b.id < a.id)) false ps then .next s
    else
      match hitPiece reads m.2 with
      | some (pa, _) => .next (s.consumeBad c pa)
      | none =>
        let s1 := s.asyncSnoop c ps
        let s2 := match rs.find? fun r => match r with | .fault _ _ => true | _ => false with
          | some (.fault cause va) => s1.gatherFault c a cause va
          | _ => s1.gatherDone c a rs
        .next (s2.readCorrected (c / 16) mkCell c priv reads e.corrected)

/-! ### MCOPY (R68, R125) -/

/-- How many bytes of translated pieces come before a fault. -/
def okBytes (ps : List Piece) : Nat := (ps.map (·.len)).sum

/-- A byte address lies in a piece. -/
def inPieces (ps : List Piece) (pa : Nat) : Bool := ps.any fun p => decide (p.pa ≤ pa ∧ pa < p.pa + p.len)

/-- The first bytes of pieces. -/
def takePieces : Nat → List Piece → List Piece
  | _, [] => []
  | n, p :: rest => if n = 0 then [] else { p with len := min n p.len } :: takePieces (n - p.len) rest

/-- Physical addresses of the bytes of pieces. -/
def pieceAddrs (ps : List Piece) : List Nat := ps.flatMap fun p => (List.range p.len).map (p.pa + ·)

/-- Copy pieces over pieces: a destination byte that also lies in the whole source `all` of the
copy receives a free value. -/
def State.movePieces (s : State) (t : Tag) (all src dst : List Piece) : State :=
  let bytes := (s.readPieces t src).zip (pieceAddrs dst)
  let l := (List.range bytes.length).map fun i =>
    let x := bytes.getD i (0, 0)
    if inPieces all x.2 then BitVec.ofNat 8 (Config.freeNat (s.freeCtr + i)) else x.1
  ({ s with freeCtr := s.freeCtr + l.length }.recallPieces src).writePieces t dst l

/-- Lines of the block's shared SRAM that a load from read-only pages filled whole become clean:
(line, source) pairs. -/
def State.markClean (s : State) (t : Tag) (sp : Space) (user : Bool) (src dst : List Piece) : State :=
  let pairs := (pieceAddrs dst).zip (src.flatMap fun p => (List.range p.len).map fun i => (p.va + i, p.pa + i))
  let heads := pairs.filter fun x =>
    x.1 % 256 == 0 && (match place x.1 with | .shared _ _ => true | _ => false)
      && (List.range 256).all fun i => pairs.any fun y => y.1 == x.1 + i && y.2.2 == x.2.2 + i
        && (s.translate t sp .store user y.2.1 == .fault cPermission)
  { s with mem := { s.mem with
      cleanLines := heads.foldl (fun m x => m.put (x.1 / 256) x.2.2) s.mem.cleanLines } }

/-- `MCOPY_COMPLETE`: the bytes up to the first fault move; without a fault the signal bit is
set, with one an `ASYNC_FAULT` is pending. -/
def State.mcopyDone (s : State) (c : Nat) (a : Async) : State :=
  let k := s.cell c
  let t := s.cellTag k
  let rd := s.translateRange t k.space .load (!a.sup) a.src.toNat a.len
  let wr := s.translateRange t k.space .store (!a.sup) a.dst.toNat a.len
  let n := min (okBytes rd.1) (okBytes wr.1)
  let src := takePieces n rd.1
  let dst := takePieces n wr.1
  let s1 := ((s.asyncSnoop c (src ++ dst)).movePieces t rd.1 src dst).markClean t k.space (!a.sup) src dst
  let s2 := s1.count (c / 16) mkMover c (if a.sup then privSup else privUser) clsMemory
    (ev 0x43 (divUp n 64) :: moverEvents (c / 16) false src ++ moverEvents (c / 16) true dst)
  let fault := if okBytes wr.1 < okBytes rd.1 then wr.2 else rd.2
  match fault with
  | some (cause, va) => s2.putEnd c (((s2.cell c).pushFault false cause va).dropAsync a.id)
  | none =>
    match a.sig with
    | some (pa, bit) =>
      let s3 := (s2.setSignal t pa bit).count (c / 16) mkMover c (if a.sup then privSup else privUser) clsMemory
        [ev 0x53 1]
      s3.putEnd c ((s3.cell c).dropAsync a.id)
    | none => s2.putEnd c ((s2.cell c).dropAsync a.id)

/-- `MCOPY_COMPLETE`. -/
def execMcopyComplete (c : Nat) (id : Nat) (e : ReadErr) (s : State) : Host.Outcome State Fault Refusal :=
  match s.asyncOf c id false with
  | none => .next s
  | some a =>
    let k := s.cell c
    let t := s.cellTag k
    let ps := (s.translateRange t k.space .load (!a.sup) a.src.toNat a.len).1
    .next (s.readMeets (c / 16) mkMover (if a.sup then privSup else privUser) t.part t.ctx (s.asyncReads c ps) e
      fun x => x.mcopyDone c a)

/-! ## Requests and stops -/

/-- A pending asynchronous fault is delivered (R139). -/
def execAsyncFault (c : Nat) (s : State) : Host.Outcome State Fault Refusal :=
  .next (if s.canIssue c && (s.cell c).faults != [] then s.deliver c else s)

/-- A pending preempt request is delivered at a boundary in user mode, after what comes first. -/
def execPreemptRequest (c : Nat) (s : State) : Host.Outcome State Fault Refusal :=
  .next (if s.canIssue c && (s.cell c).preempt then s.deliver c else s)

def execCancelRequest (c : Nat) (s : State) : Host.Outcome State Fault Refusal :=
  .next (if s.canIssue c && (s.cell c).cancel then s.deliver c else s)

/-- The item of a cell that had a request stops issuing and ends `FORCED` once its outstanding accesses have drained
(R140). An item that is ending already keeps its ending. -/
def execForcedStop (c : Nat) (s : State) : Host.Outcome State Fault Refusal :=
  let k := s.cell c
  .next (if s.cellPresent c && s.clocksRun && k.run.isSome && k.requested && k.ended.isNone && k.ending.isNone
      && !k.stopped then s.putEnd c (k.finish { kind := .forced, value := 0, cause := 0 })
  else s)

/-- A `WAITSIG` gives up: the word last observed, `PD` zero (R126). -/
def execWaitsigTimeout (c : Nat) (s : State) : Host.Outcome State Fault Refusal :=
  let k := s.cell c
  match k.wait with
  | some (o, w) =>
    if s.canIssue c && o.tmo != 0 then
      .next (s.finish c kOrder false false (.cell s c ((k.ws o.a w).wp o.pd 0) []))
    else .next s
  | none => .next s

/-- The third missed liveness pulse (R60). -/
def execCellWatchdogMiss (c : Nat) (s : State) : Host.Outcome State Fault Refusal :=
  .next (s.fenceCell c 0x02)

end Sys2Proof.Machine
end

