-- ==== Sys2Proof/Machine/UnitEvents.lean ====
section
/-! DEFINITION. What happens to blocks, regions, stacks, DIMMs, edges and external memory (R59,
R68 to R72, R177, R180 to R185, R189). -/

namespace Sys2Proof.Machine

/-- A parity error in a line of shared SRAM (R68): a clean line is fetched again from its source;
the loss of its data stops the contexts of the owning partition with `CONTEXT_KILLED`. -/
def execSramLineRefetch (block : Nat) (line : Nat) (ok : Bool) (s : State) :
    Host.Outcome State Fault Refusal :=
  if s.blockPresent block && decide (line < 65536) then
    let l := sharedBase block / 256 + line
    let s1 := s.count block 0 0 privFirmware clsMemory [ev 0x4C 1]
    match s.mem.cleanLines.find l, s.mem.tags.find l with
    | some src, some t =>
      let s2 := s1.count block mkMover 0 privFirmware clsMemory [ev 0x34 1]
      .next (if ok then
        { s2 with mem := { s2.mem with cells := Cells.setAll s2.mem.cells (l * 256) (s.readBytes t src 256) } }
      else s2.stopOwner (block / 16) stKilled)
    | _, _ => .next (s1.stopOwner (block / 16) stKilled)
  else .next s

/-- Causes of R81 for a block. -/
def blockCauseCode : BlockCause → Nat
  | .sramHardFault => 0x03
  | .moverOrMmu => 0x04
  | .lastCell => 0x05

/-- `BLOCK_FENCE`; no fence is detected while the region's clocks are held (R63). -/
def execBlockFence (block : Nat) (cause : BlockCause) (s : State) : Host.Outcome State Fault Refusal :=
  .next (if s.clocksRun then s.fenceBlockUp block (blockCauseCode cause) else s)

/-- `STACK_LOST`. -/
def execStackLost (stack : Nat) (s : State) : Host.Outcome State Fault Refusal :=
  .next (if s.clocksRun then s.loseStack stack else s)

/-- `REGION_CONTROLLER_FAULT`. -/
def execRegionControllerFault (region : Nat) (s : State) : Host.Outcome State Fault Refusal :=
  .next (if s.clocksRun then s.isolate region 0x08 else s)

/-- `DIMM_LOST`: an open clamp switch takes the rail down, powered or not (R53, R177). -/
def execDimmLost (d : Nat) (why : DimmLoss) (s : State) : Host.Outcome State Fault Refusal :=
  let s1 := s.loseDimm d
  .next (match why with
    | .clampOpen => { s1 with board := { s1.board with clamps := putBit s1.board.clamps d false } }
    | .pmicFault => s1)

/-! ## Patrol scrub and retirement (R184, R185) -/

/-- The patrol scrub reads a line of present external memory. -/
def execPatrolScrub (pa : Nat) (found : ScrubFinding) (s : State) : Host.Outcome State Fault Refusal :=
  .next (match place pa with
    | .hbm _ _ | .ddr _ _ =>
      if !s.present pa then s
      else
        match found with
        | .clean => s
        | .corrected => s.correctedError (pa / 4096)
        | .uncorrectable => (s.stopGranule (pa / granuleSize)).uncorrectable pa 3
    | _ => s)

/-- The background scrubber zeroes a pending granule. -/
def execGranuleZeroed (g : Nat) (s : State) : Host.Outcome State Fault Refusal :=
  .next (if s.present (g * granuleSize) && !s.inDump (g * granuleSize) && (s.granule g).scrub == .pending then
    s.setGranule g { s.granule g with scrub := .zeroed }
  else s)

/-! ## Promotion (R179 to R181) -/

/-- A read by the tier mover of a region for a hint's context, with its snoops and the lines that it counts. -/
def State.tierRead (s : State) (g : Nat) (h : Hint) (va n : Nat) : State × Option (List Byte) :=
  let b := s.moverBlock g
  let s1 := (s.vsnoop h.part h.ctx va n).count b mkTier 0 (if h.sup then privSup else privUser) clsMemory
    (moverEvents b false (s.vpieces h.part h.ctx .load va n).1)
  (s1, s1.vread h.part h.ctx va n)

/-- A write by the tier mover, and whether no fault stopped it. -/
def State.tierWrite (s : State) (g : Nat) (h : Hint) (va : Nat) (l : List Byte) : State × Bool :=
  let b := s.moverBlock g
  match s.vwrite h.part h.ctx va l with
  | some s1 => (s1.count b mkTier 0 (if h.sup then privSup else privUser) clsMemory
      (moverEvents b true (s.vpieces h.part h.ctx .store va l.length).1), true)
  | none => (s, false)

/-- Write a done record and advance `DONE_TAIL` (R180 step 5). -/
def State.doneRecord (s : State) (g : Nat) (h : Hint) (word : Nat) : State × Bool :=
  let cb := (s.ctx h.part h.ctx).tierCb.toNat
  let r := s.tierRead g h cb 0x40
  match r.2 with
  | none => (r.1, false)
  | some l =>
    let tail := gatherDesc l 0x28 4
    let w := r.1.tierWrite g h (gatherDesc l 0x18 8 + 16 * (tail % gatherDesc l 0x20 4))
      (leBytes 8 h.entry.toNat ++ leBytes 8 word)
    if w.2 then w.1.tierWrite g h (cb + 0x28) (leBytes 4 (tail + 1)) else w

/-- All pieces lie in HBM that the context owns. -/
def State.ownedHbm (s : State) (p c : Nat) (ps : List Piece) : Bool :=
  ps.all fun x => match place x.pa with
    | .hbm _ _ => (s.granule (x.pa / granuleSize)).owner == .ctx p c
    | _ => false

/-- A promotion ends with its done record; a fault that the record meets is counted in `DROPPED` (R181). -/
def State.endPromotion (s : State) (g : Nat) (h : Hint) (word : Nat) : State :=
  let r := s.doneRecord g h word
  if r.2 then r.1 else r.1.dropHint h.part h.ctx

/-- A promotion that a fault ends: a done record with bit 0 clear, and `DROPPED` (R181). -/
def State.promotionFault (s : State) (g : Nat) (h : Hint) (pool : Nat) : State :=
  (s.doneRecord g h (pool / 4096 * 4096)).1.dropHint h.part h.ctx

/-- Copy, compare and swap, done record (R180 steps 3 to 5). -/
def State.promote (s : State) (g : Nat) (h : Hint) (pool : Nat) : State :=
  let n := 2 ^ h.pgsz
  let t := s.tagOf h.part h.ctx
  let old := h.value.toNat / 4096 * 4096
  match s.vpieces h.part h.ctx .load old n, s.vpieces h.part h.ctx .store pool n with
  | (src, none), (dst, none) =>
    if pool % n != 0 || !s.ownedHbm h.part h.ctx dst then s.endPromotion g h (pool / 4096 * 4096)
    else
      let b := s.moverBlock g
      let s1 := ((s.vsnoop h.part h.ctx old n).movePieces t src src dst).count b mkTier 0
        (if h.sup then privSup else privUser) clsMemory (moverEvents b false src ++ moverEvents b true dst)
      let r := s1.tierRead g h h.entry.toNat 8
      match r.2 with
      | none => r.1.promotionFault g h pool
      | some e =>
        if leNat e = h.value.toNat then
          let w := r.1.tierWrite g h h.entry.toNat (leBytes 8 (pool + 1))
          if w.2 then w.1.endPromotion g h (old + 1) else w.1.promotionFault g h pool
        else r.1.endPromotion g h (pool / 4096 * 4096)
  | _, _ => s.promotionFault g h pool

/-- The pool has no entry, or the done ring no room (R180 step 1). -/
def noRoom (l : List Byte) : Bool :=
  gatherDesc l 0x0C 4 == gatherDesc l 0x10 4
    || decide (gatherDesc l 0x20 4 ≤ (gatherDesc l 0x28 4 + 2 ^ 32 - gatherDesc l 0x24 4) % 2 ^ 32)

/-- The address of the pool entry at `POOL_HEAD`. -/
def poolEntry (l : List Byte) : Nat := gatherDesc l 0x00 8 + 8 * (gatherDesc l 0x0C 4 % gatherDesc l 0x08 4)

/-- One hint (R180). Which page a done record names whose pool entry could not be read is not stated: a free value
(DESIGN CHOICE, assumption log entry 75). -/
def State.takeHint (s : State) (g : Nat) (h : Hint) : State :=
  let cb := (s.ctx h.part h.ctx).tierCb.toNat
  let r := s.tierRead g h cb 0x40
  match r.2 with
  | none => r.1
  | some l =>
    if noRoom l then r.1.dropHint h.part h.ctx
    else
      let q := r.1.tierRead g h (poolEntry l) 8
      match q.2 with
      | none => let f := q.1.free; f.2.promotionFault g h f.1
      | some pe =>
        let w := q.1.tierWrite g h (cb + 0x0C) (leBytes 4 (gatherDesc l 0x0C 4 + 1))
        if w.2 then w.1.promote g h (leNat pe) else w.1.promotionFault g h (leNat pe)

/-- What the tier mover reads for a hint. -/
def State.promotionReads (s : State) (h : Hint) : List Piece :=
  let cb := (s.ctx h.part h.ctx).tierCb.toNat
  let rd := s.vreads h.part h.ctx
  rd cb 0x40 ++ match s.vread h.part h.ctx cb 0x40 with
    | none => []
    | some l =>
      if noRoom l then []
      else rd (poolEntry l) 8 ++ rd (h.value.toNat / 4096 * 4096) (2 ^ h.pgsz) ++ rd h.entry.toNat 8

/-- `TIER_PROMOTION`: the tier mover of a region takes its oldest hint. -/
def execTierPromotion (region : Nat) (e : ReadErr) (s : State) : Host.Outcome State Fault Refusal :=
  match (s.mem.hints.find region).getD [] with
  | [] => .next s
  | h :: rest =>
    if !(s.regionPresent region && s.clocksRun) then .next s
    else
      let s1 := { s with mem := { s.mem with hints := s.mem.hints.put region rest } }
      .next (s1.readMeets (s1.moverBlock region) mkTier (if h.sup then privSup else privUser) h.part h.ctx
        (s1.promotionReads h) e (·.takeHint region h))

/-! ## Edges and the ring (R69 to R72) -/

def State.edge (s : State) (e : Nat) : Edge :=
  s.units.edges.getD e { up := false, frameReplays := 0, retraining := false, failures := 0 }

def State.setEdge (s : State) (e : Nat) (v : Edge) : State :=
  { s with units := { s.units with edges := setAt s.units.edges e v } }

/-- A flit is resent: the eighth time for one flit, or beyond 1,000 in a frame, the edge
retrains (R71). -/
def execEdgeReplay (edge : Nat) (sameFlit : Nat) (s : State) : Host.Outcome State Fault Refusal :=
  let e := s.edge edge
  .next (if e.up && !e.retraining then
    s.setEdge edge { e with
      frameReplays := e.frameReplays + 1
      retraining := decide (8 ≤ sameFlit ∨ 1000 < e.frameReplays + 1) }
  else s)

/-- Ring positions of R69: I/O dies and regions. -/
def ringIod : List (Nat × Nat) := [(0, 0), (5, 1), (11, 2), (6, 3)]

def ringRegion : List (Nat × Nat) := [(1, 0), (2, 1), (3, 2), (4, 3), (10, 4), (9, 5), (8, 6), (7, 7)]

/-- Ring positions that position 6 (I/O die 3) reaches over edges that are up. -/
def State.arc (s : State) : List Nat :=
  let up := ((List.range 11).map fun i => (6 + i) % 12).takeWhile fun e => (s.edge e).up
  let down := ((List.range 11).map fun i => (5 + 12 - i) % 12).takeWhile fun e => (s.edge e).up
  6 :: (up.map fun e => (e + 1) % 12) ++ down

/-- Leave compute service: every context stops, every outstanding command ends (R72). -/
def State.leaveService (s : State) : State :=
  let s1 := (List.range 8).foldl (fun a p => a.stopPart p stUnitFailed) s
  let s2 := s1.mail.taken.foldl (fun a t => a.endCommand stUnitFailed t) s1
  { s2 with units := { s2.units with noCompute := true } }

/-- What follows from open edges (R72). -/
def State.splitRing (s : State) : State :=
  let arc := s.arc
  let s1 := (ringRegion.filter fun x => !arc.contains x.1).foldl (fun a x => a.isolate x.2 0x09) s
  let cut := ringIod.filter fun x => !arc.contains x.1
  if cut = [] then s1
  else
    let s2 := { s1 with units := { s1.units with
      iods := cut.foldl (fun m x => putBit m x.2 false) s1.units.iods } }
    if s2.units.noCompute then s2 else s2.leaveService

/-- A retraining ends; the third failure in a row opens the edge (R59, R71). -/
def execEdgeRetrainComplete (edge : Nat) (ok : Bool) (s : State) : Host.Outcome State Fault Refusal :=
  let e := s.edge edge
  .next (if !(e.up && e.retraining) then s
    else if ok then s.setEdge edge { e with retraining := false, failures := 0 }
    else if e.failures < 2 then s.setEdge edge { e with failures := e.failures + 1 }
    else
      ((s.setEdge edge { e with up := false, retraining := false, failures := 0 }).noteFence
        (unitId 5 edge 0 0x07) none).splitRing)

end Sys2Proof.Machine
end

