-- ==== Sys2Proof/Machine/Command.lean ====
section
/-! DEFINITION. The mailbox commands of levels, information, configuration sets, partitions,
contexts, grids and copies (R214 to R259). -/

namespace Sys2Proof.Machine

/-! ## V/F table (R367) -/

/-- The point whose frequency is given in MHz. -/
def pointOf (mhz : Nat) : Option Nat := (List.range 16).find? fun k => mhz == 900 + 100 * k

/-- Fixed-frequency floors in W. -/
def floorW (k : Nat) : Nat :=
  [2320, 2340, 2360, 2380, 2400, 2430, 2450, 2480, 2520, 2550, 2590, 2620, 2660, 2710, 2750, 2800].getD k 0

/-! ## HELLO (R214) -/

/-- The level at which a running image provides an interface (R437, R442). -/
def providedLevel (i : Option Image) (iface : Nat) : Nat :=
  match i with
  | some m =>
    match m.provides.find? (fun e => (e.setWidth 8).toNat == iface) with
    | some e => e.toNat / 256
    | none => 0
  | none => 0

def execHello (slot : Nat) (s : State) : Host.Outcome State Fault Refusal :=
  command slot opHello s fun t =>
    if !(decide (s.body slot 1 1 ≤ 0x10 ∧ 0x10 ≤ s.body slot 0 1)) then s.complete t (.of stBadLevel)
    else if s.mail.taken.length ≠ 1 then s.complete t (.of stWrongState)
    else
      { s with mail := { s.mail with negotiated := true, level := 0x10 } }.complete t
        { Report.of stDone with
          r0 := 0x10 + 0x10 * 2 ^ 8 + 1024 * 2 ^ 16
          r1 := providedLevel (s.sec.runningImages.getD 2 none) 0x01 }

/-! ## GET_INFO (R82, R83, R186, R218, R219) -/

def State.orderCode (s : State) : Nat := if s.fuses.orderB then 2 else 1

def stepping : Nat := 0xA1

/-- Page 0x00. -/
def State.identityPage (s : State) : List Byte :=
  leBytes 1 0 ++ leBytes 1 1 ++ leBytes 2 0x80 ++ leBytes 1 s.orderCode ++ leBytes 1 stepping
    ++ leBytes 1 1 ++ leBytes 1 0x10 ++ leBytes 8 s.fuses.serial.toNat
    ++ leBytes 1 s.flash.persist.shutdownCause.toNat ++ leBytes 1 s.mail.start.toNat ++ leBytes 2 1024
    ++ leBytes 4 s.mail.resetGen.toNat ++ leBytes 8 s.mail.startFrame.toNat
    ++ leBytes 1 8 ++ leBytes 1 16 ++ leBytes 2 4096 ++ leBytes 2 4096 ++ leBytes 2 256 ++ leBytes 88 0

/-- `CELL_MASK` and `CELL_FENCED` of a block (R83). -/
def State.topoCells (s : State) (b : Nat) : BitVec 16 × BitVec 16 :=
  let en := s.enabledCells
  let t := s.units.topo
  if t.blockFenced.getLsbD b || !t.regions.getLsbD (b / 16) then (0, en)
  else (en &&& ~~~(t.cellFenced.getD b 0), en &&& t.cellFenced.getD b 0)

/-- Blocks in service. -/
def Topology.blocks (t : Topology) : List Nat :=
  (List.range 128).filter fun b => t.regions.getLsbD (b / 16) && !t.blockFenced.getLsbD b

/-- A block is fenced or a stack is lost. -/
def Topology.degraded (t : Topology) : Bool := decide (t.blocks.length ≠ 128 ∨ popCount t.hbm ≠ 32)

def Topology.cellsOut (t : Topology) : Bool := t.cellFenced.any (· != 0)

/-- Page 0x01, as of the last frame boundary. -/
def State.topologyPage (s : State) : List Byte :=
  let t := s.units.topo
  let blocks := t.blocks
  let ddr := t.dimms.sum * 2 ^ 30
  let hbm := popCount t.hbm * hbmSize
  let dump := if t.dumpBase.isSome then 2 ^ 28 else 0
  let status := (if t.degraded then 1 else 0)
    + (if popCount t.edges ≠ 12 then 2 else 0) + (if t.cellsOut then 4 else 0)
    + (if t.noCompute then 8 else 0)
  leBytes 1 1 ++ leBytes 1 1 ++ leBytes 2 0x300 ++ leBytes 1 s.orderCode ++ leBytes 1 stepping
    ++ leBytes 1 status ++ leBytes 1 0 ++ leBytes 2 (128 * popCount s.enabledCells)
    ++ leBytes 2 ((List.range 128).map fun b => popCount (s.topoCells b).1).sum
    ++ leBytes 1 blocks.length ++ leBytes 1 (popCount t.regions) ++ leBytes 1 (popCount t.hbm)
    ++ leBytes 1 (t.dimms.filter (· != 0)).length
    ++ leBytes 8 hbm ++ leBytes 8 (hbm - dump - t.hbmRetired * 4096) ++ leBytes 8 ddr
    ++ leBytes 8 (ddr - t.ddrRetired * 4096)
    ++ leBytes 2 t.edges.toNat ++ leBytes 1 t.regions.toNat ++ leBytes 1 t.iods.toNat ++ leBytes 4 t.hbm.toNat
    ++ leBytes 2 ((List.range 12).foldl (fun m d => m + if t.dimms.getD d 0 ≠ 0 then 2 ^ d else 0) 0)
    ++ leBytes 2 t.fenceCount.toNat ++ leBytes 4 0
    ++ leBytes 8 (t.dumpBase.getD (2 ^ 64 - 1))
    ++ leBytes 16 (blocks.foldl (fun m b => m + 2 ^ b) 0) ++ leBytes 40 0
    ++ (List.range 128).flatMap (fun b => leBytes 2 (s.topoCells b).1.toNat)
    ++ (List.range 128).flatMap (fun b => leBytes 2 (s.topoCells b).2.toNat) ++ leBytes 128 0

/-- An entry of page 0x02. -/
def retiredEntry (r : RetiredPage) : Nat :=
  pageMem r.page + (if r.retired then 1 else 2) * 16 + r.cause.toNat * 64 + r.page * 4096

/-- Page 0x02 from an entry on. -/
def State.retiredPages (s : State) (first : Nat) : List Byte :=
  let l := (s.flash.retired.drop first).take 8183
  leBytes 1 2 ++ leBytes 1 1 ++ leBytes 2 (0x40 + 8 * l.length) ++ leBytes 4 s.flash.retired.length
    ++ leBytes 4 first ++ leBytes 2 l.length ++ leBytes 50 0 ++ l.flatMap fun r => leBytes 8 (retiredEntry r)

/-- `BUF_ADDR` and `BUF_LEN` at 0x08 and 0x10 meet R218. -/
def State.bufOk (s : State) (slot : Nat) : Bool := s.body slot 8 8 % 64 == 0 && s.body slot 0x10 4 % 64 == 0

/-- Result data to the buffer at 0x08 and 0x10. -/
def State.giveBuf (s : State) (t : Taken) (data : List Byte) : State :=
  s.giveData t (s.body t.slot 8 8) (s.body t.slot 0x10 4) data

def execGetInfo (slot : Nat) (s : State) : Host.Outcome State Fault Refusal :=
  command slot opGetInfo s fun t =>
    let page := s.body slot 0 1
    if !s.bufOk slot ∨ 2 < page then s.complete t (.of stBadField)
    else if page = 0 then s.giveBuf t s.identityPage
    else if page = 1 then s.giveBuf t s.topologyPage
    else s.giveBuf t (s.retiredPages (s.body slot 4 4))

/-! ## Configuration sets (R224 to R226) -/

/-- A configuration set with bytes written from an offset. -/
def cfgPut (k : ConfigSet) (off : Nat) (l : List Byte) : ConfigSet :=
  (List.range l.length).foldl (fun a i =>
    let sh := 8 * (off + i)
    (a &&& ~~~((0xFF : ConfigSet) <<< sh)) ||| (((l.getD i 0).setWidth 2048 : ConfigSet) <<< sh)) k

/-- The checks of R226 in the order of their offsets. -/
def cfgChecks (k : ConfigSet) (comm : Nat → Bool) : List (Nat × Bool) :=
  let zero := fun a b => [(a, cfg k a (b - a) == 0)]
  [(0x00, cfg k 0 1 == 1), (0x01, cfg k 1 1 == 0), (0x02, decide (1500 ≤ cfg k 2 2 ∧ cfg k 2 2 ≤ 5000)),
    (0x04, decide (cfg k 4 1 < 4)), (0x05, cfg k 5 1 == 0), (0x06, (pointOf (cfg k 6 2)).isSome),
    (0x08, decide (cfg k 8 1 ≤ 2))] ++ zero 0x09 0x10
  ++ [(0x20, decide (1 ≤ cfg k 0x20 4 ∧ cfg k 0x20 4 ≤ 60000)),
    (0x24, decide (1 ≤ cfg k 0x24 2 ∧ cfg k 0x24 2 ≤ 5000)), (0x26, decide (cfg k 0x26 1 ≤ 1))] ++ zero 0x27 0x30
  ++ (List.range 16).map (fun c =>
      let e := cfg k (0x30 + 4 * c) 4
      (0x30 + 4 * c, e / 4096 % 16 == 0 && decide (e < 2 ^ 17) && (e / 2 ^ 16 == 0 || comm (e % 4096))))
  ++ (List.range 36).map (fun p => (0x70 + p, decide (cfg k (0x70 + p) 1 < 8) && cfg k (0x70 + p) 1 % 4 != 3))
  ++ zero 0x94 0x100

def State.commExists (s : State) (h : Nat) : Bool := s.coll.comms.any fun c => c.handle == h

/-- The offset of the first failing field of the shadow set. -/
def State.cfgBad (s : State) (k : ConfigSet) : Option Nat :=
  ((cfgChecks k s.commExists).find? fun x => !x.2).map (·.1)

/-- The floor test of R376 for a frequency. -/
def State.floorFits (s : State) (mhz : Nat) : Bool := decide (floorW ((pointOf mhz).getD 0) ≤ s.power.effCap)

def execConfigWriteShadow (slot : Nat) (s : State) : Host.Outcome State Fault Refusal :=
  command slot opConfigWrite s fun t =>
    let off := s.body slot 0 2
    let n := s.body slot 2 2
    if n = 0 ∨ 176 < n ∨ 256 < off + n then s.complete t (.of stBadField)
    else if s.config.swap.isSome then s.complete t (.of stBusy)
    else { s with config := { s.config with
      shadow := cfgPut s.config.shadow off (s.bodyBytes slot 0x10 n) } }.complete t (.of stDone)

/-- The swap itself is made at the next frame boundary, which completes the command. -/
def execConfigSwap (slot : Nat) (s : State) : Host.Outcome State Fault Refusal :=
  command slot opConfigSwap s fun t =>
    if s.config.swap.isSome then s.complete t (.of stBusy)
    else
      match s.cfgBad s.config.shadow with
      | some off => s.complete t { Report.of stBadField with r0 := off }
      | none =>
        if s.config.shadow.getLsbD (8 * 4 + 1) ∧ !s.floorFits (cfg s.config.shadow 6 2) then
          s.complete t (.of stRefusedPower)
        else { s.markStarted slot with config := { s.config with swap := some slot } }

def execConfigRead (slot : Nat) (s : State) : Host.Outcome State Fault Refusal :=
  command slot opConfigRead s fun t =>
    if !s.bufOk slot ∨ 1 < s.body slot 0 1 then s.complete t (.of stBadField)
    else s.giveBuf t (leBytes 256 (if s.body slot 0 1 = 0 then s.config.active else s.config.shadow).toNat)

/-! ## Partitions (R229 to R232) -/

/-- The ranges that a `PART_CREATE` lists. -/
def State.bodyRanges (s : State) (slot : Nat) : List DdrRange :=
  (List.range (min 32 (s.body slot 4 1))).map fun i =>
    { chan := s.body slot (0x40 + 4 * i) 1, first := s.body slot (0x41 + 4 * i) 1
      gib := s.body slot (0x42 + 4 * i) 2 }

def DdrRange.overlaps (a b : DdrRange) : Bool :=
  a.chan == b.chan && decide (a.first < b.first + b.gib ∧ b.first < a.first + a.gib)

/-- No two ranges of a list overlap. -/
def disjointRanges : List DdrRange → Bool
  | [] => true
  | r :: rest => rest.all (fun x => !r.overlaps x) && disjointRanges rest

/-- Conditions of one range (R230 step 2); a range on a channel without a DIMM is left to step 3, whatever its
length. -/
def State.rangeOk (s : State) (r : DdrRange) : Bool :=
  let cap := s.units.dimms.getD r.chan 0
  decide (r.chan < 12) && (cap == 0 || decide (1 ≤ r.gib ∧ r.gib ≤ 256 ∧ r.first + r.gib ≤ 256 ∧ r.first + r.gib ≤ cap))

/-- Another partition holds a region of a mask or a GiB of a range. -/
def State.taken (s : State) (regions : BitVec 8) (ranges : List DdrRange) : Bool :=
  (List.range 8).any fun p => (s.part p).inService
    && ((s.part p).regions &&& regions != 0 || (s.part p).ranges.any fun a => ranges.any a.overlaps)

/-- Bytes of data area over the HBM stacks and over the DDR ranges of a partition. -/
def State.dataBytes (s : State) (p : Nat) : Nat × Nat :=
  let hbm := ((List.range 32).filter fun n => s.stackPresent n && (s.part p).regions.getLsbD (n / 4)).map fun n =>
    s.dataGranules p (n * hbmSize, hbmSize)
  let ddr := (s.part p).ranges.map fun r =>
    s.dataGranules p (ddrBase + r.chan * 2 ^ 38 + r.first * 2 ^ 30, r.gib * 2 ^ 30)
  (hbm.sum * granuleSize, ddr.sum * granuleSize)

/-- The status that refuses a `PART_CREATE`, if any (R230). -/
def State.partRefusal (s : State) (slot p : Nat) : Option Nat :=
  let regions := BitVec.ofNat 8 (s.body slot 0 1)
  let w := s.body slot 2 2
  let rs := s.bodyRanges slot
  if (s.part p).inService then some stWrongState
  else if regions = 0 ∨ w = 0 ∨ 1000 < w ∨ 32 < s.body slot 4 1 ∨ !rs.all s.rangeOk ∨ !disjointRanges rs then
    some stBadField
  else if (List.range 8).any (fun g => regions.getLsbD g && !s.regionPresent g)
      ∨ rs.any (fun r => s.units.dimms.getD r.chan 0 == 0) then some stUnitFailed
  else if s.taken regions rs then some stNoResource
  else if s.body slot 1 1 = 1 ∧ !s.admission then some stWrongState
  else none

def execPartCreate (slot : Nat) (s : State) : Host.Outcome State Fault Refusal :=
  command slot opPartCreate s fun t =>
    let p := t.part.toNat
    match s.partRefusal slot p with
    | some st => s.complete t (.of st)
    | none =>
      let old := s.part p
      let s1 := (s.setPart p { Part.reset with
        inService := true, conf := s.body slot 1 1 == 1, regions := BitVec.ofNat 8 (s.body slot 0 1)
        ranges := s.bodyRanges slot, weight := s.body slot 2 2, pgen := old.pgen, lastRegion := 7
        ctxs := old.ctxs.map fun c => { Ctx.reset with cgen := c.cgen, retired := c.retired } }).resetRegions
          (BitVec.ofNat 8 (s.body slot 0 1))
      let d := s1.dataBytes p
      s1.complete t { Report.of stDone with r0 := old.pgen.toNat, r1 := d.1, r2 := d.2 }

/-- A granule lies in the memory of a partition. -/
def State.inPart (s : State) (p g : Nat) : Bool := (s.span p (g * granuleSize)).isSome

def execPartDestroy (slot : Nat) (s : State) : Host.Outcome State Fault Refusal :=
  command slot opPartDestroy s fun t =>
    let p := t.part.toNat
    if (s.part p).ctxs.any (fun c => c.st != .closed) then s.complete t (.of stWrongState)
    else
      let s1 := s.uncommit fun w => w.part.toNat == p
      let s2 := ((s1.mem.granules.filter fun x => s1.inPart p x.1).map (·.1)).foldl State.freeGranule s1
      let s3 := s2.resetRegions (s2.part p).regions
      let k := s3.part p
      (s3.setPart p { Part.reset with pgen := genNext k.pgen, ctxs := k.ctxs }).complete t (.of stDone)

/-! ## Contexts (R237, R238, R258) -/

/-- Entries of a granule list: address, count and reserved bytes. -/
def listEntries (l : List Byte) (n : Nat) : List (Nat × Nat × Nat) :=
  (List.range n).map fun i =>
    (gatherDesc l (16 * i) 8, gatherDesc l (16 * i + 8) 4, gatherDesc l (16 * i + 12) 4)

def entryOk (e : Nat × Nat × Nat) : Bool :=
  decide (e.1 % granuleSize = 0 ∧ 1 ≤ e.2.1 ∧ e.2.1 ≤ 2 ^ 20 ∧ e.2.2 = 0)

/-- The granules that a list names. -/
def listGranules (es : List (Nat × Nat × Nat)) : List Nat :=
  es.flatMap fun e => (List.range e.2.1).map fun i => e.1 / granuleSize + i

/-- Fields of R237 for an operation (R238 step 2). -/
def State.ctxFieldsOk (s : State) (slot op : Nat) (es : List (Nat × Nat × Nat)) : Bool :=
  let len := s.body slot 0x28 4
  let q := s.body slot 4 4
  (if op = 0 then
    decide (s.body slot 1 1 ≤ 3 ∧ (q = 0 ∨ (50 ≤ q ∧ q ≤ 50000)) ∧ s.body slot 8 8 % 4096 = 0
      ∧ s.body slot 0x10 8 % 8 = 0 ∧ s.body slot 0x18 8 % 64 = 0)
  else decide (op ≤ 2) && decide (s.body slot 1 2 = 0 ∧ s.body slot 4 0x1C = 0))
  && decide (s.body slot 0x20 8 % 64 = 0 ∧ (len ≠ 0 ∨ s.body slot 0x20 8 = 0) ∧ len % 16 = 0 ∧ len ≤ 65536)
  && es.all entryOk

/-- A listed granule may be assigned (R238 step 5). -/
def State.assignable (s : State) (p : Nat) (gs : List Nat) : Bool :=
  gs.all (fun g => (s.granule g).owner == .free && s.inData p (g * granuleSize)) && decide gs.Nodup

/-- The generation was retired less than 1 s ago (R235). -/
def State.genBusy (s : State) (p c : Nat) : Bool :=
  let k := s.ctx p c
  k.retired.any fun r => r.1 == k.cgen && decide (s.power.frame.toNat < r.2 + 50000)

/-- The status that refuses a `CTX_OPEN`, if any (R238); a wait for the security controller at step 7 is left to
`State.awaitSec`. -/
def State.ctxRefusal (s : State) (t : Taken) (op : Nat) (es : List (Nat × Nat × Nat)) : Option Nat :=
  let p := t.part.toNat
  let c := t.ctx.toNat
  let st := (s.ctx p c).st
  let host := op = 0 ∧ s.body t.slot 2 1 = 1
  let root := s.body t.slot 8 8
  let gs := listGranules es
  if op = 0 ∧ st ≠ .closed ∨ op ≠ 0 ∧ ¬(st = .opened ∨ st = .resident) then some stWrongState
  else if !s.ctxFieldsOk t.slot op es then some stBadField
  else if op = 0 ∧ s.genBusy p c then some stBusy
  else if op = 2 ∧ s.confidential p ∨ host ∧ (!s.board.flit256 ∨ s.confidential p ∧ !s.hostAdmission) then
    some stBadField
  else if !s.assignable p gs then some stBadField
  else if op = 0 ∧ !(gs.contains (root / granuleSize) || (s.granule (root / granuleSize)).owner == .shared p) then
    some stBadField
  else if op = 0 ∧ s.confidential p ∧ !s.sec.paused ∧ !s.admission then some stWrongState
  else none

/-- The wait of R238 step 7: a command waits while the security controller is paused, and completes with `BUSY` once
it has waited 1 s. It is taken up again by its own row (DESIGN CHOICE, assumption log entry 43). -/
def State.awaitSec (s : State) (t : Taken) : State :=
  match t.waiting with
  | some f => if f + 50000 ≤ s.power.frame.toNat then s.complete t (.of stBusy) else s
  | none =>
    { s with mail := { s.mail with
        taken := s.mail.taken.map fun x => if x.slot = t.slot then { x with waiting := some s.power.frame.toNat } else x } }

/-- Give listed granules to an owner. -/
def State.assign (s : State) (gs : List Nat) (o : Owner) : State :=
  gs.foldl (fun a g => a.setGranule g { a.granule g with owner := o }) s

/-- The three forms of `CTX_OPEN`; `list` is the granule list as the host answers it. -/
def State.ctxOpenForm (s : State) (t : Taken) (op : Nat) (list : List Byte) : State :=
  let p := t.part.toNat
  let c := t.ctx.toNat
  let es := listEntries list (s.body t.slot 0x28 4 / 16)
  match s.ctxRefusal t op es with
  | some st => s.complete t (.of st)
  | none =>
    let gs := listGranules es
    if op = 0 ∧ s.confidential p ∧ s.sec.paused then s.awaitSec t
    else if op = 0 then
      let old := s.ctx p c
      let q := s.body t.slot 4 4
      let m := if s.confidential p then let k := s.newMemKey; (some k.1, k.2) else (none, s)
      ((m.2.assign gs (.ctx p c)).setCtx p c { Ctx.reset with
        st := .opened, cgen := old.cgen, cls := BitVec.ofNat 8 (s.body t.slot 1 1)
        host := s.body t.slot 2 1 == 1, quantum := if q = 0 then 500 else q
        ptroot := BitVec.ofNat 64 (s.body t.slot 8 8), svec := BitVec.ofNat 64 (s.body t.slot 0x10 8)
        tierCb := BitVec.ofNat 64 (s.body t.slot 0x18 8), retired := old.retired
        key := m.1 }).complete t { Report.of stDone with r0 := old.cgen.toNat }
    else (s.assign gs (if op = 1 then .ctx p c else .shared p)).complete t (.of stDone)

/-- `CTX_OPEN` with `OP` 0, or with a reserved `OP`. -/
def execCtxOpen (slot : Nat) (list : List Byte) (s : State) : Host.Outcome State Fault Refusal :=
  let op := s.body slot 0 1
  if op = 1 ∨ op = 2 then .next s
  else command slot opCtxOpen s fun t => s.ctxOpenForm t op list

def execCtxGrant (slot : Nat) (list : List Byte) (s : State) : Host.Outcome State Fault Refusal :=
  if s.body slot 0 1 ≠ 1 then .next s else command slot opCtxOpen s fun t => s.ctxOpenForm t 1 list

def execCtxShare (slot : Nat) (list : List Byte) (s : State) : Host.Outcome State Fault Refusal :=
  if s.body slot 0 1 ≠ 2 then .next s else command slot opCtxOpen s fun t => s.ctxOpenForm t 2 list

/-- Advance a context's generation, noting when the old one was retired (R233, R235). -/
def State.advanceCtx (s : State) (p c : Nat) : State :=
  let k := s.ctx p c
  let f := s.power.frame.toNat
  s.setCtx p c { k with
    cgen := genNext k.cgen
    retired := k.retired.filter (fun r => decide (f < r.2 + 50000)) ++ [(k.cgen, f)] }

/-- The first steps of a teardown (R258): work of the context stops. -/
def State.beginTeardown (s : State) (p c : Nat) : State :=
  let s1 := ((((s.cutShort p c).haltCells p c).dropComms p c).dropHeld p c).advanceCtx p c
  s1.setCtx p c { s1.ctx p c with st := .closing, leaving := none, waiting := none }

def execCtxClose (slot : Nat) (s : State) : Host.Outcome State Fault Refusal :=
  command slot opCtxClose s fun t =>
    let p := t.part.toNat
    let c := t.ctx.toNat
    let st := (s.ctx p c).st
    if st = .opened ∨ st = .resident ∨ st = .stopped then
      let s1 := (s.beginTeardown p c).markStarted slot
      { s1 with disp := { s1.disp with teardowns := s1.disp.teardowns ++ [{ part := p, ctx := c, slot := some slot }] } }
    else s.complete t (.of stWrongState)

/-- The last steps of a teardown: key erased, cells free, granules freed, state Closed. -/
def State.endTeardown (s : State) (p c : Nat) : State :=
  let s1 := (s.granulesOf (.ctx p c)).foldl State.freeGranule (s.freeCells p c)
  let k := s1.ctx p c
  s1.setCtx p c { Ctx.reset with cgen := k.cgen, retired := k.retired }

/-- `TEARDOWN_DRAIN_COMPLETE`. -/
def execTeardownDrainComplete (part ctx : Nat) (s : State) : Host.Outcome State Fault Refusal :=
  match s.disp.teardowns.find? (fun d => d.part == part && d.ctx == ctx) with
  | none => .next s
  | some d =>
    let s1 := s.endCommands part ctx stCancelled d.slot
    let s2 := s1.endTeardown part ctx
    let s3 := { s2 with disp := { s2.disp with
      teardowns := s2.disp.teardowns.filter fun x => !(x.part == part && x.ctx == ctx) } }
    .next (match d.slot with
      | some slot => s3.completeSlot slot { Report.of stDone with r0 := (s3.ctx part ctx).cgen.toNat }
      | none => s3)

/-! ## SUBMIT (R242) -/

/-- The context of a command accepts work. -/
def State.ctxLive (s : State) (p c : Nat) : Bool := (s.ctx p c).st == .opened || (s.ctx p c).st == .resident

def State.submitOk (s : State) (slot : Nat) : Bool :=
  decide (s.body slot 0 8 % 8 = 0 ∧ 1 ≤ s.body slot 0x10 4 ∧ 1 ≤ s.body slot 0x14 4
    ∧ s.body slot 0x14 4 < 2 ^ 24 ∧ s.body slot 0x18 1 ≤ 3 ∧ s.body slot 0x20 8 % 64 = 0
    ∧ s.body slot 0x28 4 % 64 = 0)

/-- The grid that a `SUBMIT` describes. -/
def State.newSubmit (s : State) (t : Taken) : Submit :=
  let b := s.body t.slot
  { order := s.disp.nextOrder, slot := t.slot, seq := t.seq, part := t.part.toNat, ctx := t.ctx.toNat
    pgen := t.pgen, cgen := t.cgen, kernel := BitVec.ofNat 64 (b 0 8), args := BitVec.ofNat 64 (b 8 8)
    items := b 0x10 4, estUj := b 0x14 4, prio := b 0x18 1, restart := b 0x19 1 == 1
    buf := b 0x20 8, bufLen := b 0x28 4, next := 0, reruns := [], requeued := [], saved := []
    running := [], complete := 0, failed := 0, lost := 0, rerunDone := [], records := []
    kFactor := 256, ended := [], endedCount := 0, runUj := 0, held := false, stop := none
    idleFrames := 0, aged := false, turn := 0, fixedBroken := false, tail := [], due := [] }

def execSubmit (slot : Nat) (s : State) : Host.Outcome State Fault Refusal :=
  command slot opSubmit s fun t =>
    if !s.ctxLive t.part.toNat t.ctx.toNat then s
    else if !s.submitOk slot then s.complete t (.of stBadField)
    else
      let s1 := s.markStarted slot
      ({ s1 with disp := { s1.disp with
        submits := s1.disp.submits ++ [s.newSubmit t]
        nextOrder := s1.disp.nextOrder + 1 } }.noteWaiting t.part.toNat t.ctx.toNat).dropXlats t.part.toNat t.ctx.toNat

/-! ## COPY, FILL and SCRUB (R178, R220) -/

/-- The region of a place on chip or in HBM. -/
def placeRegion : Place → Option Nat
  | .hbm n _ => some (n / 4)
  | .shared b _ => some (b / 16)
  | .local_ b _ _ => some (b / 16)
  | _ => none

def isDdr : Place → Bool
  | .ddr _ _ => true
  | _ => false

/-- The lowest-numbered present region of a partition. -/
def State.firstRegion (s : State) (p : Nat) : Nat :=
  ((List.range 8).find? fun g => (s.part p).regions.getLsbD g && s.regionPresent g).getD 0

/-- Start a transfer between places that translate; a copy with an end in the DDR tier runs on a
tier mover. -/
def State.startTransfer (s : State) (t : Taken) (fill : Bool) (src dst len pattern : Nat)
    (sp dp : Place) : State :=
  let tier := !fill && (isDdr sp || isDdr dp)
  let other := if isDdr dp then sp else dp
  let region := (placeRegion (if tier then other else dp)).getD (s.firstRegion t.part.toNat)
  let s1 := s.markStarted t.slot
  { s1 with disp := { s1.disp with transfers := s1.disp.transfers ++ [
    { slot := t.slot, seq := t.seq, part := t.part.toNat, ctx := t.ctx.toNat, pgen := t.pgen
      cgen := t.cgen, fill, src := BitVec.ofNat 64 src, dst := BitVec.ofNat 64 dst, len
      pattern := BitVec.ofNat 64 pattern, tier, region, moved := 0, held := false, stop := none
      fixedBroken := false }] } }

/-- `COPY`: a fault before the first byte completes with `BAD_FIELD`. -/
def execCopy (slot : Nat) (s : State) : Host.Outcome State Fault Refusal :=
  command slot opCopy s fun t =>
    let p := t.part.toNat
    let c := t.ctx.toNat
    let src := s.body slot 0 8
    let dst := s.body slot 8 8
    let len := s.body slot 0x10 8
    if !s.ctxLive p c then s
    else if src % 4 ≠ 0 ∨ dst % 4 ≠ 0 ∨ len % 4 ≠ 0 ∨ len < 4 ∨ 2 ^ 40 < len then s.complete t (.of stBadField)
    else
      match s.vplace p c .load src, s.vplace p c .store dst with
      | some sp, some dp => s.startTransfer t false src dst len 0 sp dp
      | _, _ => s.complete t (.of stBadField)

def execFill (slot : Nat) (s : State) : Host.Outcome State Fault Refusal :=
  command slot opFill s fun t =>
    let p := t.part.toNat
    let c := t.ctx.toNat
    let dst := s.body slot 0 8
    let len := s.body slot 8 8
    if !s.ctxLive p c then s
    else if dst % 8 ≠ 0 ∨ len % 8 ≠ 0 ∨ len < 8 ∨ 2 ^ 40 < len then s.complete t (.of stBadField)
    else
      match s.vplace p c .store dst with
      | some dp => s.startTransfer t true 0 dst len (s.body slot 0x10 8) dp dp
      | none => s.complete t (.of stBadField)

/-- `SCRUB`: the named granules are freed and marked pending, or nothing changes. -/
def execScrub (slot : Nat) (s : State) : Host.Outcome State Fault Refusal :=
  command slot opScrub s fun t =>
    let p := t.part.toNat
    let pa := s.body slot 0 8
    let n := s.body slot 8 4
    let owner := if t.ctx.toNat = 0xFF then Owner.shared p else .ctx p t.ctx.toNat
    let gs := (List.range n).map fun i => pa / granuleSize + i
    if pa % granuleSize ≠ 0 ∨ n = 0 ∨ 2 ^ 20 < n
        ∨ !gs.all (fun g => (s.granule g).owner == owner && !s.inDump (g * granuleSize)) then
      s.complete t (.of stBadField)
    else (gs.foldl State.freeGranule s).complete t { Report.of stDone with r0 := n }

/-- The running transfer that a slot carries. -/
def State.transferOf (s : State) (slot : Nat) : Option Transfer :=
  s.disp.transfers.find? fun x => !x.held && x.slot == slot

def State.setTransfer (s : State) (x : Transfer) : State :=
  { s with disp := { s.disp with transfers := s.disp.transfers.map fun y => if y.slot = x.slot && y.seq = x.seq then x else y } }

/-- The bytes of a pattern from an offset. -/
def patternBytes (w : Word) (off n : Nat) : List Byte :=
  (List.range n).map fun i => BitVec.ofNat 8 (w.toNat / 2 ^ (8 * ((off + i) % 8)))

/-- What a mover counts for a transfer: lines that the block mover moved, and lines at both ends. -/
def State.countTransfer (s : State) (x : Transfer) (n : Nat) (rd wr : List Piece) : State :=
  let b := s.moverBlock x.region
  let es := moverEvents b false rd ++ moverEvents b true wr
  if x.tier then s.count b mkTier 0 privFirmware clsMemory es
  else s.count b mkMover 0 privFirmware clsMemory (ev 0x43 (divUp n 64) :: es)

/-- Move the bytes from `x.moved` up to `upto`; the new count, short of `upto` on a fault. -/
def State.advance (s : State) (x : Transfer) (upto : Nat) : State × Nat :=
  let t := s.tagOf x.part x.ctx
  let n := upto - x.moved
  let wr := (s.vpieces x.part x.ctx .store (x.dst.toNat + x.moved) n).1
  if x.fill then
    let m := okBytes wr
    ((s.writePieces t wr (patternBytes x.pattern x.moved m)).countTransfer x m [] (takePieces m wr), x.moved + m)
  else
    let rd := (s.vpieces x.part x.ctx .load (x.src.toNat + x.moved) n).1
    let m := min (okBytes rd) (okBytes wr)
    let src := takePieces m rd
    let dst := takePieces m wr
    let s1 := (s.vsnoop x.part x.ctx (x.src.toNat + x.moved) m).movePieces t
      (s.vpieces x.part x.ctx .load x.src.toNat x.len).1 src dst
    let s2 := if x.tier then s1 else s1.markClean t (s.space x.part x.ctx) false src dst
    (s2.countTransfer x m src dst, x.moved + m)

/-- A transfer ends: its carrier completes, then a pending stop. -/
def State.endTransfer (s : State) (x : Transfer) (status moved stopStatus : Nat) : State :=
  ((s.completeSlot x.slot { Report.of status with r0 := moved }).dropTransfer x.slot).endStop x.stop stopStatus

/-- What the rest of a transfer reads: page table entries, and for a copy its source. -/
def State.transferReads (s : State) (x : Transfer) : List Piece :=
  let n := x.len - x.moved
  let dst := s.entriesOf (s.tagOf x.part x.ctx) (s.ctx x.part x.ctx).ptroot
    ((pageParts (x.dst.toNat + x.moved) n).map (·.1))
  entryPieces dst ++ if x.fill then [] else s.vreads x.part x.ctx (x.src.toNat + x.moved) n

/-- `MOVER_TRANSFER_COMPLETE`: the rest moves, up to a fault. -/
def execMoverTransferComplete (slot : Nat) (e : ReadErr) (s : State) :
    Host.Outcome State Fault Refusal :=
  match s.transferOf slot with
  | none => .next s
  | some x =>
    if !(s.ctxLive x.part x.ctx && s.clocksRun) then .next s
    else
      .next (s.readMeets (s.moverBlock x.region) (if x.tier then mkTier else mkMover) privFirmware x.part x.ctx
        (s.transferReads x) e fun t =>
          let r := t.advance x x.len
          r.1.endTransfer x (if r.2 = x.len then stDone else stBadField) r.2 stWrongState)

end Sys2Proof.Machine
end

