-- ==== Sys2Proof/Machine/Sluice.lean ====
section
/-! DEFINITION. The dispatcher: residency, admission by the Sluice, item starts and endings
(R89, R239 to R241, R246 to R256). -/

namespace Sys2Proof.Machine

/-! ## Residency (R239 to R241) -/

/-- How long a context has waited with ready work, in frames. -/
def State.waited (s : State) (p c : Nat) : Nat :=
  s.power.frame.toNat - ((s.ctx p c).waiting.getD s.power.frame.toNat)

/-- Prefer `a` to `b` (R239): the waiting bound, then the class, then the longer wait. -/
def State.prefers (s : State) (p a b : Nat) : Bool :=
  let late := fun c => decide (4 * (s.ctx p c).quantum < s.waited p c)
  if late a && late b then decide (s.waited p b ≤ s.waited p a)
  else if late a then true
  else if late b then false
  else if (s.ctx p a).cls ≠ (s.ctx p b).cls then decide ((s.ctx p a).cls.toNat < (s.ctx p b).cls.toNat)
  else decide (s.waited p b ≤ s.waited p a)

/-- The Open context with ready work that becomes Resident. -/
def State.chooseContext (s : State) (p : Nat) : Option Nat :=
  ((List.range 16).filter fun c => (s.ctx p c).st == .opened && s.ready p c).foldl
    (fun best c => match best with
      | some b => if s.prefers p b c then some b else some c
      | none => some c) none

/-- On-chip lines that a returning context left are unspecified (R241). -/
def State.scrambleLines (s : State) (p c : Nat) : State :=
  let t := s.tagOf p c
  (s.mem.tags.filter fun x => x.2 == t).foldl
    (fun a x => a.freeFill t [{ va := 0, pa := x.1 * 256, len := 256 }]) s

/-- `RESIDENCY_SELECT`. -/
def execResidencySelect (part : Nat) (s : State) : Host.Outcome State Fault Refusal :=
  .next (if !(s.part part).inService || (s.resident part).isSome then s
    else
      match s.chooseContext part with
      | none => s
      | some c =>
        let s1 := match (s.part part).lastCtx with
          | some d => if d = c then s else s.scrambleLines part c
          | none => s
        let k := s1.ctx part c
        let s2 := s1.setCtx part c { k with
          st := .resident, since := s.power.frame.toNat, waiting := none, leaving := none }
        (s2.setPart part { s2.part part with lastCtx := some c }).dropXlats part c)

/-- `QUANTUM_EXPIRY`: admission of the Resident context's items stops. -/
def execQuantumExpiry (part : Nat) (s : State) : Host.Outcome State Fault Refusal :=
  .next (match s.resident part with
    | none => s
    | some c =>
      let k := s.ctx part c
      let other := (List.range 16).any fun d => d != c && (s.ctx part d).st == .opened && s.ready part d
      if k.leaving = none ∧ k.since + k.quantum ≤ s.power.frame.toNat ∧ other ∧ !s.batchKeeps part c then
        (s.setCtx part c { k with leaving := some s.power.frame.toNat }).settleResidency part
      else s)

/-- A preempt or cancel request is raised for a cell's item (R139, R140). -/
def Cell.request (cancel : Bool) (k : Cell) : Cell :=
  { k with preempt := k.preempt || !cancel, cancel := k.cancel || cancel, requested := true }

/-- Raise a request for each running item of a `SUBMIT`. -/
def State.requestItems (s : State) (order : Nat) (cancel : Bool) : State :=
  { s with cells := s.cells.map fun x =>
      (x.1, match x.2.run with
        | some r => if r.order = order && x.2.ended.isNone then x.2.request cancel else x.2
        | none => x.2) }

/-- `RESIDENCY_DRAIN_TIMEOUT`: items still running 5,000 frames later receive preempt requests. -/
def execResidencyDrainTimeout (part : Nat) (s : State) : Host.Outcome State Fault Refusal :=
  .next (match s.resident part with
    | none => s
    | some c =>
      match (s.ctx part c).leaving with
      | some f =>
        if f + 5000 ≤ s.power.frame.toNat then
          (s.disp.submits.filter fun u => u.part == part && u.ctx == c).foldl
            (fun a u => a.requestItems u.order false) s
        else s
      | none => s)

/-! ## Admission (R247, R249, R251, R252) -/

/-- The charge of an item. -/
def Submit.charge (u : Submit) : Nat := divUp (u.estUj * u.kFactor) 256

def Submit.effPrio (u : Submit) : Nat := if u.aged then 0 else u.prio

/-- The next item of a `SUBMIT`, and whether it restarts a Saved one. -/
def Submit.nextItem (u : Submit) : Nat × Bool :=
  match u.reruns, u.saved, u.requeued with
  | i :: _, _, _ => (i, false)
  | [], i :: _, _ => (i, true)
  | [], [], i :: _ => (i, false)
  | [], [], [] => (u.next, false)

/-- A `SUBMIT` after its next item has been started on a cell. -/
def Submit.start (u : Submit) (cell turn : Nat) : Submit :=
  let run : ItemRun := { item := u.nextItem.1, cell, uj := 0, carry := 0 }
  let v := match u.reruns, u.saved, u.requeued with
    | _ :: r, _, _ => { u with reruns := r }
    | [], _ :: r, _ => { u with saved := r }
    | [], [], _ :: r => { u with requeued := r }
    | [], [], [] => { u with next := u.next + 1 }
  { v with running := v.running ++ [run], idleFrames := 0, aged := false, turn }

/-- The `SUBMIT` of a list whose turn it is (R251 step 2): the next in the order of taking after the one that had its
item admitted last, and the first of all where there is none. -/
def nextInTurn (l : List Submit) : Option Submit :=
  let last := l.foldl (fun a u => if a.1 < u.turn then (u.turn, u.order) else a) (0, 0)
  (l.find? fun u => last.1 != 0 && decide (last.2 < u.order)).or l.head?

/-- The head `SUBMIT` of a context (R251). -/
def State.headSubmit (s : State) (p c : Nat) : Option Submit :=
  let l := s.disp.submits.filter fun u => u.part == p && u.ctx == c && !u.held && u.stop == none && u.toStart
  nextInTurn (l.filter fun u => l.all fun v => decide (u.effPrio ≤ v.effPrio))

/-- Items Running or Saved on the module (R246). -/
def State.itemCount (s : State) : Nat := (s.disp.submits.map fun u => u.running.length + u.saved.length).sum

/-- The lowest-numbered free present cell of a region. -/
def State.freeCell (s : State) (g : Nat) : Option Nat :=
  ((List.range 256).map (256 * g + ·)).find? fun c => s.cellPresent c && (s.cell c).run.isNone

/-- The cell for the next item: regions in turn after that of the previous placement. -/
def State.placeItem (s : State) (p : Nat) : Option Nat :=
  (((List.range 8).map fun i => ((s.part p).lastRegion + 1 + i) % 8).filter
    fun g => (s.part p).regions.getLsbD g).findSome? s.freeCell

/-- The Sluice lets a charge pass (R249). -/
def Part.admits (k : Part) (c : Nat) : Bool :=
  decide (0 < k.grant) && (decide ((c : Int) ≤ k.balance)
    || (decide (2 * k.grant < c) && k.balance == 2 * (k.grant : Int)))

/-- A cell at the start of an item (R89, R91). -/
def Cell.start (k : Cell) (x : Ctx) (u : Submit) (run : Run) (restart : Bool) : Cell :=
  let key := 16 * run.part + run.ctx
  let sampled := x.sampling.mode != 0 && !x.sampling.stopped
  let regs := ((Vector.replicate 32 (0 : Word)).set 1 (BitVec.ofNat 64 run.item))
  { Cell.reset with
    x := if restart then regs else (regs.set 2 u.args).set 3 (BitVec.ofNat 64 u.items)
    pc := if restart then x.svec else u.kernel, sup := restart, svec := x.svec, ptroot := x.ptroot
    run := some run, cycle := k.cycle, pmc := k.pmc, pmsel := k.pmsel, pmovf := k.pmovf, pmaddr := k.pmaddr
    slotUsed := k.slotUsed, samples := k.samples, latches := k.latches, asyncNext := k.asyncNext
    countdown := if sampled && (k.countdown.find key).isNone then k.countdown.put key x.sampling.interval
      else k.countdown
    sampMode := if sampled then x.sampling.mode else 0, sampN := x.sampling.interval }

/-- Start the head item of a `SUBMIT` on a cell. -/
def State.startItem (s : State) (u : Submit) (c : Nat) : State :=
  let it := u.nextItem
  let run : Run := { part := u.part, ctx := u.ctx, order := u.order, item := it.1 }
  let q := s.part u.part
  let s1 := s.setPart u.part { q with balance := q.balance - (u.charge : Int), lastRegion := c / 256 }
  let s2 := s1.setCell c ((s1.cell c).start (s.ctx u.part u.ctx) u run it.2)
  let s3 := s2.setSubmit (u.start c (s.disp.turns + 1))
  { s3 with disp := { s3.disp with turns := s.disp.turns + 1 } }.count (c / 16) mkCell c
    (if it.2 then privSup else privUser) clsControl [ev 0x5D 1]

/-- `ITEM_ADMIT`: the head item of a partition, if the Sluice, the limit of R246 and a free cell
allow. -/
def execItemAdmit (part : Nat) (s : State) : Host.Outcome State Fault Refusal :=
  .next (match s.resident part with
    | none => s
    | some c =>
      match s.headSubmit part c, s.placeItem part with
      | some u, some cell =>
        if s.clocksRun ∧ (s.ctx part c).leaving = none ∧ s.itemCount < 4096 ∧ (s.part part).admits u.charge then
          s.startItem u cell
        else s
      | _, _ => s)

/-! ## Endings (R248) -/

/-- A `SUBMIT` after an item has ended. -/
def Submit.itemEnds (u : Submit) (item : Nat) (e : Ending) : Submit :=
  let had := u.toStart
  let v := u.endRun item
  let fail := fun (kind cause : BitVec 8) (value : Word) =>
    { v with failed := v.failed + 1, records := v.records ++ [{ item, kind, cause, value }] }
  let back := fun (w : Submit) => if had then w else { w with idleFrames := 0, aged := false }
  match e.kind with
  | .complete => { v with complete := v.complete + 1 }
  | .saved => back { v with saved := insertNat v.saved item }
  | .failedValue => fail 0x01 0 e.value
  | .failedException => fail 0x02 e.cause 0
  | .forced =>
    if cancelled u.stop then v
    else if u.restart then back { v with requeued := insertNat v.requeued item }
    else fail 0x03 0 0

/-- `ITEM_ENDING`: the dispatcher acts on the ending of a cell's item. -/
def execItemEnding (c : Nat) (s : State) : Host.Outcome State Fault Refusal :=
  let k := s.cell c
  .next (match k.run, k.ended with
    | some r, some e =>
      if k.stopped then s
      else
        let s1 := s.setCell c k.release
        match s1.submitBy r.order with
        | some u => s1.settle (u.itemEnds r.item e)
        | none => s1
    | _, _ => s)

/-- `SUBMIT_AGING`: 500 frames with items to start and none admitted (R251). -/
def execSubmitAging (slot : Nat) (s : State) : Host.Outcome State Fault Refusal :=
  .next (match s.disp.submits.find? (fun u => !u.held && u.slot == slot) with
    | some u => if 500 ≤ u.idleFrames ∧ u.toStart then s.setSubmit { u with aged := true } else s
    | none => s)

/-- The slot names a stop or its target. -/
def stopNames (slot carrier : Nat) (stop : Option StopReq) : Bool :=
  match stop with
  | some r => slot == carrier || slot == r.slot
  | none => false

/-- `SUSPEND_DRAIN_TIMEOUT`: 5,000 frames after a soft `SUSPEND` (R255). -/
def execSuspendDrainTimeout (slot : Nat) (s : State) : Host.Outcome State Fault Refusal :=
  .next (match s.disp.submits.find? (fun u => !u.held && stopNames slot u.slot u.stop) with
    | some u =>
      match u.stop with
      | some r =>
        if !r.cancel ∧ !r.hard ∧ r.since + 5000 ≤ s.power.frame.toNat then s.requestItems u.order false else s
      | none => s
    | none => s)

end Sys2Proof.Machine
end

