-- ==== Sys2Proof/Machine/Fabric.lean ====
section
/-! DEFINITION. Fabric ports, links, routing and time (R260 to R289): the operations, and the
rows of ports, registers and time. Packets for the module itself wait in `arrived`. -/

namespace Sys2Proof.Machine

/-! ## Port halves (R260) -/

/-- The index of a half, as in the route groups of R287, from a port identifier. -/
def halfOf (pid : Nat) : Nat := 2 * (pid % 64) + pid / 64

def pidOf (h : Nat) : Nat := h / 2 + 64 * (h % 2)

/-- The I/O die of a half (R16). -/
def iodOf (h : Nat) : Nat := h / 18

def State.port (s : State) (h : Nat) : Port := s.fabric.ports.getD h Port.reset

def State.setPort (s : State) (h : Nat) (k : Port) : State :=
  { s with fabric := { s.fabric with ports := setAt s.fabric.ports h k } }

/-- Mode and `SPLIT` in force. -/
def State.modeOf (s : State) (p : Nat) : BitVec 2 × Bool := s.fabric.modes.getD p (0, false)

def State.halfExists (s : State) (h : Nat) : Bool :=
  decide (h < 72) && (h % 2 == 0 || (s.modeOf (h / 2)).2)

/-- The existing half that a port identifier names. -/
def State.halfNamed (s : State) (pid : Nat) : Option Nat :=
  if pid < 128 ∧ s.halfExists (halfOf pid) then some (halfOf pid) else none

def State.halves (s : State) (p : Nat) : List Nat :=
  if (s.modeOf p).2 then [2 * p, 2 * p + 1] else [2 * p]

def State.fabBlock (s : State) (d : Nat) : FabBlock := s.fabric.blocks.getD d FabBlock.reset

def State.setFabBlock (s : State) (d : Nat) (b : FabBlock) : State :=
  { s with fabric := { s.fabric with blocks := setAt s.fabric.blocks d b } }

/-- Carrying packets, or held back (R270). -/
def Port.linked (k : Port) : Bool := k.st == .active || k.st == .paused

/-- The states that end with `EV_PORT_DOWN` (R270). -/
def Port.inService (k : Port) : Bool := k.linked || k.st == .retraining

/-- Counters of R289 in their order. -/
def cntFecCorr : Fin 10 := 0
def cntFecUncorr : Fin 10 := 1
def cntCrc : Fin 10 := 2
def cntReplay : Fin 10 := 3
def cntRetrain : Fin 10 := 4
def cntDropGen : Fin 10 := 5
def cntDropRefused : Fin 10 := 6
def cntDropNoRoute : Fin 10 := 7
def cntDropHops : Fin 10 := 8
def cntDropDown : Fin 10 := 9

def Port.bump (k : Port) (i : Fin 10) (n : Nat) : Port :=
  { k with counters := k.counters.set i.val (k.counters[i.val] + BitVec.ofNat 64 n) }

/-- Count a dropped packet at the port through which it entered; one of the module's own agents
entered through none. -/
def State.drop (s : State) (src : Option Nat) (i : Fin 10) : State :=
  match src with
  | some h => s.setPort h ((s.port h).bump i 1)
  | none => s

/-! ## Sending on a link (R266 to R268) -/

/-- Put flits on a link. -/
def State.emitFlits (s : State) (h : Nat) (l : List (List Byte)) : State :=
  { s with out := s.out ++ l.map fun x => .flit (pidOf h) x }

/-- Send what a half can send. -/
def State.drainPort (s : State) (h : Nat) : State :=
  let r := (s.port h).drain 1024
  (s.setPort h r.1).emitFlits h r.2

/-- Send a link-control message (VL 6). -/
def State.sendControl (s : State) (h kind : Nat) (fields : List Nat) : State :=
  let k := s.port h
  (s.setPort h { k with control := k.control ++ [{ kind, fields }] }).drainPort h

/-- An idle flit or a replay request: it carries the acknowledgement, and credits. -/
def State.sendPlain (s : State) (h ftype : Nat) : State :=
  let r := (s.port h).plain ftype
  (s.setPort h r.1).emitFlits h [r.2]

/-! ## Routing (R277, R278) -/

/-- The lane of a packet's class: the even or the odd one of its pair. -/
def laneOf (p : Packet) (odd : Bool) : Nat :=
  let o := if odd then 1 else 0
  if p.ptype.toNat ∈ [0x01, 0x02] then 4 + o
  else if p.ptype.toNat ∈ [0x03, 0x05, 0x07, 0x08, 0x0A] then 2 + o
  else if p.ptype.toNat ∈ [0x0B, 0x0C] then 7
  else o

/-- The position of an I/O die on the ring (R69). -/
def iodPos (d : Nat) : Nat := [0, 5, 11, 6].getD d 0

/-- Ring positions reachable from a position over edges that are up (R72). -/
def State.arcFrom (s : State) (pos : Nat) : List Nat :=
  let up := ((List.range 11).map fun i => (pos + i) % 12).takeWhile fun e => (s.edge e).up
  let down := ((List.range 11).map fun i => (pos + 23 - i) % 12).takeWhile fun e => (s.edge e).up
  pos :: (up.map fun e => (e + 1) % 12) ++ down

/-- The usable members of a group for a packet that entered at a die. -/
def State.members (s : State) (iod g : Nat) : List Nat :=
  let m := (s.fabBlock iod).groups.getD g 0
  let arc := s.arcFrom (iodPos iod)
  (List.range 72).filter fun h =>
    m.getLsbD h && s.halfExists h && (s.port h).linked && arc.contains (iodPos (iodOf h))

/-- The member that a packet takes. -/
def State.pick (s : State) (iod g : Nat) (p : Packet) : Option Nat :=
  let all := s.members iod g
  let near := all.filter fun h => iodOf h == iod
  let l := if near = [] then all else near
  l[Config.spread p.srcEp.toNat p.dstEp.toNat (laneOf p false) p.obj.toNat % l.length]?

/-- A prefix entry matches an endpoint (R286). -/
def prefixMatches (e : BitVec 64) (dst : BitVec 20) : Bool :=
  let len := (e.extractLsb' 52 5).toNat
  e.getLsbD 0 && decide (1 ≤ len ∧ len ≤ 20)
    && (e.extractLsb' 32 20).toNat / 2 ^ (20 - len) == dst.toNat / 2 ^ (20 - len)

/-- The route entry for an endpoint at a die: the direct table, then the longest prefix, the
lowest index first. -/
def State.routeEntry (s : State) (iod : Nat) (dst : BitVec 20) : Option (BitVec 32) :=
  let b := s.fabBlock iod
  let d : BitVec 32 := (SMap.find b.direct (dst.toNat % 65536)).getD 0
  if dst.extractLsb' 16 4 = b.directHi ∧ d.getLsbD 0 then some d
  else
    ((b.prefixes.filter fun x => prefixMatches x.2 dst).foldl
      (fun (best : Option (BitVec 64)) x => match best with
        | some e => if (e.extractLsb' 52 5).toNat < (x.2.extractLsb' 52 5).toNat then some x.2 else some e
        | none => some x.2) none).map fun e => e.setWidth 32

/-- Queue a packet on a half, on the lane that its route entry gives. -/
def State.sendOn (s : State) (h : Nat) (w : Waiting) : State :=
  let k := s.port h
  (s.setPort h { k with queue := k.queue ++ [(laneOf w.pkt w.odd, w)] }).drainPort h

/-- Send a packet through a group, its alternate, or let it wait (R278). -/
def State.forward (s : State) (w : Waiting) : State :=
  match s.pick w.iod w.groupA w.pkt with
  | some h => s.sendOn h w
  | none =>
    match w.groupB.bind fun g => s.pick w.iod g w.pkt with
    | some h => s.sendOn h w
    | none => { s with fabric := { s.fabric with waiting := s.fabric.waiting ++ [w] } }

/-- R277 at an I/O die; `src` is the half through which the packet entered. -/
def State.routePacket (s : State) (iod : Nat) (src : Option Nat) (p : Packet) : State :=
  if p.hops = 0 then s.drop src cntDropHops
  else
    let q := if src.isSome then { p with hops := p.hops - 1 } else p
    let b := s.fabBlock iod
    if q.dstEp = b.ep then
      { s with fabric := { s.fabric with arrived := s.fabric.arrived ++ [{ iod, src, pkt := q }] } }
    else if !b.routesValid then s.drop src cntDropNoRoute
    else
      match s.routeEntry iod q.dstEp with
      | none => s.drop src cntDropNoRoute
      | some e =>
        s.forward
          { iod, src, pkt := q, groupA := (e.extractLsb' 2 6).toNat
            groupB := if e.getLsbD 14 then some (e.extractLsb' 8 6).toNat else none, odd := e.getLsbD 1 }

/-- Try again the packets that wait for a member. -/
def State.retryWaiting (s : State) : State :=
  s.fabric.waiting.foldl State.forward { s with fabric := { s.fabric with waiting := [] } }

/-! ## Time (R282, R283) -/

/-- Peer `a` is better than peer `b`, each with its port identifier. -/
def betterPeer (a b : Nat × TimeInfo) : Bool :=
  let k := fun (x : Nat × TimeInfo) =>
    [x.2.rootStratum, x.2.rootEp.toNat, x.2.stratum, x.2.peerEp.toNat, x.1]
  decide (k a < k b)

/-- The best peer of the Active ports. -/
def State.bestPeer (s : State) : Option (Nat × TimeInfo) :=
  (s.fabric.peers.filter fun x => s.halfExists (halfOf x.1) && (s.port (halfOf x.1)).linked).foldl
    (fun (best : Option (Nat × TimeInfo)) x => match best with
      | some b => if betterPeer x b then some x else some b
      | none => some x) none

/-- Choose the source of the frame phase. -/
def State.retime (s : State) : State :=
  let f := s.fabric
  let b := s.fabBlock 3
  let own := fun (stratum : BitVec 4) (source : BitVec 2) (locked : Bool) (root : BitVec 20) =>
    { s with fabric := { f with stratum, source, parent := 0x7F, locked, root } }
  if s.board.frameSync then own 0 1 true b.ep
  else
    match s.bestPeer with
    | some x =>
      if b.epValid ∧ (1 < x.2.rootStratum ∨ x.2.rootStratum = 1 ∧ b.ep.toNat ≤ x.2.rootEp.toNat) then
        own 1 0 true b.ep
      else
        { s with fabric := { f with
          stratum := BitVec.ofNat 4 (min 14 (x.2.stratum + 1)), source := 2, parent := BitVec.ofNat 7 x.1
          locked := decide (x.2.offset.natAbs ≤ 100), offset := BitVec.ofInt 16 x.2.offset, residual := x.2.offset
          root := x.2.rootEp } }
    | none =>
      if b.epValid then own 1 0 true b.ep
      else if f.source = 2 ∨ f.source = 3 then { s with fabric := { f with source := 3, parent := 0x7F } }
      else own 0xF 0 false 0

/-! ## Port states (R261, R269, R270) -/

/-- A packet of a port that leaves service goes to the alternate group of the entry that routed it, at the die where
it entered, or is dropped. -/
def State.reroute (s : State) (h : Nat) (w : Waiting) : State :=
  match w.groupB with
  | some g => s.forward { w with groupA := g, groupB := none }
  | none => s.drop (some h) cntDropDown

/-- A port out of a link: nothing trained, no peer, no key. -/
def Port.unlink (k : Port) (st : PortState) : Port :=
  { k with st, width := 0, laneOk := 0, reversed := false, inverted := 0, peerEp := none, idSent := false
           initiator := false, keyFlits := 0, rxKeyFlits := 0, txKey := none, rxKey := none, nextTx := none, nextRx := none
           oldTx := none, retrainFails := 0, sameReplays := 0, replay := [], resendDue := false, queue := [], cut := []
           control := [], asked := false, rxBytes := [], owed := [] }

/-- A port leaves its link for Down or Disabled; its packets take another way (R269). -/
def State.leaveLink (s : State) (h : Nat) (st : PortState) (cause : BitVec 4) : State :=
  let k := s.port h
  let s1 := s.setPort h { k.unlink st with cause }
  let s2 := if k.inService then
      s1.log evPortDown srcLink (BitVec.ofNat 32 (pidOf h)) (cause.setWidth 32) else s1
  (k.packets.foldl (fun a x => a.reroute h x.2) s2).retime

def causeTraining : BitVec 4 := 1
def causeRetraining : BitVec 4 := 2
def causeAuth : BitVec 4 := 3
def causeRekey : BitVec 4 := 4
def causePeerLost : BitVec 4 := 5
def causeEpConflict : BitVec 4 := 6

/-- A port goes Down. -/
def State.portDown (s : State) (h : Nat) (cause : BitVec 4) : State :=
  let s1 := s.leaveLink h .down cause
  let k := s1.port h
  s1.setPort h { k with trainFails := 0, authFails := if cause = causeAuth then k.authFails + 1 else k.authFails }

/-- Apply a held mode change when every existing half of the port is Disabled (R226, R261). -/
def State.applyMode (s : State) (p : Nat) : State :=
  match SMap.find s.config.heldModes p with
  | some m =>
    if (s.halves p).all fun h => (s.port h).st == .disabled then
      { s with fabric := { s.fabric with modes := setAt s.fabric.modes p (m.setWidth 2, m.getLsbD 2) }
               config := { s.config with heldModes := s.config.heldModes.del p } }
    else s
  | none => s

/-- Compare an entry of `PORT_MODE` with the mode in force: it is held until the port can take
it, or cancels what is held. -/
def State.holdMode (s : State) (p : Nat) : State :=
  let e := cfg s.config.active (0x70 + p) 1
  let now := s.modeOf p
  let held := s.config.heldModes
  if e % 4 = now.1.toNat ∧ decide (e / 4 % 2 = 1) = now.2 then
    { s with config := { s.config with heldModes := held.del p } }
  else { s with config := { s.config with heldModes := held.put p (BitVec.ofNat 8 e) } }

/-- Halves in Disabled that may leave it do so. -/
def State.settlePort (s : State) (p : Nat) : State :=
  let s1 := s.applyMode p
  if (SMap.find s1.config.heldModes p).isSome then s1
  else
    (s1.halves p).foldl (fun a h =>
      let k := a.port h
      if k.st = .disabled ∧ (a.modeOf p).1 ≠ 0 ∧ !k.disable ∧ a.board.srefclk ∧ a.board.railsUp then
        a.setPort h { k with st := .detect } else a) s1

def State.settlePorts (s : State) : State := (List.range 36).foldl State.settlePort s

/-- Take halves out of their links at a reset; what they held is lost, and `PORT_CTL` and `CAUSE` return to their reset
values (R281, R288). -/
def State.resetHalves (s : State) (f : Nat → Bool) (st : Port → PortState) (logged : Bool) : State :=
  ((List.range 72).filter f).foldl (fun a h =>
    let k := a.port h
    let a1 := if (logged && k.inService) = true then
        a.log evPortDown srcLink (BitVec.ofNat 32 (pidOf h)) (k.cause.setWidth 32) else a
    a1.setPort h { k.unlink (st k) with disable := false, cause := 0 }) s

/-- The fabric of an I/O die resets: its ports go Down and train again after their time there; tables and counters
return to their reset values (R281, R289). -/
def State.resetIodFabric (s : State) (d : Nat) : State :=
  let s1 := s.resetHalves (fun h => iodOf h == d) (fun k => if k.st = .disabled then .disabled else .down) true
  let s2 := ((List.range 18).map (18 * d + ·)).foldl
    (fun a h => a.setPort h { a.port h with counters := Vector.replicate 10 0 }) s1
  let s3 := s2.setFabBlock d FabBlock.reset
  (((List.range 9).map (9 * d + ·)).foldl State.settlePort
    { s3 with fabric := { s3.fabric with
        waiting := s3.fabric.waiting.filter fun w => w.iod != d
        arrived := s3.fabric.arrived.filter fun w => w.iod != d } }).retime

/-- The state of a link that is up: Paused while the Snuffer or the halt path holds the clocks (R281). -/
def State.upState (s : State) : PortState := if s.thermal.snuffed || s.thermal.haltClosed then .paused else .active

/-- The Snuffer pauses the ports. -/
def State.pausePorts (s : State) : State :=
  { s with fabric := { s.fabric with ports := s.fabric.ports.map fun k =>
      if k.st = .active then { k with st := .paused } else k } }

/-- Resend the flits of the replay buffer, in order (R268). -/
def State.resendAll (s : State) (h : Nat) : State :=
  let k := s.port h
  s.emitFlits h (k.replay.map (k.emitSent (0, 0)))

/-- Its release resumes them: what was held back, and a replay that was asked for, is sent. -/
def State.resumePorts (s : State) : State :=
  let was := fun h => (s.port h).st == .paused
  ((List.range 72).filter was).foldl (fun a h =>
    let k := a.port h
    let a1 := a.setPort h { k with st := .active, resendDue := false }
    (if k.resendDue then a1.resendAll h else a1).drainPort h) s

/-- Run a change on the existing half that an identifier names. -/
def onPort (pid : Nat) (s : State) (f : Nat → Port → State) : Host.Outcome State Fault Refusal :=
  match s.halfNamed pid with
  | some h => .next (f h (s.port h))
  | none => .next s

/-! ## Rows of training and authentication -/

def execPortDetect (pid : Nat) (s : State) : Host.Outcome State Fault Refusal :=
  onPort pid s fun h k => if k.st = .detect then s.setPort h { k with st := .training } else s

/-- The width that trained lanes give a half: ×8, or ×4 on four good lanes (R262). -/
def State.trainedWidth (s : State) (h : Nat) (laneOk : BitVec 8) : BitVec 2 :=
  let lo := laneOk.extractLsb' 0 4 == 0xF
  let hi := laneOk.extractLsb' 4 4 == 0xF
  if (s.modeOf (h / 2)).2 then (if (if h % 2 = 0 then lo else hi) then 1 else 0)
  else if lo && hi then 2 else if lo || hi then 1 else 0

/-- Send the endpoint ID in a link-control flit. -/
def State.sendId (s : State) (h : Nat) : State :=
  (s.setPort h { s.port h with idSent := true }).sendControl h 0 [(s.fabBlock (iodOf h)).ep.toNat]

/-- Entry to Secure: the endpoint ID goes out (R275). Packets that the port holds wait for its return. -/
def State.enterSecure (s : State) (h : Nat) : State :=
  let k := s.port h
  let s1 := s.setPort h { k.unlink .secure with
    width := k.width, laneOk := k.laneOk, reversed := k.reversed, inverted := k.inverted, queue := k.packets
    txSeq := 0, rxSeq := 0, ackSeq := 0, credits := fullCredits (s.modeOf (h / 2)).2
    rxBytes := List.replicate 8 [], owed := List.replicate 8 0 }
  if (s.fabBlock (iodOf h)).epValid then s1.sendId h else s1

/-- Training ends; the third failure in a row takes the port Down. -/
def execPortTrainingDone (pid : Nat) (laneOk : BitVec 8) (reversed : Bool) (inverted : BitVec 8) (s : State) :
    Host.Outcome State Fault Refusal :=
  onPort pid s fun h k =>
    let w := s.trainedWidth h laneOk
    if k.st ≠ .training then s
    else if w = 0 then
      if k.trainFails < 2 then s.setPort h { k with trainFails := k.trainFails + 1 } else s.portDown h causeTraining
    else
      (s.setPort h { k with width := w, laneOk, reversed, inverted, trainFails := 0, storedEq := true }).enterSecure h

/-- Choose the initiator once both IDs are known. -/
def State.chooseInitiator (s : State) (h : Nat) : State :=
  let k := s.port h
  let b := s.fabBlock (iodOf h)
  match k.peerEp with
  | some ep =>
    if k.st ≠ .secure ∨ !b.epValid then s
    else if (s.modeOf (h / 2)).1 = 2 then s.setPort h { k with initiator := true }
    else if ep = b.ep then s.portDown h causeEpConflict
    else s.setPort h { k with initiator := decide (b.ep.toNat < ep.toNat) }
  | none => s

def execEpIdFlit (pid : Nat) (ep : BitVec 20) (s : State) : Host.Outcome State Fault Refusal :=
  onPort pid s fun h k =>
    if k.st = .secure then (s.setPort h { k with peerEp := some ep }).chooseInitiator h else s

def execEpIdResend (pid : Nat) (s : State) : Host.Outcome State Fault Refusal :=
  onPort pid s fun h k =>
    if k.st = .secure ∧ k.peerEp = none ∧ (s.fabBlock (iodOf h)).epValid then s.sendId h else s

/-- An agreement of R274: the key-encapsulation message of this end, the hash of the transcript, and the new keys. -/
structure Agreement where
  mine : List Byte
  hash : List Byte
  tx : LinkKey
  rx : LinkKey
deriving DecidableEq, Repr

/-- The endpoint ID in a transcript, 3 bytes; 0xF_FFFF stands for one that was not sent (R275). -/
def idBytes (ep : Option (BitVec 20)) : List Byte := leBytes 3 (match ep with | some e => e.toNat | none => 0xFFFFF)

/-- The two IDs of a link in ascending order. -/
def idPair (a b : Option (BitVec 20)) : List Byte :=
  if leNat (idBytes a) ≤ leNat (idBytes b) then idBytes a ++ idBytes b else idBytes b ++ idBytes a

/-- The end that sends the encapsulation key: in endpoint mode the module always. -/
def State.initiates (s : State) (h : Nat) : Bool := (s.port h).initiator || (s.modeOf (h / 2)).1 == 2

/-- Steps 1 and 3 of R274, with the peer's message; the keys of the initiator's direction come first. -/
def State.agreement (s : State) (h : Nat) (e : PeerEvidence) : Agreement :=
  let k := s.port h
  let n := s.freeCtr
  let first := s.initiates h
  let seed := s.fabric.seeds.getD h 0
  let mine := if first then Config.kemKey seed n else Config.kemCipher seed n e.kem
  let secret := if first then Config.kemOpen seed n e.kem else Config.kemSecret seed n e.kem
  let ids := idPair (if k.idSent then some (s.fabBlock (iodOf h)).ep else none) k.peerEp
  let hash := Config.sha384 (ids ++ if first then mine ++ e.kem else e.kem ++ mine)
  let key := fun (i : Nat) =>
    { key := (Config.hkdf secret hash (2 * i)).setWidth 256, salt := (Config.hkdf secret hash (2 * i + 1)).setWidth 32
      count := 0 : LinkKey }
  { mine, hash, tx := key (if first then 0 else 1), rx := key (if first then 1 else 0) }

/-- The peer's challenge names the transcript of both ends (R274 step 2): an ID altered in transit fails here. -/
def State.transcriptAgrees (s : State) (h : Nat) (e : PeerEvidence) : Bool := e.nonce == (s.agreement h e).hash.take 32

/-- The peer's evidence is accepted (R274, R411). -/
def State.peerOk (s : State) (e : PeerEvidence) : Bool :=
  e.stepsOk && e.chainsOk && e.sameSerial
    && !(e.debugOpen && s.parts.any fun p => p.inService && p.conf)

/-- New agreements need the security controller (R276). -/
def State.secAvailable (s : State) : Bool := s.sec.running && !s.sec.error && !s.sec.paused

def execKeyAgreement (pid : Nat) (e : PeerEvidence) (s : State) : Host.Outcome State Fault Refusal :=
  onPort pid s fun h k =>
    let known := k.peerEp.isSome || (s.modeOf (h / 2)).1 == 2
    if k.st ≠ .secure ∨ !(s.fabBlock (iodOf h)).epValid ∨ !known ∨ !s.secAvailable then s
    else if s.peerOk e && s.transcriptAgrees h e then
      let a := s.agreement h e
      let s1 := s.free.2.sendControl h 3 ((a.mine ++ a.hash.take 32).map (·.toNat))
      ((s1.setPort h { s1.port h with
        st := s.upState, authFails := 0, keyFlits := 0, rxKeyFlits := 0, initiator := s.initiates h
        txKey := some a.tx, rxKey := some a.rx }).drainPort h).retryWaiting
    else s.portDown h causeAuth

/-! ## Rows of replay and retraining (R268 to R270) -/

/-- Begin a retraining. -/
def State.retrain (s : State) (h : Nat) : State :=
  s.setPort h ({ s.port h with st := .retraining, sameReplays := 0 }.bump cntRetrain 1)

/-- Resend from the flit after `ack`, at once or after a pause; too many replays retrain the port. -/
def State.resend (s : State) (h : Nat) (ack : BitVec 12) : State :=
  let k := (s.port h).acked ack
  let n := k.inFlight
  if n = 0 then s.setPort h k
  else if k.st = .paused then s.setPort h { k with resendDue := true }
  else
    let s1 := s.setPort h { k with sameReplays := k.sameReplays + 1, frameReplays := k.frameReplays + n }
    let s2 := s1.resendAll h
    if 8 ≤ k.sameReplays + 1 ∨ 1000 < k.frameReplays + n then s2.retrain h else s2

def execReplayRequest (pid : Nat) (ack : BitVec 12) (s : State) : Host.Outcome State Fault Refusal :=
  onPort pid s fun h k => if k.linked then s.resend h ack else s

/-- The next half of a `LINK` activation retrains; one that is retraining goes on with the new image, and one that is out
of service trains with it later (R449). -/
def State.linkNext (s : State) (a : Activation) : List Nat → State
  | [] => { s with upd := { s.upd with activation := some { a with linkLeft := [] } } }
  | h :: rest =>
    let s1 := { s with upd := { s.upd with activation := some { a with linkLeft := rest } } }
    if (s.port h).st = .retraining then s1
    else if (s.port h).inService then s1.retrain h
    else s.linkNext a rest

/-- The turn of a half in a `LINK` activation has not come. -/
def State.awaits (s : State) (h : Nat) : Bool := s.upd.activation.any fun a => a.comp == 5 && a.linkLeft.contains h

/-- Ports retrain one at a time in a `LINK` activation (R435, R449). -/
def State.linkTurn (s : State) : State :=
  match s.upd.activation with
  | some a =>
    if a.comp = 5 && a.linkLeft != []
        && a.linkDown.all (fun h => a.linkLeft.contains h || (s.port h).st != .retraining) then s.linkNext a a.linkLeft
    else s
  | none => s

/-- `PORT_RETRAIN`: a lane has lost block lock. The other causes of R269 act where they are counted: replays in
`State.resend`, and uncorrected codewords where a flit brings them. -/
def execPortRetrain (pid : Nat) (s : State) : Host.Outcome State Fault Refusal :=
  onPort pid s fun h k => if k.linked then s.retrain h else s

def execPortRetrainDone (pid : Nat) (e : RetrainEnd) (s : State) : Host.Outcome State Fault Refusal :=
  onPort pid s fun h k =>
    if k.st ≠ .retraining then s
    else if e = .ok then ((s.setPort h { k with st := s.upState, retrainFails := 0 }).drainPort h).retryWaiting.linkTurn
    else if k.retrainFails < 2 then s.setPort h ({ k with retrainFails := k.retrainFails + 1 }.bump cntRetrain 1)
    else (s.portDown h (if e = .peerLost then causePeerLost else causeRetraining)).linkTurn

def execPortDownExpiry (pid : Nat) (s : State) : Host.Outcome State Fault Refusal :=
  onPort pid s fun h k =>
    if k.st = .down ∧ !(k.cause == causeAuth && decide (3 ≤ k.authFails)) then
      (s.setPort h { k with st := .disabled }).settlePort (h / 2)
    else s

/-- A new key, once either direction has sent 2^31 flits (R276): the marker of the switch follows the agreement on the
link. A failure is an authentication failure. -/
def execRekey (pid : Nat) (e : PeerEvidence) (s : State) : Host.Outcome State Fault Refusal :=
  onPort pid s fun h k =>
    if !k.linked ∨ !s.secAvailable ∨ (k.keyFlits < 2 ^ 31 ∧ k.rxKeyFlits < 2 ^ 31) ∨ k.nextTx.isSome then s
    else if s.peerOk e && s.transcriptAgrees h e then
      let a := s.agreement h e
      let s1 := s.free.2.setPort h { k with nextTx := some a.tx, nextRx := some a.rx }
      (s1.sendControl h 3 ((a.mine ++ a.hash.take 32).map (·.toNat))).sendControl h 1 []
    else s.portDown h causeAuth

/-- A direction has reached 2^32 flits before the switch: the port goes Down with the cause that R288 gives, and trains
again from Detect. -/
def execRekeyOverrun (pid : Nat) (s : State) : Host.Outcome State Fault Refusal :=
  onPort pid s fun h k =>
    if k.inService ∧ (2 ^ 32 ≤ k.keyFlits ∨ 2 ^ 32 ≤ k.rxKeyFlits) then s.portDown h causeRekey else s

/-! ## Registers (R284 to R289) -/

/-- A write to `PORT_CTL`. -/
def State.portCtl (s : State) (h : Nat) (v : BitVec 64) : State :=
  let k := s.port h
  let s1 := if v.getLsbD 0 ∧ k.st ≠ .disabled then s.leaveLink h .disabled k.cause else s
  let k1 := s1.port h
  (s1.setPort h { k1 with disable := v.getLsbD 0, authFails := if v.getLsbD 0 then 0 else k1.authFails }).settlePort
    (h / 2)

def execPortCtlWrite (pid : Nat) (v : BitVec 64) (s : State) : Host.Outcome State Fault Refusal :=
  onPort pid s fun h _ => s.portCtl h v

/-- A write to `FAB_EP` reaches the copy of every die; `EP` does not change while `VALID` is 1. -/
def FabBlock.writeEp (b : FabBlock) (v : BitVec 64) : FabBlock :=
  { b with ep := if b.epValid then b.ep else v.setWidth 20, epValid := v.getLsbD 31 }

def State.writeFabEp (s : State) (v : BitVec 64) : State :=
  let blocks := s.fabric.blocks.map (fun b => b.writeEp v)
  let s1 : State := { s with fabric := { s.fabric with blocks } }
  ((List.range 72).foldl (fun a h =>
    let k := a.port h
    let was := (s.fabBlock (iodOf h)).epValid
    let now := (a.fabBlock (iodOf h)).epValid
    if was && !now && k.st == .active then a.enterSecure h
    else if !was && now && k.st == .secure then (a.sendId h).chooseInitiator h
    else a) s1).retime

def execFabEpWrite (v : BitVec 64) (s : State) : Host.Outcome State Fault Refusal :=
  .next (if s.board.railsUp then s.writeFabEp v else s)

def PortState.code : PortState → Nat
  | .disabled => 0
  | .detect => 1
  | .training => 2
  | .secure => 3
  | .active => 4
  | .paused => 5
  | .retraining => 6
  | .down => 7

/-- `PORT_STATUS`. -/
def State.portStatus (s : State) (h : Nat) : BitVec 64 :=
  let k := s.port h
  BitVec.ofNat 64 (k.st.code + k.width.toNat * 2 ^ 3 + (s.modeOf (h / 2)).1.toNat * 2 ^ 5
    + (if (SMap.find s.config.heldModes (h / 2)).isSome then 2 ^ 7 else 0) + k.cause.toNat * 2 ^ 8
    + k.laneOk.toNat * 2 ^ 12 + (if k.reversed then 2 ^ 20 else 0) + k.inverted.toNat * 2 ^ 21
    + (k.peerEp.getD 0).toNat * 2 ^ 32)

/-- `TIME_STATUS`. -/
def State.timeStatus (s : State) : BitVec 64 :=
  let f := s.fabric
  BitVec.ofNat 64 (f.source.toNat + f.stratum.toNat * 2 ^ 2 + f.parent.toNat * 2 ^ 6
    + (if f.locked then 2 ^ 13 else 0) + f.offset.toNat * 2 ^ 16 + f.root.toNat * 2 ^ 32)

/-- A register of the fabric block of a die. -/
def State.fabReg (s : State) (d off : Nat) : BitVec 64 :=
  let b := s.fabBlock d
  if off = 0 then BitVec.ofNat 64 (b.ep.toNat + if b.epValid then 2 ^ 31 else 0)
  else if off = 8 then BitVec.ofNat 64 (b.directHi.toNat + if b.routesValid then 2 ^ 8 else 0)
  else if off = 0x10 then s.timeStatus
  else if 0x100 ≤ off ∧ off < 0x500 then
    let g := b.groups.getD ((off - 0x100) / 16) 0
    if off % 16 = 0 then g.setWidth 64 else if off % 16 = 8 then (g >>> 64).setWidth 64 else 0
  else if 0x1000 ≤ off ∧ off < 0x1800 then (SMap.find b.prefixes ((off - 0x1000) / 8)).getD 0
  else if 0x2000 ≤ off ∧ off < 0x2900 then
    let o := (off - 0x2000) % 0x100
    let h := 2 * (9 * d + (off - 0x2000) / 0x100) + o / 0x80
    let r := o % 0x80
    if !s.halfExists h then 0
    else if r = 0 then (if (s.port h).disable then 1 else 0)
    else if r = 8 then s.portStatus h
    else (s.port h).counters.toList.getD ((r - 0x10) / 8) 0
  else if 0x40000 ≤ off ∧ off < 0x80000 then
    let j := (off - 0x40000) / 8 * 2
    (SMap.find b.direct (j + 1)).getD 0 ++ (SMap.find b.direct j).getD 0
  else 0

/-- Replace one entry of a table whose entries read as zero where they are not listed. -/
def putEntry {w : Nat} (t : SMap (BitVec w)) (i : Nat) (v : BitVec w) : SMap (BitVec w) :=
  if v = 0 then SMap.del t i else SMap.put t i v

/-- Write a register of the fabric block of a die; reserved bits and offsets ignore writes. -/
def State.fabWriteReg (s : State) (d off : Nat) (v : BitVec 64) : State :=
  let b := s.fabBlock d
  if off = 0 then s.writeFabEp v
  else if off = 8 then s.setFabBlock d { b with directHi := v.setWidth 4, routesValid := v.getLsbD 8 }
  else if 0x100 ≤ off ∧ off < 0x500 then
    let n := (off - 0x100) / 16
    let g := b.groups.getD n 0
    let g1 : BitVec 72 := if off % 16 = 0 then g.extractLsb' 64 8 ++ v
      else if off % 16 = 8 then v.setWidth 8 ++ (g.setWidth 64 : BitVec 64) else g
    s.setFabBlock d { b with groups := setAt b.groups n g1 }
  else if 0x1000 ≤ off ∧ off < 0x1800 then
    s.setFabBlock d { b with prefixes := putEntry b.prefixes ((off - 0x1000) / 8) (v &&& 0x01FFFFFF00007FFF) }
  else if 0x2000 ≤ off ∧ off < 0x2900 then
    let o := (off - 0x2000) % 0x100
    let h := 2 * (9 * d + (off - 0x2000) / 0x100) + o / 0x80
    if o % 0x80 = 0 ∧ s.halfExists h then s.portCtl h v else s
  else if 0x40000 ≤ off ∧ off < 0x80000 then
    let j := (off - 0x40000) / 8 * 2
    s.setFabBlock d { b with
      direct := putEntry (putEntry b.direct j (v.setWidth 32 &&& 0x7FFF)) (j + 1) (v.extractLsb' 32 32 &&& 0x7FFF) }
  else s

/-! ## Rows of waiting packets and time -/

/-- A packet that has waited 1 ms is dropped. -/
def execRouteWaitExpiry (k : Nat) (s : State) : Host.Outcome State Fault Refusal :=
  .next (match s.fabric.waiting[k]? with
    | some w =>
      { s with fabric := { s.fabric with waiting := s.fabric.waiting.eraseIdx k } }.drop w.src cntDropDown
    | none => s)

/-- The two-way exchange of time, every 50 frames: each linked port sends its stratum, its root and the time (R282). -/
def State.sendTimes (s : State) : State :=
  if s.power.frame.toNat % 50 ≠ 0 then s
  else
    ((List.range 72).filter fun h => s.halfExists h && (s.port h).linked).foldl (fun a h =>
      a.sendControl h 2 [s.fabric.stratum.toNat, s.fabric.root.toNat, s.power.frame.toNat]) s

/-- The frame length is corrected by at most 4 `ACLK` cycles of 5 ns in a frame (R282); within ±25 ns of the parent the
module is aligned (R283). -/
def State.correctFrame (s : State) : State :=
  if s.fabric.source ≠ 2 then s
  else
    let r := s.fabric.residual
    let left := r - 20 * max (-4) (min 4 (Int.tdiv r 20))
    { s with fabric := { s.fabric with residual := left, locked := decide (left.natAbs ≤ 100) } }

/-- A time flit of an Active port. -/
def execTimeFlit (pid : Nat) (i : TimeInfo) (s : State) : Host.Outcome State Fault Refusal :=
  onPort pid s fun _ k =>
    if k.linked then
      { s with fabric := { s.fabric with peers := SMap.put s.fabric.peers pid i } }.retime
    else s

end Sys2Proof.Machine
end

