-- ==== Sys2Proof/Machine/Plan.lean ====
section
/-! DEFINITION. Member tables, collective packets and the algorithms of collective operations as
plans: the additions, sends, receipts and deliveries of one member (R290 to R321). -/

namespace Sys2Proof.Machine

/-! ## Member tables (R293) -/

/-- An entry of a member table. -/
structure Member where
  ep : BitVec 20
  part : Nat
  ctx : Nat
  pgen : BitVec 8
  cgen : BitVec 8
  /-- By tree: the parent field and the I/O die of the stage. -/
  trees : List (Nat × Nat)
  /-- Every reserved bit is zero. -/
  clean : Bool
deriving DecidableEq, Repr

/-- The parent value of a root. -/
def rootParent : Nat := 0x1FFFFF

def Member.parse (trees : Nat) (l : List Byte) : Member :=
  let a := gatherDesc l 0 4
  let t := fun i => gatherDesc l (8 + 4 * i) 4
  { ep := BitVec.ofNat 20 a, part := a / 2 ^ 20 % 16, ctx := a / 2 ^ 24 % 16
    pgen := BitVec.ofNat 8 (gatherDesc l 4 1), cgen := BitVec.ofNat 8 (gatherDesc l 5 1)
    trees := (List.range trees).map fun i => (t i % 2 ^ 21, t i / 2 ^ 21 % 4)
    clean := a / 2 ^ 28 == 0 && gatherDesc l 6 2 == 0 && gatherDesc l 0x18 8 == 0
      && (List.range trees).all (fun i => t i / 2 ^ 23 == 0)
      && (List.range 4).all fun i => decide (i < trees) || t i == 0 }

/-- Entry `i` of the table at a context-virtual address. -/
def State.tableEntry (s : State) (p c : Nat) (table trees i : Nat) : Option Member :=
  (s.vread p c (table + 32 * i) 32).map (Member.parse trees)

def State.member (s : State) (k : Comm) (i : Nat) : Option Member :=
  s.tableEntry k.part k.ctx k.table.toNat k.trees i

/-- The member index that a packet's source names. -/
def State.senderOf (s : State) (k : Comm) (p : Packet) : Option Nat :=
  (List.range k.n).find? fun i =>
    match s.member k i with
    | some m => m.ep == p.srcEp && m.part == p.srcPart.toNat && m.ctx == p.srcCtx.toNat
    | none => false

/-- The members from one up to the root of a tree, `fuel` at most. -/
def State.ancestors (s : State) (k : Comm) (t : Nat) : Nat → Nat → List Nat
  | 0, i => [i]
  | fuel + 1, i =>
    match s.member k i with
    | some m =>
      let p := (m.trees.getD t (rootParent, 0)).1
      if p = rootParent then [i] else i :: s.ancestors k t fuel p
    | none => [i]

def State.treeRoot (s : State) (k : Comm) (t : Nat) : Nat :=
  ((s.ancestors k t k.n k.rank).getLast?).getD 0

/-! ## Packets (R308, R309) -/

def ptChdr : Nat := 0x01
def ptCdata : Nat := 0x02
def ptCredit : Nat := 0x03
def ptClaim : Nat := 0x04
def ptGo : Nat := 0x05
def ptFallbkUp : Nat := 0x06
def ptFallbkDn : Nat := 0x07
def ptCounts : Nat := 0x08
def ptBarUp : Nat := 0x09
def ptBarDn : Nat := 0x0A
def ptBeaconUp : Nat := 0x0B
def ptBeaconDn : Nat := 0x0C

/-- The fields of `OBJ`. -/
structure Obj where
  key : Nat
  seq : Nat
  arg : Nat
  pkt : Nat
  tree : Nat
  phase : Bool
  done : Bool
deriving DecidableEq, Repr

def Obj.of (o : BitVec 64) : Obj :=
  { key := (o.extractLsb' 0 20).toNat, seq := (o.extractLsb' 20 16).toNat, arg := (o.extractLsb' 36 20).toNat
    pkt := (o.extractLsb' 56 4).toNat, tree := (o.extractLsb' 60 2).toNat, phase := o.getLsbD 62, done := o.getLsbD 63 }

def Obj.bits (o : Obj) : BitVec 64 :=
  BitVec.ofNat 64 (o.key % 2 ^ 20 + o.seq % 2 ^ 16 * 2 ^ 20 + o.arg % 2 ^ 20 * 2 ^ 36 + o.pkt % 16 * 2 ^ 56
    + o.tree % 4 * 2 ^ 60 + (if o.phase then 2 ^ 62 else 0) + if o.done then 2 ^ 63 else 0)

/-- A packet's fields and length agree with its type (R308, R309). -/
def wellFormed (p : Packet) : Bool :=
  let t := p.ptype.toNat
  let o := Obj.of p.obj
  let n := p.payload.length
  let l := p.payload
  (t == ptCredit || !o.done) && (t == ptCdata || o.pkt == 0)
    && (if t = ptChdr then
        n == 64 && decide (gatherDesc l 2 1 ≤ 2 ∧ gatherDesc l 3 1 < 4) && (l.drop 0x14).all (· == 0)
          && (if gatherDesc l 2 1 = 1 then decide (gatherDesc l 8 8 < 2 ^ 61)
            else if gatherDesc l 2 1 = 2 then decide (gatherDesc l 8 8 < 2 ^ 32) else gatherDesc l 8 8 == 0)
      else if t = ptCdata then decide (1 ≤ n ∧ n ≤ 4096 ∧ 1 ≤ o.pkt ∧ o.pkt ≤ 8)
      else if t = ptCredit ∨ t = ptBarDn then true
      else if t = ptCounts then n == 8
      else if t ∈ [ptClaim, ptGo, ptFallbkUp, ptFallbkDn, ptBarUp] then o.arg == 0
      else decide (t = ptBeaconUp ∨ t = ptBeaconDn) && o.arg == 0 && decide (8 ≤ n))

/-! ## Cutting into chunks -/

/-- The pieces of a range, each with its first element and its length. -/
def cuts (lo hi e : Nat) : List (Nat × Nat) :=
  (List.range (divUp (hi - lo) e)).map fun i => (lo + i * e, min e (hi - lo - i * e))

/-- What the endpoint algorithms need of an operation. -/
structure Shape where
  n : Nat
  r : Nat
  /-- Elements of a segment, all elements, elements per chunk, and where the source begins. -/
  seg : Nat
  count : Nat
  e : Nat
  src : Nat
deriving DecidableEq, Repr

/-- The pieces of segment `j` (R319). -/
def Shape.units (h : Shape) (j : Nat) : List (Nat × Nat) :=
  cuts (j * h.seg) (min ((j + 1) * h.seg) h.count) h.e

/-- The pieces of several segments, each with its index in the flow that carries them. -/
def Shape.flow (h : Shape) (segs : List Nat) : List (Nat × Nat × Nat) :=
  let l := segs.flatMap h.units
  (List.range l.length).map fun i => (i, l.getD i (0, 0))

def Shape.own (h : Shape) (u : Nat × Nat) : Ref := .own (u.1 - h.src) u.2

def Plan.none : Plan := { adds := [], sends := [], recvs := [], dlvs := [] }

def Plan.join (a b : Plan) : Plan :=
  { adds := a.adds ++ b.adds, sends := a.sends ++ b.sends, recvs := a.recvs ++ b.recvs, dlvs := a.dlvs ++ b.dlvs }

/-! ## Ring (R320) -/

def succKey (h : Shape) (phase : Bool) : FlowKey := { peer := (h.r + 1) % h.n, tree := 0, phase }

def predKey (h : Shape) (phase : Bool) : FlowKey := { peer := (h.r + h.n - 1) % h.n, tree := 0, phase }

/-- Segments that member `r` sends, and those that it receives, in the reduce phase. -/
def Shape.ringSent (h : Shape) : List Nat := (List.range (h.n - 1)).map fun i => (h.r + h.n - 1 - i) % h.n

def Shape.ringGot (h : Shape) : List Nat := (List.range (h.n - 1)).map fun i => (h.r + 2 * h.n - 2 - i) % h.n

/-- The reduce phase. A partial sum is named by its first element: each segment is summed once. -/
def ringReduce (h : Shape) : Plan :=
  let first := (h.units ((h.r + h.n - 1) % h.n)).length
  { adds := (h.flow h.ringGot).map fun x =>
      { out := .sum 1 x.2.1, ins := [.rx (predKey h false) x.1, h.own x.2], pos := x.2.1, tree := 0 }
    sends := (h.flow h.ringSent).map fun x =>
      { key := succKey h false, chunk := x.1, val := if x.1 < first then h.own x.2 else .sum 1 x.2.1 }
    recvs := (h.flow h.ringGot).map fun x => (predKey h false, x.1)
    dlvs := [] }

/-- The gather phase: each member's own pieces, then what it received. -/
def ringGather (h : Shape) (full : Nat × Nat → Ref) : Plan :=
  let sent := (List.range (h.n - 1)).map fun i => (h.r + h.n - i) % h.n
  let got := (List.range (h.n - 1)).map fun i => (h.r + h.n - 1 - i) % h.n
  let mine := (h.units h.r).length
  { adds := []
    sends := (h.flow sent).map fun x =>
      { key := succKey h true, chunk := x.1
        val := if x.1 < mine then full x.2 else .rx (predKey h true) (x.1 - mine) }
    recvs := (h.flow got).map fun x => (predKey h true, x.1)
    dlvs := (h.flow got).map fun x => { val := .rx (predKey h true) x.1, pos := x.2.1 } }

/-! ## Recursive halving (R321) -/

/-- A piece after `k` steps. -/
def Shape.halved (h : Shape) (k : Nat) (u : Nat × Nat) : Ref := if k = 0 then h.own u else .sum k u.1

/-- Step `k` of the reduce phase. -/
def halvingStep (h : Shape) (k : Nat) : Plan :=
  let d := h.n / 2 ^ k
  let p := h.r ^^^ d
  let base := h.r - h.r % (2 * d)
  let keep := base + h.r / d % 2 * d
  let give := base + (1 - h.r / d % 2) * d
  let key : FlowKey := { peer := p, tree := 0, phase := false }
  let kept := h.flow ((List.range d).map (keep + ·))
  { adds := kept.map fun x =>
      { out := .sum k x.2.1
        ins := if h.r < p then [h.halved (k - 1) x.2, .rx key x.1] else [.rx key x.1, h.halved (k - 1) x.2]
        pos := x.2.1, tree := 0 }
    sends := (h.flow ((List.range d).map (give + ·))).map fun x =>
      { key, chunk := x.1, val := h.halved (k - 1) x.2 }
    recvs := kept.map fun x => (key, x.1)
    dlvs := [] }

/-- Steps 1 to m of the reduce phase. -/
def halvingReduce (h : Shape) : Plan :=
  ((List.range (Nat.log2 h.n)).map fun i => halvingStep h (i + 1)).foldl Plan.join Plan.none

/-- A piece of segment `j` as this member holds it in the gather phase. -/
def Shape.gathered (h : Shape) (full : Nat × Nat → Ref) (j : Nat) (u : Nat × Nat) : Ref :=
  if j = h.r then full u
  else
    let d := 2 ^ Nat.log2 (j ^^^ h.r)
    let p := h.r ^^^ d
    let segs := (List.range d).map (p - p % d + ·)
    match (h.flow segs).find? fun x => x.2 == u with
    | some x => .rx { peer := p, tree := 0, phase := true } x.1
    | none => full u

/-- Step `k` of the gather phase. -/
def halvingBack (h : Shape) (full : Nat × Nat → Ref) (k : Nat) : Plan :=
  let d := h.n / 2 ^ k
  let p := h.r ^^^ d
  let key : FlowKey := { peer := p, tree := 0, phase := true }
  let mine := (List.range d).map (h.r - h.r % d + ·)
  let refs := mine.flatMap fun j => (h.units j).map (h.gathered full j)
  let got := h.flow ((List.range d).map (p - p % d + ·))
  { adds := []
    sends := (List.range refs.length).map fun i => { key, chunk := i, val := refs.getD i (.own 0 0) }
    recvs := got.map fun x => (key, x.1)
    dlvs := got.map fun x => { val := .rx key x.1, pos := x.2.1 } }

def halvingGather (h : Shape) (full : Nat × Nat → Ref) : Plan :=
  ((List.range (Nat.log2 h.n)).map fun i => halvingBack h full (Nat.log2 h.n - i)).foldl Plan.join Plan.none

/-! ## The endpoint algorithm (R316, R319) -/

/-- Each full segment goes to the root. -/
def collectAtRoot (h : Shape) (full : Nat × Nat → Ref) (root : Nat) : Plan :=
  if h.r ≠ root then
    { Plan.none with sends := (h.flow [h.r]).map fun x =>
        { key := { peer := root, tree := 0, phase := true }, chunk := x.1, val := full x.2 } }
  else
    let others := (List.range h.n).filter (· != root)
    { Plan.none with
      recvs := others.flatMap fun j => (h.flow [j]).map fun x => ({ peer := j, tree := 0, phase := true }, x.1)
      dlvs := (h.units h.r).map (fun u => { val := full u, pos := u.1 })
        ++ others.flatMap fun j => (h.flow [j]).map fun x =>
          { val := .rx { peer := j, tree := 0, phase := true } x.1, pos := x.2.1 } }

def endpointPlan (d : Desc) (wide : Bool) (n r : Nat) : Plan :=
  let c := d.count.toNat
  let h : Shape := { n, r, seg := if d.op = 3 then c / n else divUp c n, count := c
                     e := chunkElems d wide, src := 0 }
  let pow := isPow2 n
  let full := fun u : Nat × Nat =>
    if pow then h.halved (Nat.log2 n) u else .sum 1 u.1
  let red := if pow then halvingReduce h else ringReduce h
  let mine : Plan := { Plan.none with dlvs := (h.units r).map fun u => { val := full u, pos := u.1 } }
  red.join
    (if d.op = 2 then collectAtRoot h full d.root.toNat
    else if d.op = 3 then mine
    else mine.join (if pow then halvingGather h full else ringGather h full))

/-! ## The pan path (R317) -/

/-- Members other than `r` whose segment of a reduce-scatter a piece overlaps. -/
def overlapped (seg n : Nat) (u : Nat × Nat) : List Nat :=
  (List.range n).filter fun j => decide (max u.1 (j * seg) < min (u.1 + u.2) ((j + 1) * seg))

/-- One chunk on its tree: `up` is the parent, `kids` the children, `top` the tree's root. -/
def panChunk (d : Desc) (n r t top : Nat) (up : Option Nat) (kids : List Nat) (ci : Nat) (u : Nat × Nat) : Plan :=
  let key := fun (p : Nat) (ph : Bool) => ({ peer := p, tree := t, phase := ph } : FlowKey)
  let sum : Ref := .sum 0 ci
  let adds : List AddTask :=
    [{ out := sum, ins := Ref.own u.1 u.2 :: kids.map fun k => .rx (key k false) ci, pos := u.1, tree := t }]
  let rise : List SendTask := match up with
    | some p => [{ key := key p false, chunk := ci, val := sum }]
    | none => []
  let fromKids := kids.map fun k => (key k false, ci)
  let dests := if d.op = 2 then [d.root.toNat] else overlapped (d.count.toNat / n) n u
  if d.op = 1 then
    let full : Ref := match up with
      | some p => .rx (key p true) ci
      | none => sum
    { adds, sends := rise ++ kids.map fun k => { key := key k true, chunk := ci, val := full }
      recvs := fromKids ++ (match up with | some p => [(key p true, ci)] | none => [])
      dlvs := [{ val := full, pos := u.1 }] }
  else
    match up with
    | none =>
      { adds, sends := (dests.filter (· != r)).map fun j => { key := key j true, chunk := ci, val := sum }
        recvs := fromKids, dlvs := if dests.contains r then [{ val := sum, pos := u.1 }] else [] }
    | some _ =>
      { adds, sends := rise, recvs := fromKids ++ (if dests.contains r then [(key top true, ci)] else [])
        dlvs := if dests.contains r then [{ val := .rx (key top true) ci, pos := u.1 }] else [] }

def State.panPlan (s : State) (k : Comm) (d : Desc) (wide : Bool) : Plan :=
  let l := cuts 0 d.count.toNat (chunkElems d wide)
  let tops := (List.range k.trees).map (s.treeRoot k)
  ((List.range l.length).map fun ci =>
    let t := ci % k.trees
    panChunk d k.n k.rank t (tops.getD t 0) (k.parents.getD t none) (k.children.getD t []) ci
      (l.getD ci (0, 0))).foldl Plan.join Plan.none

/-! ## Operations that do not reduce (R316, R318) -/

/-- The chunks of a transfer from source byte `src`, to peer `p`. -/
def sendBlock (p src n : Nat) : List SendTask :=
  let l := cuts src (src + n) 32768
  (List.range l.length).map fun i =>
    let u := l.getD i (0, 0)
    { key := { peer := p, tree := 0, phase := false }, chunk := i, val := .own u.1 u.2 }

/-- The chunks of a transfer from peer `p` to destination byte `pos`. -/
def recvBlock (p pos n : Nat) : List (FlowKey × Nat) × List DlvTask :=
  let k : FlowKey := { peer := p, tree := 0, phase := false }
  let l := cuts pos (pos + n) 32768
  ((List.range l.length).map (fun i => (k, i)),
    (List.range l.length).map fun i => { val := .rx k i, pos := (l.getD i (0, 0)).1 })

/-- A local copy. -/
def copyBlock (src pos n : Nat) : List DlvTask :=
  (cuts 0 n 32768).map fun u => { val := .own (src + u.1) u.2, pos := pos + u.1 }

/-- Peers in the order of sending and in the order of granting. -/
def sendOrder (n r : Nat) : List Nat := (List.range (n - 1)).map fun i => (r + 1 + i) % n

def grantOrder (n r : Nat) : List Nat := (List.range (n - 1)).map fun i => (r + n - 1 - i) % n

def allToAllPlan (d : Desc) (n r : Nat) : Plan :=
  let b := d.blk
  { adds := [], sends := (sendOrder n r).flatMap fun j => sendBlock j (j * b) b
    recvs := (grantOrder n r).flatMap fun j => (recvBlock j (j * b) b).1
    dlvs := copyBlock (r * b) (r * b) b ++ (grantOrder n r).flatMap fun j => (recvBlock j (j * b) b).2 }

def allGatherPlan (d : Desc) (n r : Nat) : Plan :=
  let h : Shape := { n, r, seg := d.blk, count := n * d.blk, e := 32768, src := r * d.blk }
  { Plan.none with dlvs := (h.units r).map fun u => { val := h.own u, pos := u.1 } }.join (ringGather h h.own)

/-- Broadcast from the root directly, or along tree 0 from neighbour to neighbour. -/
def State.broadcastPlan (s : State) (k : Comm) (d : Desc) : Plan :=
  let root := d.root.toNat
  let near := (match k.parents.getD 0 none with | some p => [p] | none => []) ++ k.children.getD 0 []
  let up := if k.rank = root then none
    else if k.trees = 0 then some root
    else
      let anc := s.ancestors k 0 k.n root
      match anc.idxOf? k.rank with
      | some i => anc[i - 1]?
      | none => k.parents.getD 0 none
  let next := (if k.trees = 0 then (if k.rank = root then (List.range k.n).filter (· != root) else []) else near).filter
    fun j => some j != up
  match up with
  | none => { Plan.none with sends := next.flatMap fun j => sendBlock j 0 d.blk, dlvs := copyBlock 0 0 d.blk }
  | some p =>
    let r := recvBlock p 0 d.blk
    { adds := [], recvs := r.1, dlvs := r.2
      sends := next.flatMap fun j => (sendBlock j 0 d.blk).map fun t =>
        { t with val := .rx { peer := p, tree := 0, phase := false } t.chunk } }

/-! ## V-variants (R324, R325) -/

/-- Members to which a member sends a count, and members from which it expects one. -/
def countTo (d : Desc) (n r : Nat) : List Nat :=
  if d.op = 8 then r :: sendOrder n r
  else if d.op = 9 then [d.root.toNat]
  else if r = d.root.toNat then r :: sendOrder n r else []

def countFrom (d : Desc) (n r : Nat) : List Nat :=
  if d.op = 8 then r :: grantOrder n r
  else if d.op = 9 then (if r = d.root.toNat then r :: grantOrder n r else [])
  else [d.root.toNat]

/-- The data that a member sends, from its send counts. -/
def vSends (d : Desc) (n r : Nat) (send : List Nat) : List SendTask :=
  (sendOrder n r).flatMap fun j =>
    sendBlock j (bytesOf d.dtype.toNat (send.take j).sum) (bytesOf d.dtype.toNat (send.getD j 0))

/-- The data that a member receives, once it holds every count: by member index, zero where none
is expected. -/
def vRecvs (d : Desc) (n r : Nat) (send : List Nat) (recv : Nat → Nat) : Plan :=
  let pos := fun j => bytesOf d.dtype.toNat ((List.range j).map recv).sum
  let len := fun j => bytesOf d.dtype.toNat (recv j)
  { adds := [], sends := []
    recvs := (grantOrder n r).flatMap fun j => (recvBlock j (pos j) (len j)).1
    dlvs := copyBlock (bytesOf d.dtype.toNat (send.take r).sum) (pos r) (len r)
      ++ (grantOrder n r).flatMap fun j => (recvBlock j (pos j) (len j)).2 }

end Sys2Proof.Machine
end

