-- ==== Sys2Proof/Machine/CollRun.lean ====
section
/-! DEFINITION. The collective engine of one member: conversion, addition, checks, chunks under
credits, deliveries, the claim of pan slots, barriers, counts, and the end of an operation
(R295 to R327). -/

namespace Sys2Proof.Machine

/-! ## Checks (R310, R311) -/

def q61 : Nat := 2 ^ 61 - 1

/-- The linear check of Brine words. -/
def brineCheck (ws : List Word) : Nat :=
  (ws.foldl (fun (a : Nat × Nat) w =>
    ((a.1 + (w.toInt % (q61 : Int)).toNat * a.2) % q61, a.2 * 3 % q61)) (0, 1)).1

/-- One bit of a reflected CRC-32C. -/
def crcBit (c : BitVec 32) : BitVec 32 := if c.getLsbD 0 then (c >>> 1) ^^^ 0x82F63B78 else c >>> 1

/-- CRC-32C of bytes. -/
def crc32c (l : List Word) : Nat :=
  (~~~(l.foldl (fun c b => (List.range 8).foldl (fun c _ => crcBit c) (c ^^^ (b.setWidth 8).setWidth 32))
    (0xFFFFFFFF : BitVec 32))).toNat

/-! ## Communicators and operations -/

def State.comm (s : State) (h : Nat) : Option Comm := s.coll.comms.find? fun k => k.handle == h

def State.setComm (s : State) (k : Comm) : State :=
  { s with coll := { s.coll with comms := s.coll.comms.map fun x => if x.handle = k.handle then k else x } }

def State.setOp (s : State) (k : Comm) (o : CollOp) : State := s.setComm { k with op := some o }

/-- Act on the running operation of a communicator; nothing without one. -/
def State.withOp (s : State) (h : Nat) (f : Comm → CollOp → State) : State :=
  match s.comm h with
  | some k => match k.op with
    | some o => f k o
    | none => s
  | none => s

/-- The batch of a communicator. -/
def State.batchOf (s : State) (h : Nat) : Option Batch := s.coll.batches.find? fun b => b.handle == h

def State.setBatch (s : State) (b : Batch) : State :=
  { s with coll := { s.coll with batches := s.coll.batches.map fun x => if x.handle = b.handle then b else x } }

/-- `OBJECT` of the collective events (R468). -/
def Comm.object (k : Comm) : BitVec 32 := BitVec.ofNat 32 (k.handle + k.part * 2 ^ 12 + k.ctx * 2 ^ 16)

/-- Log an event of the running operation. -/
def State.collLog (s : State) (k : Comm) (ev : BitVec 16) : State :=
  s.log ev srcLink k.object (k.opSeq.setWidth 32)

/-! ## Sending -/

/-- The I/O die of a packet of this member: its stage's on a tree, else by chunk (R291). -/
def Comm.die (k : Comm) (o : Obj) (pan : Bool) : Nat :=
  if pan then k.stages.getD o.tree 0 else o.arg % 4

/-- Send a packet to a member (R272, R293, R308). -/
def State.collSend (s : State) (k : Comm) (pan : Bool) (dst t : Nat) (o : Obj) (payload : List Byte) : State :=
  match s.member k dst with
  | some m =>
    let d := k.die o pan
    s.routePacket d none
      { ptype := BitVec.ofNat 5 t, dstEp := m.ep, srcEp := (s.fabBlock d).ep, hops := 63
        dstPart := BitVec.ofNat 4 m.part, dstCtx := BitVec.ofNat 4 m.ctx, dstPgen := m.pgen, dstCgen := m.cgen
        srcPart := BitVec.ofNat 4 k.part, srcCtx := BitVec.ofNat 4 k.ctx
        srcPgen := (s.part k.part).pgen, srcCgen := (s.ctx k.part k.ctx).cgen
        obj := o.bits, payload }
  | none => s

/-- `OBJ` of a control packet of the running operation. -/
def Comm.obj (k : Comm) : Obj :=
  { key := k.key.toNat, seq := k.opSeq.toNat, arg := 0, pkt := 0, tree := 0, phase := false, done := false }

/-- A control packet without fields. -/
def State.collNote (s : State) (k : Comm) (dst t : Nat) : State :=
  s.collSend k (decide (k.trees ≠ 0)) dst t k.obj []

def State.collCredit (s : State) (k : Comm) (o : CollOp) (f : FlowKey) (n : Nat) (done : Bool) : State :=
  s.collSend k (o.path == .pan) f.peer ptCredit
    { k.obj with arg := n, tree := f.tree, phase := f.phase, done } []

/-! ## The end of an operation (R295, R298, R322, R327, R333) -/

/-- Statuses that complete the exchange and leave the communicator Ready. -/
def keepsReady (status : Nat) : Bool :=
  status == stDone || status == stDegraded || status == stCheckFail || status == stWindowMismatch

/-- Fixed mode was suspended while the command of a slot ran (R377). -/
def State.brokenIn (s : State) (slot : Nat) : Bool := s.mail.taken.any fun t => t.slot == slot && t.fixedBroken

/-- A batch is held at a resumable point: its carrier completes with `SUSPENDED`, then the
`SUSPEND` with `DONE` (R221). -/
def State.holdBatch (s : State) (b : Batch) : State :=
  let broken := b.fixedBroken || s.brokenIn b.slot
  (((s.completeSlot b.slot { Report.of stSuspended with r0 := b.ended }).setBatch
    { b with held := true, stop := none, fixedBroken := broken }).endStop b.stop stDone).settleResidency b.part

/-- A batch ends with a status; `idx` is its `RESULT1`. -/
def State.endBatch (s : State) (b : Batch) (status idx stopStatus : Nat) : State :=
  (((s.completeSlot b.slot (b.report status idx)).dropBatch b.slot).endStop b.stop stopStatus).settleResidency b.part

/-- A batch moves past an operation that ended: it completes, is held, or waits for its next
start. An operation that a stop cancelled ends the batch as the stop asks. -/
def State.batchAfter (s : State) (b : Batch) (status : Nat) (ovf fell : Bool) : State :=
  let b1 : Batch := { b with ended := b.ended + 1, ovf := b.ovf || ovf, fell := b.fell + if fell then 1 else 0 }
  let good := status == stDone || status == stDegraded
  if status = stCancelled then
    if cancelled b.stop then s.endBatch b1 stCancelled b.idx stDone else s.holdBatch b1
  else if good && decide (b.idx + 1 < b.count) then s.setBatch { b1 with idx := b.idx + 1 }
  else
    s.endBatch b1 (if good then (if b1.fell ≠ 0 then stDegraded else stDone) else status)
      (if good then b.count else b.idx) stWrongState

/-- The running operation ends with a status: pan slots and gather-feed pieces are released and
its `STATUS` word is written. -/
def State.endOp (s : State) (h status : Nat) : State :=
  s.withOp h fun k o =>
    let c1 := (s.coll.freePans o.pans).unqueue h
    let s1 := { s with coll := c1, mem := s.mem.dropFeed h }.setComm
      { k with op := none, broken := k.broken || !keepsReady status }
    match s1.batchOf h with
    | none => s1
    | some b =>
      let w := status + (if o.ovf then 2 ^ 8 else 0) + if o.fellBack then 2 ^ 9 else 0
      let s2 := (s1.vwrite k.part k.ctx (b.desc.toNat + 64 * b.idx + 0x0C) (leBytes 4 w)).getD s1
      s2.batchAfter b status o.ovf o.fellBack

/-! ## Values: conversion and addition (R146, R147, R153, R310 to R315) -/

/-- The value that an element's bits denote. -/
def elemVal (et w : Nat) : FVal :=
  match etFormat et with
  | some f => f.decode w
  | none => FVal.ofInteger (signed (etWidth et) w)

/-- A floating-point element as the FP32 word of the same value (R315): a zero keeps its sign, an FP32 word its bits. -/
def exactFp32 (et w : Nat) : Nat := if et = etFP32 then w else (fp32.arith (elemVal et w)).1

/-- A chunk from source elements; none on a translation fault. -/
def State.convert (s : State) (k : Comm) (o : CollOp) (off n : Nat) : Option Chunk :=
  let d := o.desc
  let et := d.dtype.toNat
  if !d.reducing then
    (s.vread k.part k.ctx (d.src.toNat + off) n).map fun l =>
      let ws := l.map (BitVec.setWidth 64)
      { win := 0, ovf := false, mismatch := false, words := ws, check := crc32c ws }
  else
    let b := memBits et / 8
    (s.vread k.part k.ctx (d.src.toNat + off * b) (n * b)).map fun l =>
      let xs := (List.range n).map fun i => gatherDesc l (i * b) b
      if o.wide then
        { win := 0, ovf := false, mismatch := false, check := 0
          words := xs.map fun x => BitVec.ofNat 64 (exactFp32 et x) }
      else
        let cs := xs.map fun x =>
          if et = etBrine then ((BitVec.ofNat 64 x).toInt, false) else contribution d.win.toInt (elemVal et x)
        let ws := cs.map fun c => BitVec.ofInt 64 c.1
        { win := d.win, ovf := cs.any Prod.snd, mismatch := false, words := ws, check := brineCheck ws }

/-- Lines of a block's memory that a collective engine reads or writes (R338). -/
def engineEvents (write : Bool) (p : Piece) : List Ev :=
  match State.blockAt p.pa with
  | none => []
  | some b => pieceEvents b (16 * 128) write p ++ (if p.len = 0 then [] else
      [{ code := if write then 0x51 else 0x52, n := (p.va + p.len - 1) / 64 - p.va / 64 + 1, addr := some p.va
         block := some b }])

/-- A chunk written into blocks. -/
def chunkEvents (ps : List Piece) : List Ev :=
  (ps.filterMap fun p => State.blockAt p.pa).eraseDups.map fun b => { code := 0x50, n := 1, addr := none, block := some b }

/-- The pieces of the source that a value takes. -/
def State.sourcePieces (s : State) (k : Comm) (o : CollOp) : Ref → List Piece
  | .own off n =>
    let b := if o.desc.reducing then memBits o.desc.dtype.toNat / 8 else 1
    (s.vpieces k.part k.ctx .load (o.desc.src.toNat + off * b) (n * b)).1
  | _ => []

/-- Reads of the source that values take: snoops of lines that the host holds, and their events. -/
def State.readSource (s u : State) (k : Comm) (o : CollOp) (rs : List Ref) (evs : List Ev) : State :=
  let ps := rs.flatMap (s.sourcePieces k o)
  (u.recallPieces ps).countEngine (ps.flatMap (engineEvents false) ++ evs)

/-- A value is at hand. -/
def CollOp.has (o : CollOp) : Ref → Bool
  | .own _ _ => true
  | r => o.vals.any fun x => x.1 == r

def State.valOf (s : State) (k : Comm) (o : CollOp) : Ref → Option Chunk
  | .own off n => s.convert k o off n
  | r => (o.vals.find? fun x => x.1 == r).map (·.2)

/-- `n` free words. -/
def State.freeWords (s : State) (n : Nat) : List Word × State :=
  ((List.range n).map fun i => BitVec.ofNat 64 (Config.freeNat (s.freeCtr + i)), { s with freeCtr := s.freeCtr + n })

/-- FP32 addition, minimum or maximum by `ROP`. -/
def wideAdd (rop a b : Nat) : Nat :=
  if rop = 1 then (fp32.minMax false a b).1 else if rop = 2 then (fp32.minMax true a b).1 else (fp32.add a b).1

/-- Add two chunks in a mode; words of mismatched windows are free. -/
def State.addChunks (s : State) (wide : Bool) (rop : Nat) (a b : Chunk) : Chunk × State :=
  if wide then
    ({ a with words := List.zipWith (fun x y => BitVec.ofNat 64 (wideAdd rop x.toNat y.toNat)) a.words b.words }, s)
  else if a.mismatch || b.mismatch || a.win != b.win then
    let f := s.freeWords (a.words.length + 2)
    ({ win := if (f.1.getD 0 0).getLsbD 0 then b.win else a.win, ovf := a.ovf || b.ovf, mismatch := true
       words := f.1.drop 2, check := (f.1.getD 1 0).toNat % 2 ^ 61 }, f.2)
  else
    let rs := List.zipWith brineAdd a.words b.words
    ({ win := a.win, ovf := a.ovf || b.ovf || rs.any Prod.snd, mismatch := false, words := rs.map Prod.fst
       check := (a.check + b.check) % q61 }, s)

/-- The buffers of an operation but the one numbered (R300): an overlap with them leaves unspecified data. All-reduce
and reduce allow the source to be the destination. -/
def State.otherBuffers (s : State) (k : Comm) (o : CollOp) (which : Nat) : List Piece :=
  let d := o.desc
  let l := (d.buffers o.wide k.n k.rank o.sendCounts).take 4
  let same := (d.op = 1 ∨ d.op = 2) ∧ d.src = d.dst
  ((List.range 4).filter fun i => i != which && !(decide same && ((i == 0 && which == 1) || (i == 1 && which == 0)))).flatMap
    fun i => let x := l.getD i (0, 0); (s.vpieces k.part k.ctx .load x.1 x.2).1

/-- Write bytes of a buffer; those that another buffer also holds are free. -/
def State.writeBuffer (s : State) (k : Comm) (o : CollOp) (which va : Nat) (l : List Byte) :
    Option (State × List Piece) :=
  match s.vpieces k.part k.ctx .store va l.length with
  | (ps, none) =>
    let others := s.otherBuffers k o which
    let f := s.freeWords l.length
    let l1 := ((pieceAddrs ps).zip (l.zip f.1)).map fun x =>
      if inPieces others x.1 then x.2.2.setWidth 8 else x.2.1
    some ((f.2.recallPieces ps).writePieces (s.tagOf k.part k.ctx) ps l1, ps)
  | _ => none

/-- Words of the endpoint algorithms lie in the scratch buffer, eight bytes an element; the upper half of an FP32 word is
free. A fault there ends the operation (R302, R303). -/
def State.toScratch (s : State) (k : Comm) (o : CollOp) (pos : Nat) (c : Chunk) : State :=
  if o.path ≠ .endpoint ∨ !o.desc.reducing then s
  else
    let f := s.freeWords (if o.wide then c.words.length else 0)
    let l := if o.wide then
        (List.zipWith (fun w u => leBytes 4 w.toNat ++ leBytes 4 u.toNat) c.words f.1).flatten
      else c.words.flatMap fun w => leBytes 8 w.toNat
    match f.2.writeBuffer k o 2 (o.desc.scratch.toNat + 8 * pos) l with
    | some r => r.1.countEngine (r.2.flatMap (engineEvents true))
    | none => f.2.endOp k.handle stBadField

/-- Make an addition whose inputs are at hand. -/
def State.doAdd (s : State) (h : Nat) (t : AddTask) : State :=
  s.withOp h fun k o =>
    if !t.ins.all o.has then s
    else
      match t.ins.mapM (s.valOf k o) with
      | none | some [] => s.endOp h stBadField
      | some (a :: rest) =>
        let r := rest.foldl (fun (x : Chunk × State) b => x.2.addChunks o.wide (o.desc.rmode.toNat / 4 % 4) x.1 b) (a, s)
        let o1 := { o with vals := o.vals ++ [(t.out, r.1)], plan := { o.plan with adds := o.plan.adds.erase t } }
        (s.readSource (r.2.setOp k o1) k o t.ins []).toScratch k o t.pos r.1

/-! ## Destinations (R312, R326, R327) -/

/-- An element of the destination from a word. -/
def crystal (d : Desc) (wide : Bool) (win : BitVec 16) (w : Word) : Nat :=
  let ot := d.otype.toNat
  if wide then
    match etFormat ot with
    | some f => (f.round d.sat (match fp32.decode w.toNat with
        | .fin _ 0 _ => FVal.ofInteger 0
        | v => v)).1
    | none => 0
  else if ot = etBrine then w.toNat
  else
    match etFormat ot with
    | some f => (f.round d.sat (brineVal win.toInt w)).1
    | none => 0

/-- Sub-ranges of 1 KiB pieces, with their lengths, of translated pieces. -/
def feedPieces (ps : List Piece) : List (Nat × Nat) :=
  ps.flatMap fun p => (List.range ((p.pa % 1024 + p.len + 1023) / 1024)).map fun i =>
    let b := (p.pa / 1024 + i) * 1024
    (p.pa / 1024 + i, min (p.pa + p.len) (b + 1024) - max p.pa b)

/-- Take an amount off an entry, dropping it at zero. -/
def takeOff (m : SMap Nat) (i n : Nat) : SMap Nat :=
  match SMap.find m i with
  | some v => if v ≤ n then SMap.del m i else SMap.put m i (v - n)
  | none => m

/-- Overlaps of a range with chunks of `e` elements: chunk and length. -/
def overlaps (lo hi e : Nat) : List (Nat × Nat) :=
  if hi ≤ lo then [] else
    (List.range (divUp hi e - lo / e)).map fun i =>
      (lo / e + i, min hi ((lo / e + i + 1) * e) - max lo ((lo / e + i) * e))

/-- Set the bit of a signal chunk; a word that another buffer also holds becomes free (R300), and a fault ends the
operation (R303). -/
def State.signalChunk (s : State) (k : Comm) (o : CollOp) (c : Nat) : State :=
  let va := o.desc.sigaddr.toNat + 8 * (c / 64)
  match s.vpieces k.part k.ctx .store va 8 with
  | (p :: _, none) =>
    let s1 := (s.setSignal (s.tagOf k.part k.ctx) p.pa (c % 64)).countAt p.pa 0x53
    if inPieces (s.otherBuffers k o 3) p.pa then
      match s1.writeBuffer k o 3 va (List.replicate 8 0) with
      | some r => r.1
      | none => s1
    else s1
  | _ => s.endOp k.handle stBadField

/-- Note what has been written, release gather-feed pieces and set signal bits. -/
def State.noteWritten (s : State) (h : Nat) (a b : Nat) (ps : List Piece) : State :=
  s.withOp h fun k o =>
    let sig := (overlaps a b (chunkElems o.desc o.wide)).foldl (fun m x => takeOff m x.1 x.2) o.sigLeft
    let feed := (feedPieces ps).foldl (fun m x => takeOff m x.1 x.2) o.feedLeft
    let fed := o.feedLeft.filter fun x => (SMap.find feed x.1).isNone
    let set := o.sigLeft.filter fun x => (SMap.find sig x.1).isNone
    let s1 := s.setOp k { o with sigLeft := sig, feedLeft := feed }
    let s2 := { s1 with mem := { s1.mem with feed := fed.foldl (fun m x => SMap.del m x.1) s1.mem.feed } }
    set.foldl (fun a x => a.signalChunk k o x.1) s2

/-- Deliver a value that is at hand (R312). -/
def State.doDlv (s : State) (h : Nat) (t : DlvTask) : State :=
  s.withOp h fun k o =>
    if !o.has t.val then s
    else
      match s.valOf k o t.val with
      | none => s.endOp h stBadField
      | some c =>
        let o1 := { o with plan := { o.plan with dlvs := o.plan.dlvs.erase t } }
        let bad := if o.desc.reducing then !o.wide && brineCheck c.words != c.check else crc32c c.words != c.check
        if c.mismatch then s.setOp k { o1 with mismatch := true }
        else if !c.ovf && bad then s.setOp k { o1 with checkFail := true }
        else
          let o2 := { o1 with ovf := o1.ovf || c.ovf }
          let dr := o.desc.dstRange k.n k.rank
          let a := max t.pos dr.1
          let b := min (t.pos + c.words.length) dr.2
          if b ≤ a then s.setOp k o2
          else
            let ws := (c.words.drop (a - t.pos)).take (b - a)
            let l := if o.desc.reducing then
                ws.flatMap fun w => leBytes o.desc.dstBytes (crystal o.desc o.wide c.win w)
              else ws.map (BitVec.setWidth 8)
            match (s.setOp k o2).writeBuffer k o 1 (o.desc.dst.toNat + (a - dr.1) * o.desc.dstBytes) l with
            | some r => (s.readSource r.1 k o [t.val] (chunkEvents r.2 ++ r.2.flatMap (engineEvents true))).noteWritten
                h a b r.2
            | none => s.endOp h stBadField

/-! ## Chunks on the wire (R307, R309, R318) -/

/-- The data bytes of a chunk. -/
def Chunk.bytes (c : Chunk) (o : CollOp) : List Byte :=
  c.words.flatMap fun w => leBytes (if !o.desc.reducing then 1 else if o.wide then 4 else 8) w.toNat

/-- The `CHDR` payload. -/
def Chunk.header (c : Chunk) (o : CollOp) (rank : Nat) : List Byte :=
  leBytes 2 c.win.toNat ++ leBytes 1 (if !o.desc.reducing then 2 else if o.wide then 0 else 1)
    ++ leBytes 1 ((if c.ovf then 1 else 0) + if c.mismatch then 2 else 0) ++ leBytes 4 c.words.length
    ++ leBytes 8 c.check ++ leBytes 4 rank ++ leBytes 44 0

/-- Send a chunk as one header packet and its data packets. -/
def State.sendChunk (s : State) (k : Comm) (o : CollOp) (t : SendTask) (c : Chunk) : State :=
  let ob := { k.obj with arg := t.chunk, tree := t.key.tree, phase := t.key.phase }
  let pan := o.path == .pan
  let l := c.bytes o
  (List.range (divUp l.length 4096)).foldl
    (fun a i => a.collSend k pan t.key.peer ptCdata { ob with pkt := i + 1 } ((l.drop (i * 4096)).take 4096))
    (s.collSend k pan t.key.peer ptChdr ob (c.header o k.rank))

/-- Send what credits and values allow, each flow in order. -/
def State.pumpSends (s : State) (h : Nat) (ts : List SendTask) : State :=
  (ts.foldl (fun (x : State × List FlowKey) t =>
    match x.1.comm h with
    | none => x
    | some k =>
      match k.op with
      | none => x
      | some o =>
        let room := o.outs.any fun f => f.key == t.key && decide (f.sent < f.granted)
        if x.2.contains t.key || !room || !o.has t.val then (x.1, t.key :: x.2)
        else
          match x.1.valOf k o t.val with
          | none => (x.1.endOp h stBadField, x.2)
          | some c =>
            let o1 := { o with
              plan := { o.plan with sends := o.plan.sends.erase t }
              outs := o.outs.map fun f => if f.key = t.key then { f with sent := f.sent + 1 } else f }
            ((x.1.readSource (x.1.setOp k o1) k o [t.val] []).sendChunk k o t c, x.2)) (s, [])).1

/-- Stages that have forwarded their last chunk give back their pan slots (R322). -/
def State.releaseStages (s : State) (h : Nat) : State :=
  s.withOp h fun k o =>
    let busy := fun (x : PanHold) =>
      o.plan.adds.any (fun t => t.tree == x.tree) || o.plan.sends.any (fun t => t.key.tree == x.tree)
    if o.path ≠ .pan then s
    else
      { s with coll := s.coll.freePans (o.pans.filter fun x => !busy x) }.setOp k { o with pans := o.pans.filter busy }

/-- Nothing is left to do or to hear of. -/
def CollOp.finished (o : CollOp) (n r : Nat) : Bool :=
  o.path != .claiming && o.plan.adds == [] && o.plan.sends == [] && o.plan.dlvs == []
    && o.outs.all (fun f => f.done) && (o.desc.op != 6 || o.barDone)
    && (!o.desc.isV || (o.counted && ((countTo o.desc n r).filter (· != r)).all fun j => o.countAcks.contains j))

/-- An operation whose chunks have all been delivered or have timed out ends: a mismatched chunk decides its status, then
a failed one, and otherwise `status` (R153, R312). -/
def State.closeOp (s : State) (h : Nat) (status : CollOp → Nat) : State :=
  s.withOp h fun k o =>
    if o.mismatch then (s.collLog k evWindowMismatch).endOp h stWindowMismatch
    else if o.checkFail then (s.collLog k evCheckFail).endOp h stCheckFail
    else s.endOp h (status o)

/-- Complete a finished operation. -/
def State.finishOp (s : State) (h : Nat) : State :=
  s.withOp h fun k o =>
    if !o.finished k.n k.rank then s else s.closeOp h fun o => if o.fellBack then stDegraded else stDone

/-! ## Credits (R318, R322) -/

/-- Chunks granted beyond those received. -/
def creditWindow : Nat := 8

/-- Chunks of a tree whose accumulators this stage still holds: not added, or not sent on. -/
def CollOp.heldChunks (o : CollOp) (t : Nat) : Nat :=
  ((o.plan.adds.filter (·.tree == t)).map (·.out)
    ++ ((o.plan.sends.filter fun x => x.key.tree == t && !x.key.phase).map (·.val))).eraseDups.length

/-- The chunks that may be granted in a flow: 8 beyond those received, and on the pan path no more than its slots hold, 8
chunks in each (R318, R322). -/
def CollOp.grantable (o : CollOp) (slots : Nat) (x : InFlow) : Nat :=
  let g := min (x.got + creditWindow) x.total
  if o.path == .pan && !x.key.phase then min g (x.total - o.heldChunks x.key.tree + 8 * slots) else g

/-- Grant again in flows that have their first window, where chunks have come or slots are free. -/
def State.grantMore (s : State) (h : Nat) : State :=
  s.withOp h fun _ o0 =>
    (o0.ins.map (·.key)).foldl (fun a f => a.withOp h fun k o =>
      match o.ins.find? fun x => x.key == f with
      | some x =>
        let g := o.grantable k.panSlots x
        if x.granted ≠ 0 ∧ x.granted < g then
          (a.setOp k { o with ins := o.ins.map fun y => if y.key = f then { y with granted := g } else y }).collCredit k o f g
            false
        else a
      | none => a) s

/-- Do all work that the values and credits at hand allow, in the order additions, deliveries,
sends. -/
def State.pump (s : State) (h : Nat) : State :=
  let todo := fun (a : State) => match a.comm h with
    | some k => match k.op with
      | some o => o.plan
      | none => Plan.none
    | none => Plan.none
  if (s.comm h).any (fun k => k.op.any fun o => o.path == .claiming) then s
  else
    let s1 := (todo s).adds.foldl (fun a t => a.doAdd h t) s
    let s2 := (todo s1).dlvs.foldl (fun a t => a.doDlv h t) s1
    (((s2.pumpSends h (todo s2).sends).releaseStages h).grantMore h).finishOp h

/-- Grant a flow its first window. -/
def State.grantFirst (s : State) (h : Nat) (f : FlowKey) : State :=
  s.withOp h fun k o =>
    let active := (o.ins.filter fun x => decide (0 < x.granted ∧ x.got < x.total)).length
    let reduced := o.ins.all fun x => x.key.phase || decide (x.got = x.total)
    match o.ins.find? fun x => x.key == f with
    | some x =>
      if x.granted ≠ 0 ∨ ((o.desc.op = 7 ∨ o.desc.op = 8) ∧ 256 ≤ active)
          ∨ !(o.path == .pan || !f.phase || reduced) then s
      else
        let g := min creditWindow x.total
        (s.setOp k { o with ins := o.ins.map fun y => if y.key = f then { y with granted := g } else y }).collCredit k o f g
          false
    | none => s

def State.grantAll (s : State) (h : Nat) : State :=
  s.withOp h fun _ o =>
    if o.path = .claiming then s else (o.ins.map (·.key)).foldl (fun a f => a.grantFirst h f) s

/-- After a chunk of a flow: the next credit, or the final acknowledgement. -/
def State.creditAfter (s : State) (h : Nat) (f : FlowKey) : State :=
  s.withOp h fun k o =>
    match o.ins.find? fun x => x.key == f with
    | some x =>
      let got := x.got + 1
      let s1 := s.setOp k { o with ins := o.ins.map fun y => if y.key = f then { y with got } else y }
      if got = x.total then (s1.collCredit k o f got true).grantAll h else s1.grantMore h
    | none => s

/-- Distinct keys in order of first use. -/
def flowKeys (l : List FlowKey) : List FlowKey := l.foldl (fun a k => if a.contains k then a else a ++ [k]) []

/-- Credits that have come for a flow. -/
def CollOp.creditOf (o : CollOp) (f : FlowKey) : Nat :=
  o.credits.foldl (fun m x => if x.1 = f then max m x.2 else m) 0

/-- Take a plan: its flows begin, with the credits that came before. -/
def CollOp.adopt (o : CollOp) (p : Plan) : CollOp :=
  let sk := p.sends.map (·.key)
  let rk := p.recvs.map (·.1)
  { o with
    plan := p, vals := [], partials := []
    outs := (flowKeys sk).map fun f => { key := f, total := sk.count f, sent := 0, granted := o.creditOf f, done := false }
    ins := (flowKeys rk).map fun f => { key := f, total := rk.count f, got := 0, granted := 0 } }

/-- Add a plan to the present one: the receipts of a v-variant. -/
def CollOp.extend (o : CollOp) (p : Plan) : CollOp :=
  let rk := p.recvs.map (·.1)
  { o with
    plan := o.plan.join p
    ins := o.ins ++ (flowKeys rk).map fun f => { key := f, total := rk.count f, got := 0, granted := 0 } }

/-- A cumulative count that is given modulo 2^20: the first number from `base` on that agrees with it. -/
def unwrap20 (base n : Nat) : Nat := base + (n + 2 ^ 20 - base % 2 ^ 20) % 2 ^ 20

/-- A credit of a flow after `granted`: counts only rise, and at most by the window. -/
def laterCredit (granted n : Nat) : Nat :=
  let g := unwrap20 granted n
  if g ≤ granted + creditWindow then g else granted

/-- A credit of a flow arrives. -/
def CollOp.credit (o : CollOp) (f : FlowKey) (n : Nat) (done : Bool) : CollOp :=
  { o with
    credits := o.credits ++ [(f, n)]
    outs := o.outs.map fun x =>
      if x.key = f then { x with granted := laterCredit x.granted n, done := x.done || (done && decide (x.sent = x.total)) } else x }

/-! ## Pan slots, claim and fallback (R322, R323) -/

def panTotal : Nat := 384

/-- A stage takes its slots. -/
def State.grantPan (s : State) (r : PanReq) (pan : Nat) : State :=
  let s1 := { s with coll := { s.coll with panUsed := modifyAt s.coll.panUsed pan (· + r.slots) } }
  s1.withOp r.comm fun k o =>
    s1.setOp k { o with pans := o.pans ++ [{ tree := r.tree, pan, slots := r.slots }], lastRx := s.power.frame.toNat }

/-- Grant requests from the head of a pan's queue while they fit. -/
def State.servePan (s : State) (pan : Nat) : Nat → State
  | 0 => s
  | fuel + 1 =>
    match s.coll.panQueue.getD pan [] with
    | [] => s
    | r :: rest =>
      if s.coll.panUsed.getD pan 0 + r.slots ≤ panTotal then
        ({ s with coll := { s.coll with panQueue := setAt s.coll.panQueue pan rest } }.grantPan r pan).servePan pan fuel
      else s

/-- Slots that a stage needs. -/
def Comm.slotsFor (k : Comm) (wide : Bool) (t : Nat) : Nat :=
  if wide then k.panSlots * (1 + (k.children.getD t []).length) else k.panSlots

/-- Request the pan slots of every stage. -/
def State.requestPans (s : State) (k : Comm) (wide : Bool) : State :=
  (List.range k.trees).foldl (fun a t =>
    let pan := k.stages.getD t 0
    let r : PanReq := { comm := k.handle, tree := t, slots := k.slotsFor wide t, frame := s.power.frame.toNat }
    let q := a.coll.panQueue.getD pan [] ++ [r]
    { a with coll := { a.coll with panQueue := setAt a.coll.panQueue pan q } }.servePan pan q.length) s

/-- A request of the communicator waits. -/
def State.panWaits (s : State) (h : Nat) : Bool := s.coll.panQueue.any fun q => q.any fun r => r.comm == h

def Comm.parent0 (k : Comm) : Option Nat := k.parents.getD 0 none

def Comm.children0 (k : Comm) : List Nat := k.children.getD 0 []

/-- The pan path is taken: `GO` goes down tree 0 with the first credits, and data flows. -/
def State.takePan (s : State) (h : Nat) : State :=
  s.withOp h fun k o =>
    if o.path ≠ .claiming then s
    else
      let opens := fun (f : FlowKey) => !f.phase && f.tree == 0 && k.children0.contains f.peer
      let o1 := { o with path := .pan, ins := o.ins.map fun x =>
        if (opens x.key) = true then { x with granted := min creditWindow x.total } else x }
      ((k.children0.foldl (fun a j => a.collNote k j ptGo) (s.setOp k o1)).grantAll h).pump h

/-- Send `CLAIM`, or at the root take the pan path, once every stage and child has claimed. -/
def State.tryClaim (s : State) (h : Nat) : State :=
  s.withOp h fun k o =>
    if o.path ≠ .claiming ∨ o.claimSent ∨ o.fbSent ∨ o.pans.length < k.trees
        ∨ !k.children0.all (fun j => o.claims.contains j) then s
    else
      match k.parent0 with
      | some p => (s.setOp k { o with claimSent := true }).collNote k p ptClaim
      | none => s.takePan h

/-- Members whose stages may all have been served. -/
def State.claimAll (s : State) : State := s.coll.comms.foldl (fun a k => a.tryClaim k.handle) s

/-- Fallback is decided: requests and slots are given up and the endpoint algorithm runs. -/
def State.fallBack (s : State) (h : Nat) : State :=
  s.withOp h fun k o =>
    if o.path ≠ .claiming then s
    else
      let s1 := { s with coll := (s.coll.freePans o.pans).unqueue h }
      let o1 := { o with path := .endpoint, fellBack := true, fbSent := true, pans := []
                         lastRx := if s.panWaits h then s.power.frame.toNat else o.lastRx }
      let s2 := (s1.setOp k (o1.adopt (endpointPlan o.desc o.wide k.n k.rank))).collLog k evPanFallback
      ((k.children0.foldl (fun a j => a.collNote k j ptFallbkDn) s2).grantAll h).pump h

/-- Ask for fallback: the root decides it, any other member sends one `FALLBK_UP`. -/
def State.askFallback (s : State) (h : Nat) : State :=
  s.withOp h fun k o =>
    if o.path ≠ .claiming then s
    else
      match k.parent0 with
      | none => s.fallBack h
      | some p => if o.fbSent then s else (s.setOp k { o with fbSent := true }).collNote k p ptFallbkUp

/-! ## Barrier (R316) -/

/-- Rounds of the dissemination. -/
def rounds (n : Nat) : Nat := if n ≤ 1 then 0 else Nat.log2 (n - 1) + 1

/-- Dissemination: signal in each round, and wait for the round's partner. -/
def State.disseminate (s : State) (h : Nat) : Nat → State
  | 0 => s
  | fuel + 1 =>
    s.withOp h fun k o =>
      let d := 2 ^ o.barRound
      if rounds k.n ≤ o.barRound then s.setOp k { o with barDone := true }
      else
        let s1 := if o.barSent then s
          else (s.setOp k { o with barSent := true }).collSend k false ((k.rank + d) % k.n) ptBarDn
            { k.obj with arg := o.barRound } []
        if o.barDns.contains ((k.rank + k.n - d % k.n) % k.n) then
          s1.withOp h fun k1 o1 => (s1.setOp k1 { o1 with barRound := o1.barRound + 1, barSent := false }).disseminate h fuel
        else s1

/-- The release goes down tree 0. -/
def State.releaseBarrier (s : State) (h : Nat) : State :=
  s.withOp h fun k o =>
    if o.barDone then s
    else (k.children0.foldl (fun a j => a.collNote k j ptBarDn) (s.setOp k { o with barDone := true })).finishOp h

def State.stepBarrier (s : State) (h : Nat) : State :=
  s.withOp h fun k o =>
    if o.desc.op ≠ 6 then s
    else if k.trees = 0 then (s.disseminate h (rounds k.n + 1)).finishOp h
    else if o.barSent ∨ !k.children0.all (fun j => o.barUps.contains j) then s
    else
      match k.parent0 with
      | some p => (s.setOp k { o with barSent := true }).collNote k p ptBarUp
      | none => (s.setOp k { o with barSent := true }).releaseBarrier h

/-! ## Counts (R324, R325) -/

/-- Once every expected count is in: too many elements end the operation, else data may come. -/
def State.sumCounts (s : State) (h : Nat) : State :=
  s.withOp h fun k o =>
    let want := countFrom o.desc k.n k.rank
    if o.counted ∨ !want.all (fun j => (SMap.find o.counts j).isSome) then s
    else
      let recv := fun j => (SMap.find o.counts j).getD 0
      let total := (want.map recv).sum
      if o.desc.count.toNat < total then s.endOp h stNoResource
      else
        let p := vRecvs o.desc k.n k.rank o.sendCounts recv
        let sig := if o.desc.sig then
            (overlaps 0 (bytesOf o.desc.dtype.toNat total) 32768).foldl (fun m x => SMap.put m x.1 x.2) []
          else []
        ((s.setOp k { o.extend p with counted := true, sigLeft := sig }).grantAll h).pump h

/-- A receive count: written to the array, acknowledged unless it is the member's own. -/
def State.takeCount (s : State) (h j n : Nat) : State :=
  s.withOp h fun k o =>
    if !(countFrom o.desc k.n k.rank).contains j ∨ !o.desc.isV ∨ (SMap.find o.counts j).isSome then s
    else
      match (s.setOp k { o with counts := o.counts.put j n }).vwrite k.part k.ctx
          (o.desc.aux.toNat + 8 * (k.n + j)) (leBytes 8 n) with
      | none => s.endOp h stBadField
      | some s1 =>
        (if j = k.rank then s1 else s1.collCredit k o { peer := j, tree := 0, phase := false } 0 true).sumCounts h

/-! ## Packets of the running operation -/

/-- The chunk that a header and its data make, when all of it has arrived in the right format. -/
def Partial.whole (x : Partial) (o : CollOp) : Option Chunk :=
  match x.header with
  | none => none
  | some l =>
    let w := if !o.desc.reducing then 1 else if o.wide then 4 else 8
    let fmt := if !o.desc.reducing then 2 else if o.wide then 0 else 1
    let n := gatherDesc l 4 4 * w
    let data := (List.range (divUp n 4096)).flatMap fun i => (SMap.find x.pkts (i + 1)).getD []
    let all := (List.range (divUp n 4096)).all fun i => (SMap.find x.pkts (i + 1)).isSome
    if all && decide (n ≤ data.length ∧ gatherDesc l 2 1 = fmt) then
      some { win := BitVec.ofNat 16 (gatherDesc l 0 2), ovf := gatherDesc l 3 1 % 2 == 1
             mismatch := gatherDesc l 3 1 / 2 % 2 == 1, check := gatherDesc l 8 8
             words := (List.range (gatherDesc l 4 4)).map fun i => BitVec.ofNat 64 (gatherDesc data (i * w) w) }
    else none

/-- The chunk index that `ARG` names: of the chunks that may be outstanding, from 8 below those received. -/
def CollOp.chunkIndex (o : CollOp) (f : FlowKey) (arg : Nat) : Nat :=
  unwrap20 ((o.ins.find? fun x => x.key == f).elim 0 (·.got) - creditWindow) arg

/-- A chunk that the gather phase forwards lies in the scratch buffer (R302). -/
def State.keepForwarded (s : State) (k : Comm) (o : CollOp) (r : Ref) (c : Chunk) : State :=
  match o.plan.dlvs.find? fun t => t.val == r with
  | some t => if o.plan.sends.any fun x => x.val == r then s.toScratch k o t.pos c else s
  | none => s

/-- A header or data packet joins its chunk; a whole chunk becomes a value (R307). -/
def State.takeChunk (s : State) (h : Nat) (f : FlowKey) (arg : Nat) (add : Partial → Partial) : State :=
  s.withOp h fun k o =>
    let chunk := o.chunkIndex f arg
    if o.path = .claiming ∨ !o.plan.recvs.contains (f, chunk) then s
    else
      let old := (o.partials.find? fun x => x.key == f && x.chunk == chunk).getD
        { key := f, chunk, header := none, pkts := [] }
      let x := add old
      let rest := o.partials.filter fun y => !(y.key == f && y.chunk == chunk)
      match x.whole o with
      | none => s.setOp k { o with partials := rest ++ [x] }
      | some c =>
        (((s.setOp k { o with
          partials := rest, vals := o.vals ++ [(.rx f chunk, c)]
          plan := { o.plan with recvs := o.plan.recvs.erase (f, chunk) } }).keepForwarded k o (.rx f chunk) c).creditAfter h
          f).pump h

/-- A packet of the running operation, from member `j`. -/
def State.opPacket (s : State) (h j : Nat) (p : Packet) : State :=
  let o := Obj.of p.obj
  let f : FlowKey := { peer := j, tree := o.tree, phase := o.phase }
  let t := p.ptype.toNat
  s.withOp h fun k x0 =>
    let x := { x0 with lastRx := s.power.frame.toNat }
    let s0 := s.setOp k x
    if t = ptChdr then s0.takeChunk h f o.arg fun y => { y with header := some p.payload }
    else if t = ptCdata then s0.takeChunk h f o.arg fun y => { y with pkts := y.pkts.put o.pkt p.payload }
    else if t = ptCredit then
      if o.done && !o.phase && o.arg == 0 then (s0.setOp k { x with countAcks := j :: x.countAcks }).finishOp h
      else (s0.setOp k (x.credit f o.arg o.done)).pump h
    else if t = ptClaim then (s0.setOp k { x with claims := j :: x.claims }).tryClaim h
    else if t = ptGo then (s0.setOp k (x.credit { f with tree := 0, phase := false } creditWindow false)).takePan h
    else if t = ptFallbkUp then s0.askFallback h
    else if t = ptFallbkDn then s0.fallBack h
    else if t = ptCounts then s0.takeCount h j (leNat p.payload)
    else if t = ptBarUp then (s0.setOp k { x with barUps := j :: x.barUps }).stepBarrier h
    else if t = ptBarDn then
      if k.trees = 0 then (s0.setOp k { x with barDns := j :: x.barDns }).stepBarrier h else s0.releaseBarrier h
    else s0

/-! ## Early packets (R305, R306) -/

/-- The flag of an early entry for a packet type, by bit. -/
def earlyBit (t : Nat) : Option Nat :=
  if t = ptClaim then some 17 else if t = ptFallbkUp then some 18 else if t = ptFallbkDn then some 19
  else if t = ptBarUp then some 20 else if t = ptBarDn then some 21 else if t = ptCounts then some 22
  else if t = ptCredit then some 23 else none

/-- The address of the early entry of a member for an operation. -/
def Comm.earlyAt (k : Comm) (j seq : Nat) : Nat := k.peerArea.toNat + 32 * j + 16 * (seq % 2)

/-- Record an early packet in the peer area. -/
def State.recordEarly (s : State) (k : Comm) (j : Nat) (p : Packet) (bit : Nat) : State :=
  let o := Obj.of p.obj
  match s.vread k.part k.ctx (k.earlyAt j o.seq) 16 with
  | none => s
  | some l =>
    let used := gatherDesc l 0 4 / 2 ^ 16 % 2 == 1
    let flags : BitVec 32 := if used then BitVec.ofNat 32 (gatherDesc l 0 4) else BitVec.ofNat 32 (o.seq + 2 ^ 16)
    let credit := if used then gatherDesc l 4 4 else 0
    let count := if used then gatherDesc l 8 8 else 0
    let seen := flags.getLsbD bit
    let l1 := leBytes 4 (flags ||| (1 <<< bit)).toNat
      ++ leBytes 4 (if bit = 23 then max credit o.arg else credit)
      ++ leBytes 8 (if bit = 22 ∧ !seen then leNat p.payload else count)
    (s.vwrite k.part k.ctx (k.earlyAt j o.seq) l1).getD s

/-- The early entry of one member for the operation that starts, applied and freed. -/
def State.applyEarly (s : State) (h j : Nat) : State :=
  s.withOp h fun k o =>
    let seq := k.opSeq.toNat
    match s.vread k.part k.ctx (k.earlyAt j seq) 16 with
    | none => s
    | some l =>
      let w : BitVec 32 := BitVec.ofNat 32 (gatherDesc l 0 4)
      if !w.getLsbD 16 ∨ w.setWidth 16 ≠ k.opSeq then s
      else
        let s1 := (s.vwrite k.part k.ctx (k.earlyAt j seq) (leBytes 16 0)).getD s
        let act := fun (a : State) (bit : Nat) (f : Comm → CollOp → State → State) =>
          if w.getLsbD bit then a.withOp h fun k1 o1 => f k1 o1 a else a
        let f : FlowKey := { peer := j, tree := 0, phase := o.desc.op == 4 }
        let s2 := act s1 17 fun k1 o1 a => (a.setOp k1 { o1 with claims := j :: o1.claims }).tryClaim h
        let s3 := act s2 18 fun _ _ a => a.askFallback h
        let s4 := act s3 19 fun _ _ a => a.fallBack h
        let s5 := act s4 20 fun k1 o1 a => (a.setOp k1 { o1 with barUps := j :: o1.barUps }).stepBarrier h
        let s6 := act s5 21 fun k1 o1 a =>
          if k1.trees = 0 then (a.setOp k1 { o1 with barDns := j :: o1.barDns }).stepBarrier h else a.releaseBarrier h
        let s7 := act s6 22 fun _ _ a => a.takeCount h j (gatherDesc l 8 8)
        act s7 23 fun k1 o1 a => (a.setOp k1 (o1.credit f (gatherDesc l 4 4) false)).pump h

/-- Count a packet dropped under R305. -/
def State.dropEarly (s : State) (h : Nat) : State :=
  match s.batchOf h with
  | some b => s.setBatch { b with dropped := b.dropped + 1 }
  | none => s

/-- A collective packet for a communicator, from member `j` (R305). -/
def State.commPacket (s : State) (k : Comm) (j : Nat) (p : Packet) : State :=
  let seq := BitVec.ofNat 16 (Obj.of p.obj).seq
  if seq = k.opSeq ∧ k.op.isSome then s.opPacket k.handle j p
  else
    match earlyBit p.ptype.toNat with
    | some bit =>
      if seq = k.opSeq + 1 ∨ seq = k.opSeq + 2 then s.recordEarly k j p bit else s.dropEarly k.handle
    | none => s.dropEarly k.handle

/-! ## Starting an operation (R299 to R303, R322, R324, R326, R327) -/

/-- Types and modes of R299 to R301. -/
def Desc.typesOk (d : Desc) (wide : Bool) : Bool :=
  let dt := d.dtype.toNat
  let ot := d.otype.toNat
  let rop := d.rmode.toNat / 4 % 4
  if d.op = 6 then dt == 0 && ot == 0 && d.rmode == 0 && d.win == 0
  else if d.reducing then
    decide (d.rmode.toNat < 16 ∧ d.rmode.toNat % 4 ≤ 2 ∧ rop ≤ 2)
      && (if wide then decide (dt ≤ etE5M2 ∧ ot ≤ etE5M2) && d.win == 0
        else rop == 0 && (decide (dt ≤ etE5M2) || dt ∈ [etINT8, etINT32, etBrine])
          && (decide (ot ≤ etE5M2) || ot == etBrine))
  else decide (dt < 16) && !etReserved dt && ot == dt && d.rmode == 0 && d.win == 0

/-- Fields that an operation does not use are zero, and those it uses are in range. -/
def Desc.fieldsOk (d : Desc) (n : Nat) : Bool :=
  let op := d.op.toNat
  decide (1 ≤ op ∧ op ≤ 10) && decide (d.dflags.toNat < 8)
    && (if op ∈ [2, 5, 9, 10] then decide (d.root.toNat < n) else d.root == 0)
    && (if d.reducing then decide (d.scratch.toNat % 64 = 0) else d.scratch == 0 && !d.sat)
    && (if d.isV then decide (d.aux.toNat % 8 = 0) else d.reducing || d.aux == 0)
    && (if d.sig then decide (d.sigaddr.toNat % 8 = 0) else d.sigaddr == 0)
    && (if op = 6 then d.src == 0 && d.dst == 0 && d.count == 0 && d.dflags == 0
      else d.count.toNat * memBits d.dtype.toNat % 32 == 0)
    && (op != 3 || d.count.toNat % n == 0)
    && (!d.reducing || decide (8 * n * divUp d.count.toNat n ≤ d.aux.toNat))

/-- Send counts that are allowed (R324). -/
def countsOk (d : Desc) (n r : Nat) (l : List Nat) : Bool :=
  (List.range n).all fun j =>
    let c := l.getD j 0
    decide (c ≤ 2 ^ 40) && c * memBits d.dtype.toNat % 32 == 0
      && (c == 0 || d.op == 8 || (d.op == 9 && j == d.root.toNat) || (d.op == 10 && r == d.root.toNat))

/-- The single block whose shared SRAM holds every piece. -/
def oneBlock (ps : List Piece) : Option Nat :=
  match ps with
  | [] => none
  | p :: _ =>
    match place p.pa with
    | .shared b _ =>
      if ps.all fun q => match place q.pa with | .shared c _ => c == b | _ => false then some b else none
    | _ => none

/-- The pieces of a destination. -/
def State.dstPieces (s : State) (k : Comm) (d : Desc) : List Piece × Option (BitVec 8 × Nat) :=
  let r := d.dstRange k.n k.rank
  s.vpieces k.part k.ctx .store d.dst.toNat ((r.2 - r.1) * d.dstBytes)

/-- Operations with `FEED` that run in a block. -/
def State.feedsIn (s : State) (b : Nat) : Nat :=
  (s.coll.comms.filter fun k => match k.op with
    | some o => o.desc.feed && oneBlock (s.dstPieces k o.desc).1 == some b
    | none => false).length

/-- The checks of R303 but the send counts: fields, types, buffers, pan slots, signals, feed. -/
def State.descOk (s : State) (k : Comm) (d : Desc) (wide : Bool) (send : List Nat) : Bool :=
  let p := k.part
  let c := k.ctx
  let dr := d.dstRange k.n k.rank
  let sig := s.vpieces p c .store d.sigaddr.toNat (8 * divUp (d.sigChunks wide k.n k.rank) 64)
  let dst := s.dstPieces k d
  d.fieldsOk k.n && d.typesOk wide
    && (s.vpieces p c .load d.src.toNat (d.srcLen k.n k.rank send)).2.isNone && dst.2.isNone
    && (!d.reducing || (s.vpieces p c .store d.scratch.toNat d.aux.toNat).2.isNone)
    && (!d.isV || (s.vpieces p c .store d.aux.toNat (16 * k.n)).2.isNone)
    && (!d.sig || dr.2 ≤ dr.1 || (sig.2.isNone && (oneBlock sig.1).isSome))
    && (!d.feed || dr.2 ≤ dr.1 || (d.dst.toNat % 1024 == 0 && (match oneBlock dst.1 with
        | some b => decide (s.feedsIn b < 4)
        | none => false)))
    && (!(d.reducing && decide (1 ≤ k.trees)) || (List.range k.trees).all fun t => decide (k.slotsFor wide t ≤ 96))
    && (!d.isV || countsOk d k.n k.rank send)

/-- An operation before it has begun. -/
def CollOp.fresh (d : Desc) (wide : Bool) (frame : Nat) : CollOp :=
  { desc := d, wide, path := .endpoint, claimSent := false, fbSent := false, fellBack := false, claims := []
    pans := [], plan := Plan.none, vals := [], outs := [], ins := [], credits := [], partials := []
    sendCounts := [], counts := [], countAcks := [], counted := false, barUps := [], barDns := [], barRound := 0
    barSent := false, barDone := false, ovf := false, mismatch := false, checkFail := false, sigLeft := []
    feedLeft := [], lastRx := frame }

/-- Signal chunks and gather-feed pieces of an operation, counted (R326, R327). -/
def State.markDst (s : State) (k : Comm) (o : CollOp) : State × CollOp :=
  let dr := o.desc.dstRange k.n k.rank
  let sig := if o.desc.sig && !o.desc.isV then
      (overlaps dr.1 dr.2 (chunkElems o.desc o.wide)).foldl (fun m x => SMap.put m x.1 x.2) []
    else []
  let feed := if o.desc.feed then
      (feedPieces (s.dstPieces k o.desc).1).foldl (fun m x => SMap.put m x.1 ((SMap.find m x.1).getD 0 + x.2)) []
    else []
  ({ s with mem := { s.mem with feed := feed.foldl (fun m x => SMap.put m x.1 k.handle) s.mem.feed } },
    { o with sigLeft := sig, feedLeft := feed })

/-- Begin an operation whose checks have passed. -/
def State.beginOp (s : State) (h : Nat) : State :=
  s.withOp h fun k o0 =>
    let m := s.markDst k o0
    let s1 := m.1
    let o := m.2
    let d := o.desc
    let early := fun (a : State) => (List.range k.n).foldl (fun a j => a.applyEarly h j) a
    if d.op = 6 then (early ((s1.setOp k o).stepBarrier h))
    else if d.isV then
      let s2 := s1.setOp k (o.adopt { Plan.none with sends := vSends d k.n k.rank o.sendCounts })
      let s3 := ((countTo d k.n k.rank).filter (· != k.rank)).foldl (fun a j =>
        a.collSend k false j ptCounts { k.obj with arg := j } (leBytes 8 (o.sendCounts.getD j 0))) s2
      let s4 := if (countTo d k.n k.rank).contains k.rank then s3.takeCount h k.rank (o.sendCounts.getD k.rank 0) else s3
      early (s4.sumCounts h)
    else if d.reducing && decide (1 ≤ k.trees) then
      let s2 := s1.setOp k { o.adopt (s.panPlan k d o.wide) with path := .claiming }
      early (s2.requestPans k o.wide).claimAll
    else
      let p := if d.reducing then endpointPlan d o.wide k.n k.rank
        else if d.op = 4 then allGatherPlan d k.n k.rank
        else if d.op = 7 then allToAllPlan d k.n k.rank
        else s.broadcastPlan k d
      (early ((s1.setOp k (o.adopt p)).grantAll h)).pump h

/-- The next descriptor of a batch starts: it is read, checked, and begun or ended (R303). -/
def State.startDesc (s : State) (k : Comm) (b : Batch) : State :=
  let at_ := b.desc.toNat + 64 * b.idx
  let raw := (s.vread k.part k.ctx at_ 64).getD (List.replicate 64 0)
  let d := Desc.parse raw
  let wide := s.descWide d
  let send := s.readCounts k.part k.ctx k.n d
  let k1 := { k with opSeq := k.opSeq + 1 }
  let o := { CollOp.fresh d wide s.power.frame.toNat with sendCounts := send.getD [] }
  let s1 := (s.setOp k1 o).recallPieces (s.vpieces k.part k.ctx .load at_ 64).1
  if send.isSome && s.descOk k d wide (send.getD []) then s1.beginOp k.handle else s1.endOp k.handle stBadField

end Sys2Proof.Machine
end

