-- ==== Sys2Proof/Machine/Beacon.lean ====
section
/-! DEFINITION. Beacon channels (R328 to R332), and the check of packets that arrive for the
module (R280). -/

namespace Sys2Proof.Machine

/-! ## Channels -/

/-- Entry `c` of `BEACON` in the active set. -/
def State.beaconEntry (s : State) (c : Nat) : Nat := cfg s.config.active (0x30 + 4 * c) 4

/-- The communicator that an enabled channel serves. -/
def State.beaconComm (s : State) (c : Nat) : Option Comm :=
  let e := s.beaconEntry c
  if e / 2 ^ 16 % 2 = 1 then
    (s.comm (e % 4096)).filter fun k => k.trees != 0 && k.beaconArea != 0
  else none

def State.beacon (s : State) (c : Nat) : Beacon := s.coll.beacons.getD c Beacon.reset

def State.setBeacon (s : State) (c : Nat) (b : Beacon) : State :=
  { s with coll := { s.coll with beacons := setAt s.coll.beacons c b } }

def bopSum : BitVec 8 := 1
def bopMin : BitVec 8 := 2
def bopMax : BitVec 8 := 3
def bopAnd : BitVec 8 := 4
def bopOr : BitVec 8 := 5
def bopBarrier : BitVec 8 := 6

/-- Bytes of an element of a minimum or maximum. -/
def beaconElem (btype : BitVec 8) : Nat := if btype.toNat = etINT64 then 8 else 4

/-- The slot's fields agree with R329. -/
def BeaconVal.ok (v : BeaconVal) : Bool :=
  let n := v.blen.toNat
  if v.bop = bopSum then v.btype == 0 && decide (8 ≤ n ∧ n ≤ 32 ∧ n % 8 = 0)
  else if v.bop = bopMin ∨ v.bop = bopMax then
    decide (v.btype.toNat ∈ [etINT32, etINT64, etFP32]) && decide (4 ≤ n ∧ n ≤ 32 ∧ n % beaconElem v.btype = 0)
  else if v.bop = bopAnd ∨ v.bop = bopOr then v.btype == 0 && decide (4 ≤ n ∧ n ≤ 32 ∧ n % 4 = 0)
  else v.bop == bopBarrier && v.btype == 0 && n == 0

/-- A member's contribution from the 128 bytes of its slot. -/
def BeaconVal.ofSlot (l : List Byte) : BeaconVal :=
  { bop := BitVec.ofNat 8 (gatherDesc l 4 1), btype := BitVec.ofNat 8 (gatherDesc l 5 1)
    blen := BitVec.ofNat 8 (gatherDesc l 6 1), bwin := BitVec.ofNat 16 (gatherDesc l 8 2)
    ovf := false, bad := false, mismatch := false
    payload := ((l.drop 0x10).take 32).take (gatherDesc l 6 1) }

/-- Combine elements of `b` bytes. -/
def zipElems (b : Nat) (f : Nat → Nat → Nat) (x y : List Byte) : List Byte :=
  (List.range (x.length / b)).flatMap fun i => leBytes b (f (gatherDesc x (b * i) b) (gatherDesc y (b * i) b))

/-- The lesser or the greater of two signed integers of `w` bits. -/
def pickInt (w : Nat) (max : Bool) (a b : Nat) : Nat :=
  if decide (signed w a < signed w b) != max then a else b

/-- Combine two contributions (R330). The words and the window of a sum with the mismatch indicator are unspecified
(R153): free values from `seed` on. -/
def BeaconVal.combine (seed : Nat) (a b : BeaconVal) : BeaconVal :=
  if a.bad || b.bad || a.bop != b.bop || a.btype != b.btype || a.blen != b.blen then { a with bad := true }
  else if a.bop = bopSum then
    if a.mismatch || b.mismatch || a.bwin != b.bwin then
      { a with
        mismatch := true, ovf := a.ovf || b.ovf, bwin := BitVec.ofNat 16 (Config.freeNat seed)
        payload := (List.range a.payload.length).map fun i => BitVec.ofNat 8 (Config.freeNat (seed + 1 + i)) }
    else
      let n := a.payload.length / 8
      let rs := (List.range n).map fun i =>
        brineAdd (BitVec.ofNat 64 (gatherDesc a.payload (8 * i) 8)) (BitVec.ofNat 64 (gatherDesc b.payload (8 * i) 8))
      { a with payload := rs.flatMap (fun r => leBytes 8 r.1.toNat), ovf := a.ovf || b.ovf || rs.any Prod.snd }
  else if a.bop = bopMin ∨ a.bop = bopMax then
    let max := a.bop == bopMax
    let e := beaconElem a.btype
    { a with payload := zipElems e (if a.btype.toNat = etFP32 then fun x y => (fp32.minMax max x y).1
        else pickInt (8 * e) max) a.payload b.payload }
  else if a.bop = bopAnd then { a with payload := List.zipWith (· &&& ·) a.payload b.payload }
  else if a.bop = bopOr then { a with payload := List.zipWith (· ||| ·) a.payload b.payload }
  else a

/-- The payload of a Beacon packet (assumption log entry 37); `place` is that of the channel. -/
def BeaconVal.bytes (v : BeaconVal) (place : Nat) : List Byte :=
  [v.bop, v.btype, v.blen] ++ leBytes 1 ((if v.ovf then 1 else 0) + (if v.mismatch then 2 else 0) + if v.bad then 4 else 0)
    ++ leBytes 2 v.bwin.toNat ++ leBytes 2 place ++ v.payload

def BeaconVal.parse (l : List Byte) : BeaconVal :=
  let f := gatherDesc l 3 1
  { bop := BitVec.ofNat 8 (gatherDesc l 0 1), btype := BitVec.ofNat 8 (gatherDesc l 1 1)
    blen := BitVec.ofNat 8 (gatherDesc l 2 1), bwin := BitVec.ofNat 16 (gatherDesc l 4 2)
    ovf := f % 2 == 1, mismatch := f / 2 % 2 == 1, bad := f / 4 % 2 == 1
    payload := (l.drop 8).take (gatherDesc l 2 1) }

/-- The address of a channel's slot. -/
def Comm.beaconSlot (k : Comm) (c : Nat) : Nat := k.beaconArea.toNat + 128 * c

/-- Write a result to the slot, and `RSIG` last (R329). -/
def State.beaconResult (s : State) (k : Comm) (c : Nat) (bseq : BitVec 32) (status : Nat) (ovf : Bool)
    (data : List Byte) : State :=
  let a := k.beaconSlot c
  let s1 := (s.vwrite k.part k.ctx (a + 0x30) data).getD s
  let s2 := (s1.vwrite k.part k.ctx (a + 0x50)
    (leBytes 4 bseq.toNat ++ leBytes 1 status ++ leBytes 1 (if ovf then 1 else 0))).getD s1
  match s2.vpieces k.part k.ctx .store (a + 0x58) 8 with
  | (p :: _, none) => ((s2.setSignal (s2.tagOf k.part k.ctx) p.pa 0).countAt p.pa 0x53).countAt p.pa 0x56
  | _ => s2

/-- The operation in progress ends at this member with a combined value. -/
def State.beaconEnd (s : State) (k : Comm) (c : Nat) (v : BeaconVal) : State :=
  let b := s.beacon c
  match b.busy with
  | none => s
  | some (bseq, _) =>
    let st := if v.bad then stBadField else if v.mismatch then stWindowMismatch else stDone
    let s1 := s.setBeacon c { b with busy := none, own := none, ups := [], sent := false, seq := b.seq + 1 }
    let s2 := if st = stWindowMismatch then
        s1.log evWindowMismatch srcLink k.object (b.seq.setWidth 32) else s1
    s2.beaconResult k c bseq st (v.ovf && st == stDone) (if st = stDone then v.payload else [])

/-- The enabled channels of a communicator. -/
def State.channelsOf (s : State) (k : Comm) : List Nat :=
  (List.range 16).filter fun c => (s.beaconComm c).any fun x => x.handle == k.handle

/-- Send a Beacon packet. It names the channel by its place among the channels of the communicator, since channel numbers
are local to each module (R328; assumption log entry 37). -/
def State.beaconSend (s : State) (k : Comm) (c dst t : Nat) (v : BeaconVal) : State :=
  s.collSend k true dst t { k.obj with seq := (s.beacon c).seq.toNat } (v.bytes ((s.channelsOf k).idxOf c))

/-- The result goes down tree 0 and ends the operation here. -/
def State.beaconDown (s : State) (k : Comm) (c : Nat) (v : BeaconVal) : State :=
  (k.children0.foldl (fun a j => a.beaconSend k c j ptBeaconDn v) s).beaconEnd k c v

/-- Combine once the own contribution and every child's are in. -/
def State.beaconStep (s : State) (k : Comm) (c : Nat) : State :=
  let b := s.beacon c
  match b.own with
  | some v =>
    if !b.sent && k.children0.all fun j => (SMap.find b.ups j).isSome then
      let l := b.ups.map (·.2)
      let r := ((List.range l.length).zip l).foldl (fun a x => a.combine (s.freeCtr + 64 * x.1) x.2) v
      let s1 := { s.setBeacon c { b with sent := true } with freeCtr := s.freeCtr + 64 * l.length }
      match k.parent0 with
      | some p => s1.beaconSend k c p ptBeaconUp r
      | none => s1.beaconDown k c r
    else s
  | none => s

/-- A trigger counts in the block of its slot. -/
def State.noteTrigger (s : State) (k : Comm) (c : Nat) : State :=
  match s.vpieces k.part k.ctx .load (k.beaconSlot c) 8 with
  | (p :: _, none) => s.countAt p.pa 0x55
  | _ => s

/-- A write to `BSEQ` of an enabled channel (R329, R332). -/
def State.beaconTrigger (s0 : State) (c : Nat) (bseq : BitVec 32) : State :=
  match s0.beaconComm c with
  | none => s0
  | some k =>
    let b := s0.beacon c
    if b.busy.isSome then s0
    else
      let s := s0.noteTrigger k c
      if b.failed then s.beaconResult k c bseq stWrongState false []
      else
        let l := (s.vread k.part k.ctx (k.beaconSlot c) 128).getD []
        let v := BeaconVal.ofSlot l
        if l.length ≠ 128 ∨ !v.ok ∨ gatherDesc l 7 1 ≠ 0 ∨ gatherDesc l 0x0A 6 ≠ 0 ∨ gatherDesc l 0x56 2 ≠ 0
            ∨ gatherDesc l 0x60 32 ≠ 0 then
          s.beaconResult k c bseq stBadField false []
        else
          (s.setBeacon c { b with busy := some (bseq, s.power.frame.toNat), own := some v, comm := k.handle }).beaconStep k c

/-- A Beacon packet from member `j`. -/
def State.beaconPacket (s : State) (k : Comm) (j : Nat) (p : Packet) : State :=
  match (s.channelsOf k)[gatherDesc p.payload 6 2]? with
  | none => s
  | some c =>
    let b := s.beacon c
    let v := BeaconVal.parse p.payload
    if b.failed ∨ (Obj.of p.obj).seq ≠ b.seq.toNat then s
    else if p.ptype.toNat = ptBeaconUp then
      if k.children0.contains j && (SMap.find b.ups j).isNone then (s.setBeacon c { b with ups := b.ups.put j v }).beaconStep k c else s
    else if k.parent0 = some j && (b.own.isSome || b.busy.isNone) then s.beaconDown k c v
    else s

/-- A channel that has been disabled, or given to another communicator, starts anew; an operation in progress stays until
it times out (R332). -/
def Beacon.anew (b : Beacon) : Beacon := if b.busy.isSome then { b with failed := false } else Beacon.reset

/-- Channels whose entry in the active set has changed, or that it disables. -/
def State.settleBeacons (s : State) (before : ConfigSet) : State :=
  (List.range 16).foldl (fun a c =>
    if a.beaconEntry c ≠ cfg before (0x30 + 4 * c) 4 ∨ a.beaconEntry c / 2 ^ 16 % 2 = 0 then
      a.setBeacon c (a.beacon c).anew
    else a) s

/-! ## Ingress (R280) -/

/-- The endpoint accepts traffic. -/
def State.accepts (s : State) : Bool :=
  s.mail.ready && !s.units.noCompute && !s.flash.persist.oos && s.clocksRun

/-- Steps 2 and 3: the destination exists and its generations agree. -/
def State.destOk (s : State) (p : Packet) : Bool :=
  let q := p.dstPart.toNat
  let c := p.dstCtx.toNat
  p.dstPart == 0xF
    || (decide (q < 8) && (s.part q).inService && (s.part q).pgen == p.dstPgen
      && ((s.ctx q c).st == .opened || (s.ctx q c).st == .resident || (s.ctx q c).st == .stopped)
      && (s.ctx q c).cgen == p.dstCgen)

/-- The communicator that a packet's key names in its destination context. -/
def State.commOf (s : State) (p : Packet) : Option Comm :=
  s.coll.comms.find? fun k => p.dstPart != 0xF && k.part == p.dstPart.toNat && k.ctx == p.dstCtx.toNat
    && k.key.toNat == (Obj.of p.obj).key

/-- A checked packet reaches the engine, pan or Beacon logic. -/
def State.handOver (s : State) (k : Comm) (j : Nat) (p : Packet) : State :=
  if p.ptype.toNat = ptBeaconUp ∨ p.ptype.toNat = ptBeaconDn then s.beaconPacket k j p else s.commPacket k j p

/-- A packet addressed to the module is checked, then handed over. -/
def State.ingress (s : State) (a : Arrival) : State :=
  if !s.accepts then s.drop a.src cntDropRefused
  else if !s.destOk a.pkt ∨ !wellFormed a.pkt then s.drop a.src cntDropGen
  else
    match s.commOf a.pkt with
    | none => s.drop a.src cntDropGen
    | some k =>
      match s.senderOf k a.pkt with
      | none => s.drop a.src cntDropGen
      | some j => s.handOver k j a.pkt

/-- Hand over every packet that has arrived, and those that follow from them. -/
def State.drainArrived (s : State) : Nat → State
  | 0 => s
  | fuel + 1 =>
    match s.fabric.arrived with
    | [] => s
    | a :: rest => ({ s with fabric := { s.fabric with arrived := rest } }.ingress a).drainArrived fuel

/-- Packets that one event may cause among members on this module; the rest wait for the next
event. -/
def deliverFuel : Nat := 65536

def State.deliverAll (s : State) : State := s.drainArrived deliverFuel

end Sys2Proof.Machine
end

