-- ==== Sys2Proof/Machine/Collective.lean ====
section
/-! DEFINITION. The rows of communicators, batches, collective packets and Beacon (R292 to R335),
and those of flits and packets (R265, R277, R280). -/

namespace Sys2Proof.Machine

/-! ## COMM_CREATE, COMM_DESTROY (R292 to R296) -/

/-- The whole range lies in one block's shared SRAM, or in external memory. -/
def extPlace : Place → Bool
  | .hbm _ _ | .ddr _ _ => true
  | _ => false

/-- Step 1 of R294. -/
def State.commFieldsOk (s : State) (t : Taken) : Bool :=
  let b := s.body t.slot
  let p := t.part.toNat
  let c := t.ctx.toNat
  let area := b 0x20 8
  let peer := b 0x28 8
  let ba := s.vpieces p c .store area 2048
  let pa := s.vpieces p c .store peer (32 * b 8 4)
  decide (b 0 8 % 64 = 0 ∧ 1 ≤ b 8 4 ∧ b 8 4 ≤ 2 ^ 20 ∧ b 0x0C 4 < b 8 4 ∧ b 0x10 4 < 2 ^ 20
      ∧ b 0x14 1 ∈ [0, 1, 2, 4] ∧ b 0x15 1 ≤ 16 ∧ b 0x18 4 ≤ 60000 ∧ area % 2048 = 0 ∧ peer % 64 = 0 ∧ peer ≠ 0)
    && (area == 0 || (ba.2.isNone && (oneBlock ba.1).isSome))
    && pa.2.isNone && pa.1.all fun x => extPlace (place x.pa)

/-- Members whose parent in a tree is `i`. -/
def childrenOf (ms : List Member) (t i : Nat) : List Nat :=
  (List.range ms.length).filter fun j =>
    match ms[j]? with
    | some m => (m.trees.getD t (rootParent, 0)).1 == i
    | none => false

/-- From a member, parents lead back to member `i` within `fuel` steps: the member lies on a cycle. -/
def onCycle (ms : List Member) (t i : Nat) : Nat → Nat → Bool
  | 0, _ => false
  | fuel + 1, j =>
    match ms[j]? with
    | some m =>
      let p := (m.trees.getD t (rootParent, 0)).1
      p == i || onCycle ms t i fuel p
    | none => false

/-- Entry `i` breaks step 6 of R294. -/
def entryBad (ms : List Member) (trees i : Nat) : Bool :=
  match ms[i]? with
  | none => true
  | some m =>
    !m.clean || (ms.take i).any (fun x => x.ep == m.ep && x.part == m.part && x.ctx == m.ctx)
      || (List.range trees).any fun t =>
        let p := (m.trees.getD t (rootParent, 0)).1
        (p != rootParent && decide (ms.length ≤ p)) || onCycle ms t i ms.length i
          || (p == rootParent && (ms.take i).any fun x => (x.trees.getD t (rootParent, 0)).1 == rootParent)
          || decide (72 < (childrenOf ms t i).length)

/-- The entry that names this member is right (step 5). -/
def State.ownEntryOk (s : State) (t : Taken) (m : Member) : Bool :=
  let b := s.fabBlock 3
  b.epValid && m.ep == b.ep && m.part == t.part.toNat && m.ctx == t.ctx.toNat
    && m.pgen == (s.part m.part).pgen && m.cgen == (s.ctx m.part m.ctx).cgen

/-- The refusal of a `COMM_CREATE` (R294), or its member table. -/
def State.commCheck (s : State) (t : Taken) : Report ⊕ List Member :=
  let b := s.body t.slot
  let p := t.part.toNat
  let c := t.ctx.toNat
  let n := b 8 4
  let trees := b 0x14 1
  let bad := fun r0 => Sum.inl { Report.of stBadField with r0 }
  if !s.commFieldsOk t then bad 0
  else if s.coll.comms.any (fun k => k.part == p && k.ctx == c && k.key.toNat == b 0x10 4) then
    .inl (.of stWrongState)
  else if 4096 ≤ s.coll.comms.length then .inl (.of stNoResource)
  else
    let es := (List.range n).map (s.tableEntry p c (b 0 8) trees)
    match es.findIdx? Option.isNone with
    | some i => bad i
    | none =>
      let ms := es.filterMap id
      if !(ms[b 0x0C 4]?).any (s.ownEntryOk t) then bad (b 0x0C 4)
      else
        match (List.range n).find? (entryBad ms trees) with
        | some i => bad i
        | none => .inr ms

/-- A free handle; one whose communicator was destroyed in this frame is free from the next boundary, where its Beacon
channels are cleared (R328), unless there is no other. -/
def State.freeHandle (s : State) : Nat × State :=
  let all := (List.range 4096).filter fun h => (s.comm h).isNone
  let new := all.filter fun h => !s.coll.dead.contains h
  let l := if new = [] then all else new
  let f := s.free
  (l.getD (f.1 % l.length) 0, f.2)

/-- The communicator that a member table makes. -/
def State.newComm (s : State) (t : Taken) (h : Nat) (ms : List Member) : Comm :=
  let b := s.body t.slot
  let trees := b 0x14 1
  let mine := (ms[b 0x0C 4]?).map (·.trees)
  let tree := fun i => (mine.getD []).getD i (rootParent, 0)
  { handle := h, part := t.part.toNat, ctx := t.ctx.toNat, key := BitVec.ofNat 20 (b 0x10 4), n := b 8 4
    rank := b 0x0C 4, trees, panSlots := if b 0x15 1 = 0 then 2 else b 0x15 1
    timeoutMs := if b 0x18 4 = 0 then cfg s.config.active 0x20 4 else b 0x18 4
    table := BitVec.ofNat 64 (b 0 8), beaconArea := BitVec.ofNat 64 (b 0x20 8)
    peerArea := BitVec.ofNat 64 (b 0x28 8)
    parents := (List.range trees).map fun i => if (tree i).1 = rootParent then none else some (tree i).1
    stages := (List.range trees).map fun i => (tree i).2
    children := (List.range trees).map fun i => childrenOf ms i (b 0x0C 4)
    broken := false, opSeq := 0xFFFF, op := none }

def execCommCreate (slot : Nat) (s : State) : Host.Outcome State Fault Refusal :=
  command slot opCommCreate s fun t =>
    if !s.ctxLive t.part.toNat t.ctx.toNat then s
    else
      match s.commCheck t with
      | .inl r => s.complete t r
      | .inr ms =>
        let f := s.freeHandle
        let k := f.2.newComm t f.1 ms
        let s1 := { f.2 with coll := { f.2.coll with comms := f.2.coll.comms ++ [k] } }
        let s2 := (s1.vwrite k.part k.ctx k.peerArea.toNat (List.replicate (32 * k.n) 0)).getD s1
        s2.complete t { Report.of stDone with
          r0 := k.handle, r1 := leNat (k.children.map fun l => BitVec.ofNat 8 l.length) }

/-- The communicator of the context that a handle names. -/
def State.ownComm (s : State) (t : Taken) (h : Nat) : Option Comm :=
  (s.comm h).filter fun k => k.part == t.part.toNat && k.ctx == t.ctx.toNat

def execCommDestroy (slot : Nat) (s : State) : Host.Outcome State Fault Refusal :=
  command slot opCommDestroy s fun t =>
    if !s.ctxLive t.part.toNat t.ctx.toNat then s
    else
      match s.ownComm t (s.body slot 0 2) with
      | none => s.complete t (.of stBadField)
      | some k =>
        let enabled := (List.range 16).any fun c =>
          s.beaconEntry c / 2 ^ 16 % 2 == 1 && s.beaconEntry c % 4096 == k.handle
        if (s.batchOf k.handle).isSome || enabled then s.complete t (.of stBusy)
        else
          { s with coll := { s.coll with
              comms := s.coll.comms.filter fun x => x.handle != k.handle
              dead := s.coll.dead ++ [k.handle] } }.complete t (.of stDone)

/-! ## COLL_BATCH and its operations (R297, R303, R304) -/

def execCollBatch (slot : Nat) (s : State) : Host.Outcome State Fault Refusal :=
  command slot opCollBatch s fun t =>
    let p := t.part.toNat
    let c := t.ctx.toNat
    let n := s.body slot 8 4
    if !s.ctxLive p c then s
    else if s.body slot 0 8 % 64 ≠ 0 ∨ n = 0 ∨ 65536 < n then s.complete t (.of stBadField)
    else
      match s.ownComm t (s.body slot 0x0C 2) with
      | none => s.complete t (.of stBadField)
      | some k =>
        if k.broken then s.complete t (.of stWrongState)
        else if (s.batchOf k.handle).isSome then s.complete t (.of stBusy)
        else
          let b : Batch :=
            { slot, seq := t.seq, part := p, ctx := c, pgen := t.pgen, cgen := t.cgen, handle := k.handle
              desc := BitVec.ofNat 64 (s.body slot 0 8), count := n, idx := 0, ended := 0, fell := 0, ovf := false
              dropped := 0, held := false, stop := none, fixedBroken := false }
          let s1 := s.markStarted slot
          { s1 with coll := { s1.coll with batches := s1.coll.batches ++ [b] } }.noteWaiting p c

/-- What an engine meets when it runs the operation of a communicator: an error in a pan slot, in staging memory or in
memory stops the context (R183, R313). -/
def State.engineMeets (s : State) (k : Option Comm) (f : DataFault) (go : State → State) : State :=
  match f, k with
  | .none, _ | _, none => go s
  | .panParity, some k => s.stopContext k.part k.ctx stKilled
  | .memory b, some k =>
    let m := s.meets (some b)
    match m.2 with
    | some pa => (s.stopContext k.part k.ctx stKilled).uncorrectable pa 1
    | none => go m.1

/-- `COLL_OP_START`: the next descriptor of a communicator's batch. -/
def execCollOpStart (h : Nat) (f : DataFault) (s : State) : Host.Outcome State Fault Refusal :=
  .next (match s.comm h, s.batchOf h with
    | some k, some b =>
      if b.held ∨ b.stop.isSome ∨ k.op.isSome ∨ k.broken ∨ !s.clocksRun ∨ !s.ctxLive k.part k.ctx
          ∨ (s.batchOnChip b ∧ s.resident k.part ≠ some k.ctx) then s
      else s.engineMeets (some k) f fun a => (a.startDesc k b).deliverAll
    | _, _ => s)

/-- `PAN_SLOT_GRANT`: requests at the head of a pan's queue that fit. -/
def execPanSlotGrant (pan : Nat) (f : DataFault) (s : State) : Host.Outcome State Fault Refusal :=
  let q := s.coll.panQueue.getD pan []
  .next (if s.clocksRun then
      s.engineMeets (q.head?.bind fun r => s.comm r.comm) f fun a => (a.servePan pan q.length).claimAll.deliverAll
    else s)

/-- `PAN_WAIT_EXPIRY`: a request of the communicator has waited `PAN_WAIT_FRAMES`. -/
def execPanWaitExpiry (h : Nat) (f : DataFault) (s : State) : Host.Outcome State Fault Refusal :=
  let late := s.coll.panQueue.any fun q => q.any fun r =>
    r.comm == h && decide (r.frame + cfg s.config.active 0x24 2 ≤ s.power.frame.toNat)
  .next (if late && s.clocksRun then
      s.engineMeets (s.comm h) f fun a =>
        let s1 := { a with coll := a.coll.unqueue h }
        ((s1.withOp h fun k o => s1.setOp k { o with lastRx := s.power.frame.toNat }).askFallback h).deliverAll
    else s)

/-- `COLL_TIMEOUT` (R333). -/
def execCollTimeout (h : Nat) (s : State) : Host.Outcome State Fault Refusal :=
  .next (s.withOp h fun k o =>
    if o.lastRx + k.timeoutMs * 50 ≤ s.power.frame.toNat ∧ !s.panWaits h ∧ s.clocksRun then s.closeOp h fun _ => stTimeout
    else s)

/-- `BATCH_SUSPEND_TIMEOUT`: 100 ms after a soft `SUSPEND` the operation ends as for a hard one. -/
def execBatchSuspendTimeout (slot : Nat) (s : State) : Host.Outcome State Fault Refusal :=
  .next (match s.coll.batches.find? (fun b => !b.held && stopNames slot b.slot b.stop) with
    | some b =>
      match b.stop with
      | some r =>
        if !r.cancel ∧ !r.hard ∧ r.since + 5000 ≤ s.power.frame.toNat then s.endOp b.handle stCancelled else s
      | none => s
    | none => s)

/-! ## Collective packets -/

/-- A packet of a type, which has arrived at the module. -/
def arrives (t : Nat) (p : Packet) (s : State) : State :=
  if p.ptype.toNat = t then (s.ingress { iod := 0, src := none, pkt := p }).deliverAll else s

/-- The running operation that a packet belongs to. -/
def State.dataFor (s : State) (p : Packet) : Option Comm :=
  if s.accepts && s.destOk p then
    (s.commOf p).filter fun k => k.op.isSome && k.opSeq.toNat == (Obj.of p.obj).seq
  else none

/-- A packet of a type of the collective engines, with what the engine meets when it acts on it. -/
def State.enginePacket (s : State) (t : Nat) (p : Packet) (f : DataFault) : State :=
  s.engineMeets (s.dataFor p) f (arrives t p)

def execChdr (p : Packet) (f : DataFault) (s : State) : Host.Outcome State Fault Refusal := .next (s.enginePacket ptChdr p f)

def execCdata (p : Packet) (f : DataFault) (s : State) : Host.Outcome State Fault Refusal := .next (s.enginePacket ptCdata p f)

def execCredit (p : Packet) (f : DataFault) (s : State) : Host.Outcome State Fault Refusal := .next (s.enginePacket ptCredit p f)

def execClaim (p : Packet) (f : DataFault) (s : State) : Host.Outcome State Fault Refusal := .next (s.enginePacket ptClaim p f)

def execGo (p : Packet) (f : DataFault) (s : State) : Host.Outcome State Fault Refusal := .next (s.enginePacket ptGo p f)

def execFallbkUp (p : Packet) (f : DataFault) (s : State) : Host.Outcome State Fault Refusal := .next (s.enginePacket ptFallbkUp p f)

def execFallbkDn (p : Packet) (f : DataFault) (s : State) : Host.Outcome State Fault Refusal := .next (s.enginePacket ptFallbkDn p f)

def execCounts (p : Packet) (f : DataFault) (s : State) : Host.Outcome State Fault Refusal := .next (s.enginePacket ptCounts p f)

def execBarUp (p : Packet) (s : State) : Host.Outcome State Fault Refusal := .next (arrives ptBarUp p s)

def execBarDn (p : Packet) (s : State) : Host.Outcome State Fault Refusal := .next (arrives ptBarDn p s)

/-! ## Beacon (R328 to R332) -/

/-- `BEACON_ASSIGN` waits for the next frame boundary (R227). -/
def execBeaconAssign (slot : Nat) (s : State) : Host.Outcome State Fault Refusal :=
  command slot opBeaconAssign s fun t =>
    let c := s.body slot 0 1
    let en := s.body slot 1 1
    let h := s.body slot 2 2
    let ok := match s.comm h with
      | some k => k.trees != 0 && k.beaconArea != 0
      | none => false
    if 15 < c ∨ 1 < en ∨ 4095 < h ∨ (en = 1 ∧ !ok) then s.complete t (.of stBadField)
    else if (s.beacon c).busy.isSome then s.complete t (.of stBusy)
    else
      let s1 := s.markStarted slot
      { s1 with config := { s1.config with writes := s1.config.writes ++ [
        { slot, cap := none, boost := none, fixed := none, mhz := none
          beacon := some (c, BitVec.ofNat 32 (h + en * 2 ^ 16)), applied := false }] } }

def execBeaconTrigger (chan : Nat) (bseq : BitVec 32) (s : State) : Host.Outcome State Fault Refusal :=
  .next (if s.clocksRun ∧ chan < 16 then (s.beaconTrigger chan bseq).deliverAll else s)

def execBeaconUp (p : Packet) (s : State) : Host.Outcome State Fault Refusal := .next (arrives ptBeaconUp p s)

def execBeaconDn (p : Packet) (s : State) : Host.Outcome State Fault Refusal := .next (arrives ptBeaconDn p s)

/-- `BEACON_TIMEOUT` (R332). -/
def execBeaconTimeout (chan : Nat) (s : State) : Host.Outcome State Fault Refusal :=
  let b := s.beacon chan
  .next (match b.busy, s.comm b.comm with
    | some (bseq, f), some k =>
      if f + k.timeoutMs * 50 ≤ s.power.frame.toNat then
        (s.setBeacon chan { Beacon.reset with failed := true, seq := b.seq, comm := b.comm }).beaconResult k chan bseq stTimeout false []
      else s
    | _, _ => s)

/-! ## Flits and packets (R265 to R268, R277, R280) -/

/-- A flit that the receiver discards: a fault is counted, and the first discarded one asks for a replay (R268). -/
def State.askReplay (s : State) (h : Nat) (fault : Bool) : State :=
  let k := s.port h
  let k1 := if fault then k.bump cntCrc 1 else k
  if k.asked then s.setPort h k1 else (s.setPort h ({ k1 with asked := true }.bump cntReplay 1)).sendPlain h ftReplay

/-- The uncorrected codewords of a flit enter the count of the frame; more than 100 in one lane retrain the port (R269). -/
def State.noteErrors (s : State) (h : Nat) (f : Flit) : State :=
  let k := (((s.port h).bump cntFecCorr f.fecCorr).bump cntFecUncorr f.fecUncorr.sum)
  let l := (List.range 8).map fun i => k.laneErrors.getD i 0 + f.fecUncorr.getD i 0
  let s1 := s.setPort h { k with laneErrors := l }
  if k.linked && l.any (fun n => decide (100 < n)) then s1.retrain h else s1

/-- A data flit in order: its packets are routed, and its credit is owed back. A reserved bit of a header, or a `LEN`
above 4,096, makes a packet not well formed (R272, R280 step 4). -/
def State.takeData (s : State) (h : Nat) (vl : Nat) (payload : List Byte) : State :=
  let k := s.port h
  match k.rxKey with
  | none => s
  | some key =>
    let r := takePackets 256 key (k.rxBytes.getD vl [] ++ payload) []
    let s1 := s.setPort h { k with
      rxBytes := setAt k.rxBytes vl r.2.1, rxKey := some r.2.2.1, owed := modifyAt k.owed vl (· + 1) }
    if !r.2.2.2 then s1.portDown h causeAuth
    else
      (r.1.foldl (fun a (x : Option Packet) => match x with
        | some p => a.routePacket (iodOf h) (some h) p
        | none => a.drop (some h) cntDropGen) s1).deliverAll

/-- A link-control flit in order; what it says arrives by the rows `EP_ID_FLIT`, `KEY_AGREEMENT` and `TIME_FLIT`. -/
def State.takeControl (s : State) (h : Nat) (seq : BitVec 12) (payload : List Byte) : State :=
  let k := s.port h
  if k.controlOk seq payload then s.setPort h (k.peerSwitched payload) else s.portDown h causeAuth

/-- Send what a half can send, or an idle flit that carries the acknowledgement. -/
def State.answerFlit (s : State) (h : Nat) : State :=
  let t := s.drainPort h
  if (t.port h).linked && t.out.length == s.out.length then t.sendPlain h ftIdle else t

/-- `FLIT_RECEIVE`. Data flits are taken once the link has keys (R270); before, they are discarded. -/
def execFlitReceive (pid : Nat) (f : Flit) (s : State) : Host.Outcome State Fault Refusal :=
  onPort pid s fun h k0 =>
    if !k0.linked ∧ k0.st ≠ .secure then s
    else
      let hd := flitHead f.bytes
      let s0 := s.noteErrors h f
      if (s0.port h).st = .retraining then s0
      else if !flitGood f.bytes then s0.askReplay h true
      else if hd.ftype = ftReplay then ((s0.setPort h ((s0.port h).returned hd)).resend h hd.ack).drainPort h
      else
        let s1 := s0.setPort h (((s0.port h).acked hd.ack).returned hd)
        if hd.ftype = ftIdle then s1.drainPort h
        else if hd.fseq ≠ k0.rxSeq + 1 then s0.askReplay h false
        else if hd.ftype = ftData ∧ k0.st = .secure then s0
        else
          let k := s1.port h
          let s2 := s1.setPort h { k with rxSeq := hd.fseq, asked := false, rxKeyFlits := k.rxKeyFlits + 1 }
          (if hd.ftype = ftData then s2.takeData h hd.vl (flitPayload f.bytes)
            else s2.takeControl h hd.fseq (flitPayload f.bytes)).answerFlit h

/-- `PACKET_ROUTE`: a packet from a port, or from one of the module's own agents. -/
def execPacketRoute (iod : Nat) (from? : Option Nat) (p : Packet) (s : State) : Host.Outcome State Fault Refusal :=
  .next (if s.board.railsUp ∧ iod < 4 then (s.routePacket iod (from?.bind s.halfNamed) p).deliverAll else s)

/-- `PACKET_INGRESS`. -/
def execPacketIngress (pid : Nat) (p : Packet) (s : State) : Host.Outcome State Fault Refusal :=
  onPort pid s fun h _ => (s.ingress { iod := iodOf h, src := some h, pkt := p }).deliverAll

end Sys2Proof.Machine
end

