-- ==== Sys2Proof/Machine/Operations.lean ====
section
/-! DEFINITION. `SUSPEND`, `RESUME`, `CANCEL`, `QUERY` and the resumable points of their targets
(R221 to R223, R255, R256, R335). -/

namespace Sys2Proof.Machine

/-! ## Targets -/

/-- An operation that a slot and a `SEQ` name. -/
inductive Target where
  | submit (u : Submit)
  | transfer (x : Transfer)
  | batch (b : Batch)
deriving DecidableEq, Repr

def Target.held : Target → Bool
  | .submit u => u.held
  | .transfer x => x.held
  | .batch b => b.held

def Target.stop : Target → Option StopReq
  | .submit u => u.stop
  | .transfer x => x.stop
  | .batch b => b.stop

/-- Items complete, bytes moved or descriptors ended. -/
def Target.progress : Target → Nat
  | .submit u => u.complete
  | .transfer x => x.moved
  | .batch b => b.ended

def Target.part : Target → Nat
  | .submit u => u.part
  | .transfer x => x.part
  | .batch b => b.part

def Target.ctx : Target → Nat
  | .submit u => u.ctx
  | .transfer x => x.ctx
  | .batch b => b.ctx

/-- The operation that the body of a command names, when the header agrees with it (R221). -/
def State.target (s : State) (t : Taken) : Option Target :=
  let slot := s.body t.slot 0 2
  let seq := BitVec.ofNat 32 (s.body t.slot 4 4)
  let same := fun (p c : Nat) (pg cg : BitVec 8) =>
    t.part.toNat == p && t.ctx.toNat == c && t.pgen == pg && t.cgen == cg
  match s.disp.submits.find? fun u => u.slot == slot && u.seq == seq && same u.part u.ctx u.pgen u.cgen with
  | some u => some (.submit u)
  | none =>
    match s.disp.transfers.find? fun x => x.slot == slot && x.seq == seq && same x.part x.ctx x.pgen x.cgen with
    | some x => some (.transfer x)
    | none =>
      (s.coll.batches.find? fun b => b.slot == slot && b.seq == seq && same b.part b.ctx b.pgen b.cgen).map .batch

/-- `TGT_SLOT` and `MODE` are in range, and the carrier that the name has, if any, is a Long
command. -/
def State.nameOk (s : State) (t : Taken) (modes : Nat) : Bool :=
  let slot := s.body t.slot 0 2
  decide (slot < 1024 ∧ s.body t.slot 8 1 < modes)
    && !s.mail.taken.any fun x => x.slot == slot && x.seq.toNat == s.body t.slot 4 4 && !opcodeLong x.opcode.toNat
        && x.opcode.toNat != opResume

/-- The target of a `SUSPEND`, `RESUME` or `CANCEL`: a `SUBMIT` whose items have all ended is complete for them, and its
completion stands (R223). -/
def State.liveTarget (s : State) (t : Taken) : Option Target :=
  (s.target t).filter fun x => match x with | .submit u => !u.over || u.stop.isSome | _ => true

/-- Put back a changed operation. -/
def State.setTarget (s : State) (old new : Target) : State :=
  match old, new with
  | .submit _, .submit u => s.setSubmit u
  | .transfer x, .transfer y =>
    { s with disp := { s.disp with transfers := s.disp.transfers.map fun z => if z = x then y else z } }
  | .batch b, .batch c => { s with coll := { s.coll with batches := s.coll.batches.map fun z => if z = b then c else z } }
  | _, _ => s

def Target.withStop (x : Target) (r : Option StopReq) : Target :=
  match x with
  | .submit u => .submit { u with stop := r }
  | .transfer y => .transfer { y with stop := r }
  | .batch b => .batch { b with stop := r }

/-- A held operation continues under the slot and `SEQ` of its `RESUME`; the 500 frames of R251 run from it. -/
def Target.resumed (x : Target) (t : Taken) : Target :=
  match x with
  | .submit u => .submit { u with held := false, slot := t.slot, seq := t.seq, idleFrames := 0, aged := false }
  | .transfer y => .transfer { y with held := false, slot := t.slot, seq := t.seq }
  | .batch b => .batch { b with held := false, slot := t.slot, seq := t.seq }

def Target.broken : Target → Bool
  | .submit u => u.fixedBroken
  | .transfer x => x.fixedBroken
  | .batch b => b.fixedBroken

/-- Discard a held operation. -/
def State.discard (s : State) : Target → State
  | .submit u => s.dropSubmit u.order
  | .transfer x => { s with disp := { s.disp with transfers := s.disp.transfers.filter (· != x) } }
  | .batch b => { s with coll := { s.coll with batches := s.coll.batches.filter (· != b) } }

/-- Operations held, or with a `SUSPEND` pending: one that is pending counts toward the 256 of R221 too, since it will be
held (DESIGN CHOICE, assumption log entry 76). -/
def State.heldCount (s : State) : Nat :=
  let f := fun (held : Bool) (r : Option StopReq) => held || r.any fun x => !x.cancel
  (s.disp.submits.filter fun u => f u.held u.stop).length
    + (s.disp.transfers.filter fun u => f u.held u.stop).length
    + (s.coll.batches.filter fun u => f u.held u.stop).length

/-- Apply a `SUSPEND` or `CANCEL` to a running operation; a `SUBMIT` stops its items at once for a
hard one and for a `CANCEL`. -/
def State.applyStop (s : State) (t : Taken) (x : Target) (cancel hard : Bool) : State :=
  let r : StopReq := { slot := t.slot, cancel, hard, since := s.power.frame.toNat }
  let s1 := ((s.markStarted t.slot).setTarget x (x.withStop (some r))).noteWaiting x.part x.ctx
  match x with
  | .submit u => if cancel || hard then s1.requestItems u.order cancel else s1
  | _ => s1

/-! ## The commands -/

def execSuspend (slot : Nat) (s : State) : Host.Outcome State Fault Refusal :=
  command slot opSuspend s fun t =>
    if !s.nameOk t 2 then s.complete t (.of stBadField)
    else
      match s.liveTarget t with
      | none => s.complete t (.of stWrongState)
      | some x =>
        if x.held then s.complete t (.of stWrongState)
        else if x.stop.isSome then s.complete t (.of stBusy)
        else if 256 ≤ s.heldCount then s.complete t (.of stNoResource)
        else s.applyStop t x false (s.body slot 8 1 == 1)

/-- `RESUME`; a batch whose communicator is Broken completes at once (R335). -/
def execResume (slot : Nat) (s : State) : Host.Outcome State Fault Refusal :=
  command slot opResume s fun t =>
    if !s.nameOk t 1 then s.complete t (.of stBadField)
    else
      match s.liveTarget t with
      | none => s.complete t (.of stWrongState)
      | some x =>
        if x.stop.isSome then s.complete t (.of stBusy)
        else if !x.held then s.complete t (.of stWrongState)
        else
          let taken := s.mail.taken.map fun (y : Taken) =>
            if y.slot = slot then { y with started := true, fixedBroken := y.fixedBroken || x.broken } else y
          let s1 : State := { s with mail := { s.mail with taken } }
          let s2 := s1.setTarget x (x.resumed t)
          match x with
          | .batch b =>
            if (s.comm b.handle).all (·.broken) then
              s2.endBatch { b with held := false, slot := t.slot, seq := t.seq } stCancelled b.idx stDone
            else s2.noteWaiting x.part x.ctx
          | _ => s2.noteWaiting x.part x.ctx

def execCancel (slot : Nat) (s : State) : Host.Outcome State Fault Refusal :=
  command slot opCancel s fun t =>
    if !s.nameOk t 1 then s.complete t (.of stBadField)
    else
      match s.liveTarget t with
      | none => s.complete t (.of stWrongState)
      | some x =>
        if x.held then (s.discard x).complete t { Report.of stDone with r0 := 1 }
        else if cancelled x.stop then s.complete t (.of stBusy)
        else (s.applyStop t x true true).endStop x.stop stWrongState

/-- `QUERY`: 0 for a name that matches nothing, 1 running, 2 suspended. -/
def execQuery (slot : Nat) (s : State) : Host.Outcome State Fault Refusal :=
  command slot opQuery s fun t =>
    if !s.nameOk t 1 then s.complete t (.of stBadField)
    else
      match s.target t with
      | none => s.complete t (.of stDone)
      | some x =>
        s.complete t { Report.of stDone with
          r0 := if x.held then 2 else 1, r1 := x.progress
          energy := match x with | .submit u => s.energyMj u false | _ => 0
          flags := match x with | .submit u => s.coarseFlag u.part | _ => 0 }

/-! ## Resumable points (R222, R255, R256) -/

/-- A `SUBMIT` that starts no more items. -/
def Submit.cut (u : Submit) : Submit := { u with next := u.items, reruns := [], requeued := [], saved := [] }

/-- A `SUBMIT` with no item running is held or ends; one whose items have all ended completes as such. -/
def State.submitPoint (s : State) (u : Submit) : State :=
  if u.running ≠ [] then s
  else if cancelled u.stop then s.settle u.cut
  else if u.over then s
  else
    ((((s.completeSlot u.slot (s.submitReport u stSuspended)).setSubmit
      { u with held := true, stop := none, fixedBroken := u.fixedBroken || s.brokenIn u.slot }).freezeTotals
        u.part).endStop u.stop stDone).settleResidency u.part

/-- Multiples of 2 MiB at which a transfer can stop. -/
def Transfer.points (x : Transfer) : List Nat :=
  ((List.range (x.len / granuleSize + 1)).map (· * granuleSize)).filter fun m => decide (x.moved < m ∧ m < x.len)

/-- A transfer moves on to one of its points, and is held or ends; without a point it runs to its
end. -/
def State.transferPoint (s : State) (x : Transfer) : State :=
  match x.points with
  | [] => s
  | m :: rest =>
    let f := s.free
    let upto := (m :: rest).getD (f.1 % (rest.length + 1)) m
    let r := f.2.advance x upto
    if r.2 ≠ upto then r.1.endTransfer x stBadField r.2 stWrongState
    else if cancelled x.stop then r.1.endTransfer x stCancelled upto stDone
    else
      ((r.1.completeSlot x.slot { Report.of stSuspended with r0 := upto }).setTransfer
        { x with moved := upto, held := true, stop := none, fixedBroken := x.fixedBroken || s.brokenIn x.slot }).endStop
          x.stop stDone

/-- A batch between operations is held or ends; a running operation is cancelled locally unless
the `SUSPEND` is soft. -/
def State.batchPoint (s : State) (b : Batch) : State :=
  let soft := match b.stop with | some r => !r.cancel && !r.hard | none => true
  if s.batchRuns b then (if soft then s else s.endOp b.handle stCancelled)
  else if cancelled b.stop then s.endBatch b stCancelled b.count stDone
  else s.holdBatch b

/-- `SUSPEND_POINT`: the slot names the target's carrier or the stop. -/
def execSuspendPoint (slot : Nat) (s : State) : Host.Outcome State Fault Refusal :=
  .next (match s.disp.submits.find? (fun u => !u.held && stopNames slot u.slot u.stop) with
    | some u => s.submitPoint u
    | none =>
      match s.disp.transfers.find? (fun x => !x.held && stopNames slot x.slot x.stop) with
      | some x => if s.clocksRun then s.transferPoint x else s
      | none =>
        match s.coll.batches.find? (fun b => !b.held && stopNames slot b.slot b.stop) with
        | some b => s.batchPoint b
        | none => s)

end Sys2Proof.Machine
end

