-- ==== Sys2Proof/Machine/HostAccess.lean ====
section
/-! DEFINITION. The host's apertures and memory windows, and the admission conditions of
confidential partitions (R193 to R207, R422 to R424). -/

namespace Sys2Proof.Machine

/-! ## ADMISSION_LOST (R424) -/

/-- The partition of a window is confidential. -/
def State.windowConf (s : State) (w : Window) : Bool := s.confidential w.part.toNat

/-- Stop contexts of confidential partitions: all, or those with host access. -/
def State.stopConf (s : State) (all : Bool) : State :=
  ((List.range 8).filter s.confidential).foldl (fun a p =>
    (List.range 16).foldl (fun b c => if all || (b.ctx p c).host then b.stopContext p c stKilled else b) a) s

/-- A condition of the first row ceases to hold. -/
def State.admissionLost (s : State) : State := (s.uncommit s.windowConf).stopConf true

/-- A condition of the second row ceases to hold. -/
def State.hostAdmissionLost (s : State) : State := (s.uncommit s.windowConf).stopConf false

/-- `CONFIG_LOCKED` or `RUN`. -/
def State.locked (s : State) : Bool := s.sec.tdi == .configLocked || s.sec.tdi == .run

/-- After a change, the actions for conditions that held before it and no longer do. -/
def State.settleAdmission (before s : State) : State :=
  let held := fun (x : State) => x.locked && x.ideIoGo && !x.sec.error
  if held before && !held s then s.admissionLost
  else if before.hostAdmission && !s.hostAdmission then s.hostAdmissionLost
  else s

def State.setTdi (s : State) (t : TdiState) : State :=
  State.settleAdmission s { s with sec := { s.sec with tdi := t } }

/-- A change that a locked interface does not allow (R422). -/
def State.tdiChange (s : State) : State := if s.locked then s.setTdi .error else s

/-! ## HDM decoders (R195, R196, R205 to R207) -/

def windowUnit : Nat := 2 ^ 28

/-- The window lies in memory of its partition, without the crash dump. -/
def State.windowRange (s : State) (w : Window) : Bool :=
  let a := w.dpa.toNat
  let n := w.size.toNat
  (decide (a + n ≤ 2 ^ 41) || decide (ddrBase ≤ a ∧ a + n ≤ ddrBase + 12 * 2 ^ 38))
    && (List.range (n / granuleSize)).all fun i =>
      let pa := a + i * granuleSize
      s.inPart w.part.toNat (pa / granuleSize) && !s.inDump pa

/-- Conditions of a commit (R207, R423, R462). -/
def State.commitOk (s : State) (i : Nat) (w : Window) (size : Nat) : Bool :=
  !s.flash.persist.oos && w.en && decide (w.part.toNat < 8) && (s.part w.part.toNat).inService
    && w.size.toNat == size && size % windowUnit == 0 && size != 0 && s.windowRange w
    && (!s.windowConf w || (s.hostAdmission && (s.mail.windows.getD i Window.reset).tsp))

def State.setWindow (s : State) (i : Nat) (w : Window) : State :=
  { s with mail := { s.mail with windows := setAt s.mail.windows i w } }

/-- `HDM_COMMIT`. -/
def execHdmCommit (w : Nat) (base : Nat) (size : Nat) (s : State) : Host.Outcome State Fault Refusal :=
  .next (if !s.hostUp ∨ 8 ≤ w then s
    else
      let old := s.mail.windows.getD w Window.reset
      let s1 := if old.committed && s.windowConf old then s.tdiChange else s
      let d := s1.mail.windows.getD w Window.reset
      if !s.board.flit256 then s1.setWindow w { d with committed := false, notCommitted := true }
      else if s1.commitOk w d size then
        s1.setWindow w { d with committed := true, notCommitted := false, refused := false, base, length := size }
      else s1.setWindow w { d with committed := false, notCommitted := true, refused := true })

/-! ## Host reads and writes of memory (R193) -/

/-- The window that decodes a host address. -/
def State.windowAt (s : State) (addr : Nat) : Option Window :=
  s.mail.windows.find? fun w => w.committed && decide (w.base ≤ addr ∧ addr < w.base + w.length)

def Window.toDpa (w : Window) (addr : Nat) : Nat := w.dpa.toNat + (addr - w.base)

def snoopLines : Nat := 1048576

/-- The host may hold a line: the filter of an I/O die takes it, back-invalidating its oldest
line when it is full. -/
def State.holdLine (s : State) (line : Nat) : State :=
  let d := line % 4
  let l := (SMap.find s.mem.snoop d).getD []
  if l.contains line then s
  else
    let full := decide (snoopLines ≤ l.length)
    let l1 := (if full then l.drop 1 else l) ++ [line]
    let s1 := { s with mem := { s.mem with snoop := SMap.put s.mem.snoop d l1 } }
    if full then s1.emit (.snoop (l.headD 0)) else s1

/-- Record an error in the CXL RAS capability. -/
def State.ras (s : State) (kind addr : Nat) : State :=
  { s with mem := { s.mem with ras := s.mem.ras ++ [{ kind, addr }] } }

/-- Kinds of recorded errors: uncorrectable data, an unanswered snoop, an unanswered CXL.cache
request, an access without the trusted-execution attribute. -/
def rasData : Nat := 0
def rasSnoop : Nat := 1
def rasCache : Nat := 2
def rasTee : Nat := 3

/-- Lines of 64 bytes that a range touches. -/
def linesOf (a n : Nat) : List Nat := (List.range ((a % 64 + n + 63) / 64)).map (a / 64 + ·)

/-- A byte as the host reads it: zero in a free granule. -/
def State.hostByte (s : State) (pa : Nat) : Byte :=
  if (s.granule (pa / granuleSize)).owner = .free then 0
  else s.readByte { part := 0, ctx := 0, cgen := 0 } pa

/-- `HOST_MEM_READ`; the context or the contexts that own the granule of uncorrectable data stop. -/
def execHostMemRead (addr : Nat) (len : Nat) (tee : Bool) (e : ReadErr) (s : State) :
    Host.Outcome State Fault Refusal :=
  let m := s.meets e.bad
  .next (match s.windowAt addr with
    | none => s
    | some w =>
      let pa := w.toDpa addr
      let ones := OutMsg.hostData (List.replicate len 0xFF)
      if !s.hostUp ∨ w.base + w.length < addr + len then s
      else if s.windowConf w && !tee then (s.ras rasTee addr).emit ones
      else
        let s := m.1
        match hitPiece [{ va := addr, pa, len }] m.2 with
        | some (x, _) => (((s.stopGranule (x / granuleSize)).uncorrectable x 1).ras rasData addr).emit ones
        | none =>
          let s1 := (linesOf pa len).foldl State.holdLine
            (s.emit (.hostData ((List.range len).map fun i => s.hostByte (pa + i))))
          match hitPiece [{ va := addr, pa, len }] e.corrected with
          | some (x, _) => s1.correctedError (x / 4096)
          | none => s1)

/-- Store bytes from the host; those in free granules are discarded. -/
def State.hostStore (s : State) (pa : Nat) : List Byte → State
  | [] => s
  | b :: rest =>
    (if (s.granule (pa / granuleSize)).owner = .free then s
      else s.writeByte { part := 0, ctx := 0, cgen := 0 } pa b).hostStore (pa + 1) rest

def execHostMemWrite (addr : Nat) (data : List Byte) (tee : Bool) (s : State) :
    Host.Outcome State Fault Refusal :=
  .next (match s.windowAt addr with
    | none => s
    | some w =>
      if !s.hostUp ∨ w.base + w.length < addr + data.length then s
      else if s.windowConf w && !tee then s.ras rasTee addr
      else (linesOf (w.toDpa addr) data.length).foldl State.holdLine (s.hostStore (w.toDpa addr) data))

/-- `BI_SNOOP_TIMEOUT`. -/
def execBiSnoopTimeout (line : Nat) (part : Nat) (ctx : Nat) (s : State) : Host.Outcome State Fault Refusal :=
  let l := (SMap.find s.mem.snoop (line % 4)).getD []
  .next (if l.contains line then
    ({ s with mem := { s.mem with snoop := SMap.put s.mem.snoop (line % 4) (l.filter (· != line)) } }.ras rasSnoop
      (line * 64)).stopContext part ctx stKilled
  else s)

/-- `CXL_CACHE_TIMEOUT`: as uncorrectable data, but no page is retired (R194). -/
def execCxlCacheTimeout (part : Nat) (ctx : Nat) (s : State) : Host.Outcome State Fault Refusal :=
  .next (if s.board.cxlUp ∧ (s.ctx part ctx).host then (s.ras rasCache 0).stopContext part ctx stKilled else s)

/-! ## REGISTER_WRITE (R10, R197 to R206) -/

/-- A write to `MBX_ERR`. -/
def Mail.clearErr (m : Mail) (v : BitVec 64) : Mail :=
  { m with
    errTakenWrite := m.errTakenWrite && !v.getLsbD 0, errBadOwn := m.errBadOwn && !v.getLsbD 1
    errCmplFail := m.errCmplFail && !v.getLsbD 2, errCtlIgnored := m.errCtlIgnored && !v.getLsbD 3 }

/-- A write to a window descriptor; a committed one ignores it. -/
def Window.write (w : Window) (off : Nat) (v : BitVec 64) : Window :=
  if w.committed then w
  else if off = 0 then { w with en := v.getLsbD 0, part := v.extractLsb' 4 8 }
  else if off = 8 then { w with dpa := v &&& 0x000FFFFFF0000000 }
  else if off = 0x10 then { w with size := v &&& 0x000FFFFFF0000000 }
  else w

/-- Size of the aperture of a base address register. -/
def barSize (n : Nat) : Nat := if n = 2 then 2 ^ 18 else 2 ^ 16

/-- A write of 64 bits to a register of an aperture or to a base address register. -/
def State.writeReg (s : State) (r : HostReg) (v : BitVec 64) : State :=
  match r with
  | .bar0 off =>
    if off = 8 then
      { s with mail := { s.mail with enable := v.getLsbD 0, evtVec := v.extractLsb' 8 6, evtEn := v.getLsbD 14 } }
    else if off = 0x10 then
      if s.mail.enable then { s with mail := { s.mail with errCtlIgnored := true } }
      else { s with mail := { s.mail with cmplBase := v &&& ~~~0xFFF } }
    else if off = 0x18 then { s with mail := s.mail.clearErr v }
    else if 0x8000 ≤ off ∧ off < 0x8400 ∧ off % 8 = 0 then
      let i := (off - 0x8000) / 16
      let e := s.mail.msix.getD i (0, 0)
      let e1 := if off % 16 = 0 then (v, e.2) else (e.1, v)
      { s with mail := { s.mail with msix := setAt s.mail.msix i e1 } }.tdiChange
    else s
  | .bar4 off =>
    if 0x1000 ≤ off ∧ off < 0x1100 ∧ off % 8 = 0 then
      let i := (off - 0x1000) / 32
      s.setWindow i ((s.mail.windows.getD i Window.reset).write (off % 32) v)
    else s
  | .bar n =>
    if n ∈ [0, 2, 4] then
      { s with mail := { s.mail with
        bars := setAt s.mail.bars (n / 2) (v &&& ~~~(BitVec.ofNat 64 (barSize n - 1))) } }.tdiChange
    else s
  | .msixControl =>
    { s with mail := { s.mail with msixEn := v.getLsbD 15, msixMask := v.getLsbD 14 } }.tdiChange

/-! ## Register reads (R10, R197 to R206)

No row of the table reads a register, since a read changes nothing; these are the values that the port answers. -/

/-- Bits of a word, from a list of (place, value). -/
def bitsWord (l : List (Nat × Nat)) : BitVec 64 := BitVec.ofNat 64 ((l.map fun x => x.2 * 2 ^ x.1).sum)

/-- `MBX_STATUS` (R199). -/
def State.mbxStatus (s : State) : BitVec 64 :=
  let m := s.mail
  bitsWord [(0, m.ready.toNat), (1, m.negotiated.toNat), (2, s.flash.persist.oos.toNat), (3, s.units.noCompute.toNat),
    (4, m.start.toNat), (8, m.level.toNat), (32, m.resetGen.toNat)]

/-- `MBX_CTL` (R200). -/
def Mail.ctlWord (m : Mail) : BitVec 64 := bitsWord [(0, m.enable.toNat), (8, m.evtVec.toNat), (14, m.evtEn.toNat)]

/-- `MBX_ERR` (R202). -/
def Mail.errWord (m : Mail) : BitVec 64 :=
  bitsWord [(0, m.errTakenWrite.toNat), (1, m.errBadOwn.toNat), (2, m.errCmplFail.toNat), (3, m.errCtlIgnored.toNat)]

/-- `EVT_STATUS` (R203). -/
def Mail.evtWord (m : Mail) : BitVec 64 := bitsWord [(0, m.evtLast.toNat), (32, m.evtCount.toNat)]

/-- A register of a window descriptor (R206). -/
def Window.read (w : Window) (off : Nat) : BitVec 64 :=
  if off = 0 then bitsWord [(0, w.en.toNat), (4, w.part.toNat)]
  else if off = 8 then w.dpa
  else if off = 0x10 then w.size
  else bitsWord [(0, w.committed.toNat), (1, w.refused.toNat)]

/-- What a read of 64 bits gives. A base address register reads with the type bits of a 64-bit memory BAR that is not
prefetchable; the CXL component registers, whose layout is CXL's, read as a free value (assumption log entry 44). -/
def State.readReg (s : State) (r : HostReg) : BitVec 64 :=
  let m := s.mail
  match r with
  | .bar0 off =>
    if off = 0 then s.mbxStatus
    else if off = 8 then m.ctlWord
    else if off = 0x10 then m.cmplBase
    else if off = 0x18 then m.errWord
    else if off = 0x20 then m.evtWord
    else if off = 0x28 then s.power.frame
    else if 0x8000 ≤ off ∧ off < 0x8400 ∧ off % 8 = 0 then
      let e := m.msix.getD ((off - 0x8000) / 16) (0, 0)
      if off % 16 = 0 then e.1 else e.2
    else if off = 0x9000 then m.pba
    else 0
  | .bar4 off =>
    if off < 0x1000 then BitVec.ofNat 64 (Config.freeNat (s.freeCtr + off))
    else if off < 0x1100 ∧ off % 8 = 0 then (m.windows.getD ((off - 0x1000) / 32) Window.reset).read (off % 32)
    else 0
  | .bar n => if n ∈ [0, 2, 4] then m.bars.getD (n / 2) 0 ||| 4 else 0
  | .msixControl => bitsWord [(0, 63), (14, m.msixMask.toNat), (15, m.msixEn.toNat)]

def execRegisterWrite (r : HostReg) (v : BitVec 64) (s : State) : Host.Outcome State Fault Refusal :=
  .next (if s.hostUp then s.writeReg r v else s)

end Sys2Proof.Machine
end

