-- ==== Sys2Proof/Machine/Control.lean ====
section
/-! DEFINITION. Control and status registers, system instructions and illegal words
(R86 to R91, R98, R99, R341 to R343). -/

namespace Sys2Proof.Machine

/-! ## The CSR map (R87, R341) -/

/-- What a privilege may do with a register. -/
inductive CsrRight where
  | none_
  | readOnly
  | readWrite
deriving DecidableEq, Repr

/-- User and supervisor rights of a CSR number; none for a reserved number. -/
def csrRights (n : Nat) : Option (CsrRight × CsrRight) :=
  if n = 0x000 ∨ (0x008 ≤ n ∧ n ≤ 0x00F) then some (.readWrite, .readWrite)
  else if 0x010 ≤ n ∧ n ≤ 0x012 then some (.readOnly, .readOnly)
  else if n = 0x020 then some (.readOnly, .readWrite)
  else if n = 0x042 ∨ n = 0x043 ∨ n = 0x046 then some (.none_, .readOnly)
  else if 0x040 ≤ n ∧ n ≤ 0x045 then some (.none_, .readWrite)
  else if n = 0x100 ∨ (0x108 ≤ n ∧ n ≤ 0x10F) ∨ n = 0x118 then some (.readOnly, .readWrite)
  else if (0x110 ≤ n ∧ n ≤ 0x117) ∨ (0x119 ≤ n ∧ n ≤ 0x11C) then some (.none_, .readWrite)
  else if 0x180 ≤ n ∧ n ≤ 0x1DF then some (.none_, .readOnly)
  else if n = 0x1E0 ∨ n = 0x1E1 then some (.none_, .readWrite)
  else none

/-- User code may read a counter register: `UCTL.USER_READ`, and for `PMCn` a `PMSELn` that
names the cell itself (R341, R343). -/
def Cell.userReads (k : Cell) (c n : Nat) : Bool :=
  if n < 0x100 then true
  else
    let sel := k.pmsel.toList.getD (n - 0x108) 0
    k.uctl && (n = 0x100 || n = 0x118
      || ((sel.extractLsb' 14 3).toNat == mkCell && (sel.extractLsb' 17 4).toNat == c % 16))

/-- The fault of a CSR read, if any (R87, R90). -/
def Cell.csrReadFault (k : Cell) (c n : Nat) : Option (BitVec 8) :=
  match csrRights n with
  | none => some cIllegal
  | some (u, _) =>
    if k.sup then none
    else if u = .none_ ∨ !k.userReads c n then some cPrivileged
    else none

/-- The fault of a CSR write, if any: a write that the supervisor may make is `PRIVILEGED` for
user code, one that nobody may make is `ILLEGAL` (R87). -/
def Cell.csrWriteFault (k : Cell) (n : Nat) : Option (BitVec 8) :=
  match csrRights n with
  | none => some cIllegal
  | some (u, v) =>
    if k.sup then if v = .readWrite then none else some cIllegal
    else if u = .readWrite then none
    else if u = .none_ ∨ v = .readWrite then some cPrivileged
    else some cIllegal

/-- A CSR as it reads (R87, R337, R341). -/
def State.csrGet (s : State) (c : Nat) (k : Cell) (n : Nat) : Word :=
  let census := s.census (c / 16)
  if n = 0x000 then k.cstat.setWidth 64
  else if 0x008 ≤ n ∧ n ≤ 0x00F then (k.stat (BitVec.ofNat 3 (n - 8))).word
  else if n = 0x010 then BitVec.ofNat 64 (c / 16 * 256 + c % 16)
  else if n = 0x011 then s.power.frame
  else if n = 0x012 then
    match k.run with
    | some r => BitVec.ofNat 64 r.item
    | none => 0
  else if n = 0x020 then if k.uctl then 1 else 0
  else if n = 0x040 then k.svec
  else if n = 0x041 then k.epc
  else if n = 0x042 then k.ecause.setWidth 64
  else if n = 0x043 then k.eaddr
  else if n = 0x044 then k.estat
  else if n = 0x045 then k.sscratch
  else if n = 0x046 then k.ptroot
  else if n = 0x100 then if census then 0 else k.cycle
  else if 0x108 ≤ n ∧ n ≤ 0x10F then
    if census then 0 else (k.pmc.toList.getD (n - 0x108) 0).setWidth 64
  else if 0x110 ≤ n ∧ n ≤ 0x117 then k.pmsel.toList.getD (n - 0x110) 0
  else if n = 0x118 then
    if census then 0 else k.pmovf.setWidth 64
  else if 0x119 ≤ n ∧ n ≤ 0x11C then k.pmaddr.toList.getD (n - 0x119) 0
  else if 0x180 ≤ n ∧ n ≤ 0x1DF then
    if !census then 0 else ((s.bank (c / 16)).census.toList.getD (n - 0x180) 0).setWidth 64
  else if n = 0x1E0 then (s.bank (c / 16)).ovf.setWidth 64
  else if n = 0x1E1 then ((s.bank (c / 16)).ovf >>> 64).setWidth 64
  else 0

/-- The fields of `PMSEL` that a write keeps, and whether an encoding in it is reserved (R342). -/
def pmselMask : BitVec 64 := 0x1FFFDCFF

def pmselReserved (v : BitVec 64) : Bool :=
  decide (0x60 ≤ (v.extractLsb' 0 8).toNat) || decide (6 ≤ (v.extractLsb' 14 3).toNat)
    || decide (4 ≤ (v.extractLsb' 21 3).toNat)

/-- Registers whose written ones clear bits: `PMOVF`, `CENSOVF0`, `CENSOVF1` (R341). -/
def csrClears (n : Nat) : Bool := n == 0x118 || n == 0x1E0 || n == 0x1E1

/-- A value that raises `ILLEGAL` when it is written: a reserved encoding in `PMSELn` (R342). -/
def csrIllegal (n : Nat) (v : Word) : Bool := decide (0x110 ≤ n ∧ n ≤ 0x117) && pmselReserved v

/-- A CSR written with a whole word. `clear` are the bits given as 1 to the registers of `csrClears`. -/
def State.csrPut (s : State) (c : Nat) (k : Cell) (n : Nat) (v clear : Word) : State :=
  let census := s.census (c / 16)
  if n = 0x000 then (s.setCell c { k with cstat := v.setWidth 7 })
  else if 0x008 ≤ n ∧ n ≤ 0x00F then (s.setCell c (k.wstat (BitVec.ofNat 3 (n - 8)) (Tstat.ofWord v)))
  else if n = 0x020 then (s.setCell c { k with uctl := v.getLsbD 0 })
  else if n = 0x040 then (s.setCell c { k with svec := v &&& ~~~7 })
  else if n = 0x041 then (s.setCell c { k with epc := v &&& ~~~7 })
  else if n = 0x044 then (s.setCell c { k with ppriv := v.getLsbD 0 })
  else if n = 0x045 then (s.setCell c { k with sscratch := v })
  else if n = 0x100 then
    (if census then s.setCell c k else s.setCell c { k with cycle := v })
  else if 0x108 ≤ n ∧ n ≤ 0x10F then
    (if census then s.setCell c k
      else s.setCell c { k with pmc := k.pmc.setIfInBounds (n - 0x108) (v.setWidth 48) })
  else if 0x110 ≤ n ∧ n ≤ 0x117 then
    (s.setCell c { k with pmsel := k.pmsel.setIfInBounds (n - 0x110) (v &&& pmselMask) })
  else if n = 0x118 then
    (if census then s.setCell c k
      else s.setCell c { k with pmovf := k.pmovf &&& ~~~(clear.setWidth 9) })
  else if 0x119 ≤ n ∧ n ≤ 0x11C then
    (s.setCell c { k with pmaddr := k.pmaddr.setIfInBounds (n - 0x119) v })
  else if n = 0x1E0 then
    let b := s.bank (c / 16)
    ((s.setBank (c / 16) { b with ovf := b.ovf &&& ~~~(clear.setWidth 96) }).setCell c k)
  else if n = 0x1E1 then
    let b := s.bank (c / 16)
    ((s.setBank (c / 16)
      { b with ovf := b.ovf &&& ~~~(((clear.setWidth 32 : BitVec 32).setWidth 96 : BitVec 96) <<< 64) }).setCell c k)
  else (s.setCell c k)

/-- `CSRW`, `CSRS` and `CSRC`: the new value from the old one and the source. A value that the register does not
take is `ILLEGAL` whoever writes it (R137, R342). -/
def csrWrite (f : Word → Word → Word) (clears : Bool) (c : Nat) (o : CsrOp) (u : Upset) (s : State) :
    Host.Outcome State Fault Refusal :=
  s.issue c u kControl fun s k =>
    let n := o.csr.toNat
    let src := k.rs o.r
    let t := s.elapse c n
    let v := f (t.csrGet c (t.cell c) n) src
    if csrIllegal n v then .exc cIllegal 0
    else
      match k.csrWriteFault n with
      | some cause => .exc cause 0
      | none => .next (t.csrPut c (t.cell c).adv n v (if clears then src else 0)) [] [] []

/-- A read of a CSR; a counter has gone on with the clock (R87, R337, R341). -/
def execCsrr (c : Nat) (o : CsrOp) (u : Upset) (s : State) : Host.Outcome State Fault Refusal :=
  s.issue c u kControl fun s k =>
    match k.csrReadFault c o.csr.toNat with
    | some cause => .exc cause 0
    | none =>
      let t := s.elapse c o.csr.toNat
      let k := t.cell c
      .cell t c (k.ws o.r (t.csrGet c k o.csr.toNat)) []

def execCsrw (c : Nat) (o : CsrOp) (u : Upset) (s : State) : Host.Outcome State Fault Refusal :=
  csrWrite (fun _ b => b) true c o u s

def execCsrs (c : Nat) (o : CsrOp) (u : Upset) (s : State) : Host.Outcome State Fault Refusal :=
  csrWrite (fun a b => a ||| b) false c o u s

def execCsrc (c : Nat) (o : CsrOp) (u : Upset) (s : State) : Host.Outcome State Fault Refusal :=
  csrWrite (fun a b => a &&& ~~~b) true c o u s

/-! ## System instructions -/

/-- `SCALL` enters the supervisor with `EPC` at the `SCALL` itself (R137, R138). -/
def execScall (c : Nat) (u : Upset) (s : State) : Host.Outcome State Fault Refusal :=
  s.issue c u kControl fun s _ => .next (s.raise c cScall 0) [ev 0x5A 1] [] []

/-- `SRET` returns to `EPC` at the privilege in `ESTAT.PPRIV`; what was held is delivered at
that boundary (R90, R138, R139). -/
def execSret (c : Nat) (u : Upset) (s : State) : Host.Outcome State Fault Refusal :=
  s.issue c u kScalar fun s k =>
    if !k.sup then .exc cPrivileged 0
    else .next ((s.setCell c { k with pc := k.epc, sup := k.ppriv }).deliver c) [] [] []

/-- The ending that `IEND` and `SEXIT` give to a value (R91). -/
def endingOf (canSave : Bool) (v : Word) : Ending :=
  { kind := if v = 0 then .complete else if canSave && v == 1 then .saved else .failedValue,
    value := v, cause := 0 }

/-- End the item: a fence with `ASYNC`, so the instruction waits for outstanding asynchronous
work (R91, R131). -/
def endItem (s : State) (c : Nat) (k : Cell) (e : Ending) : Eff :=
  if k.async = [] then .next (s.setCell c { k with ended := some e }) [ev 0x5E 1] [] [] else .stall s

def execSexit (c : Nat) (b : BitVec 5) (u : Upset) (s : State) : Host.Outcome State Fault Refusal :=
  s.issue c u kControl fun s k =>
    if !k.sup then .exc cPrivileged 0 else endItem s c k (endingOf true (k.rs b))

def execIend (c : Nat) (b : BitVec 5) (u : Upset) (s : State) : Host.Outcome State Fault Refusal :=
  s.issue c u kControl fun s k => endItem s c k (endingOf false (k.rs b))

def execBrk (c : Nat) (u : Upset) (s : State) : Host.Outcome State Fault Refusal :=
  s.issue c u kControl fun _ _ => .exc cBreakpoint 0

/-- The instruction delivered with a command is the one that the fetch gave, so the cache holds
nothing to discard (R94). -/
def execIfence (c : Nat) (u : Upset) (s : State) : Host.Outcome State Fault Refusal :=
  s.issue c u kControl fun s k => .cell s c k []

/-- The block discards the context's translations of an address, or all of them, in every cell (R134). With
`AUX[0]` = 1 the address register is unused and zero. -/
def execMmuinv (c : Nat) (b : BitVec 5) (all : Bool) (u : Upset) (s : State) : Host.Outcome State Fault Refusal :=
  s.issue c u kScalar fun s k =>
    .legal (!all || b == 0) (if !k.sup then .exc cPrivileged 0
      else
        let t := s.cellTag k
        let va := (k.rs b).toNat
        let s1 := s.dropXlat t.part t.ctx (fun d => d / 16 == c / 16) fun x => all || x.base == va / x.size * x.size
        .cell s1 c (s1.cell c) [])

def execNop (c : Nat) (u : Upset) (s : State) : Host.Outcome State Fault Refusal :=
  s.issue c u kScalar fun s k => .cell s c k []

/-- A word that spells no instruction raises `ILLEGAL` (R99); for one that does, the row of that
instruction is its command. -/
def execIllegalOpcode (c : Nat) (w : BitVec 64) (u : Upset) (s : State) : Host.Outcome State Fault Refusal :=
  s.issue c u kControl fun s _ =>
    match Sys2Proof.decodeCell c w with
    | none => .exc cIllegal 0
    | some _ => .stall s

end Sys2Proof.Machine
end

