-- ==== Sys2Proof/Machine/Counters.lean ====
section
/-! DEFINITION. Performance counters as the host sets and reads them, and instruction sampling
(R336, R344 to R353). -/

namespace Sys2Proof.Machine

/-! ## CNT_CONFIG (R344, R345, R347) -/

/-- The blocks that a `CNT_CONFIG` names. -/
def State.cntBlocks (s : State) (slot : Nat) : List Nat :=
  (List.range (s.body slot 2 1)).map (s.body slot 1 1 + ·)

/-- `PART` names the holder of every named block, or is 0xFF where none has one. -/
def State.cntPartOk (s : State) (t : Taken) (blocks : List Nat) : Bool :=
  blocks.all fun b => s.ownerOf (b / 16) == (if t.part.toNat = 0xFF then none else some t.part.toNat)

/-- The values for `PMSEL0` to `PMSEL7`, or for the `PMADDR` registers. -/
def State.bodyWords (s : State) (slot off n : Nat) : List (BitVec 64) :=
  (List.range n).map fun i => BitVec.ofNat 64 (s.body slot (off + 8 * i) 8)

/-- Fields of the body (R344). -/
def State.cntFieldsOk (s : State) (t : Taken) (op : Nat) : Bool :=
  let n := s.body t.slot 2 1
  decide (op ≤ 2 ∧ 1 ≤ n ∧ s.body t.slot 1 1 + n ≤ 128) && s.cntPartOk t (s.cntBlocks t.slot)
    && (if op = 0 then (s.bodyWords t.slot 8 8).all fun v => !pmselReserved v && (v &&& ~~~pmselMask) == 0
      else op != 1 || s.bufOk t.slot)

/-- A `CNT_CONFIG` waits for the next frame boundary. -/
def State.startCnt (s : State) (t : Taken) (op : Nat) : State :=
  if !s.cntFieldsOk t op then s.complete t (.of stBadField)
  else if op ≠ 1 ∧ t.part.toNat ≠ 0xFF ∧ s.confidential t.part.toNat then s.complete t (.of stWrongState)
  else
    let s1 := s.markStarted t.slot
    { s1 with config := { s1.config with counters := s1.config.counters ++ [
      { slot := t.slot, op, first := s.body t.slot 1 1, n := s.body t.slot 2 1
        cellMask := BitVec.ofNat 16 (s.body t.slot 4 2), pmsel := s.bodyWords t.slot 8 8
        pmaddr := s.bodyWords t.slot 0x48 4, buf := s.body t.slot 8 8, len := s.body t.slot 0x10 4 }] } }

/-- `CNT_CONFIG` with `OP` 0, or with a reserved `OP`. -/
def execCntConfigConfigure (slot : Nat) (s : State) : Host.Outcome State Fault Refusal :=
  let op := s.body slot 0 1
  if op = 1 ∨ op = 2 then .next s else command slot opCntConfig s fun t => s.startCnt t op

def execCntConfigRead (slot : Nat) (s : State) : Host.Outcome State Fault Refusal :=
  if s.body slot 0 1 ≠ 1 then .next s else command slot opCntConfig s fun t => s.startCnt t 1

def execCntConfigClear (slot : Nat) (s : State) : Host.Outcome State Fault Refusal :=
  if s.body slot 0 1 ≠ 2 then .next s else command slot opCntConfig s fun t => s.startCnt t 2

/-! ## At the frame boundary (R336, R345, R346) -/

/-- Change every cell. -/
def State.mapCells (s : State) (f : Nat → Cell → Cell) : State :=
  { s with cells := s.cells.map fun x => (x.1, f x.1 x.2) }

def Cell.clearCounters (k : Cell) : Cell :=
  { k with cycle := 0, slotUsed := 0, pmc := Vector.replicate 8 0, pmovf := 0 }

/-- Clear every counter and sticky bit of a block, in both modes. -/
def State.clearBlock (s : State) (b : Nat) : State :=
  { s.mapCells fun i k => if i / 16 = b then k.clearCounters else k with banks := s.banks.del b }

/-- Blocks whose `CNT_MODE` bit a swap changed. -/
def State.clearChanged (s : State) (before : ConfigSet) : State :=
  ((List.range 128).filter fun b =>
    before.getLsbD (8 * 0x10 + b) != s.config.active.getLsbD (8 * 0x10 + b)).foldl State.clearBlock s

/-- The counter registers of a cell in their order in a record. -/
def cellCounterRegs : List Nat := 0x100 :: (List.range 8).map (0x108 + ·) ++ [0x118]

/-- The bytes of registers as they read. -/
def State.regBytes (s : State) (c : Nat) (l : List Nat) : List Byte :=
  l.flatMap fun n => leBytes 8 (s.csrGet c (s.cell c) n).toNat

/-- Time passes for every counter of a block (R345). -/
def State.elapseBlock (s : State) (b : Nat) : State :=
  ((List.range 16).foldl (fun a i => a.elapseCell (16 * b + i)) s).elapseBank b

/-- Select mode: the entries of 16 cells. A fenced cell's holds what it counted until it was fenced (R346). -/
def State.selectBytes (s : State) (b : Nat) : List Byte :=
  (List.range 16).flatMap fun i =>
    if s.enabledCells.getLsbD i then s.regBytes (16 * b + i) cellCounterRegs else leBytes 80 0

/-- Census mode: 96 counters and the overflow bits. -/
def State.censusBytes (s : State) (b : Nat) : List Byte :=
  s.regBytes (16 * b) ((List.range 96).map (0x180 + ·) ++ [0x1E0, 0x1E1])

/-- A read record. -/
def State.counterRecord (s : State) (b : Nat) : List Byte :=
  let hidden := match s.ownerOf (b / 16) with
    | some p => s.confidential p
    | none => false
  let fenced := !s.blockPresent b
  leBytes 1 b ++ leBytes 1 (if s.census b then 1 else 0)
    ++ leBytes 1 ((if hidden then 1 else 0) + if fenced then 2 else 0) ++ leBytes 5 0
    ++ leBytes 8 s.power.frame.toNat ++ leBytes 48 0
    ++ padTo 1280 (if hidden || fenced then [] else if s.census b then s.censusBytes b else s.selectBytes b)

/-- Settings of `OP` 0 in a cell. -/
def CntPending.apply (q : CntPending) (k : Cell) : Cell :=
  { k.clearCounters with
    pmsel := Vector.ofFn fun (i : Fin 8) => q.pmsel.getD i.val 0
    pmaddr := Vector.ofFn fun (i : Fin 4) => q.pmaddr.getD i.val 0 }

/-- `OP` 0 on a block. -/
def State.configBlock (s : State) (q : CntPending) (b : Nat) : State :=
  ((List.range 16).filter fun i => q.cellMask.getLsbD i && s.cellPresent (16 * b + i)).foldl
    (fun a i => a.setCell (16 * b + i) (q.apply (a.cell (16 * b + i)))) s

/-- The effect of a waiting `CNT_CONFIG`, which completes it. -/
def State.runCnt (s : State) (q : CntPending) : State :=
  let blocks := (List.range q.n).map (q.first + ·)
  if q.op = 0 then
    match blocks.find? s.census with
    | some b => s.completeSlot q.slot { Report.of stWrongState with r0 := b }
    | none => (blocks.foldl (fun a b => a.configBlock q b) s).completeSlot q.slot (.of stDone)
  else if q.op = 1 then
    match s.mail.taken.find? (fun t => t.slot == q.slot) with
    | some t =>
      let s1 := blocks.foldl State.elapseBlock s
      s1.giveData t q.buf q.len (blocks.flatMap s1.counterRecord)
    | none => s
  else (blocks.foldl State.clearBlock s).completeSlot q.slot (.of stDone)

/-- All waiting `CNT_CONFIG`s take effect. -/
def State.runCounters (s : State) : State :=
  let l := s.config.counters
  l.foldl State.runCnt { s with config := { s.config with counters := [] } }

/-! ## Instruction sampling (R349 to R353) -/

/-- The ring of a control block: base, size, head, tail. -/
def ringOf (cb : List Byte) : Nat × Nat × Nat × Nat :=
  (gatherDesc cb 0 8, gatherDesc cb 8 4, gatherDesc cb 0xC 4, gatherDesc cb 0x10 4)

/-- The control block and its ring translate for the module's writes. -/
def State.sampleCbOk (s : State) (p c cb : Nat) : Bool :=
  match s.vpieces p c .store cb 64, s.vread p c cb 64 with
  | (_, none), some l =>
    let r := ringOf l
    (s.vpieces p c .store r.1 (64 * r.2.1)).2.isNone
  | _, _ => false

/-- The countdown of a context on a cell is set to `n`, unless sampling is turned off: a running item keeps its
setting until the next one starts (R349). -/
def Cell.recount (key mode n : Nat) (k : Cell) : Cell :=
  { k with countdown := if mode ≠ 0 ∧ (k.countdown.find key).isSome then k.countdown.put key n else k.countdown }

def execSampleConfig (slot : Nat) (s : State) : Host.Outcome State Fault Refusal :=
  command slot opSampleConfig s fun t =>
    let p := t.part.toNat
    let c := t.ctx.toNat
    let mode := s.body slot 0 1
    let n := s.body slot 4 4
    let cb := s.body slot 8 8
    if !s.ctxLive p c then s
    else if s.confidential p then s.complete t (.of stWrongState)
    else if 2 < mode ∨ (mode ≠ 0 ∧ n < 1024) ∨ cb % 64 ≠ 0 ∨ !s.sampleCbOk p c cb then
      s.complete t (.of stBadField)
    else
      let s1 := s.setCtx p c { s.ctx p c with
        sampling := { mode := BitVec.ofNat 8 mode, interval := n, cb := BitVec.ofNat 64 cb, stopped := false } }
      let s2 := s1.mapCells fun _ k => k.recount (16 * p + c) mode n
      ((s2.vwrite p c (cb + 0x18) (leBytes 4 0)).getD s2).complete t (.of stDone)

/-- Count a lost sample. -/
def State.dropSample (s : State) (p c : Nat) : State :=
  let cb := (s.ctx p c).sampling.cb.toNat
  match s.vread p c (cb + 0x14) 4 with
  | some l => (s.vwrite p c (cb + 0x14) (leBytes 4 (leNat l + 1))).getD s
  | none => s

/-- The first sample of a list whose instruction is over, asynchronous work included, and the others. -/
def takeReady (done : Nat → Bool) : List (Sample × Option Nat) → Option Sample × List (Sample × Option Nat)
  | [] => (none, [])
  | x :: rest =>
    if (x.2.map done).getD true then (some x.1, rest)
    else
      let r := takeReady done rest
      (r.1, x :: r.2)

/-- `SAMPLE_TAKEN`: the record of a sampled instruction that is over enters the buffer of its cell, with what its
timing was (R351, R353). -/
def execSampleTaken (c : Nat) (i : SampleInfo) (s : State) : Host.Outcome State Fault Refusal :=
  let k := s.cell c
  let r := takeReady (fun id => !k.async.any fun a => a.id == id) k.latches
  .next (match r.1 with
    | none => s
    | some x =>
      let k1 := { k with latches := r.2 }
      if !s.clocksRun then s
      else if 256 ≤ k.samples.length then (s.setCell c k1).dropSample x.part x.ctx
      else s.setCell c { k1 with samples := k.samples ++ [{ x with time := i }] })

/-- The bytes of a record. -/
def Sample.bytes (x : Sample) (c : Nat) : List Byte :=
  leBytes 8 x.pc.toNat ++ leBytes 8 x.insn.toNat ++ leBytes 4 (min x.time.latency (2 ^ 32 - 1))
    ++ leBytes 1 x.time.stall.toNat
    ++ leBytes 1 ((if x.sup then 1 else 0) + (if x.discarded then 2 else 0) + if x.replayed then 4 else 0)
    ++ leBytes 2 (c / 16 * 256 + c % 16) ++ leBytes 8 x.frame.toNat ++ leBytes 2 x.time.offset ++ leBytes 2 0
    ++ leBytes 4 x.item ++ leBytes 8 x.daddr.toNat ++ leBytes 16 0

/-- A spill that faults stops the context's sampling and discards its records (R352). -/
def State.stopSampling (s : State) (p c : Nat) : State :=
  let k := s.ctx p c
  let s1 := s.setCtx p c { k with sampling := { k.sampling with stopped := true } }
  let s2 := s1.mapCells fun _ x =>
    { x with samples := x.samples.filter (fun y => !(y.part == p && y.ctx == c))
             latches := x.latches.filter fun y => !(y.1.part == p && y.1.ctx == c) }
  (s2.vwrite p c (k.sampling.cb.toNat + 0x18) (leBytes 4 1)).getD s2

/-- Spill one record of a cell. -/
def State.spill (s : State) (c : Nat) (x : Sample) : State :=
  let cb := (s.ctx x.part x.ctx).sampling.cb.toNat
  if (s.ctx x.part x.ctx).sampling.stopped then s
  else
    match s.vread x.part x.ctx cb 64 with
    | none => s.stopSampling x.part x.ctx
    | some l =>
      let r := ringOf l
      if (r.2.2.2 + 2 ^ 32 - r.2.2.1) % 2 ^ 32 = r.2.1 then s.dropSample x.part x.ctx
      else
        let va := r.1 + 64 * (r.2.2.2 % r.2.1)
        match s.vwrite x.part x.ctx va (x.bytes c) with
        | none => s.stopSampling x.part x.ctx
        | some s0 =>
          let s1 := s0.count (c / 16) mkMover 0 privFirmware clsMemory
            (ev 0x43 1 :: moverEvents (c / 16) true (s.vpieces x.part x.ctx .store va 64).1)
          match s1.vwrite x.part x.ctx (cb + 0x10) (leBytes 4 (r.2.2.2 + 1)) with
          | some s2 => s2
          | none => s.stopSampling x.part x.ctx

/-- The records that wait in a cell reach the ring in their order. -/
def State.spillCell (s : State) (c : Nat) : State :=
  let k := s.cell c
  k.samples.foldl (fun a x => a.spill c x) (s.setCell c { k with samples := [] })

/-- `SAMPLE_SPILL`: 64 records wait in a cell. -/
def execSampleSpill (c : Nat) (s : State) : Host.Outcome State Fault Refusal :=
  .next (if s.clocksRun ∧ 64 ≤ (s.cell c).samples.length then s.spillCell c else s)

/-- At a frame boundary every record that waits is spilled (R351). -/
def State.tickSampling (s : State) : State :=
  if s.clocksRun then ((s.cells.filter fun x => x.2.samples != []).map (·.1)).foldl State.spillCell s else s

end Sys2Proof.Machine
end

