-- ==== Sys2Proof/Machine/Estimator.lean ====
section
/-! DEFINITION. The power estimator: estimates and measurements by rail, implausible rails, the
mismatch hold, calibration and the stored coefficient set (R362 to R366, R378). -/

namespace Sys2Proof.Machine

/-! ## Rails by their bits of `IMPLAUSIBLE` (R385) -/

def railInput : Nat := 0
def railRgn (g : Nat) : Nat := 3 + g
def railHbm (g : Nat) : Nat := 11 + g
def railIod (d : Nat) : Nat := 19 + d
def railSerdes : Nat := 23
def railDdrPhy : Nat := 24
def railDimm (d : Nat) : Nat := 25 + d

/-- The load rails. -/
def loadRails : List Nat := (List.range 36).map (· + 1)

/-- A rail in the snapshot. -/
def State.rail (s : State) (r : Nat) : RailSample :=
  if r = railInput then s.power.snap.input else s.power.snap.rails.getD (r - 1) { uj := 0, mv := 0, setMv := 0, inRange := true }

/-- The activity counts that a rail's estimate uses: those of its region or I/O die (R363); the
rails that all I/O dies share use the counts of the four. -/
def State.activity (s : State) (r : Nat) : List Nat :=
  let m := s.power.snap
  if 3 ≤ r ∧ r < 11 then m.regionAct.getD (r - 3) []
  else if 11 ≤ r ∧ r < 19 then m.regionAct.getD (r - 11) []
  else if 19 ≤ r ∧ r < 23 then m.iodAct.getD (r - 19) []
  else m.iodAct.flatten

/-- Sensors of the dies of a rail (R386). -/
def railSensors (r : Nat) : List Nat :=
  if 3 ≤ r ∧ r < 11 then (List.range 18).map (18 * (r - 3) + ·)
  else if 11 ≤ r ∧ r < 19 then (List.range 4).map (160 + 4 * (r - 11) + ·)
  else if 19 ≤ r ∧ r < 23 then (List.range 4).map (144 + 4 * (r - 19) + ·)
  else (List.range 16).map (144 + ·)

/-- A sensor in the snapshot. -/
def State.temp (s : State) (n : Nat) : TempSample := s.power.snap.temps.getD n { q := 0, valid := false }

/-- The highest of some readings, in 0.25 °C. -/
def maxInt (l : List Int) : Option Int := l.foldl (fun a x => match a with
  | some y => some (max x y)
  | none => some x) none

/-- The hottest sensor of a rail's dies that is not excluded. -/
def State.railTemp (s : State) (r : Nat) : Int :=
  (maxInt (((railSensors r).filter fun n => !s.thermal.excluded.getLsbD n).map
    fun n => (s.temp n).q)).getD 0

/-! ## Estimates (R363, R378) -/

/-- Volts. -/
def volts (mv : Nat) : Rat := (mv : Rat) / 1000

/-- Σ c_k × a_k. -/
def weighted (c : List Rat) (a : List Nat) : Rat := (List.zipWith (fun x (n : Nat) => x * (n : Rat)) c a).sum

def State.coeffsOf (s : State) (r : Nat) : List Rat := s.power.coeffs.getD r []

/-- The static energy of a rail at a voltage. -/
def State.staticUj (s : State) (r mv : Nat) : Rat := (Config.staticUj r mv (s.railTemp r) : Rat)

/-- The guard band of the first-use period. -/
def State.guardBand (s : State) (x : Rat) : Rat := if s.power.firstUse then x * (11 / 10) else x

/-- The bare estimate of a rail for the frame of the snapshot. -/
def State.modelUj (s : State) (r : Nat) : Rat :=
  let m := s.rail r
  s.staticUj r m.mv + volts m.mv * volts m.mv * weighted (s.coeffsOf r) (s.activity r)

/-- E_est; for the input, what the load rails draw through the conversion. -/
def State.estUj (s : State) (r : Nat) : Rat :=
  if r = railInput then (loadRails.map fun x => s.guardBand (s.modelUj x)).sum / (915 / 1000)
  else s.guardBand (s.modelUj r)

def absRat (x : Rat) : Rat := if x < 0 then -x else x

/-- The whole part of a rational, at least zero. -/
def natFloor (x : Rat) : Nat := x.floor.toNat

/-! ## Implausible rails (R366) -/

/-- The conditions of R366 in one frame. -/
def State.railBad (s : State) (r : Nat) : Bool :=
  let m := s.rail r
  let est := s.estUj r
  !m.inRange || decide (m.setMv < 10 * (m.mv - m.setMv) + 10 * (m.setMv - m.mv))
    || (decide ((m.uj : Rat) < est / 50) && decide (400 < est))

/-- Saturate to 32 bits. -/
def sat32 (n : Nat) : BitVec 32 := BitVec.ofNat 32 (min n (2 ^ 32 - 1))

/-- Judge one rail. -/
def State.judgeRail (s : State) (r : Nat) : State :=
  let p := s.power
  if s.railBad r then
    let s1 := { s with power := { p with implausible := putBit p.implausible r true
                                         plausibleRun := setAt p.plausibleRun r 0 } }
    if p.implausible.getLsbD r then s1
    else s1.log evEstMismatch s.ctlSource (BitVec.ofNat 32 r)
      (sat32 (natFloor (absRat (s.estUj r - (s.rail r).uj))))
  else if p.implausible.getLsbD r then
    let n := p.plausibleRun.getD r 0 + 1
    { s with power := { p with implausible := putBit p.implausible r (decide (n < 500))
                               plausibleRun := setAt p.plausibleRun r n } }
  else s

/-- The energy of a rail that governs control and accounting. -/
def State.railUj (s : State) (r : Nat) : Rat :=
  if s.power.implausible.getLsbD r then s.estUj r * (11 / 10) else ((s.rail r).uj : Rat)

def State.loadUj (s : State) : Rat := (loadRails.map s.railUj).sum

/-- The input energy of the frame. -/
def State.inputUj (s : State) : Nat :=
  if s.power.implausible.getLsbD railInput then natFloor (s.loadUj / (915 / 1000)) else s.power.snap.input.uj

/-! ## Calibration sums and the mismatch hold (R364, R365) -/

/-- Add one frame to the normal equations of a rail. -/
def addSums (t : List (List Rat) × List Rat) (u : List Rat) (b : Rat) : List (List Rat) × List Rat :=
  let n := u.length
  let row := fun i => (List.range n).map fun j => (t.1.getD i []).getD j 0 + u.getD i 0 * u.getD j 0
  ((List.range n).map row, (List.range n).map fun i => t.2.getD i 0 + u.getD i 0 * b)

/-- Calibration collects the frame. -/
def State.collect (s : State) : State :=
  let p := s.power
  if p.mismatch && p.mismatchUpd then s
  else
    let sums := (List.range 37).map fun r =>
      let t := p.calSums.getD r ([], [])
      if r = 0 || p.implausible.getLsbD r then t
      else
        let v := volts (s.rail r).mv
        addSums t ((s.activity r).map fun (a : Nat) => v * v * (a : Rat)) (((s.rail r).uj : Rat) - s.modelUj r)
    { s with power := { p with
      calSums := sums, calFrames := p.calFrames + 1
      calEst := p.calEst + (loadRails.map s.estUj).sum, calMeas := p.calMeas + s.loadUj } }

/-- An empty calibration window. -/
def Power.newWindow (p : Power) : Power :=
  { p with calSums := [], calEst := 0, calMeas := 0, calFrames := 0 }

/-- The mismatch hold advances by one frame. -/
def State.mismatchStep (s : State) : State :=
  let p := s.power
  let diff := absRat ((loadRails.map s.estUj).sum - s.loadUj)
  if !p.mismatch then
    if 15000 < diff then
      if 10 ≤ p.mismatchRun + 1 then
        { s with power := { p.newWindow with
          mismatchRun := 0, mismatch := true, mismatchFrames := 0, mismatchUpd := false, mismatchBelow := 0 } }.log
            evEstMismatch s.ctlSource 0xFF (sat32 (natFloor diff))
      else { s with power := { p with mismatchRun := p.mismatchRun + 1 } }
    else { s with power := { p with mismatchRun := 0 } }
  else if !p.mismatchUpd then { s with power := { p with mismatchFrames := p.mismatchFrames + 1 } }
  else if diff < 5000 then
    { s with power := { p with mismatchBelow := p.mismatchBelow + 1
                               mismatch := decide (p.mismatchBelow + 1 < 500) } }
  else { s with power := { p.newWindow with mismatchFrames := 0, mismatchUpd := false, mismatchBelow := 0 } }

/-- The estimator's part of a decide step. -/
def State.estimate (s : State) : State :=
  ((List.range 37).foldl State.judgeRail s).collect.mismatchStep

/-! ## The fit (R364) -/

/-- One column of an elimination: pivot rows found so far, by column, and the other rows. -/
def elimCol (t : List (Nat × List Rat) × List (List Rat)) (k : Nat) : List (Nat × List Rat) × List (List Rat) :=
  match t.2.findIdx? (fun r => r.getD k 0 != 0) with
  | none => t
  | some i =>
    let r := t.2.getD i []
    let p := r.map (· / r.getD k 0)
    let sub := fun (x : List Rat) => List.zipWith (fun a b => a - x.getD k 0 * b) x p
    (t.1.map (fun x => (x.1, sub x.2)) ++ [(k, p)], (t.2.eraseIdx i).map sub)

/-- The corrections that solve the normal equations; a coefficient that they leave open is not
changed (assumption log entry 40). -/
def solveFit (t : List (List Rat) × List Rat) : List Rat :=
  let n := t.2.length
  let rows := (List.range n).map fun i => t.1.getD i [] ++ [t.2.getD i 0]
  let r := (List.range n).foldl elimCol ([], rows)
  (List.range n).map fun k => match r.1.find? (fun x => x.1 == k) with
    | some x => x.2.getD n 0
    | none => 0

/-- A coefficient after its correction, of at most 25 %. -/
def clampCoeff (c d : Rat) : Rat :=
  let lim := absRat c / 4
  c + max (-lim) (min lim d)

def fitCoeffs (c : List Rat) (t : List (List Rat) × List Rat) : List Rat :=
  let d := solveFit t
  (List.range c.length).map fun k => clampCoeff (c.getD k 0) (d.getD k 0)

/-! ## The stored set (R378) -/

/-- The version of the running `CTL` image. -/
def State.ctlVersion (s : State) : BitVec 32 :=
  match s.sec.runningImages.getD 3 none with
  | some m => m.version
  | none => 0

/-- Store the coefficient set. -/
def State.storeCoeffs (s : State) : State :=
  let k : CoeffSet :=
    { serial := s.fuses.serial, stepping := 0xA1, format := Config.coeffFormat s.ctlVersion
      trims := s.power.trims, coeffs := s.power.coeffs }
  { s with
    flash := { s.flash with coeffs := some k }
    power := { s.power with coeffStoredAt := s.flash.persist.poweredS.toNat } }

/-- The stored set may be used at a start. -/
def State.coeffsUsable (s : State) (k : CoeffSet) : Bool :=
  k.serial == s.fuses.serial && k.stepping == 0xA1 && k.format == Config.coeffFormat s.ctlVersion
    && (List.range 8).all fun g =>
      decide ((s.power.trims.getD g 0 - k.trims.getD g 0).natAbs ≤ 10)

/-- The number of coefficients of a rail. -/
def coeffCount (r : Nat) : Nat :=
  if 3 ≤ r ∧ r < 19 then 13 else if 19 ≤ r ∧ r < 23 then 8 else 32

def factoryCoeffs : List (List Rat) :=
  (List.range 37).map fun r => (List.range (coeffCount r)).map (Config.factoryCoeff r)

/-- Load the coefficients at a start. -/
def State.loadCoeffs (s : State) (readable : Bool) : State :=
  match s.flash.coeffs with
  | some k =>
    if readable && s.coeffsUsable k then { s with power := { s.power with coeffs := k.coeffs, firstUse := false } }
    else { s with power := { s.power with coeffs := factoryCoeffs, firstUse := true } }
  | none => { s with power := { s.power with coeffs := factoryCoeffs, firstUse := true } }

/-- A calibration update is due. -/
def Power.calDue (p : Power) : Bool :=
  if p.mismatch then !p.mismatchUpd && decide (2500 ≤ p.mismatchFrames) else decide (2500 ≤ p.calFrames)

/-- `CALIBRATION_UPDATE`. -/
def execCalibrationUpdate (s : State) : Host.Outcome State Fault Refusal :=
  let p := s.power
  .next (if s.board.railsUp && p.calDue && decide (p.active < 2) then
    let small := absRat (p.calEst - p.calMeas) < 250 * 20 * (p.calFrames : Rat)
    let s1 := { s with power := { p.newWindow with
      coeffs := (List.range 37).map fun r => fitCoeffs (p.coeffs.getD r []) (p.calSums.getD r ([], []))
      lastCal := p.frame
      firstUse := p.firstUse && !(decide (10000 ≤ p.runFrames) && decide small)
      mismatchUpd := p.mismatch, mismatchBelow := 0 } }
    if s.flash.coeffs.isNone ∨ p.coeffStoredAt + 600 ≤ s.flash.persist.poweredS.toNat then s1.storeCoeffs else s1
  else s)

end Sys2Proof.Machine
end

