-- ==== Sys2Proof/Machine/Thermal.lean ====
section
/-! DEFINITION. Sensors, the thermal model and its allowances, coolant values, and the gate of the
halt path and the Snuffer (R386 to R400, R404). -/

namespace Sys2Proof.Machine

/-! ## The gate (R281, R397, R398, R400) -/

/-- Run the region resets that waited for the gate (R460). -/
def State.waitingResets (s : State) : State :=
  let s1 := s.resetRegions s.rcv.regionResets
  { s1 with rcv := { s1.rcv with regionResets := 0 } }

/-- The gate closes: ports are Paused, and the closure is timed. -/
def State.closeGate (s : State) (halt : Bool) : State :=
  let was := s.thermal.haltClosed || s.thermal.snuffed
  let t := s.thermal
  let s1 := { s with thermal := { t with
    haltClosed := t.haltClosed || halt, snuffed := t.snuffed || !halt
    gateAt := if was then t.gateAt else s.power.frame.toNat
    goodRun := if halt then 0 else t.goodRun } }
  if was then s1 else s1.pausePorts

/-- Timers of collective operations run on from where they were frozen. -/
def State.thawTimers (s : State) : State :=
  let n := s.power.frame.toNat - s.thermal.gateAt
  { s with coll := { s.coll with comms := s.coll.comms.map fun (k : Comm) =>
    { k with op := k.op.map fun (o : CollOp) => { o with lastRx := o.lastRx + n } } } }

/-- The halt path opens the gate. -/
def State.openGate (s : State) : State :=
  let s1 := { s.thawTimers with thermal := { s.thermal with haltClosed := false } }
  s1.waitingResets.resumePorts

/-! ## Coolant values in use (R390, R393 to R396, R404) -/

/-- Inlet in 0.01 °C and flow in 0.01 L/min. -/
def State.coolantUse (s : State) : Int × Nat :=
  if s.thermal.everValid then (s.thermal.inlet, s.thermal.flow) else (4500, 700)

/-- One report comes into use. -/
def State.useReport (s : State) (x : CoolantMsg × Bool) : State :=
  let m := x.1
  let t := s.thermal
  let ok := if m.flow < 720 then 0 else t.flowOkRun + 1
  let good := if x.2 then t.goodRun else if 300 ≤ m.flow ∧ m.inlet ≤ 4800 then t.goodRun + 1 else 0
  let low := if m.flow < 700 then true else t.flowLow && decide (ok < 10)
  let s1 := { s with thermal := { t with
    inlet := m.inlet, outlet := m.outlet, flow := m.flow, everValid := true, held := false, held3000 := false
    residRun := List.replicate 8 0, flowOkRun := ok, goodRun := good, flowLow := low } }
  if m.flow < 700 ∧ !t.flowLow then s1.log evFlowLow s.ctlSource 0 (BitVec.ofNat 32 m.flow) else s1

/-- Reports that arrived before the frame come into use. -/
def State.useReports (s : State) : State :=
  let l := s.thermal.next
  l.foldl State.useReport { s with thermal := { s.thermal with next := [] } }

/-- Reports stop being fresh (R394, R396). -/
def State.settleHold (s : State) : State :=
  let t := s.thermal
  let f := s.power.frame.toNat
  { s with thermal := { t with
    held := t.held || (t.everValid && decide (t.lastValid + 1500 < f))
    held3000 := t.held3000 || (t.everValid && decide (t.lastValid + 3000000 ≤ f)) } }

/-! ## Exclusion and disagreement of sensors (R387, R389) -/

/-- The window of a rail's energies varied by more than 10 % of its mean. -/
def varied (l : List Nat) : Bool :=
  let hi := l.foldl max 0
  let lo := l.foldl min hi
  decide (l.sum < 10 * (hi - lo) * l.length)

/-- The rail of a sensor's die. -/
def sensorRail (n : Nat) : Nat :=
  if n < 144 then railRgn (n / 18) else if n < 160 then railIod ((n - 144) / 4) else railHbm ((n - 160) / 4)

/-- A reading that excludes its sensor. -/
def State.badReading (s : State) (n : Nat) : Bool :=
  let r := s.temp n
  !r.valid || decide (r.q < -80) || decide (600 < r.q) || decide (25 * r.q < s.coolantUse.1 - 500)
    || (decide (500 ≤ (s.thermal.stuck.getD n (0, 0)).2) && varied (s.thermal.railHist.getD (sensorRail n) []))

/-- Keep the histories that stuck readings are judged by. -/
def State.keepHistory (s : State) : State :=
  let t := s.thermal
  { s with thermal := { t with
    stuck := (List.range 192).map fun n =>
      let old := t.stuck.getD n (0, 0)
      let q := (s.temp n).q
      if old.1 = q then (q, old.2 + 1) else (q, 1)
    railHist := (List.range 37).map fun r => ((s.rail r).uj :: t.railHist.getD r []).take 500 } }

/-- Exclude one sensor if its reading is bad. -/
def State.judgeSensor (s : State) (n : Nat) : State :=
  if s.thermal.excluded.getLsbD n || !s.badReading n then s
  else { s with thermal := { s.thermal with excluded := putBit s.thermal.excluded n true } }.log
    evSensorDisagree s.ctlSource (BitVec.ofNat 32 n) 0

/-- The readings in °C of those of some sensors that are not excluded. -/
def State.readings (s : State) (l : List Nat) : List Int :=
  (l.filter fun n => !s.thermal.excluded.getLsbD n).map fun n => (s.temp n).q

def celsius (q : Int) : Rat := (q : Rat) / 4

/-- The two matrix hot spots of a region disagree. -/
def State.judgePair (s : State) (g : Nat) : State :=
  let t := s.thermal
  match s.readings [18 * g + 16, 18 * g + 17] with
  | [a, b] =>
    let d := (a - b).natAbs
    if !t.disagree.getLsbD g then
      if 20 < d then
        { s with thermal := { t with disagree := putBit t.disagree g true, agreeRun := setAt t.agreeRun g 0 } }.log
          evSensorDisagree s.ctlSource (BitVec.ofNat 32 (0x100 + g)) (BitVec.ofNat 32 d)
      else s
    else
      let n := if d < 12 then t.agreeRun.getD g 0 + 1 else 0
      { s with thermal := { t with disagree := putBit t.disagree g (decide (n < 500)), agreeRun := setAt t.agreeRun g n } }
  | _ => s

def State.judgeSensors (s : State) : State :=
  (List.range 8).foldl State.judgePair ((List.range 192).foldl State.judgeSensor s.keepHistory)

/-- The hot spot of a region, and whether its allowance is capped (R389 steps 1, 3, 4). -/
def State.hotSpot (s : State) (g : Nat) : Option Rat × Bool :=
  match maxInt (s.readings [18 * g + 16, 18 * g + 17]) with
  | some q => (some (celsius q), false)
  | none => ((maxInt (s.readings ((List.range 16).map (18 * g + ·)))).map celsius, true)

/-! ## The two-node model (R390 to R392) -/

/-- Coefficients of a die: regions 0 to 7, I/O dies 8 to 11, stacks 12 to 43. -/
structure DieCoeffs where
  rjp : Rat
  rpc8 : Rat
  cp : Rat
  cj : Rat
deriving DecidableEq, Repr

def State.dieCoeffs (s : State) (i : Nat) : DieCoeffs :=
  if i < 8 then
    { rjp := s.fuses.rjp.getD i 0, rpc8 := s.fuses.rpc8.getD i 0, cp := s.fuses.cp.getD i 0, cj := s.fuses.cj.getD i 0 }
  else
    { rjp := Config.dieCoeff (i - 8) 0, rpc8 := Config.dieCoeff (i - 8) 1, cp := Config.dieCoeff (i - 8) 2
      cj := Config.dieCoeff (i - 8) 3 }

/-- Power of a die in W in the last frame. -/
def State.diePower (s : State) (i : Nat) : Rat :=
  if i < 8 then s.railUj (railRgn i) / 20
  else if i < 12 then s.railUj (railIod (i - 8)) / 20
  else s.railUj (railHbm ((i - 12) / 4)) / 80

/-- The junction temperature of a die. -/
def State.dieTemp (s : State) (i : Nat) : Option Rat :=
  if i < 8 then (s.hotSpot i).1
  else if i < 12 then (maxInt (s.readings ((List.range 4).map (144 + 4 * (i - 8) + ·)))).map celsius
  else (maxInt (s.readings [160 + (i - 12)])).map celsius

/-- Flow in L/min. -/
def State.flowRate (s : State) : Rat := (s.coolantUse.2 : Rat) / 100

/-- T_c. -/
def State.coolantTemp (s : State) : Rat :=
  (s.coolantUse.1 : Rat) / 100
    + if s.flowRate = 0 then Config.noFlow 0
      else (1 / 2) * ((s.inputUj : Rat) / 20) / ((6715 / 100) * s.flowRate)

/-- R_pc(Q). -/
def State.plateRes (s : State) (k : DieCoeffs) : Rat :=
  k.rpc8 * if s.flowRate = 0 then Config.noFlow 1 else Config.pow08 (8 / s.flowRate)

/-- What the model gives for a die: the plate node, the residual, and A and B of the forecast. -/
structure Node where
  tp : Rat
  resid : Option Rat
  a : Rat
  b : Rat
deriving DecidableEq, Repr

def State.node (s : State) (i : Nat) : Node :=
  let k := s.dieCoeffs i
  let tc := s.coolantTemp
  let rpc := s.plateRes k
  let p := s.diePower i
  let tp0 := s.thermal.tp.getD i 0
  let tp1 := tp0 + (20 / 1000000) / k.cp * (p - (tp0 - tc) / rpc)
  let tj := s.dieTemp i
  let r := tj.map fun x => x - (tp1 + p * k.rjp)
  let tp := if s.thermal.everValid && !s.thermal.held then tp1 + r.getD 0 / 256 else tp1
  let ap := Config.expNeg ((5 / 1000) / (k.cp * rpc))
  let aj := Config.expNeg ((5 / 1000) / (k.cj * k.rjp))
  { tp, resid := r, a := tc * (1 - ap) + tp * ap + (tj.getD tp - tp) * aj
    b := rpc * (1 - ap) + k.rjp * (1 - aj) }

def Node.at (n : Node) (p : Rat) : Rat := n.a + n.b * p

/-- Control target, forecast limit and measured limit of a die in °C (R388). -/
def limitsOf (i : Nat) : Rat × Rat × Rat := if i < 12 then (95, 100, 110) else (90, 95, 100)

/-- The capped allowance of R389, in µJ. -/
def cappedUj : Nat := 4760

/-- T_g of a region (R389, R391). -/
def State.allowance (s : State) (g : Nat) (n : Node) : Nat :=
  let h := s.hotSpot g
  match h.1 with
  | none => cappedUj
  | some t =>
    if 110 ≤ t then 0
    else
      let x := natFloor (max 0 ((100 - n.a) / n.b) * 20)
      if h.2 then min x cappedUj else x

/-- The measured-limit hold of a region (R391). -/
def State.limitRegion (s : State) (g : Nat) : State :=
  let t := s.thermal
  match t.hot.getD g none with
  | none => s
  | some x =>
    if 110 ≤ x then { s with thermal := { t with limited := putBit t.limited g true, limitedRun := setAt t.limitedRun g 0 } }
    else if t.limited.getLsbD g then
      let n := if x < 95 then t.limitedRun.getD g 0 + 1 else 0
      { s with thermal := { t with limited := putBit t.limited g (decide (n < 50)), limitedRun := setAt t.limitedRun g n } }
    else s

/-- The regions of the model, and the residuals of the hold (R396 step 2). -/
def State.modelStep (s : State) : State :=
  let nodes := (List.range 44).map s.node
  let nd := fun g => nodes.getD g { tp := 0, resid := none, a := 0, b := 0 }
  let t := s.thermal
  let resid := (List.range 8).map fun g =>
    match (nd g).resid with
    | some r => if t.held && decide (5 < absRat r) then t.residRun.getD g 0 + 1 else 0
    | none => 0
  let s1 := { s with thermal := { t with
    tp := nodes.map (·.tp)
    tg := (List.range 8).map fun g => if s.regionPresent g then s.allowance g (nd g) else 0
    forecast := (List.range 8).map fun g =>
      if (s.hotSpot g).1.isNone then 100 else (nd g).at (s.diePower g)
    forecastB := (List.range 8).map fun g => (nd g).b
    hot := (List.range 8).map fun g => (s.hotSpot g).1
    residRun := resid, held3000 := t.held3000 || resid.any (10 ≤ ·) } }
  (List.range 8).foldl State.limitRegion s1

/-! ## Allowances of the cap (R392, R395, R396) -/

/-- I/O dies and present stacks. -/
def State.otherDies (s : State) : List Nat :=
  [8, 9, 10, 11] ++ ((List.range 32).filter s.stackPresent).map (12 + ·)

/-- Whether the measured limit holds an I/O die or stack, and its frames below the control target since: until 50. -/
def State.holdDie (s : State) (i : Nat) (there : Bool) : Bool × Nat :=
  let on := s.thermal.ioLimited.getD i false
  match s.dieTemp i with
  | some x =>
    if there && decide ((limitsOf i).2.2 ≤ x) then (true, 0)
    else
      let n := if x < (limitsOf i).1 then s.thermal.ioRun.getD i 0 + 1 else 0
      (on && there && decide (n < 50), if on then n else 0)
  | none => (false, 0)

/-- The thermal allowance; `px` is the forecast energy of the loads outside the regions. `before`
is the state before the model's step. -/
def State.thermalCap (s : State) (before : State) (px : Rat) : State :=
  let t := s.thermal
  let formula := natFloor ((((t.tg.sum : Nat) : Rat) + px) / 20 / (915 / 1000))
  let dies := s.otherDies
  let beyond := dies.any fun i => (before.dieTemp i).isSome
    && decide ((limitsOf i).2.1 < (before.node i).at (before.diePower i))
  let held := (List.range 44).map fun i => s.holdDie i (dies.contains i)
  let allow : Option Nat :=
    if held.any (·.1) then some 1500
    else if beyond then
      match t.ioOver, t.ioAllow with
      | true, some a => some (a - 100)
      | _, _ => some (s.inputUj / 20 - 100)
    else
      match t.ioAllow with
      | some a => if formula ≤ a + 20 then none else some (a + 20)
      | none => none
  { s with
    thermal := { t with ioAllow := allow, ioOver := beyond, ioLimited := held.map (·.1), ioRun := held.map (·.2) }
    power := { s.power with thermalW := allow.getD formula } }

/-- The coolant allowance; below the halting flow or above the halting inlet it is free. -/
def State.coolantCap (s : State) : State :=
  let t := s.thermal
  let inlet := s.coolantUse.1
  let flow := s.coolantUse.2
  if !t.everValid || (t.held && t.held3000) then { s with power := { s.power with coolantW := 3000 } }
  else if flow < 250 ∨ 5000 < inlet then
    let f := s.free
    { f.2 with power := { f.2.power with coolantW := f.1 } }
  else
    let a := if 700 ≤ flow then 5000 else 714 * flow / 100
    let b := if inlet ≤ 4500 then 5000 else 5000 - 4 * (inlet - 4500).toNat
    { s with power := { s.power with coolantW := min a b } }

/-! ## The halt path (R397) -/

/-- Close or open the gate by the reports in use. -/
def State.haltStep (s : State) : State :=
  let u := s.coolantUse
  if !s.thermal.haltClosed then
    if s.thermal.everValid ∧ (u.2 < 250 ∨ 5000 < u.1) then
      (s.log evFlowStop s.ctlSource 0 (BitVec.ofNat 32 u.2)).closeGate true
    else s
  else if 10 ≤ s.thermal.goodRun ∧ !s.thermal.snuffed then s.openGate
  else s

end Sys2Proof.Machine
end

