-- ==== Sys2Proof/Machine/Power.lean ====
section
/-! DEFINITION. The decide step and the power commands: caps, energy attribution, fixed-frequency
mode, grants, region points, telemetry and energy records (R250, R363, R371 to R385, R430). -/

namespace Sys2Proof.Machine

/-! ## Fixed mode and the V/F table (R367, R376) -/

def State.fixedEn (s : State) : Bool := s.config.active.getLsbD (8 * 4 + 1)

def State.fixedPoint (s : State) : Nat := (pointOf (cfg s.config.active 6 2)).getD 0

/-- Fixed mode is in force for a region. -/
def State.fixedIn (s : State) (g : Nat) : Bool :=
  s.fixedEn && !s.power.fixedSuspend && !s.power.regionSuspend.getLsbD g

/-- A region's voltage at a point, with its trim (R367, R368), in mV. -/
def State.pointVolts (s : State) (g k : Nat) : Rat :=
  ((s.fuses.volts.getD g []).getD k 0 : Rat) + (s.power.trims.getD g 0 : Rat) / 2

/-! ## Forecasts (R250, R363) -/

/-- The static energy that a region will draw at a point. -/
def State.staticAt (s : State) (g k : Nat) : Rat :=
  s.guardBand (s.staticUj (railRgn g) (natFloor (s.pointVolts g k)))

/-- Forecast of a region at a point; `seed` picks the planned activity. -/
def State.regionUj (s : State) (seed g k : Nat) : Rat :=
  let v := s.pointVolts g k / 1000
  let a := (List.range 13).map (Config.planned seed (railRgn g) k)
  s.staticAt g k + s.guardBand (v * v * weighted (s.coeffsOf (railRgn g)) a)

/-- Forecast of a rail outside the regions. -/
def State.otherUj (s : State) (seed r : Nat) : Rat :=
  let mv := (s.rail r).mv
  let a := (List.range (coeffCount r)).map (Config.planned seed r 0)
  s.guardBand (s.staticUj r mv + volts mv * volts mv * weighted (s.coeffsOf r) a)

def presentRegions (s : State) : List Nat := (List.range 8).filter s.regionPresent

/-- Load rails outside the regions. -/
def otherRails : List Nat := loadRails.filter fun r => !(decide (3 ≤ r) && decide (r < 11))

/-- Forecast of the loads outside the regions. -/
def State.otherForecast (s : State) (seed : Nat) : Rat := (otherRails.map (s.otherUj seed)).sum

/-- Forecast input energy of the next frame with the regions at given points. -/
def State.inputForecast (s : State) (seed : Nat) (pts : List Nat) : Rat :=
  (s.otherForecast seed + ((presentRegions s).map fun g => s.regionUj seed g (pts.getD g 0)).sum) / (915 / 1000)

def sharesOf (l : List CtxShare) (u : Nat) : List CtxShare := l.filter fun x => x.unit == u

def total (l : List CtxShare) : Nat := (l.map (·.amount)).sum

/-- Runs of a region, with the sum that its dynamic energy is divided by. -/
def State.regionRuns (s : State) (g : Nat) : List RunShare := s.power.snap.runDyn.filter fun x => x.cell / 256 == g

def State.regionTotal (s : State) (g : Nat) : Nat :=
  ((s.regionRuns g).map (·.amount)).sum + total (sharesOf s.power.snap.moverDyn g)

/-- Dynamic energy of a region's rail. -/
def State.regionDynamic (s : State) (g : Nat) : Rat :=
  let e := s.railUj (railRgn g)
  e - min e (s.staticUj (railRgn g) (s.rail (railRgn g)).mv)

/-- Forecast dynamic energy of the exempt block and tier movers on a region's rail (R249, R380): the part of the
planned activity that is theirs. -/
def State.moverForecast (s : State) (seed g k : Nat) : Rat :=
  let v := s.pointVolts g k / 1000
  let a := (List.range 13).map fun i =>
    min (Config.plannedMover seed (railRgn g) k i) (Config.planned seed (railRgn g) k i)
  s.guardBand (v * v * weighted (s.coeffsOf (railRgn g)) a)

/-- The movers' part of a region's measured dynamic energy (R380 step 3). -/
def State.moverUj (s : State) (g : Nat) : Rat :=
  if s.regionTotal g = 0 then 0
  else s.regionDynamic g * (total (sharesOf s.power.snap.moverDyn g) : Rat) / (s.regionTotal g : Rat)

/-- F: what the Sluice does not charge; under a mismatch hold the measurement plus 10 %. -/
def State.unchargedUj (s : State) (seed : Nat) : Rat :=
  if s.power.mismatch then
    ((otherRails.map s.railUj).sum
      + ((presentRegions s).map fun g =>
          min (s.railUj (railRgn g)) (s.staticUj (railRgn g) (s.rail (railRgn g)).mv) + s.moverUj g).sum) * (11 / 10)
  else
    s.otherForecast seed + ((presentRegions s).map fun g =>
      s.staticAt g (s.power.points.getD g 0) + s.moverForecast seed g (s.power.points.getD g 0)).sum

/-! ## Caps (R374, R375) -/

/-- The four sources in the order of their codes. -/
def State.capSources (s : State) : List Nat :=
  [s.power.rack, cfg s.config.active 2 2, s.power.thermalW, s.power.coolantW]

/-- The effective cap and its source. -/
def State.capStep (s : State) : State :=
  let p := s.power
  let l := s.capSources
  let cap := l.foldl min (l.headD 0)
  let src := l.findIdx (· == cap)
  let seen := (l.getD 0 0, l.getD 1 0)
  let bound := if p.everDecided && decide (p.capSrc = src) then p.capBound + 1 else 1
  let moved := decide (p.capLogged ≠ src) && decide (50 ≤ bound)
  let dirty := p.capDirty || decide (p.capSeen ≠ seen) || (p.everDecided && moved)
  let due := dirty && (decide (p.capEventFrame = 0) || decide (p.capEventFrame + 50 ≤ p.frame.toNat))
  let s1 := { s with power := { p with
    effCap := cap, capSrc := src, capSeen := seen, capBound := bound
    capLogged := if moved || !p.everDecided then src else p.capLogged
    capDirty := dirty && !due, capEventFrame := if due then p.frame.toNat else p.capEventFrame } }
  if due then s1.log evCapChange s.ctlSource (BitVec.ofNat 32 src) (BitVec.ofNat 32 cap) else s1

/-! ## Suspension of fixed mode (R377) -/

/-- Commands that run are marked. -/
def State.markBroken (s : State) : State :=
  { s with mail := { s.mail with taken := s.mail.taken.map fun t => { t with fixedBroken := true } } }

def State.logBroken (s : State) (object : Nat) : State :=
  s.log evFixedBroken s.ctlSource (BitVec.ofNat 32 object) (BitVec.ofNat 32 s.power.effCap)

/-- Suspend one region by temperature. -/
def State.suspendRegion (s : State) (g : Nat) : State :=
  let p := s.power
  if s.fixedEn && !p.regionSuspend.getLsbD g then
    ({ s with power := { p with regionSuspend := putBit p.regionSuspend g true
                                regionOkRun := setAt p.regionOkRun g 0 } }.logBroken 2).markBroken
  else s

/-- The end of a region's suspension. -/
def State.resumeRegion (s : State) (g : Nat) : State :=
  let p := s.power
  if p.regionSuspend.getLsbD g then
    let cool := match s.thermal.hot.getD g none with
      | some x => decide (x < 95)
      | none => false
    let n := if cool && decide (s.thermal.forecast.getD g 0 < 100) then p.regionOkRun.getD g 0 + 1 else 0
    { s with power := { p with regionSuspend := putBit p.regionSuspend g (decide (n < 50))
                               regionOkRun := setAt p.regionOkRun g n } }
  else s

/-- The suspension by the cap, and the ends of both kinds. -/
def State.suspendStep (s : State) : State :=
  let p := s.power
  let floor := floorW s.fixedPoint
  if !s.fixedEn then { s with power := { p with fixedSuspend := false, fixedOkRun := 0, regionSuspend := 0 } }
  else
    let s1 :=
      if p.effCap < floor then
        let s2 := { s with power := { p with fixedSuspend := true, fixedOkRun := 0 } }
        if p.fixedSuspend then s2 else s2.logBroken p.capSrc
      else if p.fixedSuspend then
        let n := if floor + 100 ≤ p.effCap then p.fixedOkRun + 1 else 0
        { s with power := { p with fixedSuspend := decide (n < 50), fixedOkRun := n } }
      else s
    let s3 := (List.range 8).foldl State.resumeRegion s1
    if s3.power.fixedSuspend || s3.power.regionSuspend != 0 then s3.markBroken else s3

/-! ## Energy attribution (R379 to R381) -/

/-- Energies to be credited: to partitions (all, I/O, loss), to contexts (all, runs, movers). -/
structure Credits where
  parts : List (Nat × Rat × Rat)
  ctxs : List (Nat × Nat × Rat × Rat × Rat)
deriving DecidableEq, Repr

def Credits.none_ : Credits := { parts := [], ctxs := [] }

/-- Credit a partition; `io` is the part of it that comes from shared rails. -/
def Credits.part (k : Credits) (p : Nat) (x io : Rat) : Credits := { k with parts := k.parts ++ [(p, x, io)] }

def Credits.ctx (k : Credits) (p c : Nat) (x run mover : Rat) : Credits :=
  { k with ctxs := k.ctxs ++ [(p, c, x, run, mover)] }

/-- Credit the Resident context of a partition. -/
def Credits.resident (k : Credits) (s : State) (p : Nat) (x : Rat) : Credits :=
  match s.resident p with
  | some c => k.ctx p c x 0 0
  | none => k

/-- Shares of an energy in proportion to amounts. -/
def Credits.split (k : Credits) (e : Rat) (all : Nat) (l : List CtxShare) (f : Credits → CtxShare → Rat → Credits) :
    Credits :=
  if all = 0 then k else l.foldl (fun a x => f a x (e * (x.amount : Rat) / (all : Rat))) k

/-- The share of a run. -/
def State.runShare (s : State) (x : RunShare) : Rat :=
  let g := x.cell / 256
  if s.regionTotal g = 0 then 0 else s.regionDynamic g * (x.amount : Rat) / (s.regionTotal g : Rat)

/-- A region's rail and its HBM rails. -/
def State.creditRegion (s : State) (k : Credits) (g : Nat) : Credits :=
  match s.ownerOf g with
  | none => k
  | some p =>
    let e := s.railUj (railRgn g)
    let dyn := s.regionDynamic g
    let k1 := ((k.part p e 0).resident s p (e - dyn))
    let k2 := (s.regionRuns g).foldl (fun a x => a.ctx x.part x.ctx (s.runShare x) (s.runShare x) 0) k1
    let k3 := k2.split dyn (s.regionTotal g) (sharesOf s.power.snap.moverDyn g)
      fun a x y => a.ctx x.part x.ctx y 0 y
    let h := s.railUj (railHbm g)
    let lines := sharesOf s.power.snap.hbmLines g
    let idle := if total lines = 0 then h else min h (s.staticUj (railHbm g) (s.rail (railHbm g)).mv)
    ((k3.part p h 0).resident s p idle).split (h - idle) (total lines) lines fun a x y => a.ctx x.part x.ctx y 0 0

/-- A shared rail, by shares of partitions; what is left is not attributed. -/
def Credits.shared (k : Credits) (e : Rat) (transit : Nat) (l : List CtxShare) (work : Bool) : Credits :=
  k.split e (transit + total l) l fun a x y =>
    let a1 := a.part x.part y y
    if work && decide (x.ctx < 16) then a1.ctx x.part x.ctx y 0 y else a1

/-- GiB of a channel that a partition holds. -/
def Part.gibOn (k : Part) (d : Nat) : Nat := ((k.ranges.filter fun r => r.chan == d).map (·.gib)).sum

/-- A DIMM's rail: by lines, or when idle by GiB of the channel's capacity. -/
def State.creditDimm (s : State) (k : Credits) (d : Nat) : Credits :=
  let e := s.railUj (railDimm d)
  let l := sharesOf s.power.snap.ddrLines d
  let cap := s.units.dimms.getD d 0
  if total l ≠ 0 then k.shared e 0 l false
  else if cap = 0 then k
  else (List.range 8).foldl (fun a p =>
    let x := e * ((s.part p).gibOn d : Rat) / (cap : Rat)
    if (s.part p).inService then a.part p x x else a) k

/-- The rails that all channels share, when idle by GiB of all of them. -/
def State.creditPhy (s : State) (k : Credits) : Credits :=
  let e := s.railUj railDdrPhy
  let l := s.power.snap.ddrLines
  let cap := s.units.dimms.sum
  if total l ≠ 0 then k.shared e 0 l false
  else if cap = 0 then k
  else (List.range 8).foldl (fun a p =>
    let x := e * (((List.range 12).map (s.part p).gibOn).sum : Nat) / (cap : Rat)
    if (s.part p).inService then a.part p x x else a) k

/-- All credits of the frame, before the conversion loss. -/
def State.credits (s : State) : Credits :=
  let m := s.power.snap
  let k1 := (List.range 8).foldl s.creditRegion Credits.none_
  let k2 := (List.range 4).foldl (fun k d =>
    k.shared (s.railUj (railIod d)) (m.transitIod.getD d 0) (sharesOf m.iodWork d) true) k1
  let k3 := k2.shared (s.railUj railSerdes) m.transitBytes m.serdesBytes false
  (List.range 12).foldl s.creditDimm (s.creditPhy k3)

/-- Add an energy to a total with its remainder. -/
def addCarry (uj : Nat) (carry x : Rat) : Nat × Rat :=
  let y := (uj : Rat) + carry + x
  (y.floor.toNat, y - (y.floor : Rat))

/-- Three totals with their remainders. -/
def addTotals (a b c : Nat) (l : List Rat) (x y z : Rat) : (Nat × Nat × Nat) × List Rat :=
  let r1 := addCarry a (l.getD 0 0) x
  let r2 := addCarry b (l.getD 1 0) y
  let r3 := addCarry c (l.getD 2 0) z
  ((r1.1, r2.1, r3.1), [r1.2, r2.2, r3.2])

def Ctx.credit (k : Ctx) (x run mover : Rat) : Ctx :=
  let r := addTotals k.totalUj k.runUj k.moverUj k.carries x run mover
  { k with totalUj := r.1.1, runUj := r.1.2.1, moverUj := r.1.2.2, carries := r.2 }

def Part.credit (k : Part) (x io loss : Rat) : Part :=
  let r := addTotals k.totalUj k.ioUj k.lossUj k.carries x io loss
  { k with totalUj := r.1.1, ioUj := r.1.2.1, lossUj := r.1.2.2, carries := r.2 }

/-- Rail energy that the credits give a partition. -/
def Credits.railSum (k : Credits) (p : Nat) : Rat := ((k.parts.filter fun x => x.1 == p).map (·.2.1)).sum

def Credits.ioSum (k : Credits) (p : Nat) : Rat := ((k.parts.filter fun x => x.1 == p).map (·.2.2)).sum

/-- A partition's share of the conversion loss. -/
def State.lossShare (s : State) (k : Credits) (p : Nat) : Rat :=
  let load := s.loadUj
  if load = 0 then 0 else ((s.inputUj : Rat) - load) * k.railSum p / load

/-- Credit a run in a list; true where one was found. -/
def creditRun (l : List ItemRun) (x : RunShare) (e : Rat) : List ItemRun × Bool :=
  match l.findIdx? fun r => r.cell == x.cell && r.item == x.item with
  | some i =>
    (l.modify i fun r =>
      let y := addCarry r.uj r.carry e
      { r with uj := y.1, carry := y.2 }, true)
  | none => (l, false)

/-- Credit the run of a `SUBMIT`: one that ended before the tick, since, or one that runs. -/
def Submit.creditRun (u : Submit) (x : RunShare) (e : Rat) : Submit :=
  let a := Sys2Proof.Machine.creditRun u.due x e
  if a.2 then { u with due := a.1 }
  else
    let b := Sys2Proof.Machine.creditRun u.tail x e
    if b.2 then { u with tail := b.1 } else { u with running := (Sys2Proof.Machine.creditRun u.running x e).1 }

/-- Sum of the energies of the runs of a `SUBMIT` that are still open. -/
def Submit.openUj (u : Submit) : Nat := ((u.due ++ u.tail ++ u.running).map (·.uj)).sum

/-- Runs whose last frame is attributed are closed (R252). -/
def Submit.closeRuns (u : Submit) : Submit :=
  { u with
    ended := ((u.due.map (·.uj)).reverse ++ u.ended).take 64
    endedCount := u.endedCount + u.due.length, due := [] }

/-- The runs of a `SUBMIT` with their shares of the frame that the snapshot holds. -/
def State.creditRuns (s : State) (u : Submit) : Submit :=
  (s.power.snap.runDyn.filter fun x => x.part == u.part && x.ctx == u.ctx).foldl
    (fun a x => a.creditRun x (s.runShare x)) u

/-- A `SUBMIT` after the attribution of a frame. -/
def State.creditSubmit (s : State) (u : Submit) : Submit :=
  let v := s.creditRuns u
  { v.closeRuns with runUj := u.runUj + (v.openUj - u.openUj) }

/-- Run energy of a partition in the frame. -/
def State.runSum (s : State) (p : Nat) : Rat :=
  ((s.power.snap.runDyn.filter fun x => x.part == p).map s.runShare).sum

/-- The energies of the frame enter the accounts. -/
def State.attribute (s : State) : State :=
  let k := s.credits
  let inp := s.inputUj
  let share := fun p => k.railSum p + s.lossShare k p
  let live := (List.range 8).filter fun p => (s.part p).inService
  let overDraw := (List.range 8).map fun p => (s.runSum p).floor - (s.part p).grant
  let s1 := live.foldl (fun a p => a.setPart p ((a.part p).credit (share p) (k.ioSum p) (s.lossShare k p))) s
  let s2 := k.ctxs.foldl (fun a x =>
    if (a.ctx x.1 x.2.1).st = .closed then a
    else a.setCtx x.1 x.2.1 ((a.ctx x.1 x.2.1).credit x.2.2.1 x.2.2.2.1 x.2.2.2.2)) s1
  let p := s2.power
  let un := addCarry p.unattributedUj p.carry ((inp : Rat) - (live.map share).sum)
  let e := p.ended.map fun (x : FrameEnergy) =>
    { x with inputUj := inp, regionUj := (List.range 8).map fun g => natFloor (s.railUj (railRgn g))
             partUj := (List.range 8).map fun q => if live.contains q then natFloor (share q) else 0 }
  { s2 with
    disp := { s2.disp with submits := s2.disp.submits.map s.creditSubmit }
    power := { p with
      moduleUj := p.moduleUj + inp, railsUj := p.railsUj + natFloor s.loadUj
      unattributedUj := un.1, carry := un.2, attributed := p.frame - 1, partOver := overDraw, ended := e
      inputs := (inp :: p.inputs).take 100
      runFrames := if s.disp.submits.any (fun u => u.running != []) then p.runFrames + 1 else p.runFrames } }

/-! ## Grants (R250) -/

/-- A partition has demand. -/
def State.demand (s : State) (p : Nat) : Bool :=
  (s.part p).inService && (List.range 16).any fun c => s.ctxLive p c && s.ready p c

/-- Y_p. -/
def State.thermalGrant (s : State) (p : Nat) : Rat :=
  ((List.range 8).map fun g =>
    if (s.part p).regions.getLsbD g && s.regionPresent g then
      max 0 ((s.thermal.tg.getD g 0 : Rat) - s.staticAt g (s.power.points.getD g 0))
    else 0).sum

/-- D: what the cap leaves, in µJ. -/
def State.spare (s : State) (seed : Nat) : Rat :=
  let peff : Rat := (s.power.effCap : Rat) * if s.power.firstUse then 6 / 10 else 1
  max 0 (peff * 20 - s.unchargedUj seed)

/-- The grants of the next frame. -/
def State.grantsFor (s : State) (seed : Nat) : List Nat :=
  if s.thermal.haltClosed || s.flash.persist.oos then List.replicate 8 0
  else
    let dem := (List.range 8).filter s.demand
    let weight := fun (l : List Nat) => (l.map fun p => (s.part p).weight).sum
    let d := s.spare seed
    let base := fun p => natFloor (d * ((s.part p).weight : Rat) / (weight dem : Rat))
    let capped := dem.filter fun p => decide (s.thermalGrant p < (base p : Rat))
    let rest := dem.filter fun p => !capped.contains p
    let excess := (capped.map fun p => (base p : Rat) - s.thermalGrant p).sum
    (List.range 8).map fun p =>
      let g := if !dem.contains p then 0
        else if capped.contains p then natFloor (s.thermalGrant p)
        else base p + natFloor (excess * ((s.part p).weight : Rat) / (weight rest : Rat))
      if s.power.mismatch && s.fixedEn && !s.power.fixedSuspend then g * 9 / 10 else g

/-! ## Region points (R370 to R372) -/

/-- Boost is permitted. -/
def State.boostOk (s : State) : Bool :=
  let p := s.power
  let l := p.inputs.take 50
  s.config.active.getLsbD (8 * 4) && !(s.fixedEn && !p.fixedSuspend) && !p.firstUse && !p.mismatch
    && p.implausible == 0 && decide (l.sum + 250 * 20 * l.length ≤ p.effCap * 20 * l.length)

/-- Insert a region by how much its partition exceeds its grant. -/
def insertBy (f : Nat → Int) (x : Nat) : List Nat → List Nat
  | [] => [x]
  | y :: rest => if f y < f x then x :: y :: rest else y :: insertBy f x rest

/-- The excess of a region's partition over its grant. -/
def State.excessOf (s : State) (g : Nat) : Int :=
  match s.ownerOf g with
  | some p => s.power.partOver.getD p 0
  | none => 0

/-- Regions that run items and are not in fixed mode in force, those that exceed most first. -/
def State.cutOrder (s : State) : List Nat :=
  let runs := fun g => s.disp.submits.any fun u => u.running.any fun r => r.cell / 256 == g
  ((presentRegions s).filter fun g => runs g && !s.fixedIn g).foldr (insertBy s.excessOf) []

/-- Lower regions in turn, one point at a time, until the forecast fits. -/
def lowerPoints (fits : List Nat → Bool) (order : List Nat) : Nat → Nat → List Nat → List Nat
  | 0, _, pts => pts
  | fuel + 1, i, pts =>
    let g := order.getD (i % order.length) 0
    let k := pts.getD g 0
    if order.all (fun x => pts.getD x 0 == 0) then pts
    else if k = 0 then lowerPoints fits order fuel (i + 1) pts
    else
      let l := setAt pts g (k - 1)
      if fits l then l else lowerPoints fits order fuel (i + 1) l

/-- The energy of the cap in a frame. -/
def State.capUj (s : State) : Rat := (s.power.effCap : Rat) * 20

/-- Step 2. -/
def State.capCut (s : State) (seed : Nat) (pts : List Nat) : List Nat :=
  let ahead := if s.power.mismatch then (s.inputUj : Rat) * (11 / 10) else s.inputForecast seed pts
  if s.cutOrder ≠ [] ∧ (s.capUj * (102 / 100) < (s.inputUj : Rat) ∨ s.capUj < ahead) then
    lowerPoints (fun l => decide (s.inputForecast seed l ≤ s.capUj)) s.cutOrder 1200 0 pts
  else pts

/-- Steps 3 and 4 and the measured limit: points lost by a region. -/
def State.heatCut (s : State) (g k : Nat) : Nat :=
  let granted := match s.ownerOf g with
    | some p => (s.part p).grant
    | none => 0
  let k1 := if 100 < s.thermal.forecast.getD g 0 ∧ granted = 0 then k - 1 else k
  if s.thermal.limited.getLsbD g then 0 else k1

def State.droopCut (s : State) (g k : Nat) : Nat :=
  if 20 < ((s.power.droopHist.getD g []).filter id).length then k - 1 else k

/-- U. -/
def State.topPoint (s : State) (boost : Bool) : Nat :=
  if s.fixedEn then s.fixedPoint else if boost then 15 else 11

/-- Step 5 for one region; one that the measured limit holds stays at P0 (R391). -/
def State.raisePoint (s : State) (seed top : Nat) (before : List Nat) (pts : List Nat) (g : Nat) : List Nat :=
  let k := pts.getD g 0
  let up := setAt pts g (k + 1)
  let warm := s.thermal.forecast.getD g 0
    + s.thermal.forecastB.getD g 0 * ((s.regionUj seed g (k + 1) - s.railUj (railRgn g)) / 20)
  if k < before.getD g 0 ∨ top ≤ k ∨ !s.regionPresent g ∨ s.thermal.limited.getLsbD g then pts
  else if s.inputForecast seed up ≤ s.capUj * (98 / 100) ∧ warm < 95 then up
  else pts

/-- The points after steps 2 to 5 of R371, which step 6 holds and clamps. -/
def State.choosePoints (s : State) (seed : Nat) (boost : Bool) : List Nat :=
  let before := s.power.choice
  let cut := s.capCut seed before
  let low := (List.range 8).map fun g => s.droopCut g (s.heatCut g (cut.getD g 0))
  let raised := (List.range 8).foldl (s.raisePoint seed (s.topPoint boost) before) low
  (List.range 8).map fun g => if s.regionPresent g then raised.getD g 0 else 0

/-- Step 6: the hold of R365, then the clamp. -/
def State.holdPoint (s : State) (boost inForce : Bool) (k : Nat) : Nat :=
  min (if s.power.mismatch && !inForce then k - 1 else k) (s.topPoint boost)

/-- Regions that a thermal step lowers below the fixed point. -/
def State.brokenRegions (s : State) : List Nat :=
  (presentRegions s).filter fun g =>
    let k := s.power.choice.getD g 0
    s.fixedEn && decide (s.heatCut g k < k ∨ s.thermal.limited.getLsbD g) && decide (s.heatCut g k < s.fixedPoint)

/-- The outputs of the decide step. -/
def State.outputs (s : State) (seed : Nat) : State :=
  let grants := s.grantsFor seed
  let s1 := s.brokenRegions.foldl State.suspendRegion s
  let boost := s1.boostOk
  let gate := !s1.clocksRun
  let raised := if gate then List.replicate 8 0 else s1.choosePoints seed boost
  let inForce := s1.fixedEn && !s1.power.fixedSuspend
  let pts := (List.range 8).map fun g =>
    min (s1.holdPoint boost inForce (raised.getD g 0)) (s1.power.points.getD g 0 + 1)
  { s1 with power := { s1.power with
    choice := raised.map (min · (s1.topPoint boost))
    next := { points := pts, grants, boost, fixed := inForce, fixedPoint := s1.fixedPoint } } }

/-! ## DECIDE_STEP (R354) -/

/-- `POWER_CAP` and `POWER_FIXED` complete once the decide step of their frame has run. -/
def State.finishWrites (s : State) : State :=
  let done := s.config.writes.filter fun w => w.applied
  let s1 := { s with config := { s.config with writes := s.config.writes.filter fun w => !w.applied } }
  done.foldl (fun a w =>
    a.completeSlot w.slot (if w.cap.isSome then
        { Report.of stDone with r0 := a.power.effCap, r1 := a.power.capSrc }
      else { Report.of stDone with r0 := floorW a.fixedPoint, r1 := a.power.effCap })) s1

/-- The active control processor decides. -/
def State.decides (s : State) : Bool :=
  s.board.railsUp && !s.rcv.ctlHeld && decide (s.power.active < 2) && !s.power.decided && !s.power.overran

def State.decideAll (s : State) : State :=
  let f := s.free
  let seed := s.freeCtr
  let s1 := (f.2.useReports.estimate.judgeSensors).settleHold
  let s2 := ((s1.modelStep.thermalCap s1 (s1.otherForecast seed)).coolantCap).capStep
  let s3 := (s2.haltStep.attribute.finishSubmits fun u => u.tail == []).suspendStep
  let s4 := s3.outputs seed
  { s4 with power := { s4.power with decided := true, everDecided := true, overruns := 0 } }.finishWrites

/-- `DECIDE_STEP`. -/
def execDecideStep (s : State) : Host.Outcome State Fault Refusal :=
  .next (if s.decides then s.decideAll else s)

/-! ## Commands (R376, R382) -/

/-- Wait for the frame boundary at which an active-set write is made. -/
def State.waitWrite (s : State) (w : ActiveWrite) : State :=
  let s1 := s.markStarted w.slot
  { s1 with config := { s1.config with writes := s1.config.writes ++ [w] } }

def noWrite (slot : Nat) : ActiveWrite :=
  { slot, cap := none, boost := none, fixed := none, mhz := none, beacon := none, applied := false }

def execPowerCap (slot : Nat) (s : State) : Host.Outcome State Fault Refusal :=
  command slot opPowerCap s fun t =>
    let w := s.body slot 0 2
    let b := s.body slot 2 1
    if w < 1500 ∨ 5000 < w ∨ 2 < b then s.complete t (.of stBadField)
    else if s.config.swap.isSome then s.complete t (.of stBusy)
    else s.waitWrite { noWrite slot with
      cap := some (BitVec.ofNat 16 w), boost := if b = 0 then none else some (decide (b = 1)) }

/-- `POWER_FIXED` with `OP` 1, or with a reserved `OP`. -/
def execPowerFixedEnter (slot : Nat) (s : State) : Host.Outcome State Fault Refusal :=
  if s.body slot 0 1 = 0 then .next s
  else command slot opPowerFixed s fun t =>
    let mhz := s.body slot 2 2
    match pointOf mhz, decide (s.body slot 0 1 = 1) with
    | some k, true =>
      if s.config.swap.isSome then s.complete t (.of stBusy)
      else if !s.floorFits mhz then
        s.complete t { Report.of stRefusedPower with r0 := floorW k, r1 := s.power.effCap }
      else s.waitWrite { noWrite slot with fixed := some true, mhz := some (BitVec.ofNat 16 mhz) }
    | _, _ => s.complete t (.of stBadField)

/-- `POWER_FIXED` with `OP` 0. -/
def execPowerFixedLeave (slot : Nat) (s : State) : Host.Outcome State Fault Refusal :=
  if s.body slot 0 1 ≠ 0 then .next s
  else command slot opPowerFixed s fun t =>
    if s.body slot 2 2 ≠ 0 then s.complete t (.of stBadField)
    else if s.config.swap.isSome then s.complete t (.of stBusy)
    else s.waitWrite { noWrite slot with fixed := some false }

/-! ## Telemetry (R384, R430, R487) -/

/-- A partition of the module is confidential. -/
def State.anyConf (s : State) : Bool := (List.range 8).any s.confidential

/-- Average power in W of an energy over frames, rounded down, and rounded to 50 W. -/
def avgW (uj frames : Nat) : Nat := min 65535 (uj / (20 * frames))

def coarseW (uj frames : Nat) : Nat := if frames = 0 then 0 else min 65535 (divRound uj (1000 * frames) * 50)

/-- A region belongs to a confidential partition. -/
def State.regionConf (s : State) (g : Nat) : Bool :=
  match s.ownerOf g with
  | some p => s.confidential p
  | none => false

/-- The record of a period. -/
def State.telemRecord (s : State) (a : TelemAcc) : Telem :=
  let c := s.power.coarse
  { frame := a.first
    inputW := if s.anyConf then coarseW c.inputUj c.frames else avgW a.inputUj a.frames
    capW := a.capW, capSrc := a.capSrc, tflags := a.tflags, droops := min 65535 a.droops
    regionW := (List.range 8).map fun g =>
      if s.regionConf g then coarseW (c.regionUj.getD g 0) c.frames else avgW (a.regionUj.getD g 0) a.frames
    regionPt := a.points
    partW := (List.range 8).map fun p =>
      if !(s.part p).inService then 0
      else if s.confidential p then coarseW (c.partUj.getD p 0) c.frames else avgW (a.partUj.getD p 0) a.frames
    confMask := (List.range 8).foldl (fun m p => putBit m p (s.confidential p)) 0 }

def Telem.bytes (t : Telem) : List Byte :=
  leBytes 8 t.frame.toNat ++ leBytes 2 t.inputW ++ leBytes 2 t.capW ++ leBytes 1 t.capSrc
    ++ leBytes 1 t.tflags.toNat ++ leBytes 2 t.droops ++ t.regionW.flatMap (leBytes 2)
    ++ t.regionPt.flatMap (leBytes 1) ++ t.partW.flatMap (leBytes 2) ++ leBytes 1 t.confMask.toNat ++ leBytes 7 0

def addLists (a b : List Nat) : List Nat := (List.range 8).map fun i => a.getD i 0 + b.getD i 0

/-- Add a frame to a period of a given length; a frame that begins another period starts anew. -/
def TelemAcc.add (a : TelemAcc) (len : Nat) (e : FrameEnergy) : TelemAcc :=
  let b := if a.frames = 0 then { TelemAcc.reset with first := e.frame } else a
  { b with
    len, frames := b.frames + 1, inputUj := b.inputUj + e.inputUj
    regionUj := addLists b.regionUj e.regionUj, partUj := addLists b.partUj e.partUj
    droops := b.droops + e.droops, tflags := b.tflags ||| e.tflags
    capW := e.capW, capSrc := e.capSrc, points := e.points }

/-- The last frame of a period. -/
def endsPeriod (len : Nat) (e : FrameEnergy) : Bool := (e.frame.toNat + 1) % len == 0

/-- Frames of a telemetry period of the host: `TELEM_RATE`, or 1 for 0 beside a confidential
partition. -/
def State.telemLen (s : State) : Nat :=
  match cfg s.config.active 8 1 with
  | 0 => if s.anyConf then 50 else 1
  | 1 => 50
  | _ => 5000

/-- Append to a ring. -/
def ringPush {α : Type} (n : Nat) (l : List α) (x : α) : List α := (l ++ [x]).drop (l.length + 1 - n)

/-- The host's records. -/
def State.hostTelem (s : State) (e : FrameEnergy) : State :=
  let p := s.power
  let len := e.period
  let cut := decide (p.telemAcc.len ≠ len) && decide (p.telemAcc.frames ≠ 0)
  let old := if cut then ringPush 4096 p.telem (s.telemRecord p.telemAcc) else p.telem
  let a := (if cut then TelemAcc.reset else p.telemAcc).add len e
  if endsPeriod len e then
    { s with power := { p with telem := ringPush 4096 old (s.telemRecord a), telemAcc := TelemAcc.reset } }
  else { s with power := { p with telem := old, telemAcc := a } }

/-- The tray's records. -/
def State.trayTelem (s : State) (e : FrameEnergy) : State :=
  let p := s.power
  let a := p.trayAcc.add 5000 e
  if endsPeriod 5000 e then
    { s with power := { p with trayRing := ringPush 1200 p.trayRing (s.telemRecord a), trayAcc := TelemAcc.reset } }
  else { s with power := { p with trayAcc := a } }

/-- The 1 s windows of R430. -/
def State.coarseWindow (s : State) (e : FrameEnergy) : State :=
  let p := s.power
  let a := p.coarseRun.add 50000 e
  let temps := (List.range 192).map fun n => max (p.coarseTempRun.getD n 0) (s.temp n).q
  if endsPeriod 50000 e then
    { s with power := { p with coarse := a, coarseRun := TelemAcc.reset, coarseTemp := temps
                               coarseTempRun := List.replicate 192 (-200) } }
  else { s with power := { p with coarseRun := a, coarseTempRun := temps } }

/-- Add the frame whose energies are attributed to the records. -/
def State.telemetry (s : State) : State :=
  match s.power.ended with
  | some e => ((s.hostTelem e).trayTelem e).coarseWindow e
  | none => s

/-- `TFLAGS` of the running frame; bits 6 and 7 as given. -/
def State.tflags (s : State) : BitVec 8 :=
  let p := s.power
  let susp := s.fixedEn && (p.fixedSuspend || p.regionSuspend != 0)
  let b := fun (i : Nat) (x : Bool) => if x then 2 ^ i else 0
  BitVec.ofNat 8 (b 0 ((List.range 8).any s.fixedIn) + b 1 susp + b 2 (p.points.any (11 < ·)) + b 3 p.firstUse
    + b 4 p.mismatch + b 5 (p.implausible != 0) + b 6 (p.droopNow.any (· != 0)) + b 7 p.overran)

/-- What the running frame shows at its end. -/
def State.frameEnd (s : State) (m : Snapshot) : FrameEnergy :=
  let p := s.power
  { frame := p.frame, period := s.telemLen, capW := p.effCap, capSrc := p.capSrc, tflags := s.tflags, droops := p.droopNow.sum
    points := p.points, inputUj := m.input.uj
    regionUj := (List.range 8).map fun g => (m.rails.getD (2 + g) { uj := 0, mv := 0, setMv := 0, inRange := true }).uj
    partUj := List.replicate 8 0 }

/-! ## ENERGY_READ (R383, R385, R430) -/

/-- Round to 1,000,000 µJ. -/
def coarseUj (x : Nat) : Nat := divRound x 1000000 * 1000000

/-- The totals of a scope, and whether they are coarsened. -/
def State.energyTotals (s : State) (p c : Nat) : (Nat × Nat × Nat) × Bool :=
  if p = 0xFF then
    let w := s.power
    if s.anyConf then ((coarseUj w.moduleUj, coarseUj w.railsUj, coarseUj w.unattributedUj), true)
    else ((w.moduleUj, w.railsUj, w.unattributedUj), false)
  else
    let k := s.part p
    let x := s.ctx p c
    if k.conf then
      (if c = 0xFF then (coarseUj k.coarseUj, coarseUj k.coarseIoUj, coarseUj k.coarseLossUj)
        else (coarseUj x.coarseUj, coarseUj x.coarseRunUj, coarseUj x.coarseMoverUj), true)
    else (if c = 0xFF then (k.totalUj, k.ioUj, k.lossUj) else (x.totalUj, x.runUj, x.moverUj), false)

/-- `ENERGY_READ` with `OP` 0, or with a reserved `OP`. -/
def execEnergyReadTotals (slot : Nat) (s : State) : Host.Outcome State Fault Refusal :=
  let op := s.body slot 0 1
  if op = 1 ∨ op = 2 then .next s
  else command slot opEnergyRead s fun t =>
    if op ≠ 0 then s.complete t (.of stBadField)
    else
      let r := s.energyTotals t.part.toNat t.ctx.toNat
      s.complete t { Report.of stDone with
        r0 := r.1.1, r1 := r.1.2.1, r2 := r.1.2.2, r3 := s.power.attributed.toNat
        flags := if r.2 then cflagCoarse else 0 }

/-- Fields of `OP` 1 and 2. -/
def State.energyBufOk (s : State) (t : Taken) : Bool := t.part.toNat == 0xFF && t.ctx.toNat == 0xFF && s.bufOk t.slot

def execEnergyReadTelemetry (slot : Nat) (s : State) : Host.Outcome State Fault Refusal :=
  if s.body slot 0 1 ≠ 1 then .next s
  else command slot opEnergyRead s fun t =>
    if !s.energyBufOk t then s.complete t (.of stBadField)
    else
      let l := (s.power.telem.filter fun x => decide (s.body slot 0x18 8 ≤ x.frame.toNat)).flatMap Telem.bytes
      let n := s.body slot 0x10 4
      (s.hostWrite (s.body slot 8 8) (l.take n)).complete t { Report.of stDone with
        r0 := l.length, r1 := min n l.length
        r2 := match s.power.telem with
          | x :: _ => x.frame.toNat
          | [] => 0
        flags := if n < l.length then cflagTrunc else 0 }

/-- A signed byte. -/
def byteOf (x : Int) : Nat := (x % 256).toNat

/-- The control status record (R385). -/
def State.statusRecord (s : State) : List Byte :=
  let p := s.power
  leBytes 1 p.active
    ++ leBytes 1 ((if p.standbyGood then 1 else 0) + (if p.aOut then 2 else 0) + if p.bOut then 4 else 0)
    ++ leBytes 1 (s.tflags.toNat % 64) ++ leBytes 1 0 ++ leBytes 4 p.failovers.toNat
    ++ leBytes 4 p.frameOverrun.toNat ++ leBytes 4 p.dualActive.toNat ++ leBytes 8 p.implausible.toNat
    ++ leBytes 8 p.lastCal.toNat ++ leBytes 2 p.effCap ++ leBytes 1 p.capSrc ++ leBytes 1 0
    ++ s.capSources.flatMap (fun w => leBytes 2 (min 65535 w)) ++ leBytes 2 (floorW s.fixedPoint) ++ leBytes 2 0
    ++ p.trims.flatMap (fun x => leBytes 1 (byteOf x)) ++ leBytes 8 p.frame.toNat

def execEnergyReadStatus (slot : Nat) (s : State) : Host.Outcome State Fault Refusal :=
  if s.body slot 0 1 ≠ 2 then .next s
  else command slot opEnergyRead s fun t =>
    if !s.energyBufOk t then s.complete t (.of stBadField) else s.giveBuf t s.statusRecord

end Sys2Proof.Machine
end

