-- ==== Sys2Proof/Machine/Frame.lean ====
section
/-! DEFINITION. The frame tick and what takes effect there, the act and copy steps, the control
pair and its takeovers, trims and droops (R204, R226, R227, R354 to R361, R368, R369). -/

namespace Sys2Proof.Machine

/-! ## At the end of a frame (R204, R468) -/

/-- One vector at a frame boundary: a message, or a pending bit while it or the function is masked. -/
def State.sendVector (due : BitVec 64) (s : State) (v : Nat) : State :=
  let e := s.mail.msix.getD v (0, 0)
  if !(due.getLsbD v || s.mail.pba.getLsbD v) then s
  else if s.mail.msixMask || e.2.getLsbD 32 then { s with mail := { s.mail with pba := putBit s.mail.pba v true } }
  else { s with mail := { s.mail with pba := putBit s.mail.pba v false } }.emit
    (.msix v e.1 (BitVec.ofNat 64 (e.2.toNat % 2 ^ 32)))

/-- The interrupts of the ended frame. -/
def State.sendVectors (s : State) : State :=
  let m := s.mail
  let due := if m.evtEn && m.frameEvent then putBit m.frameVecs m.evtVec.toNat true else m.frameVecs
  let s1 := { s with mail := { m with frameVecs := 0, frameEvent := false } }
  if s.hostUp && m.msixEn then (List.range 64).foldl (State.sendVector due) s1 else s1

/-! ## Publication of fences (R61, R64, R82) -/

/-- A unit identifier without its cause. -/
def unitOf (u : BitVec 32) : BitVec 32 := u &&& 0xFF00FFFF

/-- Count a fence of a unit over the module's life; the entry shows the last cause. -/
def bumpFence : List FenceEntry → BitVec 32 → List FenceEntry
  | [], u => [{ unit := u, count := 1 }]
  | e :: rest, u =>
    if unitOf e.unit = unitOf u then { unit := u, count := e.count + 1 } :: rest else e :: bumpFence rest u

/-- Log and record one fence; one that a start re-applied is not counted again (R81). -/
def State.publishFence (s : State) (x : BitVec 32 × Nat) : State :=
  let s1 := s.log evUnitFenced srcCmd x.1 (BitVec.ofNat 32 x.2)
  if x.1.extractLsb' 16 8 = 0x0A ∧ s1.flash.fences.any (fun e => unitOf e.unit == unitOf x.1) then s1
  else { s1 with
    flash := { s1.flash with
      fences := bumpFence s1.flash.fences x.1
      persist := { s1.flash.persist with fencesLife := s1.flash.persist.fencesLife + 1 } }
    units := { s1.units with fenceCount := s1.units.fenceCount + 1 }
    rcv := { s1.rcv with persistDirty := true } }

/-- The dump area is gone with its stack (R79). -/
def State.dumpNow (s : State) : Option Nat :=
  match s.units.dumpBase with
  | some b => if s.stackPresent (b / hbmSize) then some b else none
  | none => none

/-- What the topology page shows from now on. -/
def State.topologyNow (s : State) : Topology :=
  let u := s.units
  { cellFenced := u.cellFenced, blockFenced := u.blockFenced, hbm := u.hbm, dimms := u.dimms
    edges := (List.range 12).foldl (fun m e => putBit m e (s.edge e).up) 0
    regions := (List.range 8).foldl (fun m g => putBit m g (s.regionPresent g)) 0
    iods := u.iods, noCompute := u.noCompute, fenceCount := u.fenceCount, dumpBase := s.dumpNow
    hbmRetired := (s.flash.retired.filter fun r => r.retired && pageMem r.page == 1
      && s.stackPresent (r.page * 4096 / hbmSize)).length
    ddrRetired := (s.flash.retired.filter fun r => r.retired && pageMem r.page == 2 && s.present (r.page * 4096)).length }

/-- The fences of the ended frame, and limits that are counted by frame. -/
def State.publish (s : State) : State :=
  let l := s.units.toLog
  let s1 := l.foldl State.publishFence { s with units := { s.units with toLog := [], dumpBase := s.dumpNow } }
  { s1 with
    units := { s1.units with
      edges := s1.units.edges.map fun (e : Edge) => { e with frameReplays := 0 }
      topo := s1.topologyNow }
    mem := { s1.mem with uncorr := [] }
    fabric := { s1.fabric with ports := s1.fabric.ports.map fun (k : Port) => { k with frameReplays := 0, laneErrors := [] } } }

/-! ## Configuration at a frame boundary (R226, R227, R328) -/

/-- Exchange the two sets. -/
def State.applySwap (s : State) : State :=
  match s.config.swap with
  | none => s
  | some slot =>
    let k := s.config
    let s1 := { s with config := { k with active := k.shadow, shadow := k.active, swap := none } }
    let s2 := ((List.range 36).foldl State.holdMode s1).settlePorts
    s2.completeSlot slot { Report.of stDone with
      r1 := s2.config.heldModes.foldl (fun m x => m + 2 ^ x.1) 0 }

/-- The active set with one write made. -/
def ActiveWrite.to_ (w : ActiveWrite) (k : ConfigSet) : ConfigSet :=
  let flags := fun (a : ConfigSet) (i : Nat) (b : Option Bool) => match b with
    | some x => putBit a (8 * 4 + i) x
    | none => a
  let two := fun (a : ConfigSet) (off : Nat) (v : Option (BitVec 16)) => match v with
    | some x => cfgPut a off (leBytes 2 x.toNat)
    | none => a
  let k1 := two (two (flags (flags k 0 w.boost) 1 w.fixed) 2 w.cap) 6 w.mhz
  match w.beacon with
  | some b => cfgPut k1 (0x30 + 4 * b.1) (leBytes 4 b.2.toNat)
  | none => k1

/-- The writes that waited for the boundary; those of Beacon complete here, those of power at
the next decide step. -/
def State.applyWrites (s : State) : State :=
  let l := s.config.writes.filter fun w => !w.applied
  let s1 := { s with config := { s.config with
    active := l.foldl (fun k w => w.to_ k) s.config.active
    writes := (s.config.writes.map fun (w : ActiveWrite) => { w with applied := true }).filter fun w => w.beacon.isNone } }
  (l.filter fun w => w.beacon.isSome).foldl (fun a w =>
    let a1 := match w.beacon with
      | some b => if b.2.getLsbD 16 then a else a.setBeacon b.1 (a.beacon b.1).anew
      | none => a
    a1.completeSlot w.slot (.of stDone)) s1

/-- Beacon channels of communicators that were destroyed in the ended frame are disabled, and their operations end
without a result (R328). -/
def State.applyDead (s : State) : State :=
  let off := (List.range 16).filter fun c =>
    decide (s.beaconEntry c / 2 ^ 16 % 2 = 1) && s.coll.dead.contains (s.beaconEntry c % 4096)
  { s with
    config := { s.config with active := off.foldl (fun k c => putBit k (8 * (0x30 + 4 * c) + 16) false) s.config.active }
    coll := { s.coll with beacons := s.coll.beacons.map fun (b : Beacon) =>
      if b.busy.isSome && s.coll.dead.contains b.comm then Beacon.reset else b } }

/-- All that changes in the active set, and what follows from it. -/
def State.applyConfig (s : State) : State :=
  let before := s.config.active
  let s1 := s.applyWrites.applyDead.applySwap.applyDead
  let s2 := { s1 with coll := { s1.coll with dead := [] } }
  ((s2.clearChanged before).settleBeacons before).runCounters

/-! ## Outputs take effect (R249, R252, R355, R370) -/

/-- The factor K of a `SUBMIT` at a boundary (R252), over the runs that have ended: those of the frame that has just
ended with what its snapshot gives them (DEDUCED from the example of R252, assumption log entry 43). -/
def State.correct (s : State) (u : Submit) : Submit :=
  let l := (((s.creditRuns u).due.map (·.uj)).reverse ++ u.ended).take 64
  if u.endedCount + u.due.length < 16 then u
  else { u with kFactor := max 64 (min 1024 (divRound (256 * l.sum) (l.length * u.estUj))) }

/-- Frames that count toward ageing. -/
def State.ageSubmit (s : State) (u : Submit) : Submit :=
  if !u.held && u.toStart && s.resident u.part == some u.ctx then
    { u with idleFrames := u.idleFrames + 1 }
  else u

/-- Runs that ended in the frame are attributed in the next. -/
def Submit.endFrame (u : Submit) : Submit := { u with due := u.due ++ u.tail, tail := [] }

/-- Grants, refills and points of the new frame. A `SUBMIT` that is over and whose last frames no decide step has
attributed completes without them. -/
def State.applyOutputs (s : State) : State :=
  let o := s.power.act
  let s1 := { s with
    power := { s.power with points := o.points }
    parts := (List.range 8).map fun p =>
      let k := s.part p
      let g := o.grants.getD p 0
      { k with grant := g, balance := if k.inService then min (k.balance + g) (2 * g) else k.balance } }
  let s2 := s1.finishSubmits fun u => u.tail == []
  { s2 with disp := { s2.disp with submits := s2.disp.submits.map fun u => (s2.ageSubmit u).endFrame } }

/-- Each `SUBMIT` takes its factor K. -/
def State.correctSubmits (s : State) : State :=
  { s with disp := { s.disp with submits := s.disp.submits.map s.correct } }

/-! ## FRAME_TICK -/

/-- Control state at a tick: the snapshot, and what one frame held. -/
def State.latch (s : State) (m : Snapshot) : State :=
  let p := s.power
  let wrote := if p.tokenB then p.wroteB else p.wroteA
  { s with
    power := { p with
    snap := m, rack := p.rackNew.getD p.rack, rackNew := none
    droopHist := (List.range 8).map fun g => (decide (p.droopNow.getD g 0 ≠ 0) :: p.droopHist.getD g []).take 50
    droopNow := List.replicate 8 0
    decided := false, overran := false, copyMissing := !p.copied, copied := false
    formerWrites := p.formerWrites && wrote.isNone, actsNext := false, wroteA := none, wroteB := none }
    thermal := { s.thermal with next := s.thermal.next ++ s.thermal.arrived, arrived := [] } }

/-- The frame counter, and powered time in seconds. -/
def State.nextFrame (s : State) : State :=
  let f := s.power.frame + 1
  let sec := f.toNat % 50000 == 0
  { s with
    power := { s.power with frame := f }
    flash := { s.flash with persist := { s.flash.persist with
      poweredS := if sec then s.flash.persist.poweredS + 1 else s.flash.persist.poweredS } }
    rcv := { s.rcv with persistDirty := s.rcv.persistDirty || sec } }

/-- `FRAME_TICK`: the running frame ends with the measurements of `m`, and the next begins. -/
def execFrameTick (m : Snapshot) (s : State) : Host.Outcome State Fault Refusal :=
  .next (if !s.board.vddSb || s.board.coldReset then s
    else
      let s1 := s.telemetry.sendVectors.commitLog
      if s.board.railsUp then
        let e := s1.frameEnd m
        let s2 := { s1.tickSampling with power := { s1.tickSampling.power with ended := some e } }.nextFrame
        (s2.publish.applyConfig.applyOutputs.latch m).correctSubmits.correctFrame.sendTimes.linkTurn
      else { s1 with power := { s1.power with ended := none } }.nextFrame)

/-! ## ACT_STEP (R357, R360) -/

/-- The lower of two writes, field by field. -/
def Outputs.lower (a b : Outputs) : Outputs :=
  { points := (List.range 8).map fun g => min (a.points.getD g 0) (b.points.getD g 0)
    grants := (List.range 8).map fun p => min (a.grants.getD p 0) (b.grants.getD p 0)
    boost := a.boost && b.boost, fixed := a.fixed && b.fixed, fixedPoint := min a.fixedPoint b.fixedPoint }

/-- What a processor without the token writes: it decided from state that the model does not
hold (free values). -/
def State.formerOutputs (s : State) : Outputs × State :=
  let n := fun i => Config.freeNat (s.freeCtr + i)
  ({ points := (List.range 8).map fun g => n g % 16, grants := (List.range 8).map fun p => n (8 + p)
     boost := n 16 % 2 == 1, fixed := n 17 % 2 == 1, fixedPoint := n 18 % 16 }, s.spend 19)

/-- Control runs: rails up, the pair out of reset, and not in the safe state. -/
def State.controlRuns (s : State) : Bool := s.board.railsUp && !s.rcv.ctlHeld && decide (s.power.active < 2)

/-- A write to the actuator registers by B (`b`) or A. -/
def State.actWrite (s : State) (b : Bool) (o : Outputs) : State :=
  let p := s.power
  let other := if b then p.wroteA else p.wroteB
  let p1 := { p with
    act := match other with
      | some x => x.lower o
      | none => o
    wroteA := if b then p.wroteA else some o
    wroteB := if b then some o else p.wroteB }
  if other.isSome then
    { s with power := { p1 with dualActive := p1.dualActive + 1 } }.log evDualActive srcHardware
      (BitVec.ofNat 32 p.active) p.frameOverrun
  else { s with power := p1 }

/-- `ACT_STEP` of processor B (`b`) or A. -/
def execActStep (b : Bool) (s : State) : Host.Outcome State Fault Refusal :=
  let p := s.power
  let mine := if b then p.wroteB else p.wroteA
  .next (if !s.controlRuns || !p.decided || p.overran || mine.isSome then s
    else if b = p.tokenB then (if p.actsNext then s else s.actWrite b p.next)
    else if p.formerWrites && !p.actsNext then s.formerOutputs.2.actWrite b s.formerOutputs.1
    else s)

/-! ## STATE_COPY and FRAME_OVERRUN (R356, R358) -/

/-- The processor that is not active is in service. -/
def State.standbyThere (s : State) : Bool := if s.power.active = 0 then !s.power.bOut else !s.power.aOut

/-- What the active sends in a copy step. -/
def State.copyOut (s : State) : StateCopy :=
  { power := s.power, thermal := s.thermal, carries := s.parts.map fun k => (k.carries, k.ctxs.map (·.carries)) }

/-- `STATE_COPY`; `good`: the copy meets its CRC-32C at the standby. -/
def execStateCopy (good : Bool) (s : State) : Host.Outcome State Fault Refusal :=
  .next (if s.controlRuns && s.standbyThere && good then
      { s with power := { s.power with copied := true, standbyGood := true }, copy := some s.copyOut }
    else s)

/-- `FRAME_OVERRUN`; the third in a row sets the handover flag (R359). -/
def execFrameOverrun (s : State) : Host.Outcome State Fault Refusal :=
  .next (if !s.decides then s
    else
      let p := s.power
      let n := p.overruns + 1
      { s with power := { p with
        overran := true, overruns := n, frameOverrun := p.frameOverrun + 1
        handover := p.handover || decide (3 ≤ n) } }.log evFrameOverrun s.ctlSource
          (BitVec.ofNat 32 p.active) (p.frameOverrun + 1))

/-! ## Takeover and safe state (R359 to R361) -/

/-- A partition with the attribution carries of a copy. -/
def Part.recarry (k : Part) (x : List Rat × List (List Rat)) : Part :=
  { k with carries := x.1, ctxs := List.zipWith (fun (c : Ctx) l => { c with carries := l }) k.ctxs x.2 }

/-- A new active goes on from the items of the last good copy. -/
def State.fromCopy (s : State) : State :=
  match s.copy with
  | none => s
  | some k =>
    let c := k.power
    let t := k.thermal
    { s with
      copy := none
      parts := List.zipWith Part.recarry s.parts k.carries
      power := { s.power with
        overruns := 0, handover := false, coeffs := c.coeffs, firstUse := c.firstUse, runFrames := c.runFrames
        calSums := c.calSums, calEst := c.calEst, calMeas := c.calMeas, calFrames := c.calFrames
        effCap := c.effCap, capSrc := c.capSrc, thermalW := c.thermalW, coolantW := c.coolantW
        capSeen := c.capSeen, capBound := c.capBound, capLogged := c.capLogged
        capEventFrame := c.capEventFrame, capDirty := c.capDirty
        fixedSuspend := c.fixedSuspend, fixedOkRun := c.fixedOkRun, regionSuspend := c.regionSuspend
        regionOkRun := c.regionOkRun, mismatchRun := c.mismatchRun, mismatch := c.mismatch
        mismatchFrames := c.mismatchFrames, mismatchUpd := c.mismatchUpd, mismatchBelow := c.mismatchBelow
        implausible := c.implausible, plausibleRun := c.plausibleRun, choice := c.choice
        droopHist := c.droopHist, carry := c.carry, trims := c.trims, telemAcc := c.telemAcc, trayAcc := c.trayAcc }
      thermal := { s.thermal with
        tp := t.tp, tg := t.tg, forecast := t.forecast, forecastB := t.forecastB, residRun := t.residRun
        limited := t.limited, limitedRun := t.limitedRun, ioAllow := t.ioAllow, ioOver := t.ioOver
        ioLimited := t.ioLimited, ioRun := t.ioRun } }

/-- The token moves to the standby, which logs `EV_FAILOVER`. -/
def State.takeOver (s : State) (former nextFrame : Bool) : State :=
  let s1 := s.fromCopy
  let p := s1.power
  let a := if p.active = 0 then 1 else 0
  let s2 := { s1 with
    power := { p with
      active := a, tokenB := decide (a = 1), failovers := p.failovers + 1, standbyGood := false
      formerWrites := former, actsNext := nextFrame, handover := false, overruns := 0, copyMissing := false }
    rcv := { s1.rcv with fails := setAt s1.rcv.fails 1 0 } }
  s2.log evFailover s2.ctlSource (BitVec.ofNat 32 a) p.frameOverrun

/-- The carries of the attribution at zero. -/
def Part.noCarry (k : Part) : Part :=
  { k with carries := [0, 0, 0], ctxs := k.ctxs.map fun c => { c with carries := [0, 0, 0] } }

/-- The control pair is reset (R361): it loses what only it holds, the items that a state copy carries (R358), but the
coefficients, which it loads when it resumes, and the trims, which flash holds (assumption log entry 79). -/
def State.resetPair (s : State) : State :=
  let r := resetPower
  let z := resetThermal
  { s with
    copy := none
    parts := s.parts.map Part.noCarry
    power := { s.power with
      overruns := 0, handover := false, runFrames := 0, firstUse := true
      calSums := r.calSums, calEst := 0, calMeas := 0, calFrames := 0
      capBound := 0, capLogged := s.power.capSrc, capEventFrame := 0, capDirty := false
      fixedOkRun := 0, regionSuspend := 0, regionOkRun := r.regionOkRun
      mismatchRun := 0, mismatch := false, mismatchFrames := 0, mismatchUpd := false, mismatchBelow := 0
      implausible := 0, plausibleRun := r.plausibleRun, choice := safeOutputs.points, inputs := []
      partOver := r.partOver, droopHist := r.droopHist, carry := 0
      telemAcc := TelemAcc.reset, trayAcc := TelemAcc.reset }
    thermal := { s.thermal with
      tp := List.replicate 44 s.coolantTemp, tg := z.tg, forecast := z.forecast, forecastB := z.forecastB
      residRun := z.residRun, limited := 0, limitedRun := z.limitedRun
      ioAllow := none, ioOver := false, ioLimited := z.ioLimited, ioRun := z.ioRun } }

/-- After the safe state, the first processor to complete its start resumes control from the
stored coefficients under the first-use rule. -/
def State.resumeControl (s : State) : State :=
  let f := s.free
  let s1 := f.2
  let a := if s1.power.aOut then 1 else if s1.power.bOut then 0 else f.1 % 2
  let s2 := s1.loadCoeffs true
  { s2 with
    power := { s2.power with
      active := a, tokenB := decide (a = 1), failovers := s2.power.failovers + 1, firstUse := true
      runFrames := 0, standbyGood := false, formerWrites := false, actsNext := false, overruns := 0
      handover := false, copyMissing := false }
    rcv := { s2.rcv with fails := setAt s2.rcv.fails 1 0 } }

def execCtlTakeover (why : TakeoverCause) (s : State) : Host.Outcome State Fault Refusal :=
  let p := s.power
  .next (if !s.board.railsUp || s.rcv.ctlHeld then s
    else match why with
    | .missingCopy =>
      if p.active < 2 ∧ p.standbyGood ∧ p.copyMissing ∧ !p.decided then s.takeOver true false else s
    | .handover =>
      if p.active < 2 ∧ p.standbyGood ∧ s.copy.any (·.power.handover) ∧ !p.copyMissing ∧ !p.decided then
        s.takeOver false true
      else s
    | .lamplighter =>
      if p.active = 2 then s.resumeControl
      else if p.standbyGood ∧ 3 ≤ s.rcv.fails.getD 1 0 then s.takeOver true true
      else s)

/-- `SAFE_STATE`. -/
def execSafeState (s : State) : Host.Outcome State Fault Refusal :=
  .next (if s.controlRuns && !s.power.standbyGood && decide (3 ≤ s.rcv.fails.getD 1 0) then
      let s1 := (if s.fixedEn then s.markBroken else s).resetPair
      { s1 with
        power := { s1.power with
          active := 2, act := safeOutputs, next := safeOutputs, points := safeOutputs.points
          choice := safeOutputs.points, decided := false, fixedSuspend := s1.fixedEn
          wroteA := none, wroteB := none, formerWrites := false, actsNext := false }
        parts := s1.parts.map fun (k : Part) => { k with grant := 0 }
        rcv := { s1.rcv with fails := setAt s1.rcv.fails 1 0 } }
    else s)

/-! ## Trims and droops (R368, R369) -/

/-- `TRIM_UPDATE`: up when the margin fell short in the last 24 h of powered time, else down, by
at most 2.5 mV. -/
def execTrimUpdate (region : Nat) (short : Bool) (step : Nat) (s : State) :
    Host.Outcome State Fault Refusal :=
  let p := s.power
  let now := s.flash.persist.poweredS.toNat
  .next (if s.board.railsUp && s.regionPresent region && decide (step ≤ 5 ∧ p.trimAt.getD region 0 + 86400 ≤ now) then
      let old := p.trims.getD region 0
      let v : Int := max (-50) (min 50 (if short then old + step else old - step))
      let l := setAt p.trims region v
      { s with
        power := { p with trims := l, trimAt := setAt p.trimAt region now }
        flash := { s.flash with trims := l, trimStored := true } }
    else s)

/-- A region's supply and clock run. -/
def State.regionRuns_ (s : State) (g : Nat) : Bool := s.regionPresent g && s.clocksRun

/-- `DROOP`: the clock is stretched to 7/8, or to 3/4 for the deep threshold. -/
def execDroop (region : Nat) (deep : Bool) (s : State) : Host.Outcome State Fault Refusal :=
  let p := s.power
  let now := p.stretch.getD region 8
  .next (if s.regionRuns_ region then
      { s with power := { p with
        stretch := setAt p.stretch region (min now (if deep then 6 else 7))
        droopNow := if now = 8 then modifyAt p.droopNow region (· + 1) else p.droopNow } }
    else s)

/-- `DROOP_RECOVERY`: the clock returns by 1/8. -/
def execDroopRecovery (region : Nat) (s : State) : Host.Outcome State Fault Refusal :=
  let p := s.power
  .next (if s.regionRuns_ region then
      { s with power := { p with stretch := modifyAt p.stretch region fun x => min 8 (x + 1) } }
    else s)

end Sys2Proof.Machine
end

