-- ==== Sys2Proof/Machine/Recovery.lean ====
section
/-! DEFINITION. Compute-side resets, hang recovery, crash dumps, heartbeats, and resets of the
fabric of an I/O die (R26, R228, R259, R453 to R462, R471 to R475). -/

namespace Sys2Proof.Machine

/-! ## The persistent record (R469) -/

/-- Change the persistent record; it is committed with the log of the frame (R468). -/
def State.persist (s : State) (f : Persist → Persist) : State :=
  { s with flash := { s.flash with persist := f s.flash.persist }, rcv := { s.rcv with persistDirty := true } }

def State.alertOn (s : State) : State := { s with board := { s.board with alert := true } }

/-- A start fails (R466): compute stays stopped. -/
def State.startFail (s : State) (code : Nat) : State :=
  let s1 := (s.persist fun p => { p with startResult := BitVec.ofNat 8 code }).alertOn
  { s1 with mail := { s1.mail with ready := false } }

/-! ## SPDM connections that a reset ends (R420) -/

def trIndex : Transport → Nat
  | .mctp => 0
  | .doe => 1

def Nego.none_ : Nego := { version := false, caps := false, algs := false, session := false }

/-- End the sessions of transports, with their connections and co-signatures. -/
def Security.endSessions (k : Security) (f : Transport → Bool) : Security :=
  { k with
    sessions := k.sessions.filter fun x => !f x.tr
    nego := [if f .mctp then Nego.none_ else k.nego.getD 0 Nego.none_, if f .doe then Nego.none_ else k.nego.getD 1 Nego.none_]
    cosigs := k.cosigs.filter fun x => !f x.conn.tr }

/-- The security controller is reset or reloaded: sessions end, and it is unavailable until it
serves again. -/
def State.resetSec (s : State) : State :=
  { s with
    sec := { s.sec.endSessions (fun _ => true) with paused := true, nonce := none, token := [], chunks := [], chunkSeq := 0, drbg := resetSecurity.drbg }
    rcv := { s.rcv with secHeld := true, fails := setAt s.rcv.fails 2 0 } }

/-! ## The compute side (R228, R233, R259, R453) -/

/-- One context as `CTX_CLOSE` would leave it; its generation advances even when it is Closed. -/
def State.killContext (s : State) (x : Nat × Nat) : State :=
  if (s.ctx x.1 x.2).st = .closed then s.advanceCtx x.1 x.2
  else (s.beginTeardown x.1 x.2).endTeardown x.1 x.2

def allContexts : List (Nat × Nat) := (List.range 8).flatMap fun p => (List.range 16).map fun c => (p, c)

/-- Every granule but those of the crash dump becomes pending (R189). -/
def State.pendAll (s : State) : State :=
  let l := s.mem.granules.map fun x =>
    if s.inDump (x.1 * granuleSize) then x else (x.1, ({ x.2 with scrub := .pending } : Granule))
  { s with mem := { s.mem with granules := l.filter fun x => x.2 != { owner := .free, scrub := .pending } } }

/-- What the dispatcher, the engines and the command processor held. -/
def State.dropWork (s : State) : State :=
  { s with
    disp := resetDisp
    coll := { s.coll with batches := [], panUsed := List.replicate 4 0, panQueue := List.replicate 4 [] }
    config := { s.config with swap := none, writes := [], counters := [] }
    upd := { s.upd with
      activation := s.upd.activation.map fun (a : Activation) => { a with slot := none }
      staging := s.upd.staging.map fun (a : Staging) => { a with slot := none } } }

/-- Regions reset at once, or wait while the gate is closed (R460). -/
def State.resetPresent (s : State) : State :=
  let m : BitVec 8 := (presentRegions s).foldl (fun m g => putBit m g true) 0
  if s.clocksRun then s.resetRegions m else { s with rcv := { s.rcv with regionResets := m } }

/-- A compute-side reset, without its effect on the mailbox. -/
def State.resetCompute (s : State) : State :=
  let s1 := (allContexts.foldl State.killContext s).dropWork
  let s2 := { s1 with
    parts := s1.parts.map fun (k : Part) => { k with pgen := genNext k.pgen, balance := 0, lastRegion := 7, lastCtx := none }
    mail := { s1.mail with ready := false } }
  s2.pendAll.resetPresent

/-- `RESET_GEN` advances (R199). -/
def State.advanceGen (s : State) : State := { s with mail := { s.mail with resetGen := s.mail.resetGen + 1 } }

/-- Mailbox registers and slots at their reset values (R228). -/
def State.clearMailbox (s : State) : State :=
  let m := s.mail
  { s with mail := { resetMail with
    start := m.start, resetGen := m.resetGen, startFrame := m.startFrame, evtLast := m.evtLast, evtCount := m.evtCount } }

/-- The CXL link goes down: IDE streams and the TDI, and the sessions over DOE. -/
def State.dropLink (s : State) : State :=
  { s with
    board := { s.board with cxlUp := false }
    mem := { s.mem with snoop := [] }
    sec := { s.sec.endSessions (fun t => t == .doe) with
      waiting := [], deferred := s.sec.deferred.filter fun x => x.1.tr != .doe, tdi := .configUnlocked, ideIo := { programmed := [], go := [] }, ideSel := { programmed := [], go := [] }
      ideMem := { programmed := [], go := [] } } }

/-- The last start completed, and the command processor serves or can serve again. -/
def State.started (s : State) : Bool :=
  s.board.railsUp && !s.board.coldDue && !s.board.warmDue && s.mail.start != 0 && s.flash.persist.startResult == 0

/-- `HOST_PERST_ASSERT`. -/
def execHostPerstAssert (s : State) : Host.Outcome State Fault Refusal :=
  .next (if s.board.hostPerst then s
    else
      let s1 := if s.mail.ready then s.resetCompute.advanceGen else s
      let s2 := { s1 with board := { s1.board with hostPerst := true }
                          rcv := { s1.rcv with cmdHeld := true, fails := setAt s1.rcv.fails 0 0 } }
      s2.clearMailbox.dropLink)

/-- `HOST_PERST_DEASSERT`: the port trains, and the compute side restarts. -/
def execHostPerstDeassert (flit256 : Bool) (s : State) : Host.Outcome State Fault Refusal :=
  .next (if !s.board.hostPerst then s
    else
      let s1 := { s with board := { s.board with hostPerst := false, cxlUp := s.board.railsUp, flit256 } }
      if s1.started && s1.rcv.hang.isNone then { s1 with mail := { s1.mail with ready := true } } else s1)

/-! ## The crash dump (R471 to R475) -/

/-- A section of a capture; firmware lays it out (free values). -/
def dumpSection (seq k id most : Nat) : BitVec 16 × List Byte :=
  (BitVec.ofNat 16 id, (List.range (Config.dumpLen seq k % (most + 1))).map (Config.dumpByte seq k))

def mib : Nat := 2 ^ 20

/-- The sections of a capture. -/
def State.dumpSections (s : State) (seq : Nat) : List (BitVec 16 × List Byte) :=
  [dumpSection seq 0 1 (64 * mib), dumpSection seq 1 2 (4 * mib), dumpSection seq 2 3 mib]
    ++ (presentRegions s).map (fun g => dumpSection seq (10 + g) 4 (8 * mib))
    ++ (List.range 4).map (fun d => dumpSection seq (20 + d) 5 (16 * mib))
    ++ [dumpSection seq 3 6 mib, dumpSection seq 4 7 (2 * mib), dumpSection seq 5 8 mib]

/-- The capture of a hang recovery. -/
def State.captured (s : State) (gen : BitVec 32) : Dump :=
  let n := s.flash.dumpSeq + 1
  { escalated := false, complete := true, summaryWritten := false, isSummary := false, seq := n
    frame := s.power.frame, resetGen := gen, sections := s.dumpSections n.toNat }

/-- What a summary keeps of a section: of the event entries the last, of the others the first bytes. -/
def summaryPart (x : BitVec 16 × List Byte) : BitVec 16 × List Byte :=
  let most := mib / 4 - 2048
  (x.1, if x.1 = 0x0007 then x.2.drop (x.2.length - most) else x.2.take most)

/-- The summary made of a capture. -/
def Dump.summary (d : Dump) : Dump :=
  { d with isSummary := true
           sections := (d.sections.filter fun x => x.1 ∈ [(0x0002 : BitVec 16), 0x0003, 0x0006, 0x0007]).map summaryPart }

/-- Capture a dump where there is an area for it, and leave its summary to be written. -/
def State.capture (s : State) (gen : BitVec 32) : State :=
  let d := s.captured gen
  { s with
    flash := { s.flash with dumpSeq := d.seq }
    rcv := { s.rcv with dump := if s.dumpNow.isSome then some d else none, summaryDue := some d.summary } }

/-- The sequence of a summary area; an empty one is the older. -/
def dumpAge : Option Dump → Nat
  | some d => d.seq.toNat + 1
  | none => 0

/-- `DUMP_SUMMARY_WRITE`. -/
def execDumpSummaryWrite (s : State) : Host.Outcome State Fault Refusal :=
  .next (match s.rcv.summaryDue with
    | none => s
    | some d =>
      let older := decide (dumpAge s.flash.summaryA ≤ dumpAge s.flash.summaryB)
      { s with
        flash := { s.flash with
          summaryA := if older then some d else s.flash.summaryA
          summaryB := if older then s.flash.summaryB else some d }
        rcv := { s.rcv with
          summaryDue := none
          dump := s.rcv.dump.map fun (x : Dump) => { x with summaryWritten := true } } })

/-- CRC-32C of a list of bytes, as a number. -/
def dumpCrc (l : List Byte) : Nat := crc32c (l.map fun b => b.setWidth 64)

/-- Section descriptors from an offset on. -/
def sectionTable : Nat → List (BitVec 16 × List Byte) → List Byte
  | _, [] => []
  | off, x :: rest =>
    leBytes 4 x.1.toNat ++ leBytes 4 (dumpCrc x.2) ++ leBytes 4 off ++ leBytes 4 x.2.length
      ++ sectionTable (off + x.2.length) rest

/-- Header and sections of a dump or summary. -/
def Dump.bytes (d : Dump) : List Byte :=
  let body := d.sections.flatMap (·.2)
  let flags := (if d.complete then 1 else 0) + (if d.summaryWritten then 2 else 0) + if d.isSummary then 4 else 0
  let head := padTo 0xFFC (leBytes 4 0x444D5054 ++ leBytes 2 1 ++ leBytes 1 (if d.escalated then 2 else 1)
    ++ leBytes 1 flags ++ leBytes 8 d.seq.toNat ++ leBytes 8 d.frame.toNat ++ leBytes 4 d.resetGen.toNat
    ++ leBytes 4 (4096 + body.length) ++ leBytes 2 d.sections.length ++ leBytes 30 0 ++ sectionTable 4096 d.sections)
  head ++ leBytes 4 (dumpCrc head) ++ body

/-- The object that `DUMP_READ` names: the dump, the newest summary, the older one. -/
def State.dumpObject (s : State) (src : Nat) : Option Dump :=
  let a := s.flash.summaryA
  let b := s.flash.summaryB
  let newB := decide (dumpAge a < dumpAge b)
  if src = 0 then s.rcv.dump else if (src = 1) = (newB = true) then b else a

def execDumpRead (slot : Nat) (s : State) : Host.Outcome State Fault Refusal :=
  command slot opDumpRead s fun t =>
    let src := s.body slot 0 1
    let off := s.body slot 4 4
    if 2 < src ∨ !s.bufOk slot ∨ 16 * mib < s.body slot 0x10 4 then s.complete t (.of stBadField)
    else
      match s.dumpObject src with
      | none => s.complete t (.of stWrongState)
      | some d =>
        let l := d.bytes
        let n := s.body slot 0x10 4
        if l.length ≤ off then s.complete t (.of stBadField)
        else
          (s.hostWrite (s.body slot 8 8) ((l.drop off).take n)).complete t { Report.of stDone with
            r0 := l.length - off, r1 := min n (l.length - off), r2 := d.seq.toNat
            flags := if n < l.length - off then cflagTrunc else 0 }

/-! ## Reading the log (R470) -/

def LogEntry.bytes (e : LogEntry) : List Byte :=
  leBytes 8 e.seq ++ leBytes 8 e.frame.toNat ++ leBytes 2 e.event.toNat ++ leBytes 1 e.source.toNat
    ++ leBytes 1 e.repeats ++ leBytes 4 e.object.toNat ++ leBytes 4 e.arg.toNat ++ leBytes 2 e.dropped
    ++ leBytes 2 e.rgen.toNat

/-- The persistent record without its CRC. -/
def Persist.body (p : Persist) : List Byte :=
  padTo 0xFC (leBytes 1 1 ++ leBytes 1 p.shutdownCause.toNat ++ leBytes 1 p.startResult.toNat
    ++ leBytes 1 ((if p.oos then 1 else 0) + if p.clearPending then 2 else 0)
    ++ leBytes 4 p.hangsLife.toNat ++ leBytes 8 p.poweredS.toNat
    ++ (p.hangTimes.take 3).flatMap (fun x => leBytes 8 x.toNat) ++ leBytes 8 p.shutdownFrame.toNat
    ++ leBytes 4 p.shutdownMv.toNat ++ leBytes 4 p.shutdownMa.toNat ++ leBytes 2 p.shutdownTj.toNat
    ++ leBytes 2 p.shutdownSensor.toNat ++ leBytes 4 p.coldStarts.toNat ++ leBytes 4 p.warmStarts.toNat
    ++ leBytes 4 p.fencesLife.toNat ++ leBytes 8 p.nextSeq.toNat)

def Persist.bytes (p : Persist) : List Byte := p.body ++ leBytes 4 (dumpCrc p.body)

/-- `LOG_READ` with `OP` 0, or with a reserved `OP`. -/
def execLogReadEvents (slot : Nat) (s : State) : Host.Outcome State Fault Refusal :=
  if s.body slot 0 1 = 1 then .next s
  else command slot opLogRead s fun t =>
    if s.body slot 0 1 ≠ 0 ∨ !s.bufOk slot then s.complete t (.of stBadField)
    else
      let all := s.flash.log ++ s.rcv.fresh
      let l := all.filter fun e => decide (s.body slot 0x18 8 ≤ e.seq)
      let n := s.body slot 0x10 4 / 32
      (s.hostWrite (s.body slot 8 8) ((l.take n).flatMap LogEntry.bytes)).complete t { Report.of stDone with
        r0 := 32 * l.length, r1 := 32 * min n l.length
        r2 := match all with
          | e :: _ => e.seq
          | [] => s.flash.persist.nextSeq.toNat
        r3 := s.flash.persist.nextSeq.toNat
        flags := if n < l.length then cflagTrunc else 0 }

def execLogReadRecord (slot : Nat) (s : State) : Host.Outcome State Fault Refusal :=
  if s.body slot 0 1 ≠ 1 then .next s
  else command slot opLogRead s fun t =>
    if !s.bufOk slot then s.complete t (.of stBadField) else s.giveBuf t s.flash.persist.bytes

/-! ## Hang recovery (R455 to R462) -/

/-- Hang recoveries of the history within the last 3,600 s. -/
def State.recentHangs (s : State) : Nat :=
  let p := s.flash.persist
  (p.hangTimes.filter fun x => x != 0 && decide (p.poweredS.toNat ≤ x.toNat + 3600)).length

def State.logHang (s : State) (source : Nat) : State :=
  s.log evHang srcLamp (BitVec.ofNat 32 source) (BitVec.ofNat 32 s.recentHangs)

/-- The latch: grants are 0 and no decoder is committed (R462). -/
def State.latchOut (s : State) : State :=
  let s1 := (s.persist fun p => { p with oos := true }).uncommit fun _ => true
  let s2 := { s1 with
    parts := s1.parts.map fun (k : Part) => { k with grant := 0 }
    power := { s1.power with
      act := { s1.power.act with grants := List.replicate 8 0 }
      next := { s1.power.next with grants := List.replicate 8 0 } } }
  (s2.log evOutOfService srcLamp 0 s2.flash.persist.hangsLife).alertOn

/-- The test of R461. -/
def State.outTest (s : State) : State :=
  match s.flash.persist.hangTimes with
  | [a, _, c] => if a ≠ 0 ∧ c.toNat ≤ a.toNat + 3600 ∧ !s.flash.persist.oos then s.latchOut else s
  | _ => s

/-- Every command that was taken completes with `CONTEXT_KILLED`, with what it had done. -/
def State.killTaken (s : State) : State :=
  s.mail.taken.foldl (fun a t =>
    a.complete t (((s.rcv.killed.find? fun x => x.1 == t.slot).map (·.2)).getD (.of stKilled))) s

/-- A hang recovery begins: all that R458 gives until the command processor starts again. -/
def State.hangRecovery (s : State) : State :=
  let killed := s.mail.taken.map fun t => (t.slot, s.endReport stKilled t)
  let s1 := s.persist fun p => { p with
    hangsLife := p.hangsLife + 1, hangTimes := (p.hangTimes ++ [p.poweredS]).drop 1 }
  let s2 := (s1.logHang 2).alertOn.resetCompute.capture s.mail.resetGen
  { s2 with rcv := { s2.rcv with
      hang := some s.power.frame, killed, cmdHeld := true, fails := setAt s2.rcv.fails 0 0 } }

/-- The end of a hang recovery, with the first heartbeat of the command processor that a check finds (R458;
DESIGN CHOICE, assumption log entry 77). -/
def State.endRecovery (s : State) : State :=
  let s1 := s.killTaken.advanceGen.outTest
  { s1 with
    mail := { s1.mail with ready := true }
    rcv := { s1.rcv with hang := none, killed := [] } }

/-- The command processor's check. A beat after a release begins the checking, and ends the
recovery that released it. -/
def State.checkCmd (s : State) (beat : Bool) : State :=
  let n := s.rcv.fails.getD 0 0
  let paused := s.upd.activation.any fun a => a.comp == 3
  if s.board.hostPerst || paused then s
  else if s.rcv.cmdHeld then
    if beat then
      let s1 := { s with rcv := { s.rcv with cmdHeld := false } }
      if s1.rcv.hang.isSome then s1.endRecovery else s1
    else s
  else if beat then { s with rcv := { s.rcv with fails := setAt s.rcv.fails 0 0 } }
  else if 2 ≤ n then s.hangRecovery
  else { s with rcv := { s.rcv with fails := setAt s.rcv.fails 0 (n + 1) } }

/-- The active control processor's check; what follows is a takeover or the safe state. -/
def State.checkCtl (s : State) (beat : Bool) : State :=
  if !s.controlRuns then s
  else { s with rcv := { s.rcv with fails := setAt s.rcv.fails 1 (if beat then 0 else min 3 (s.rcv.fails.getD 1 0 + 1)) } }

/-- The security controller's check. -/
def State.checkSec (s : State) (beat : Bool) : State :=
  let n := s.rcv.fails.getD 2 0
  if s.sec.error || !s.sec.running || s.upd.activation.any (fun a => a.comp == 2) then s
  else if s.rcv.secHeld then
    if beat then { s.seedDrbg with rcv := { s.rcv with secHeld := false }, sec := { s.seedDrbg.sec with paused := false } } else s
  else if s.sec.paused then s
  else if beat then { s with rcv := { s.rcv with fails := setAt s.rcv.fails 2 0 } }
  else if 2 ≤ n then (s.logHang 1).alertOn.resetSec
  else { s with rcv := { s.rcv with fails := setAt s.rcv.fails 2 (n + 1) } }

/-- Lamplighter is being reloaded by its activation: heartbeats are written and not watched (R449). -/
def State.lampPaused (s : State) : Bool := s.upd.activation.any fun a => a.comp == 1

/-- `HEARTBEAT_CHECK` at the tick that begins frame 50k + 1: who wrote a heartbeat in the last
window. -/
def execHeartbeatCheck (cmd ctl sec : Bool) (s : State) : Host.Outcome State Fault Refusal :=
  .next (if s.board.railsUp && s.started && s.power.frame.toNat % 50 == 1 && !s.lampPaused then
      ((s.checkCmd cmd).checkCtl ctl).checkSec sec
    else s)

/-- `FIRST_HEARTBEAT_TIMEOUT` of a component ID of R435. -/
def execFirstHeartbeatTimeout (comp : Nat) (s : State) : Host.Outcome State Fault Refusal :=
  let held := if comp = 2 then s.rcv.secHeld && s.sec.running else if comp = 3 then s.rcv.cmdHeld && !s.board.hostPerst
    else comp == 4 && s.rcv.ctlHeld
  .next (if s.board.railsUp && held then s.startFail 3 else s)

/-- `LAMP_WATCHDOG`: Lamplighter is reloaded as by an activation. -/
def execLampWatchdog (s : State) : Host.Outcome State Fault Refusal :=
  .next (if s.board.lampReady then
      let s1 := (s.logHang 0).alertOn
      { s1 with sec := s1.sec.endSessions (fun t => t == .mctp), rcv := { s1.rcv with fails := [0, 0, 0] } }
    else s)

/-! ## The fabric of an I/O die (R453, R460) -/

/-- An operation has a pan stage or a chunk on a die. -/
def Comm.onDie (k : Comm) (d : Nat) : Bool :=
  match k.op with
  | none => false
  | some o =>
    if o.path == .endpoint then
      o.plan.sends.any (fun x => x.chunk % 4 == d) || o.plan.recvs.any (fun x => x.2 % 4 == d)
        || o.partials.any fun x => x.chunk % 4 == d
    else k.stages.contains d

/-- A Beacon operation of a channel whose stage is lost can only time out (R332, R460). -/
def Beacon.cut (b : Beacon) : Beacon := if b.busy.isSome then { b with own := none, ups := [], sent := true } else b

/-- Cancel what runs on a die, and reset its fabric. -/
def State.resetDie (s : State) (d : Nat) : State :=
  let hs := (s.coll.comms.filter fun k => k.onDie d).map (·.handle)
  let s0 := hs.foldl (fun a h => a.endOp h stUnitFailed) s
  let s1 := { s0 with coll := { s0.coll with
    beacons := s0.coll.beacons.map fun (b : Beacon) => if hs.contains b.comm then b.cut else b } }
  { s1 with coll := { s1.coll with panUsed := setAt s1.coll.panUsed d 0, panQueue := setAt s1.coll.panQueue d [] } }.resetIodFabric d

/-- `IOD_FABRIC_ERROR`. -/
def execIodFabricError (iod : Nat) (s : State) : Host.Outcome State Fault Refusal :=
  .next (if s.board.railsUp && decide (iod < 4) then s.resetDie iod else s)

end Sys2Proof.Machine
end

