-- ==== Sys2Proof/Machine/Update.lean ====
section
/-! DEFINITION. Firmware images: their checks, the boot record, staging, activation, floors and
reporting (R435 to R452). -/

namespace Sys2Proof.Machine

/-! ## Images (R437 to R440) -/

/-- Area size of a component. -/
def areaSize (comp : Nat) : Nat := [0, 4, 8, 32, 16, 32, 32].getD comp 0 * mib

/-- Bytes before the body. -/
def imageHead : Nat := 0x6000

/-- The eight entries of `PROVIDES` or `REQUIRES`. -/
def levelEntries (l : List Byte) (off : Nat) : List (BitVec 16) :=
  (List.range 8).map fun i => BitVec.ofNat 16 (gatherDesc l (off + 2 * i) 2)

/-- The image that bytes hold. -/
def parseImage (signed : Bool) (l : List Byte) : Image :=
  { compId := gatherDesc l 6 1, compatOrder := BitVec.ofNat 8 (gatherDesc l 8 1)
    stepMin := gatherDesc l 9 1, stepMax := gatherDesc l 0xA 1, evalLine := gatherDesc l 0xB 1 % 2 == 1
    version := BitVec.ofNat 32 (gatherDesc l 0xC 4), svn := gatherDesc l 0x10 4
    bodySize := gatherDesc l 0x14 4, provides := levelEntries l 0x48, requires := levelEntries l 0x58
    signed, bytes := l }

/-- Reserved bytes of header and signature block are zero. -/
def reservedZero (l : List Byte) : Bool :=
  decide (gatherDesc l 8 1 < 4 ∧ gatherDesc l 0xB 1 < 2)
    && ((l.drop 0x68).take 3608).all (· == 0) && ((l.drop (0x1000 + 0x4114)).take 3820).all (· == 0)

/-- Magic numbers and reserved bits of the stored header (check 1). -/
def rawHeaderOk (l : List Byte) : Bool :=
  decide (gatherDesc l 0 4 = 0x4C4D5449 ∧ gatherDesc l 4 2 = 1 ∧ gatherDesc l 7 1 = 1) && reservedZero l

/-- The fields of check 1. -/
def State.headerFieldsOk (s : State) (comp : Nat) (i : Image) : Bool :=
  decide (i.compId = comp ∧ i.stepMin ≤ stepping ∧ stepping ≤ i.stepMax ∧ i.svn ≤ 128
      ∧ 1 ≤ i.bodySize ∧ i.bodySize + imageHead ≤ areaSize comp)
    && i.compatOrder.getLsbD (if s.fuses.orderB then 1 else 0)

def State.floor (s : State) (comp : Nat) : Nat := s.fuses.svnFloor.getD (comp - 1) 0

/-! ## The boot record (R444) -/

/-- The copy that governs: good CRC, and the higher sequence. -/
def Flash.boot (f : Flash) : BootRecord :=
  if f.boot0.crcGood && (!f.boot1.crcGood || decide (f.boot1.seq < f.boot0.seq)) then f.boot0 else f.boot1

def State.bootEntry (s : State) (comp : Nat) : BootEntry := s.flash.boot.entries.getD (comp - 1) resetBootEntry

/-- Write entries to the copy that does not govern. -/
def State.writeBoot (s : State) (l : List BootEntry) : State :=
  let f := s.flash
  let r := f.boot
  let n : BootRecord := { seq := (r.seq + 1) % 2 ^ 32, crcGood := true, entries := l }
  if r = f.boot0 then { s with flash := { f with boot1 := n } } else { s with flash := { f with boot0 := n } }

def State.setBootEntry (s : State) (comp : Nat) (e : BootEntry) : State :=
  s.writeBoot (setAt s.flash.boot.entries (comp - 1) e)

/-- The image of a component in slot B (`b`) or A. -/
def State.image (s : State) (b : Bool) (comp : Nat) : Option Image :=
  (if b then s.flash.slotB else s.flash.slotA).getD (comp - 1) none

def State.setImage (s : State) (b : Bool) (comp : Nat) (i : Option Image) : State :=
  if b then { s with flash := { s.flash with slotB := setAt s.flash.slotB (comp - 1) i } }
  else { s with flash := { s.flash with slotA := setAt s.flash.slotA (comp - 1) i } }

/-- The active image of a component, as the boot record names it. -/
def State.activeImage (s : State) (comp : Nat) : Option Image := s.image (s.bootEntry comp).activeB comp

def BootEntry.validIn (e : BootEntry) (b : Bool) : Bool := if b then e.bValid else e.aValid

def BootEntry.setValid (e : BootEntry) (b v : Bool) : BootEntry :=
  if b then { e with bValid := v } else { e with aValid := v }

/-! ## Interface levels (R442, R443) -/

/-- The component that provides an interface. -/
def providerOf (iface : Nat) : Nat := [0, 3, 4, 4, 2, 1, 5, 6].getD iface 0

/-- A requirement is met by an image. -/
def levelMet (p : Option Image) (r : BitVec 16) : Bool :=
  let have_ := providedLevel p (r.toNat % 256)
  let need := r.toNat / 256
  decide (have_ / 16 = need / 16 ∧ need % 16 ≤ have_ % 16)

/-- Requirements of an image in use. -/
def Image.needs (i : Image) : List (BitVec 16) := i.requires.filter fun r => r.toNat % 256 != 0

/-- A new image of a component is compatible with the active images that `act` gives. -/
def compatible (act : Nat → Option Image) (comp : Nat) (i : Image) : Bool :=
  i.needs.all (fun r => decide (1 ≤ providerOf (r.toNat % 256)) && levelMet (act (providerOf (r.toNat % 256))) r)
    && ((List.range 6).filter fun c => c + 1 != comp).all fun c =>
      match act (c + 1) with
      | some o => (o.needs.filter fun r => providerOf (r.toNat % 256) == comp).all (levelMet (some i))
      | none => true

/-- Check 4, with the negotiated level for `CMD`. -/
def State.compatOk (s : State) (comp : Nat) (i : Image) : Bool :=
  compatible s.activeImage comp i
    && (comp != 3 || !s.mail.negotiated || levelMet (some i) (BitVec.ofNat 16 (s.mail.level.toNat * 256 + 1)))

/-- Checks 1 to 4 of R439: the status of the first that fails. -/
def State.checkImage (s : State) (comp : Nat) (raw : Bool) (i : Image) : Option Nat :=
  if !raw || !s.headerFieldsOk comp i then some stHeaderReject
  else if !i.signed then some stAuthFail
  else if i.svn < s.floor comp then some stRollback
  else if !s.compatOk comp i then some stIncompatible
  else none

/-- A stored image passes. -/
def State.imageOk (s : State) (comp : Nat) (i : Option Image) : Bool :=
  match i with
  | some x => (s.checkImage comp true x).isNone
  | none => false

/-! ## Staging (R445, R446) -/

/-- Firmware commands are refused unless `BOOTSEL` was sampled as 00 (R447). -/
def State.bootNormal (s : State) : Bool := s.board.bootsel == 0

/-- The slot that a component's staging writes: the one not active; in a recovery with no valid
slot, slot A (R451). -/
def State.stagesB (s : State) (comp : Nat) : Bool :=
  let e := s.bootEntry comp
  if s.board.bootsel = 3 && !e.aValid && !e.bValid then false else !e.activeB

/-- Checks 1 to 4 when staging; a recovery checks levels over the whole loaded set (R443, R451). -/
def State.stagingStatus (s : State) (comp : Nat) (raw : Bool) (i : Image) : Option Nat :=
  match s.checkImage comp raw i with
  | some st => if s.board.bootsel = 3 ∧ st = stIncompatible then none else some st
  | none => none

/-- A first piece that passed: the former image of the slot is gone. -/
def State.openStaging (s : State) (comp : Nat) (pldm : Bool) (bytes : List Byte) : State :=
  let b := s.stagesB comp
  let s1 := (s.setBootEntry comp { (s.bootEntry comp).setValid b false with pending := false }).setImage b comp none
  let g : Staging := { comp, byPldm := pldm, toB := b, checked := true, bytes, lastFrame := s.power.frame.toNat, slot := none, last := false }
  { s1 with upd := { s1.upd with staging := some g, recovered := SMap.del s1.upd.recovered comp } }

/-- Add a piece. -/
def State.addPiece (s : State) (data : List Byte) (slot : Option Nat) (last : Bool) : State :=
  { s with upd := { s.upd with staging := s.upd.staging.map fun (g : Staging) =>
      { g with bytes := g.bytes ++ data, lastFrame := s.power.frame.toNat, slot, last } } }

def State.dropStaging (s : State) : State := { s with upd := { s.upd with staging := none } }

/-- The digest of the body (check 5). -/
def digestOk (l : List Byte) : Bool :=
  Config.sha384 (l.drop imageHead) == (l.drop 0x18).take 48

/-- The whole image is in flash: check 5, and the outcome. -/
def State.closeStaging (s : State) (g : Staging) : State × Bool :=
  let b := g.toB
  let ok := digestOk g.bytes
  if ok then
    let i := parseImage true g.bytes
    let s1 := (s.setImage b g.comp (some i)).setBootEntry g.comp { (s.bootEntry g.comp).setValid b true with pending := true }
    ((s1.dropStaging).log evFwStaged srcSec (BitVec.ofNat 32 g.comp) i.version, true)
  else (s.dropStaging, false)

/-- Statuses that refuse firmware commands before their own checks (R447, R489). -/
def State.stageBusy (s : State) (comp : Nat) : Bool :=
  s.upd.staging.any (fun g => g.comp != comp || g.byPldm)
    || s.upd.activation.any (fun a => a.comp == comp || a.comp == 2) || s.upd.pldm.mode

/-- Fields of `FW_STAGE`. -/
def State.stageFieldsOk (s : State) (slot : Nat) : Bool :=
  let comp := s.body slot 0 1
  let fl := s.body slot 1 1
  let len := s.body slot 0x10 4
  decide (1 ≤ comp ∧ comp ≤ 6 ∧ fl < 4 ∧ s.body slot 8 8 % 4096 = 0 ∧ 4096 ≤ len ∧ len ≤ 16 * mib)
    && (decide (len % 4096 = 0) || decide (2 ≤ fl)) && (decide (fl % 2 = 0) || decide (24576 ≤ len))

/-- The piece before is still being written to flash (assumption log entry 81). -/
def State.pieceWaits (s : State) (comp : Nat) : Bool := s.upd.staging.any fun g => g.comp == comp && g.slot.isSome

/-- Bytes of the staging that a piece goes on with. -/
def State.stagedBytes (s : State) (comp : Nat) : Option (List Byte) :=
  match s.upd.staging with
  | some g => if g.comp = comp && !g.byPldm then some g.bytes else none
  | none => none

/-- A piece of an image, with what comes before it. -/
def State.stagePiece (s : State) (t : Taken) (last : Bool) (piece : List Byte) : State :=
  (s.addPiece piece (some t.slot) last).markStarted t.slot

/-- `FW_STAGE`; `data` is the piece as the host answers. -/
def execFwStage (slot : Nat) (data : List Byte) (s : State) : Host.Outcome State Fault Refusal :=
  command slot opFwStage s fun t =>
    let comp := s.body slot 0 1
    let fl := s.body slot 1 1
    let off := s.body slot 4 4
    let piece := padTo (s.body slot 0x10 4) data
    let last := decide (2 ≤ fl)
    if !s.stageFieldsOk slot then s.complete t (.of stBadField)
    else if !s.bootNormal then s.complete t (.of stWrongState)
    else if s.stageBusy comp then s.complete t (.of stBusy)
    else if s.pieceWaits comp then s
    else if fl % 2 = 1 then
      let i := parseImage (Config.imageSigned s.fuses.keysetDev s.fuses.rootRsa s.fuses.rootSlh piece) piece
      if off ≠ 0 ∨ last ∧ piece.length ≠ imageHead + i.bodySize then s.complete t (.of stBadField)
      else
        let s0 := s.dropStaging
        match s0.stagingStatus comp (rawHeaderOk piece) i with
        | some st => s0.complete t (.of st)
        | none => (s0.openStaging comp false []).stagePiece t last piece
    else
      match s.stagedBytes comp with
      | none => s.complete t (.of stBadField)
      | some old =>
        let whole := (parseImage true (old ++ piece)).bodySize + imageHead
        if off ≠ old.length ∨ last ∧ (old ++ piece).length ≠ whole then s.complete t (.of stBadField)
        else s.stagePiece t last piece

/-- The piece of a mailbox staging is in flash. -/
def State.pieceWritten (s : State) : State :=
  match s.upd.staging with
  | none => s
  | some g =>
    match g.slot with
    | none => s
    | some slot =>
      let n := g.bytes.length
      if g.last then
        let r := s.closeStaging g
        r.1.completeSlot slot { Report.of (if r.2 then stDone else stAuthFail) with r0 := n }
      else
        { s with upd := { s.upd with staging := some { g with slot := none } } }.completeSlot slot
          { Report.of stDone with r0 := n }

/-- `STAGING_TIMEOUT`: 60 s without a piece. -/
def execStagingTimeout (s : State) : Host.Outcome State Fault Refusal :=
  .next (match s.upd.staging with
    | some g =>
      if g.slot.isNone = true ∧ g.lastFrame + 3000000 ≤ s.power.frame.toNat then
        let s1 := s.dropStaging
        { s1 with upd := { s1.upd with pldm := { s1.upd.pldm with comp := none } } }
      else s
    | none => s)

/-! ## Activation (R448, R449) -/

/-- An operation of a context runs. -/
def State.longRuns (s : State) : Bool :=
  s.disp.submits.any (fun u => !u.held) || s.disp.transfers.any (fun u => !u.held) || s.coll.batches.any fun u => !u.held

/-- The conditions of R449. -/
def State.mayActivate (s : State) (comp : Nat) : Bool :=
  if comp = 2 then !s.anyConf
  else if comp = 3 then !s.longRuns
  else if comp = 4 then !s.power.aOut && !s.power.bOut && s.power.standbyGood
  else true

/-- Port halves that the `LINK` activation retrains, in ascending order of their port identifiers. -/
def State.linkedHalves (s : State) : List Nat := ((List.range 128).filterMap s.halfNamed).filter fun h => (s.port h).inService

/-- Commands taken before this one that have not completed: an activation of `CMD` waits for them (R449). -/
def State.earlierTaken (s : State) (t : Taken) : Bool :=
  (s.mail.taken.takeWhile fun x => x.slot != t.slot).any fun x => !diagnostic x.opcode.toNat

/-- The activation begins: the boot record names the new image. -/
def State.beginActivation (s : State) (comp : Nat) (slot : Option Nat) : State :=
  let e := s.bootEntry comp
  let hs := if comp = 5 then s.linkedHalves else []
  let s1 := s.setBootEntry comp { e with activeB := !e.activeB, pending := false }
  let s2 := { s1 with upd := { s1.upd with activation := some { comp, slot, fromB := e.activeB, linkDown := hs, linkLeft := hs } } }
  if comp = 1 then { s2 with sec := s2.sec.endSessions fun t => t == .mctp }
  else if comp = 2 then s2.resetSec
  else if comp = 4 then { s2 with power := { s2.power with handover := true } }
  else s2.linkTurn

/-- `FW_ACTIVATE` of a component, by mailbox or by PLDM: the status that refuses it, if any. -/
def State.activateRefusal (s : State) (comp : Nat) : Option Nat :=
  let e := s.bootEntry comp
  if s.upd.activation.isSome then some stBusy
  else if !s.bootNormal ∨ !e.pending then some stWrongState
  else
    match s.image (!e.activeB) comp with
    | none => some stWrongState
    | some i =>
      match s.checkImage comp true i with
      | some st => some st
      | none => if s.mayActivate comp then none else some stWrongState

/-- Only the boot record is written: `MEMT` has nothing to serve before the next training. -/
def State.activateBoot (s : State) (comp : Nat) : State :=
  let e := s.bootEntry comp
  s.setBootEntry comp { e with activeB := !e.activeB, pending := false }

def execFwActivate (slot : Nat) (s : State) : Host.Outcome State Fault Refusal :=
  command slot opFwActivate s fun t =>
    let comp := s.body slot 0 1
    if !(decide (1 ≤ comp ∧ comp ≤ 6)) then s.complete t (.of stBadField)
    else
      match s.activateRefusal comp with
      | some st => s.complete t (.of st)
      | none =>
        if comp = 3 ∧ s.earlierTaken t = true then s
        else if comp = 6 then
          let s1 := s.activateBoot 6
          s1.complete t { Report.of stDone with r0 := ((s1.activeImage 6).map fun i => i.version.toNat).getD 0 }
        else (s.beginActivation comp (some slot)).markStarted slot

/-- PLDM activates the components that are left, in order (R488): each refusal ends the command;
without core rails only Lamplighter has an image to exchange, and for the others the boot record is
written, as for `MEMT`. -/
def State.activateNext : List Nat → State → State
  | [], s => { s with upd := { s.upd with pldm := resetUpdate.pldm } }.emit (.pldm .success [])
  | c :: rest, s =>
    match s.activateRefusal c with
    | some _ =>
      { s with upd := { s.upd with pldm := { s.upd.pldm with queue := none } } }.emit (.pldm .activationNotRequired [])
    | none =>
      if c = 6 ∨ !s.board.railsUp ∧ c ≠ 1 then State.activateNext rest (s.activateBoot c)
      else
        let s1 := s.beginActivation c none
        { s1 with upd := { s1.upd with pldm := { s1.upd.pldm with queue := some rest } } }

/-- Log that measurement blocks changed. -/
def State.measChanged (s : State) (mask : Nat) : State := s.log evMeasChanged srcSec (BitVec.ofNat 32 mask) 0

/-- Measurement block of a component. -/
def blockOf (comp : Nat) : Nat := comp + 1

/-- A component runs an image from now on; a `SEC` image under keys of its own (R409). -/
def State.runImage (s : State) (comp : Nat) (i : Option Image) : State :=
  let s1 := { s with sec := { s.sec with runningImages := setAt s.sec.runningImages (comp - 1) i } }
  if comp = 2 then s1.deriveKeys i else s1

/-- Every running image is from the evaluated release line, and the rest of R433. -/
def State.evaluated (s : State) : Bool :=
  !s.fuses.keysetDev && s.fuses.debugFuse && !s.sec.error && !s.sec.debugOpen
    && s.sec.runningImages.all fun i => i.any fun x => x.evalLine

/-- The new image serves. -/
def State.serve (s : State) (a : Activation) : State :=
  let i := s.activeImage a.comp
  let v := (i.map fun x => x.version).getD 0
  let was := s.evaluated
  let s1 := { s.runImage a.comp i with upd := { s.upd with activation := none } }
  let s2 := if a.comp = 2 then { s1 with sec := { s1.sec with paused := false }, rcv := { s1.rcv with secHeld := false } }
    else { s1 with sec := s1.sec.endSessions fun _ => true }
  let s3 := s2.log evFwActivated srcSec (BitVec.ofNat 32 a.comp) v
  s3.measChanged (2 ^ blockOf a.comp + if s3.evaluated = was then 0 else 2 ^ 8)

/-- The activation can end: the handover has taken place, the ports have retrained. -/
def State.activationReady (s : State) (a : Activation) : Bool :=
  if a.comp = 4 then !s.power.handover else if a.comp = 5 then a.linkLeft == [] && a.linkDown.all fun h => (s.port h).st != .retraining else true

/-! ## Floors (R440, R441) -/

/-- Raise the floor to the active image's security version. -/
def State.raiseFloor (s : State) (comp : Nat) : State :=
  match s.activeImage comp with
  | none => s
  | some i =>
    if i.svn ≤ s.floor comp then s
    else
      let e := s.bootEntry comp
      let b := !e.activeB
      let old := s.image b comp
      let s1 := { s with fuses := { s.fuses with svnFloor := setAt s.fuses.svnFloor (comp - 1) i.svn } }
      let s2 := if old.any fun x => decide (x.svn < i.svn) then s1.setBootEntry comp (e.setValid b false) else s1
      s2.measChanged (2 ^ 8)

/-- The status that refuses `FW_COMMIT`, if any. -/
def State.commitRefusal (s : State) (comp : Nat) : Option Nat :=
  if !(decide (1 ≤ comp ∧ comp ≤ 6)) then some stBadField
  else if s.upd.activation.any (fun a => a.comp == comp) then some stBusy
  else if !s.bootNormal then some stWrongState
  else none

def execFwCommit (slot : Nat) (s : State) : Host.Outcome State Fault Refusal :=
  command slot opFwCommit s fun t =>
    let comp := s.body slot 0 1
    match s.commitRefusal comp with
    | some st => s.complete t { Report.of st with r0 := if st = stBadField then 0 else s.floor comp }
    | none =>
      let s1 := s.raiseFloor comp
      s1.complete t { Report.of stDone with r0 := s1.floor comp }

/-! ## FW_STATUS (R452) -/

def State.activating (s : State) (comp : Nat) : Bool :=
  s.upd.activation.any (fun a => a.comp == comp)
    || (comp == 6 && s.started && s.sec.runningImages.getD 5 none != s.activeImage 6)

/-- A staged image is held: until the end of its activation (R416, R420). -/
def State.heldPending (s : State) (comp : Nat) : Bool := (s.bootEntry comp).pending || s.activating comp

def maskOf (f : Nat → Bool) : Nat := (List.range 6).foldl (fun m c => m + if f (c + 1) then 2 ^ c else 0) 0

/-- A component's entry of the record. -/
def State.statusEntry (s : State) (comp : Nat) : List Byte :=
  let e := s.bootEntry comp
  let b := fun (i : Nat) (x : Bool) => if x then 2 ^ i else 0
  let act := s.activeImage comp
  let other := if e.validIn (!e.activeB) then s.image (!e.activeB) comp else none
  leBytes 1 comp
    ++ leBytes 3 (b 0 e.activeB + b 1 e.aValid + b 2 e.bValid + b 3 e.pending + b 4 e.fellBack
      + b 5 (s.activating comp) + b 6 (s.upd.staging.any fun g => g.comp == comp))
    ++ leBytes 4 ((act.map fun i => i.version.toNat).getD 0) ++ leBytes 4 ((act.map fun i => i.svn).getD 0)
    ++ leBytes 4 (s.floor comp) ++ leBytes 4 ((other.map fun i => i.version.toNat).getD 0)
    ++ leBytes 4 ((other.map fun i => i.svn).getD 0) ++ leBytes 8 0

def State.fwRecord (s : State) : List Byte :=
  leBytes 1 1 ++ leBytes 1 s.board.bootsel.toNat ++ leBytes 2 0
    ++ leBytes 4 ((s.upd.staging.map fun g => g.bytes.length).getD 0) ++ leBytes 8 0
    ++ (List.range 6).flatMap fun c => s.statusEntry (c + 1)

def execFwStatus (slot : Nat) (s : State) : Host.Outcome State Fault Refusal :=
  command slot opFwStatus s fun t =>
    if !s.bufOk slot then s.complete t (.of stBadField)
    else
      let l := s.fwRecord
      let n := s.body slot 0x10 4
      (s.hostWrite (s.body slot 8 8) (l.take n)).complete t { Report.of stDone with
        r0 := maskOf s.activating + 2 ^ 8 * maskOf s.heldPending
          + 2 ^ 16 * (s.upd.staging.map fun g => g.comp).getD 0
        r1 := min n l.length, flags := if n < l.length then cflagTrunc else 0 }

end Sys2Proof.Machine
end

