-- ==== Sys2Proof/Machine/Start.lean ====
section
/-! DEFINITION. The cold start and the warm start: self-test, boot-source selection, fenced units,
memory, the control pair and the mailbox (R53, R64, R79, R184, R271, R358, R368, R378, R387, R407,
R412, R450, R451, R461, R463 to R466, R485). -/

namespace Sys2Proof.Machine

/-! ## The package reset that a warm start begins with (R228, R233, R259, R281, R453) -/

/-- Every partition and context has ended; generations stay as they have advanced. -/
def State.endParts (s : State) : State :=
  { s with parts := s.parts.map fun (k : Part) => { Part.reset with
      pgen := k.pgen, ctxs := k.ctxs.map fun (c : Ctx) => { Ctx.reset with cgen := c.cgen, retired := c.retired } } }

/-- Fabric blocks, ports and time information at their reset values; modes in force and the counters stay (R289). -/
def State.resetFabricAll (s : State) : State :=
  let s1 := s.resetHalves (fun _ => true) (fun _ => .disabled) true
  { s1 with fabric := { resetFabric with modes := s1.fabric.modes, ports := s1.fabric.ports } }

/-- Granules that leave their owners with the partitions: their retire-pending pages are retired (R184). -/
def State.retireShared (s : State) : State :=
  ((s.flash.retired.filter fun r => !r.retired && (s.granule (r.page / 512)).owner != .free).map (·.page / 512)).foldl
    State.retirePending s

/-- A package warm start begins: every domain is reset (R453, R454). The link drops and trains again;
the port then answers, with `READY` = 0, until the warm start completes (R27). -/
def State.packageReset (s : State) (escalated : Bool) : State :=
  let s0 := s.retireShared
  let s1 := s0.resetCompute.advanceGen.endParts.resetFabricAll.clearMailbox.dropLink
  { s1 with
    board := { s1.board with
      warmDue := true, warmHeld := false, stopCount := false, escalated, cxlUp := !s1.board.hostPerst }
    cells := [], banks := []
    mem := { s1.mem with granules := [], cleanLines := [], feed := [], uncorr := [], hints := [], ras := [] }
    disp := resetDisp
    coll := { resetColl with dead := s1.coll.dead }
    thermal := { s1.thermal with haltClosed := false, snuffed := false }
    copy := none
    sec := { s1.sec.endSessions (fun _ => true) with running := false, paused := false, nonce := none, token := [], chunks := [], chunkSeq := 0, waiting := [], deferred := [] }
    upd := { s1.upd with staging := none, activation := none, pldm := resetUpdate.pldm }
    rcv := { s1.rcv with
      fails := [0, 0, 0], cmdHeld := true, ctlHeld := true, secHeld := true, hang := none, killed := [], regionResets := 0 } }

/-! ## Self-test and boot sources (R407, R412, R450, R451) -/

/-- The ROM's tests pass. -/
def State.selfTestOk (s : State) (f : StartFindings) : Bool :=
  f.selfTestOk && (s.fuses.keysetDev || s.fuses.debugFuse)

/-- What a start reads back from flash: an image that is damaged fails its checks, and a copy of the boot record with a
wrong CRC governs no more (R439, R444). -/
def State.readFlash (s : State) (f : StartFindings) : State :=
  let s1 := f.damaged.foldl (fun a x =>
    a.setImage x.1 x.2 ((a.image x.1 x.2).map fun (i : Image) => { i with signed := false })) s
  { s1 with flash := { s1.flash with
    boot0 := { s1.flash.boot0 with crcGood := s1.flash.boot0.crcGood && !f.recordBad.getLsbD 0 }
    boot1 := { s1.flash.boot1 with crcGood := s1.flash.boot1.crcGood && !f.recordBad.getLsbD 1 } } }

/-- The slot that a component starts from: B (`true`), A, or none that passes. -/
def State.bootSlot (s : State) (comp : Nat) : Option Bool :=
  let e := s.bootEntry comp
  let ok := fun b => s.imageOk comp (s.image b comp)
  if s.board.bootsel = 3 then none
  else if s.board.bootsel = 1 then (if ok false then some false else none)
  else if s.board.bootsel = 2 then (if ok true then some true else none)
  else if ok e.activeB then some e.activeB
  else if e.validIn (!e.activeB) && ok (!e.activeB) then some (!e.activeB)
  else none

/-- Start one component: a fallback is written to the boot record and logged. -/
def State.bootComponent (s : State) (comp : Nat) : State :=
  let e := s.bootEntry comp
  match s.bootSlot comp with
  | none => s.runImage comp none
  | some b =>
    let i := s.image b comp
    let back := s.board.bootsel == 0 && b != e.activeB
    let s1 := if s.board.bootsel = 0 ∧ (back || e.fellBack) then
        s.setBootEntry comp { e with activeB := b, fellBack := back }
      else s
    let s2 := if back then
        s1.log evFwActivated srcSec (BitVec.ofNat 32 comp) ((i.map fun x => x.version).getD 0)
      else s1
    if comp = 6 then s2 else s2.runImage comp i

/-- The `MEMT` image of this start. -/
def State.memtImage (s : State) : Option Image :=
  match s.bootSlot 6 with
  | some b => s.image b 6
  | none => none

/-- Lamplighter starts from its image; at a warm start it goes on with the one that it runs (R464), but for a recovery,
which does not run it (R451). -/
def State.bootLamp (s : State) (cold : Bool) : State := if cold || s.board.bootsel == 3 then s.bootComponent 1 else s

/-- The boot chain from `SEC` on. -/
def State.bootAll (s : State) : State := (List.range 5).foldl (fun a c => a.bootComponent (c + 2)) s

/-- A component runs. -/
def State.runs (s : State) (comp : Nat) : Bool :=
  if comp = 6 then s.memtImage.isSome else (s.sec.runningImages.getD (comp - 1) none).isSome

/-! ## Units and memory (R64, R71, R72, R79, R175, R184, R465) -/

/-- A slot whose clamp is closed holds a DIMM (R53, R175). -/
def dimmPowered (f : DimmFinding) : Bool := f.closed && f.present

/-- The rows of R174. -/
def dimmSupported (f : DimmFinding) : Bool :=
  f.mrdimm && decide (8800 ≤ f.rate) && f.subchannels == 2 && f.deviceBits == 4
    && (f.gib == 64 || f.gib == 128 || f.gib == 256) && decide (f.mw ≤ 18000)

/-- The capacity that a start brings into service in a slot: none where the clamp is open, and
none where the DIMM is outside R174, draws more than 18 W or fails training (R175). -/
def dimmUsable (f : DimmFinding) : Nat := if dimmPowered f && dimmSupported f && f.trains then f.gib else 0

/-- A slot with nothing in it. -/
def noDimm : DimmFinding :=
  { closed := false, present := false, mrdimm := false, rate := 0, subchannels := 0, deviceBits := 0, gib := 0
    mw := 0, trains := false, spd := 0 }

def slotOf (f : StartFindings) (d : Nat) : DimmFinding := f.dimms.getD d noDimm

/-- SPD identities of the slots (R465). -/
def spdOf (f : StartFindings) : List Nat :=
  (List.range 12).map fun d => if dimmPowered (slotOf f d) then (slotOf f d).spd else 0

/-- The clamp switches (R53). -/
def clampsOf (f : StartFindings) : BitVec 12 :=
  (List.range 12).foldl (fun m d => putBit m d (slotOf f d).closed) 0

/-- The crash dump area (R79). -/
def State.placeDump (s : State) : Option Nat :=
  match (List.range 8).find? (fun g => (List.range 4).any fun k => s.stackPresent (4 * g + k)) with
  | some g =>
    ((List.range 4).filter fun k => s.stackPresent (4 * g + k)).getLast?.map fun k => (4 * g + k + 1) * hbmSize - 2 ^ 28
  | none => none

/-- Fence a unit at a start, whether or not its clocks run. An edge is none of these: it returns at
every start at which it trains (R71). -/
def State.startFence (s : State) (u : BitVec 32) : State :=
  let kind := u.toNat / 2 ^ 28
  let hi := u.toNat / 256 % 256
  let lo := u.toNat % 256
  match kind with
  | 1 => s.dropCell (16 * hi + lo) 0x0A
  | 2 => s.fenceBlockUp hi 0x0A
  | 3 => s.isolate hi 0x0A
  | 4 => if s.stackPresent hi then
      { s with units := { s.units with hbm := putBit s.units.hbm hi false } }.noteFence (unitId 4 hi 0 0x0A) none
    else s
  | 7 => if s.units.dimms.getD hi 0 ≠ 0 then
      { s with units := { s.units with
        dimms := setAt s.units.dimms hi 0, dimmsLost := putBit s.units.dimmsLost hi true } }.noteFence
          (unitId 7 hi 0 0x0A) none
    else s
  | _ => s

/-- Units that a cold start finds bad: those that fail, and those fenced 3 times in their life. -/
def State.badUnits (s : State) (f : StartFindings) : List (BitVec 32) :=
  ((s.flash.fences.filter fun e => decide (3 ≤ e.count)).map fun e => unitOf e.unit) ++ f.bistFailed.map unitOf

/-- Edges that did not train are open. -/
def openEdges (m : BitVec 12) : List Edge :=
  (List.range 12).map fun e => { up := m.getLsbD e, frameReplays := 0, retraining := false, failures := 0 }

/-- Note units that training leaves out, among those that could be there; of the DIMMs, those that
are powered and go down again (R175), except one that was lost before. -/
def State.noteLost (s : State) (hbm : BitVec 32) (edges : BitVec 12) (f : StartFindings) : State :=
  let s1 := ((List.range 32).filter fun n => hbm.getLsbD n && !f.stacksOk.getLsbD n).foldl
    (fun a n => a.noteFence (unitId 4 n 0 0x06) none) s
  let s2 := ((List.range 12).filter fun d =>
      dimmPowered (slotOf f d) && dimmUsable (slotOf f d) == 0 && !s.units.dimmsLost.getLsbD d).foldl
    (fun a d => a.noteFence (unitId 7 d 0 0x06) none) s1
  ((List.range 12).filter fun e => edges.getLsbD e && !f.edgesOk.getLsbD e).foldl
    (fun a e => a.noteFence (unitId 5 e 0 0x07) none) s2

/-- Stacks and DIMMs with too many retired pages are lost (R177, R184). -/
def State.retiredUnits (s : State) : State :=
  let s1 := ((List.range 32).filter fun n => s.stackPresent n && decide (16384 < s.retiredIn (n * hbmSize) hbmSize)).foldl
    State.loseStack s
  ((List.range 12).filter fun d => decide (16384 < s1.retiredIn (ddrBase + d * 2 ^ 38) (2 ^ 38))).foldl State.loseDimm s1

/-- Two or more open edges split the ring. -/
def State.ringCheck (s : State) : State :=
  if 2 ≤ ((List.range 12).filter fun e => !(s.edge e).up).length then s.splitRing else s

/-- Units of a cold start: all are tested again. -/
def State.coldUnits (s : State) (f : StartFindings) : State :=
  let retired := s.flash.retired.filter fun r => !(f.repaired.contains r.page && pageMem r.page == 1)
  let s1 := { s with
    flash := { s.flash with retired }
    board := { s.board with clamps := clampsOf f }
    units := { resetUnits with
      hbm := f.stacksOk, dimms := (List.range 12).map fun d => dimmUsable (slotOf f d), edges := openEdges f.edgesOk
      iods := 0xF } }
  let s2 := s1.noteLost (BitVec.allOnes 32) (BitVec.allOnes 12) f
  let s3 := ((s.badUnits f).foldl State.startFence s2).retiredUnits.ringCheck
  { s3 with units := { s3.units with dumpBase := s3.placeDump }, rcv := { s3.rcv with dump := none } }

/-- Units of a warm start: fences stay, edges and DIMMs train again, and a lost DIMM stays lost. -/
def State.warmUnits (s : State) (f : StartFindings) : State :=
  let u := s.units
  let dimms := (List.range 12).map fun d => if u.dimmsLost.getLsbD d then 0 else dimmUsable (slotOf f d)
  let s1 := (s.noteLost u.hbm (BitVec.allOnes 12) f)
  let s2 := { s1 with board := { s1.board with clamps := clampsOf f }, units := { s1.units with
    hbm := u.hbm &&& f.stacksOk, dimms, edges := openEdges f.edgesOk, iods := 0xF, noCompute := false } }
  let s3 := s2.retiredUnits.ringCheck
  let base := s3.placeDump
  { s3 with
    units := { s3.units with dumpBase := base }
    rcv := { s3.rcv with dump := if base = u.dumpBase then s3.rcv.dump else none } }

/-- Train memory: from stored results where they still fit, else in full, which stores them. -/
def State.train (s : State) (cold : Bool) (f : StartFindings) : State :=
  match s.memtImage with
  | none => s
  | some i =>
    let fits := f.trainGood && s.flash.training.any fun t => t.memtVersion == i.version && t.serial == s.fuses.serial && t.spd == spdOf f
    let fresh := s.flash.training.any fun t => t.memtVersion != i.version
    let trained := s.sec.runningImages.getD 5 none
    if !cold && fits && trained.isSome then s
    else
      let s1 := { s.runImage 6 (some i) with flash := { s.flash with
        training := some { memtVersion := i.version, serial := s.fuses.serial, spd := spdOf f } } }
      if fresh then s1.log evFwActivated srcSec 6 i.version else s1

/-! ## The control pair and the thermal model (R358, R368, R378, R387, R404) -/

/-- Trims at a start, in 0.5 mV. -/
def State.startTrims (s : State) (f : StartFindings) : List Int :=
  if f.trimReadable then s.flash.trims else if s.flash.trimStored then List.replicate 8 50 else List.replicate 8 0

/-- Control state at a start; what the module counts and Lamplighter keeps stays. -/
def State.startControl (s : State) (cold : Bool) (f : StartFindings) : State :=
  let p := s.power
  let b := !f.ctlAOk || (!cold && p.aOut)
  let cap := min 3000 (min p.rack (cfg s.config.active 2 2))
  let s1 := { s with
    copy := none
    power := { resetPower with
      frame := p.frame, rack := p.rack, rackNew := p.rackNew, everDecided := p.everDecided
      active := if b then 1 else 0, tokenB := b, aOut := b, bOut := false
      failovers := p.failovers, frameOverrun := p.frameOverrun, dualActive := p.dualActive
      effCap := cap, coolantW := 3000, capSeen := p.capSeen, lastCal := p.lastCal
      trims := s.startTrims f, trimAt := p.trimAt, coeffStoredAt := p.coeffStoredAt, moduleUj := p.moduleUj, railsUj := p.railsUj
      unattributedUj := p.unattributedUj, attributed := p.attributed, telem := p.telem
      trayRing := p.trayRing, trayAcc := p.trayAcc, coarse := p.coarse, coarseTemp := p.coarseTemp } }
  s1.loadCoeffs f.coeffsReadable

/-- Sensors that fail their self-test. -/
def badSensors (f : StartFindings) : BitVec 192 := f.sensorsFailed.foldl (fun m n => putBit m n true) 0

/-- The thermal model before the first report. -/
def State.startThermal (s : State) (cold : Bool) (f : StartFindings) : State :=
  let t := s.thermal
  let bad := badSensors f
  let kept := if cold then 0 else t.excluded &&& ~~~t.selfTest
  let s1 := { s with thermal := { resetThermal with
    excluded := kept ||| bad, selfTest := bad, lastSeq := t.lastSeq, snuffed := t.snuffed, gateAt := t.gateAt } }
  { s1 with thermal := { s1.thermal with tp := List.replicate 44 s1.coolantTemp } }

/-! ## The end of a start -/

/-- The latch is cleared at a cold start for which the tray asked (R463). -/
def Persist.serviceStart (p : Persist) : Persist :=
  if p.clearPending then { p with oos := false, clearPending := false, hangTimes := [0, 0, 0] } else p

/-- The link engines take their seeds (R409, R428), the modes of the active set come into force (R260, R261), ports train,
a hang recovery that a warm start has absorbed is tested (R459 to R461), the PDR repository is rebuilt, and the mailbox
serves. -/
def State.finishStart (s : State) (kind : BitVec 2) : State :=
  let r := s.randoms 72
  let s0 := { r.2 with fabric := { r.2.fabric with seeds := r.1 } }
  let s1 := ((List.range 36).foldl State.holdMode s0).settlePorts.retime
  let s1 := if kind = 2 then s1.outTest else s1
  let s2 := { s1 with
    board := { s1.board with coldDue := false, warmDue := false, escalated := false, cxlUp := !s1.board.hostPerst }
    units := { s1.units with topo := s1.topologyNow }
    side := { s1.side with pdrPorts := ((List.range 72).filter s1.halfExists).map pidOf }
    mail := { s1.mail with start := kind, startFrame := s1.power.frame, ready := s1.runs 3 && !s1.board.hostPerst }
    rcv := { s1.rcv with fails := [0, 0, 0], cmdHeld := s1.board.hostPerst, ctlHeld := false, secHeld := false } }
  if s2.runs 3 then s2.persist fun p => { p with startResult := 0 } else s2.startFail 2

/-- A start stops short. -/
def State.stopStart (s : State) (code : Nat) : State :=
  let s1 := { s with board := { s.board with coldDue := false, warmDue := false, escalated := false, cxlUp := !s.board.hostPerst } }
  s1.startFail code

/-- From the boot chain to the end, for both kinds; `units` gives the units of the start. -/
def State.runStart (s : State) (cold : Bool) (f : StartFindings) (units : State → State) : State :=
  let s := s.bootLamp cold
  if !s.selfTestOk f || (!cold && s.sec.error) then
    let s1 := { s with sec := { s.sec with error := true, running := false } }
    s1.stopStart 1
  else
    let s1 := { s with sec := { s.sec with error := false, running := true, paused := false } }
    let s2 := s1.bootAll
    if !([1, 2, 4, 5, 6].all s2.runs) then s2.stopStart 2
    else
      let s3 := (units s2).train cold f
      if presentRegions s3 = [] then s3.stopStart 4
      else
        let s4 := ((s3.startControl cold f).startThermal cold f)
        if !([1, 2, 3].all fun c => f.firstBeat.getLsbD c || (c == 2 && !s4.runs 3)) then s4.stopStart 3
        else s4.finishStart (if cold then 1 else 2)

/-- `COLD_START`: after `PWR_GOOD`. -/
def execColdStart (f : StartFindings) (s : State) : Host.Outcome State Fault Refusal :=
  .next (if !(s.board.railsUp && s.board.coldDue) then s
    else
      let trip := s.flash.persist.shutdownCause == 1
      let s1 := s.persist fun p => { p.serviceStart with coldStarts := p.coldStarts + 1 }
      let s2 := { s1 with mail := { s1.mail with resetGen := 0, evtLast := 0, evtCount := 0 } }
      let s3 := if trip then
          s2.log evTrip srcHardware (s2.flash.persist.shutdownSensor.setWidth 32)
            (BitVec.ofInt 32 s2.flash.tripReading)
        else s2
      (s3.readFlash f).runStart true f fun a => a.coldUnits f)

/-- Blocks 2 to 7 that differ. -/
def changedBlocks (a b : List (Option Image)) : Nat :=
  (List.range 6).foldl (fun m c => m + if a.getD c none = b.getD c none then 0 else 2 ^ (c + 2)) 0

/-- An accepted debug token takes effect (R432). -/
def State.openDebug (s : State) : State :=
  match s.sec.tokenScope with
  | some sc => { s with sec := { s.sec with debugOpen := true, debugScope := sc, tokenScope := none } }
  | none => s

/-- `WARM_START`: `BOOTSEL` is sampled again. -/
def execWarmStart (bootsel : BitVec 2) (f : StartFindings) (s : State) : Host.Outcome State Fault Refusal :=
  .next (if !(s.board.railsUp && s.board.warmDue) then s
    else
      let was := s.sec.runningImages
      let eval := s.evaluated
      let dbg := s.sec.debugOpen
      let s1 := { s with board := { s.board with bootsel } }.persist fun p => { p with warmStarts := p.warmStarts + 1 }
      let s2 := (s1.openDebug.readFlash f).runStart false f fun a => a.warmUnits f
      let m := changedBlocks was s2.sec.runningImages + if s2.evaluated = eval ∧ s2.sec.debugOpen = dbg then 0 else 2 ^ 8
      if m = 0 then s2 else s2.measChanged m)

end Sys2Proof.Machine
end

