-- ==== Sys2Proof/Machine/Board.lean ====
section
/-! DEFINITION. Input, rails and pins: power-up, power-off, the emergency path, the reset inputs,
`COOLANT_STOP_N` and the Snuffer, clocks and frame alignment (R20 to R50, R399 to R403). -/

namespace Sys2Proof.Machine

/-! ## Power-off (R41, R43, R46, R50) -/

/-- Control state that Lamplighter and flash keep while the core rails are down. -/
def Power.standby (p : Power) : Power :=
  { resetPower with
    frame := p.frame, rack := p.rack, rackNew := p.rackNew, trims := p.trims, trimAt := p.trimAt
    coeffStoredAt := p.coeffStoredAt
    trayRing := p.trayRing, trayAcc := p.trayAcc, capSeen := p.capSeen }

/-- The core rails go down: all that is on chip or in HBM is lost. -/
def State.railsDown (s : State) : State :=
  let b := s.board
  { s with
    board := { b with
      railsUp := false, pwrGood := false, cxlUp := false, coldDue := false, warmDue := false, escalated := false
      warmHeld := false, stopCount := false, poweredOff := true, rearmed := false, holdoff := true }
    units := resetUnits, cells := [], banks := [], mem := { resetMem with host := s.mem.host }, mail := resetMail
    config := resetConfig, parts := freshParts, disp := resetDisp, fabric := resetFabric, coll := resetColl
    power := s.power.standby, thermal := { resetThermal with lastSeq := s.thermal.lastSeq }, copy := none
    sec := resetSecurity, upd := { resetUpdate with recovered := s.upd.recovered }
    rcv := { resetRecovery with fresh := s.rcv.fresh, droppedPrev := s.rcv.droppedPrev, persistDirty := true } }

/-- The cause of a power-off is recorded, and a shutdown entry queued (R49, R482). -/
def State.recordCause (s : State) (cause : BitVec 8) : State :=
  let s1 := s.persist fun p => { p with shutdownCause := cause }
  { s1 with side := s1.side.enqueue (.shutdown s1.flash.persist), board := { s1.board with alert := true } }

/-- The highest junction temperature of the last frame. -/
def State.hottest (s : State) : Int :=
  (maxInt ((s.power.snap.temps.filter fun t => t.valid).map fun t => t.q)).getD 0

/-- The cause to record: the lowest of those detected in one `ACLK` cycle (R49). -/
def lowestCause (r : InputReading) (cause : Nat) : Nat :=
  (((List.range cause).filter fun k => decide (2 ≤ k) && r.also.getLsbD k).head?).getD cause

/-- Emergency power-off: the shutdown record, and the rails down (R46). -/
def State.emergency (s : State) (cause : Nat) (r : InputReading) (sensor : Nat) : State :=
  if !s.board.railsUp then s
  else
    let tj := s.hottest
    let s1 := s.persist fun p => { p with
      shutdownFrame := s.power.frame, shutdownMv := BitVec.ofNat 32 r.mv, shutdownMa := BitVec.ofNat 32 r.ma
      shutdownTj := BitVec.ofInt 16 tj, shutdownSensor := BitVec.ofNat 16 sensor }
    let s2 := s1.railsDown.recordCause (BitVec.ofNat 8 (lowestCause r cause))
    { s2 with board := { s2.board with inputOn := s2.board.inputOn && !r.also.getLsbD 2 } }

/-- No sensor tripped. -/
def noSensor : Nat := 0xFFFF

/-! ## Power-up (R38 to R40, R44, R399, R403) -/

/-- The conditions under which the core rails are raised. -/
def State.mayRaise (s : State) : Bool :=
  let b := s.board
  b.inputOn && b.vddSb && b.lampReady && !b.coldReset && !b.coolantStop && b.pwrEn && !b.railsUp
    && (!b.poweredOff || (!b.holdoff && b.rearmed)) && !b.tripHold

/-- Raise the core rails where the conditions hold; `o` is how it ends. At a rail fault of the power-up
itself the cause alone is recorded: whether the other fields of the record of R46 are written for it the spec
leaves open, and they keep what they hold (DESIGN CHOICE, assumption log entry 66). -/
def State.tryPowerUp (s : State) (o : PowerUp) : State :=
  if !s.mayRaise then s
  else
    let b := { s.board with thermTrip := false }
    match o with
    | .good =>
      { s with
        board := { b with railsUp := true, pwrGood := true, coldDue := true, poweredOff := false, rearmed := false
                          cxlUp := !b.hostPerst }
        power := { s.power with everDecided := false } }
    | .coolantStop => { s with board := { b with coolantStop := true } }
    | .railFault =>
      { s with board := { b with poweredOff := true, rearmed := false } }.recordCause 0x06

/-! ## The input (R37, R38, R46, R47) -/

/-- `INPUT_APPLIED`. -/
def execInputApplied (s : State) : Host.Outcome State Fault Refusal :=
  .next { s with board := { s.board with inputOn := true, vddSb := true } }

/-- `INPUT_LOSS`. -/
def execInputLoss (r : InputReading) (s : State) : Host.Outcome State Fault Refusal :=
  let s1 := s.emergency 0x02 r noSensor
  .next { s1 with board := { s1.board with inputOn := false } }

def execUndervolt (r : InputReading) (s : State) : Host.Outcome State Fault Refusal :=
  .next (s.emergency 0x03 r noSensor)

def execOvervolt (r : InputReading) (s : State) : Host.Outcome State Fault Refusal :=
  .next (s.emergency 0x04 r noSensor)

def execOvercurrent (r : InputReading) (s : State) : Host.Outcome State Fault Refusal :=
  .next (s.emergency 0x05 r noSensor)

/-- `RAIL_FAULT` of a rail that was in regulation. -/
def execRailFault (r : InputReading) (s : State) : Host.Outcome State Fault Refusal :=
  .next (s.emergency 0x06 r noSensor)

/-- Lamplighter stops: what it held outside flash is lost. -/
def State.lampDown (s : State) : State :=
  { s with
    board := { s.board with lampReady := false }
    thermal := { s.thermal with lastSeq := none }
    power := { s.power with frame := 0, rack := 3000, rackNew := none, trayRing := [], trayAcc := TelemAcc.reset }
    side := { resetSideband with pdrPorts := s.side.pdrPorts }
    upd := { s.upd with staging := none, pldm := resetUpdate.pldm, recovered := [] } }

/-- `VDD_SB_LOSS`: the bulk energy is spent. -/
def execVddSbLoss (s : State) : Host.Outcome State Fault Refusal :=
  .next (if s.board.inputOn || !s.board.vddSb then s
    else
      let s1 := s.lampDown
      { s1 with
        board := { s1.board with
          vddSb := false, alert := false, thermTrip := false, tripHold := false, tripTen := false, tripReport := false
          holdoff := false, recordBusy := false, coldRelease := none }
        rcv := { s1.rcv with fresh := [], droppedPrev := 0 } })

/-! ## PWR_EN, COLD_RESET_N and WARM_RESET_N (R39, R41, R43 to R45) -/

/-- `PWR_EN_ASSERT`. -/
def execPwrEnAssert (o : PowerUp) (s : State) : Host.Outcome State Fault Refusal :=
  .next (if s.board.pwrEn then s
    else { s with board := { s.board with pwrEn := true, rearmed := true } }.tryPowerUp o)

/-- `PWR_EN_DEASSERT`: an orderly power-off. -/
def execPwrEnDeassert (s : State) : Host.Outcome State Fault Refusal :=
  .next (
    let s1 := { s with board := { s.board with pwrEn := false, rearmed := false } }
    if s1.board.railsUp then
      let s2 := s1.storeCoeffs.commitLog
      s2.railsDown.recordCause 0x00
    else s1)

/-- `COLD_RESET_ASSERT`. A further assertion takes back a release that waits for the shutdown record. -/
def execColdResetAssert (s : State) : Host.Outcome State Fault Refusal :=
  .next (if s.board.coldReset then { s with board := { s.board with coldRelease := none } }
    else
      let up := s.board.railsUp
      let frame := s.power.frame
      let s1 := (if up then s.railsDown else s).lampDown
      let s2 := { s1 with
        board := { s1.board with
          coldReset := true, thermTrip := false, alert := false, recordBusy := up, coldRelease := none }
        rcv := { s1.rcv with fresh := [], droppedPrev := 0 } }
      if up then (s2.persist fun p => { p with shutdownFrame := frame, shutdownSensor := 0xFFFF }).recordCause 0x08
      else s2)

/-- Lamplighter leaves reset with its straps sampled; with `PWR_EN` asserted the power-up goes on
from the Lamplighter step. -/
def State.releaseCold (s : State) (slotId : BitVec 6) (bootsel : BitVec 2) (o : PowerUp) : State :=
  let b := { s.board with coldReset := false, slotId, bootsel, coldRelease := none }
  if b.pwrEn then { s with board := { b with lampReady := true, rearmed := true } }.tryPowerUp o
  else { s with board := b }

/-- `COLD_RESET_DEASSERT`; it waits for the shutdown record. -/
def execColdResetDeassert (slotId : BitVec 6) (bootsel : BitVec 2) (o : PowerUp) (s : State) :
    Host.Outcome State Fault Refusal :=
  .next (if !s.board.coldReset ∨ !s.board.vddSb then s
    else if s.board.recordBusy then { s with board := { s.board with coldRelease := some (slotId, bootsel) } }
    else s.releaseCold slotId bootsel o)

/-- `LAMPLIGHTER_READY`. -/
def execLamplighterReady (o : PowerUp) (s : State) : Host.Outcome State Fault Refusal :=
  .next (if s.board.vddSb && !s.board.coldReset && !s.board.lampReady then
      { s with board := { s.board with lampReady := true } }.tryPowerUp o
    else s)

/-- `WARM_RESET`. -/
def execWarmReset (s : State) : Host.Outcome State Fault Refusal :=
  let b := s.board
  .next (if b.coldReset || !b.railsUp || b.coldDue || b.warmDue then s
    else if b.coolantStop then { s with board := { b with warmHeld := true } }
    else s.packageReset false)

/-- `HANG_ESCALATION`. -/
def execHangEscalation (s : State) : Host.Outcome State Fault Refusal :=
  .next (if s.rcv.hang.isSome && s.board.railsUp && !s.board.warmDue then
      let s1 := s.packageReset true
      { s1 with rcv := { s1.rcv with
        dump := s1.rcv.dump.map fun (d : Dump) => { d with escalated := true }
        summaryDue := s1.rcv.summaryDue.map fun (d : Dump) => { d with escalated := true } } }
    else s)

/-- `RESTART_HOLDOFF_EXPIRY`: 100 ms after `PWR_GOOD` deasserted. -/
def execRestartHoldoffExpiry (o : PowerUp) (s : State) : Host.Outcome State Fault Refusal :=
  .next (if s.board.holdoff then { s with board := { s.board with holdoff := false } }.tryPowerUp o else s)

/-- `FLASH_WRITE_COMPLETE`: of a shutdown record, which releases a waiting `COLD_RESET_N`, or of a
staged piece. -/
def execFlashWriteComplete (o : PowerUp) (s : State) : Host.Outcome State Fault Refusal :=
  .next (if s.board.recordBusy then
      let s1 := { s with board := { s.board with recordBusy := false } }
      match s.board.coldRelease with
      | some x => s1.releaseCold x.1 x.2 o
      | none => s1
    else s.pieceWritten)

/-! ## The Snuffer and the hardware trip (R399 to R403) -/

/-- `SNUFFER`. -/
def execSnuffer (s : State) : Host.Outcome State Fault Refusal :=
  .next (if s.board.coolantStop then s
    else
      let s1 := { s with board := { s.board with coolantStop := true } }
      if s.board.railsUp then
        let s2 := { s1 with board := { s1.board with stopCount := true, alert := true } }.log evFlowStop srcHardware 0
          (BitVec.ofNat 32 s1.coolantUse.2)
        s2.closeGate false
      else s1)

/-- `SNUFFER_POWER_OFF`: 2 s after the first acceptance. -/
def execSnufferPowerOff (r : InputReading) (s : State) : Host.Outcome State Fault Refusal :=
  .next (if s.board.stopCount then s.emergency 0x07 r noSensor else s)

/-- `COOLANT_STOP_DEASSERT`. -/
def execCoolantStopDeassert (o : PowerUp) (s : State) : Host.Outcome State Fault Refusal :=
  .next ({ s with board := { s.board with coolantStop := false } }.tryPowerUp o)

/-- `COOLANT_STOP_RELEASE`: deasserted for 100 ms before the 2 s have run out. -/
def execCoolantStopRelease (s : State) : Host.Outcome State Fault Refusal :=
  .next (if s.board.stopCount && !s.board.coolantStop then s.packageReset false else s)

/-- The trip threshold of a sensor in 0.25 °C (R388). -/
def tripAt (sensor : Nat) : Int := if sensor < 160 then 472 else 420

/-- `THERMAL_TRIP`. -/
def execThermalTrip (sensor : Nat) (reading : Int) (r : InputReading) (s : State) :
    Host.Outcome State Fault Refusal :=
  .next (if s.board.railsUp && decide (sensor < 192 ∧ tripAt sensor ≤ reading) && !s.thermal.selfTest.getLsbD sensor then
      let s1 := s.emergency 0x01 r sensor
      { s1 with flash := { s1.flash with tripReading := reading }
                board := { s1.board with thermTrip := true, tripHold := true, tripTen := false, tripReport := false } }
    else s)

/-- `TRIP_HOLDOFF_EXPIRY`: 10 s after a trip. -/
def execTripHoldoffExpiry (o : PowerUp) (s : State) : Host.Outcome State Fault Refusal :=
  .next (if s.board.tripHold then
      { s with board := { s.board with tripTen := true, tripHold := !s.board.tripReport } }.tryPowerUp o
    else s)

/-! ## Clocks and frame alignment (R31, R33, R282) -/

/-- `SREFCLK_PRESENT`. -/
def execSrefclkPresent (s : State) : Host.Outcome State Fault Refusal :=
  .next (
    let s1 := { s with board := { s.board with srefclk := true } }
    if s1.started then s1.settlePorts else s1)

def execFrameSyncPresent (s : State) : Host.Outcome State Fault Refusal :=
  .next { s with board := { s.board with frameSync := true } }.retime

def execFrameSyncAbsent (s : State) : Host.Outcome State Fault Refusal :=
  .next { s with board := { s.board with frameSync := false } }.retime

end Sys2Proof.Machine
end

