-- ==== Sys2Proof/Machine/Tray.lean ====
section
/-! DEFINITION. Coolant reports and the tray messages (R393 to R397, R403, R463, R491 to R494). -/

namespace Sys2Proof.Machine

/-! ## Who answers (R479, R481, R490, R491) -/

/-- Lamplighter answers on I3C. -/
def State.lampAnswers (s : State) : Bool := s.board.lampReady && !s.upd.activation.any fun a => a.comp == 1

/-- Completion codes of R491. -/
def trOk : Nat := 0x00
def trInvalidData : Nat := 0x02
def trNotReady : Nat := 0x04
def trBusy : Nat := 0x06
def trRefused : Nat := 0x07

/-- A tray message is discarded while Lamplighter does not answer, and under `BOOTSEL` 11. -/
def tray (s : State) (f : State) : Host.Outcome State Fault Refusal :=
  .next (if s.lampAnswers && s.board.bootsel != 3 then f else s)

def State.answer (s : State) (cmd code : Nat) (data : List Byte) : State := s.emit (.tray cmd code data)

/-! ## Coolant reports (R393, R394, R494) -/

/-- A report is valid. -/
def reportValid (m : CoolantMsg) : Bool :=
  m.crflags.getLsbD 0 && m.crflags.getLsbD 2 && m.crflags.toNat < 8
    && decide (-1000 ≤ m.inlet ∧ m.inlet ≤ 8000 ∧ m.flow ≤ 2000)
    && (!m.crflags.getLsbD 1 || decide (m.inlet - 100 ≤ m.outlet))

/-- A valid report arrives. -/
def State.takeReport (s : State) (m : CoolantMsg) : State :=
  let again := s.thermal.lastSeq == some m.seq
  let t := { s.thermal with lastValid := s.power.frame.toNat, lastSeq := some m.seq }
  { s with thermal := if s.board.railsUp then { t with arrived := t.arrived ++ [(m, again)] } else t }

/-- A report that lets the core rails be raised after a trip (R403). -/
def State.releasesTrip (s : State) (m : CoolantMsg) : Bool :=
  s.board.tripHold && s.thermal.lastSeq != some m.seq && decide (700 ≤ m.flow ∧ m.inlet ≤ 4500)

def State.noteTripReport (s : State) : State :=
  { s with board := { s.board with tripReport := true, tripHold := !s.board.tripTen } }

/-- `COOLANT_REPORT`; `o` is how a power-up that it releases ends. -/
def execCoolantReport (m : CoolantMsg) (o : PowerUp) (s : State) : Host.Outcome State Fault Refusal :=
  tray s (if reportValid m then
      let s1 := s.takeReport m
      let s2 := if s.releasesTrip m then s1.noteTripReport.tryPowerUp o else s1
      s2.answer 0x02 trOk [1]
    else s.answer 0x02 trOk [0])

/-- `COOLANT_REPORT_STALE`: the last valid report is more than 30 ms old. -/
def execCoolantReportStale (s : State) : Host.Outcome State Fault Refusal :=
  .next (if s.thermal.everValid ∧ s.thermal.lastValid + 1500 < s.power.frame.toNat then
      { s with thermal := { s.thermal with held := true } }
    else s)

/-- `COOLANT_HOLD_EXPIRY`: 60 s without a valid report. -/
def execCoolantHoldExpiry (s : State) : Host.Outcome State Fault Refusal :=
  .next (if s.thermal.everValid ∧ s.thermal.held = true ∧ s.thermal.lastValid + 3000000 ≤ s.power.frame.toNat then
      { s with thermal := { s.thermal with held3000 := true } }
    else s)

/-! ## Rack ceiling and service (R355, R374, R463) -/

/-- A new ceiling: at the next tick, or at once while the core rails are down. -/
def State.setRack (s : State) (w : Nat) : State :=
  { s with power := if s.board.railsUp then { s.power with rackNew := some w }
                    else { s.power with rack := w, rackNew := none } }

/-- `RACK_CEILING`. -/
def execRackCeiling (w : Nat) (s : State) : Host.Outcome State Fault Refusal :=
  tray s (if 1500 ≤ w ∧ w ≤ 5000 then
      (s.setRack w).answer 0x01 trOk (leBytes 2 (if s.power.everDecided then s.power.effCap else 0))
    else s.answer 0x01 trInvalidData [])

/-- `SERVICE_CLEAR`. -/
def execServiceClear (s : State) : Host.Outcome State Fault Refusal :=
  tray s (if s.flash.persist.oos then
      (s.persist fun p => { p with clearPending := true }).answer 0x03 trOk []
    else s.answer 0x03 trRefused [])

/-! ## The fabric registers (R284, R492) -/

/-- Where the register group that holds an offset ends; an offset between groups has no end. -/
def groupEnd (off : Nat) : Option Nat :=
  (([(0, 0x18), (0x100, 0x500), (0x1000, 0x1800), (0x2000, 0x2900), (0x40000, 0x80000)] : List (Nat × Nat)).find?
    fun g => decide (g.1 ≤ off ∧ off < g.2)).map fun g => g.2

/-- The fields of `FAB_READ` and `FAB_WRITE`. -/
def fabFieldsOk (iod off count : Nat) : Bool :=
  decide (iod < 4 ∧ off % 8 = 0 ∧ 1 ≤ count ∧ count ≤ 16 ∧ off + 8 * count ≤ 2 ^ 24)
    && match groupEnd off with
      | some e => decide (off + 8 * count ≤ e)
      | none => true

/-- The fabric of the dies can be reached. -/
def State.fabricServes (s : State) : Bool := s.board.railsUp && !s.board.coldDue && !s.board.warmDue

/-- `FAB_READ`. -/
def execFabRead (iod : Nat) (off : Nat) (count : Nat) (s : State) : Host.Outcome State Fault Refusal :=
  tray s (if !s.fabricServes then s.answer 0x04 trNotReady []
    else if !fabFieldsOk iod off count then s.answer 0x04 trInvalidData []
    else s.answer 0x04 trOk ((List.range count).flatMap fun i => leBytes 8 (s.fabReg iod (off + 8 * i)).toNat))

/-- Write registers in ascending order. -/
def State.fabWriteAll (s : State) (iod off : Nat) : List (BitVec 64) → State
  | [] => s
  | v :: rest => (s.fabWriteReg iod off v).fabWriteAll iod (off + 8) rest

/-- `FAB_WRITE`. -/
def execFabWrite (iod : Nat) (off : Nat) (vals : List (BitVec 64)) (s : State) :
    Host.Outcome State Fault Refusal :=
  tray s (if !s.fabricServes then s.answer 0x05 trNotReady []
    else if !fabFieldsOk iod off vals.length then s.answer 0x05 trInvalidData []
    else (s.fabWriteAll iod off vals).answer 0x05 trOk [])

/-! ## The other messages (R441, R487, R492, R493) -/

/-- The security controller serves. -/
def State.secServes (s : State) : Bool := s.sec.running && !s.sec.error && !s.sec.paused && !s.rcv.secHeld

/-- The tray code for the status that refuses `FW_COMMIT`. -/
def trCode (st : Nat) : Nat := if st = stBadField then trInvalidData else if st = stBusy then trBusy else trRefused

/-- `FW_COMMIT` by the tray. -/
def execTrayFwCommit (comp : Nat) (s : State) : Host.Outcome State Fault Refusal :=
  tray s (if !s.secServes then s.answer 0x06 trNotReady []
    else match s.commitRefusal comp with
      | some st => s.answer 0x06 (trCode st) []
      | none =>
        let s1 := s.raiseFloor comp
        s1.answer 0x06 trOk (leBytes 4 (s1.floor comp)))

/-- `TELEM_READ`. -/
def execTelemRead (frame : Nat) (s : State) : Host.Outcome State Fault Refusal :=
  tray s (
    let l := (s.power.trayRing.filter fun r => decide (frame ≤ r.frame.toNat)).take 3
    s.answer 0x07 trOk (l.flatMap fun r => leBytes 1 l.length ++ r.bytes))

/-- `IOD_RESET`. -/
def execIodReset (iod : Nat) (s : State) : Host.Outcome State Fault Refusal :=
  tray s (if !s.board.railsUp then s.answer 0x08 trNotReady []
    else if s.board.coldDue || s.board.warmDue then s.answer 0x08 trBusy []
    else if iod < 4 then (s.resetDie iod).answer 0x08 trOk []
    else s.answer 0x08 trInvalidData [])

/-- The word of `GET_STATE`. -/
def State.stateWord (s : State) : Nat :=
  let b := s.board
  let f := fun (i : Nat) (x : Bool) => if x then 2 ^ i else 0
  b.slotId.toNat + b.bootsel.toNat * 2 ^ 6 + f 8 b.pwrEn + f 9 b.pwrGood + f 10 b.coolantStop
    + f 11 (s.thermal.snuffed || s.thermal.haltClosed) + f 12 b.thermTrip + f 13 b.frameSync + f 14 b.srefclk
    + f 15 s.mail.ready + s.mail.resetGen.toNat * 2 ^ 16

/-- `GET_STATE`. -/
def execGetState (s : State) : Host.Outcome State Fault Refusal :=
  tray s (s.answer 0x09 trOk (leBytes 8 s.stateWord))

end Sys2Proof.Machine
end

