-- ==== Sys2Proof/Machine/Sideband.lean ====
section
/-! DEFINITION. The I3C target, MCTP control and PLDM: monitoring, events and firmware update
(R477 to R490). -/

namespace Sys2Proof.Machine

/-! ## I3C (R477 to R479) -/

/-- The static address. -/
def staticAddress (slotId : BitVec 6) : BitVec 7 := if slotId = 0x36 then 0x48 else 0x08 + slotId.setWidth 7

/-- A common command code that Lamplighter answers. -/
def ccc (s f : State) : Host.Outcome State Fault Refusal := .next (if s.lampAnswers then f else s)

/-- Take a dynamic address where there is none. -/
def State.takeAddress (s : State) (a : BitVec 7) : State :=
  if s.side.dynAddr.isSome then s else { s with side := { s.side with dynAddr := some a } }

def execSetdasa (addr : BitVec 7) (s : State) : Host.Outcome State Fault Refusal := ccc s (s.takeAddress addr)

/-- `SETAASA`: the static address becomes the dynamic one. -/
def execSetaasa (s : State) : Host.Outcome State Fault Refusal := ccc s (s.takeAddress (staticAddress s.board.slotId))

def execEntdaa (addr : BitVec 7) (s : State) : Host.Outcome State Fault Refusal := ccc s (s.takeAddress addr)

/-- `RSTDAA`; the endpoint ID is kept. -/
def execRstdaa (s : State) : Host.Outcome State Fault Refusal :=
  ccc s { s with side := { s.side with dynAddr := none } }

/-- Largest read and write. -/
def maxTransfer : Nat := 256

def execGetmrl (s : State) : Host.Outcome State Fault Refusal := ccc s (s.emit (.i3c [maxTransfer]))

def execGetmwl (s : State) : Host.Outcome State Fault Refusal := ccc s (s.emit (.i3c [maxTransfer]))

/-- `GETSTATUS`; the spec does not lay its word out: a free value. -/
def execGetstatus (s : State) : Host.Outcome State Fault Refusal := ccc s (s.free.2.emit (.i3c [s.free.1]))

def execGetbcr (s : State) : Host.Outcome State Fault Refusal := ccc s (s.emit (.i3c [Config.deviceId 1]))

def execGetdcr (s : State) : Host.Outcome State Fault Refusal := ccc s (s.emit (.i3c [Config.deviceId 2]))

def execGetpid (s : State) : Host.Outcome State Fault Refusal := ccc s (s.emit (.i3c [Config.deviceId 3]))

/-! ## MCTP control (R480) -/

/-- `Set Endpoint ID`; 0 and 0xFF name no endpoint. -/
def execSetEndpointId (eid : BitVec 8) (s : State) : Host.Outcome State Fault Refusal :=
  ccc s (if eid = 0 ∨ eid = 0xFF then s.emit (.mctp 2 [])
    else { s with side := { s.side with eid } }.emit (.mctp 0 [eid.toNat]))

def execGetEndpointId (s : State) : Host.Outcome State Fault Refusal := ccc s (s.emit (.mctp 0 [s.side.eid.toNat]))

/-- `Get MCTP Version Support`; the version is a device identifier. -/
def execGetMctpVersionSupport (s : State) : Host.Outcome State Fault Refusal :=
  ccc s (s.emit (.mctp 0 [Config.deviceId 5]))

/-- Message types served; the boot ROM serves the first two (R490). -/
def State.messageTypes (s : State) : List Nat := if s.board.bootsel = 3 then [0x00, 0x01] else [0x00, 0x01, 0x05, 0x06, 0x7E]

def execGetMessageTypeSupport (s : State) : Host.Outcome State Fault Refusal := ccc s (s.emit (.mctp 0 s.messageTypes))

/-- `Get Vendor Defined Message Support`: the PCIe Vendor ID. -/
def execGetVendorDefinedMessageSupport (s : State) : Host.Outcome State Fault Refusal :=
  ccc s (s.emit (.mctp 0 [Config.deviceId 0]))

/-! ## PLDM base (R484) -/

/-- A PLDM request that the boot ROM does not serve (R490). -/
def pldm (s f : State) : Host.Outcome State Fault Refusal :=
  ccc s (if s.board.bootsel = 3 then s.emit (.pldm .errorUnsupportedPldmCmd []) else f)

def State.good (s : State) (l : List Nat) : State := s.emit (.pldm .success l)

def State.bad (s : State) (c : PldmCode) : State := s.emit (.pldm c [])

def execGetTid (s : State) : Host.Outcome State Fault Refusal := pldm s (s.good [s.side.tid.toNat])

def execSetTid (tid : BitVec 8) (s : State) : Host.Outcome State Fault Refusal :=
  pldm s ({ s with side := { s.side with tid } }.good [])

/-- Version of a PLDM type: DSP0240 has none in the spec, DSP0248 1.2, DSP0267 1.1. -/
def pldmVersion (type : Nat) : Option (List Nat) :=
  if type = 0 then some [Config.deviceId 6] else if type = 2 then some [1, 2] else if type = 5 then some [1, 1] else none

/-- Command codes of a type (DSP0240, DSP0248, DSP0267), in the order of R484 and R488. -/
def pldmCommands (type : Nat) : Option (List Nat) :=
  if type = 0 then some [0x02, 0x01, 0x03, 0x04, 0x05]
  else if type = 2 then some [0x50, 0x51, 0x11, 0x21, 0x0B, 0x0C]
  else if type = 5 then some [0x10, 0x13, 0x14, 0x15, 0x16, 0x17, 0x18, 0x1A, 0x1C, 0x1D]
  else none

def State.typeAnswer (s : State) (l : Option (List Nat)) : State :=
  match l with
  | some x => s.good x
  | none => s.bad .invalidType

def execGetPldmVersion (type : Nat) (s : State) : Host.Outcome State Fault Refusal :=
  pldm s (s.typeAnswer (pldmVersion type))

def execGetPldmTypes (s : State) : Host.Outcome State Fault Refusal := pldm s (s.good [0, 2, 5])

def execGetPldmCommands (type : Nat) (s : State) : Host.Outcome State Fault Refusal :=
  pldm s (s.typeAnswer (pldmCommands type))

/-- A command that is not listed. -/
def execUnsupportedPldmCommand (_ : Nat) (_ : Nat) (s : State) : Host.Outcome State Fault Refusal :=
  ccc s (s.bad .errorUnsupportedPldmCmd)

/-! ## Sensors (R485, R486) -/

/-- Sensors of the repository, in the order of the table. -/
def State.sensorIds (s : State) : List Nat :=
  [1, 2, 3, 4, 0x10, 0x11, 0x12, 0x13] ++ (List.range 192).map (0x100 + ·)
    ++ s.side.pdrPorts.map (0x200 + ·) ++ s.side.pdrPorts.map (0x300 + ·)

def execGetPdrRepositoryInfo (s : State) : Host.Outcome State Fault Refusal := pldm s (s.good [s.sensorIds.length])

/-- `GetPDR`: records are numbered from 1; handle 0 asks for the first. -/
def execGetPdr (handle : Nat) (s : State) : Host.Outcome State Fault Refusal :=
  pldm s (match s.sensorIds[handle - 1]? with
    | some id => s.good [id, if (max handle 1) < s.sensorIds.length then max handle 1 + 1 else 0]
    | none => s.bad .invalidRecordHandle)

/-- The region of a region's sensor or of a stack. -/
def sensorRegion (n : Nat) : Option Nat :=
  if n < 144 then some (n / 18) else if n < 160 then none else some ((n - 160) / 4)

/-- The die of a sensor is in service. -/
def State.sensorThere (s : State) (n : Nat) : Bool :=
  s.board.railsUp && (if n < 144 then s.regionPresent (n / 18) else if n < 160 then true else s.stackPresent (n - 160))

/-- A temperature in 0.25 °C, coarsened beside a confidential partition. -/
def State.temperature (s : State) (n : Nat) : Option Int :=
  if !s.sensorThere n then none
  else
    match sensorRegion n with
    | some g =>
      if s.regionConf g then some (-((-s.power.coarseTemp.getD n 0) / 4) * 4)
      else if (s.temp n).valid then some (s.temp n).q else none
    | none => if (s.temp n).valid then some (s.temp n).q else none

/-- Input power. -/
def State.inputReading (s : State) : Option Int :=
  let l := s.power.inputs.take 50
  if s.anyConf then some (coarseW s.power.coarse.inputUj s.power.coarse.frames)
  else if l = [] then none else some (avgW l.sum l.length)

/-- A numeric sensor while the core rails are up. -/
def State.numericUp (s : State) (id : Nat) : Option Int :=
  if id = 1 then s.inputReading
  else if id = 2 then some s.power.snap.input.mv
  else if id = 3 then some s.power.snap.inputMa
  else if id = 4 then (if s.power.everDecided then some s.power.effCap else none)
  else s.temperature (id - 0x100)

def numericId (id : Nat) : Bool := decide (1 ≤ id ∧ id ≤ 4) || decide (0x100 ≤ id ∧ id < 0x1C0)

/-- `GetSensorReading`; the standby samples of `P50` are free values. -/
def execGetSensorReading (id : Nat) (s : State) : Host.Outcome State Fault Refusal :=
  pldm s (if !numericId id then s.bad .invalidSensorId
    else if !s.board.railsUp && decide (id ≤ 3) then s.free.2.emit (.sensor id (some s.free.1))
    else if s.board.railsUp then s.emit (.sensor id (s.numericUp id))
    else s.emit (.sensor id none))

/-- The latch sensor. -/
def Persist.serviceState (p : Persist) : Nat := if !p.oos then 1 else if p.clearPending then 3 else 2

/-- The service sensor. -/
def Topology.serviceState (t : Topology) : Nat :=
  if t.noCompute then 4 else if t.degraded then 3 else if t.cellsOut then 2 else 1

/-- States of a port half: state, width and lane order. -/
def Port.states (k : Port) : List Nat := [k.st.code + 1, k.width.toNat + 1, if k.reversed then 2 else 1]

def Port.laneStates (k : Port) : List Nat :=
  (List.range 8).map fun i => if !k.laneOk.getLsbD i then 3 else if k.inverted.getLsbD i then 2 else 1

/-- The states of a state sensor of the repository. -/
def State.stateSensor (s : State) (id : Nat) : Option (List Nat) :=
  let p := s.flash.persist
  let port := fun (f : Port → List Nat) (i : Nat) =>
    if s.board.railsUp then (s.halfNamed i).map fun h => f (s.port h) else none
  if id = 0x10 then some [p.shutdownCause.toNat + 1]
  else if id = 0x11 then some [p.startResult.toNat + 1]
  else if id = 0x12 then some [p.serviceState]
  else if id = 0x13 then (if s.board.railsUp then some [s.units.topo.serviceState] else none)
  else if id < 0x300 then port Port.states (id - 0x200)
  else port Port.laneStates (id - 0x300)

/-- `GetStateSensorReadings`. -/
def execGetStateSensorReadings (id : Nat) (s : State) : Host.Outcome State Fault Refusal :=
  pldm s (if numericId id || !s.sensorIds.contains id then s.bad .invalidSensorId
    else s.emit (.states id (s.stateSensor id)))

/-! ## Events (R482, R483) -/

/-- The tray reads the oldest entry. -/
def State.pollEvent (s : State) : State :=
  match s.side.queue with
  | [] => s.good []
  | e :: _ => { s with side := { s.side with polled := true, discarded := 0 } }.emit (.pldmEvent e s.side.discarded)

/-- The tray acknowledges the entry that it read. -/
def State.ackEvent (s : State) : State :=
  if s.side.polled then
    let q := s.side.queue.drop 1
    { s with side := { s.side with queue := q, polled := false }
             board := { s.board with alert := if q = [] then false else s.board.alert } }.good []
  else s.good []

/-- `PollForPlatformEventMessage`, which reads or acknowledges. -/
def execPollForPlatformEventMessage (ack : Bool) (s : State) : Host.Outcome State Fault Refusal :=
  pldm s (if ack then s.ackEvent else s.pollEvent)

/-- `EventMessageSupported`: polling, of the two classes of R483. -/
def execEventMessageSupported (s : State) : Host.Outcome State Fault Refusal := pldm s (s.good [0xFA, 0xFB])

/-! ## Firmware update (R488 to R490) -/

def State.setPldm (s : State) (p : PldmUpdate) : State := { s with upd := { s.upd with pldm := p } }

/-- A staging or activation of the mailbox is in progress. -/
def State.mailboxUpdate (s : State) : Bool :=
  s.upd.staging.any (fun g => !g.byPldm) || s.upd.activation.isSome

/-- `RequestUpdate`. -/
def execRequestUpdate (s : State) : Host.Outcome State Fault Refusal :=
  ccc s (if s.upd.pldm.mode || s.mailboxUpdate then s.bad .alreadyInUpdateMode
    else (s.setPldm { resetUpdate.pldm with mode := true }).good [])

/-- `PassComponentTable`. -/
def execPassComponentTable (comps : List Nat) (s : State) : Host.Outcome State Fault Refusal :=
  ccc s (if !s.upd.pldm.mode then s.bad .notInUpdateMode
    else (s.setPldm { s.upd.pldm with table := comps }).good [])

/-- Bytes of a piece that the module pulls. -/
def pullSize : Nat := 4096

/-- Bytes that the checks of the header need. -/
def headBytes : Nat := 24576

/-- Pull the next piece of a staging. -/
def State.pull (s : State) (off len : Nat) : State := s.emit (.requestFirmwareData off len)

/-- `UpdateComponent`. -/
def execUpdateComponent (comp : Nat) (s : State) : Host.Outcome State Fault Refusal :=
  let p := s.upd.pldm
  ccc s (if s.upd.staging.any (fun g => !g.byPldm) then s.bad .updateInProgress
    else if !p.mode then s.bad .notInUpdateMode
    else if p.comp.isSome || p.queue.isSome then s.bad .invalidState
    else if !p.table.contains comp || !decide (1 ≤ comp ∧ comp ≤ 6) then s.bad .error
    else
      let g : Staging := { comp, byPldm := true, toB := s.stagesB comp, checked := false, bytes := []
                           lastFrame := s.power.frame.toNat, slot := none, last := false }
      let s1 := (s.setPldm { p with comp := some comp }).good []
      { s1 with upd := { s1.upd with staging := some g } }.pull 0 pullSize)

/-- `TransferResult` for a failed check of R439. -/
def transferResult (st : Nat) : Nat := if st = stRollback then 4 else if st = stIncompatible then 5 else 2

/-- The staging of a component by PLDM ends. -/
def State.endPldm (s : State) (m : List OutMsg) : State :=
  let s1 := (s.setPldm { s.upd.pldm with comp := none }).dropStaging
  { s1 with out := s1.out ++ m }

/-- The image is complete: check 5, and its place among the applied components. -/
def State.finishPldm (s : State) (g : Staging) : State :=
  let r := s.closeStaging g
  if r.2 then
    let s1 := r.1.endPldm [.transferComplete 0, .verifyComplete 0, .applyComplete 0]
    let rec_ := if s1.board.bootsel = 3 then SMap.put s1.upd.recovered g.comp g.toB else s1.upd.recovered
    { s1 with upd := { s1.upd with recovered := rec_, pldm := { s1.upd.pldm with applied := s1.upd.pldm.applied ++ [g.comp] } } }
  else r.1.endPldm [.transferComplete 0, .verifyComplete 1]

/-- Size of the image, once its header is there. -/
def Staging.total (g : Staging) : Option Nat :=
  if g.checked then some (imageHead + gatherDesc g.bytes 0x14 4) else none

/-- Bytes of the next piece. -/
def Staging.wants (g : Staging) : Nat :=
  match g.total with
  | some n => min pullSize (n - g.bytes.length)
  | none => pullSize

/-- Go on after a piece: the checks of the header once its bytes are there, the next piece, or the
end. -/
def State.goOn (s : State) (g : Staging) : State :=
  if g.checked then
    if g.wants = 0 then s.finishPldm g
    else { s with upd := { s.upd with staging := some g } }.pull g.bytes.length g.wants
  else if g.bytes.length < headBytes then
    { s with upd := { s.upd with staging := some g } }.pull g.bytes.length pullSize
  else
    let i := parseImage (Config.imageSigned s.fuses.keysetDev s.fuses.rootRsa s.fuses.rootSlh g.bytes) g.bytes
    match s.stagingStatus g.comp (rawHeaderOk g.bytes) i with
    | some st => s.endPldm [.transferComplete (transferResult st)]
    | none =>
      let s1 := s.openStaging g.comp true g.bytes
      s1.pull g.bytes.length (min pullSize (imageHead + i.bodySize - g.bytes.length))

/-- `RequestFirmwareData` answered; a short answer is asked for again. -/
def execRequestFirmwareData (data : List Byte) (s : State) : Host.Outcome State Fault Refusal :=
  ccc s (match s.upd.pldm.comp, s.upd.staging with
    | some _, some g =>
      if data.length < g.wants then s.pull g.bytes.length g.wants
      else s.goOn { g with bytes := g.bytes ++ data.take g.wants, lastFrame := s.power.frame.toNat }
    | _, _ => s)

/-- The images that a recovery would leave active. -/
def State.recoveredImage (s : State) (comp : Nat) : Option Image :=
  match SMap.find s.upd.recovered comp with
  | some b => s.image b comp
  | none => s.activeImage comp

/-- The entry of a loaded component becomes active. -/
def State.recoveredEntry (s : State) (comp : Nat) : BootEntry :=
  let e := s.bootEntry comp
  match SMap.find s.upd.recovered comp with
  | some b => { e with activeB := b, pending := false }
  | none => e

/-- `ActivateFirmware` in a recovery: the whole loaded set, by one write (R451, R490). -/
def State.activateSet (s : State) : State :=
  let ok := s.upd.recovered.all fun x => match s.recoveredImage x.1 with
    | some i => compatible s.recoveredImage x.1 i
    | none => false
  if ok then
    let s1 := s.writeBoot ((List.range 6).map fun c => s.recoveredEntry (c + 1))
    { s1 with upd := { s1.upd with recovered := [], pldm := resetUpdate.pldm } }.good []
  else s.bad .activationNotRequired

/-- `ActivateFirmware`. -/
def execActivateFirmware (s : State) : Host.Outcome State Fault Refusal :=
  let p := s.upd.pldm
  ccc s (if !p.mode then s.bad .notInUpdateMode
    else if p.comp.isSome || p.queue.isSome then s.bad .invalidState
    else if s.board.bootsel = 3 then s.activateSet
    else s.activateNext (p.table.filter fun c => p.applied.contains c))

/-- `CancelUpdateComponent`: a slot whose writing has begun stays invalid. -/
def execCancelUpdateComponent (s : State) : Host.Outcome State Fault Refusal :=
  ccc s (if !s.upd.pldm.mode then s.bad .notInUpdateMode
    else if s.upd.pldm.comp.isSome then (s.endPldm []).good []
    else s.bad .invalidState)

/-- `CancelUpdate`. -/
def execCancelUpdate (s : State) : Host.Outcome State Fault Refusal :=
  ccc s (if !s.upd.pldm.mode then s.bad .notInUpdateMode
    else
      let s1 := if s.upd.pldm.comp.isSome then s.dropStaging else s
      (s1.setPldm resetUpdate.pldm).good [])

end Sys2Proof.Machine
end

