-- ==== Sys2Proof/Machine/Attest.lean ====
section
/-! DEFINITION. SPDM, its vendor requests, IDE_KM, TDISP and TSP; the end of an activation, after
which the requests that waited for it are answered (R195, R410 to R424, R431, R432, R448). -/

namespace Sys2Proof.Machine

/-! ## Answers -/

/-- A response; `CHUNK_GET` can fetch it again. -/
def State.reply (s : State) (cn : Conn) (kind : SpdmKind) (data : List Byte) : State :=
  { s with sec := { s.sec with large := data } }.emit (.spdm cn.tr kind data)

def State.refuse (s : State) (cn : Conn) (e : SpdmError) : State := s.emit (.spdmError cn.tr e [])

/-- The transport relay's answer: `RDTExponent` 19 and `RDTM` 2 (R420). -/
def State.notReady (s : State) (cn : Conn) : State := s.emit (.spdmError cn.tr .responseNotReady [19, 2])

def State.nego (s : State) (cn : Conn) : Nego := s.sec.nego.getD (if cn.tr == .mctp then 0 else 1) Nego.none_

def State.setNego (s : State) (cn : Conn) (n : Nego) : State :=
  { s with sec := { s.sec with nego := setAt s.sec.nego (if cn.tr == .mctp then 0 else 1) n } }

/-- The session of a secured request is established. -/
def State.inSession (s : State) (cn : Conn) : Bool :=
  match cn.session with
  | some id => s.sec.sessions.any fun x => x.id == id && x.tr == cn.tr && x.established
  | none => false

/-- A plain request after the algorithms are agreed, or a request of an established session. -/
def State.agreed (s : State) (cn : Conn) : Bool := if cn.session.isSome then s.inSession cn else (s.nego cn).algs

/-- Answer a request that needs that, or refuse it. -/
def State.whenAgreed (s : State) (cn : Conn) (f : State) : State :=
  if s.agreed cn then f else s.refuse cn .unexpectedRequest

/-- Answer a request of an established session; another is not expected. -/
def State.whenSecure (s : State) (cn : Conn) (f : State) : State :=
  if s.inSession cn then f else s.refuse cn .unexpectedRequest

/-! ## Negotiation (R413) -/

def State.onGetVersion (s : State) (cn : Conn) : State :=
  (s.setNego cn { Nego.none_ with version := true }).reply cn .version [0x12, 0x13]

/-- `CAPABILITIES`: `CTExponent` 17 and the flags of R413 at their places of DSP0274. -/
def capabilityBytes : List Byte := 17 :: leBytes 4 0x000662F6

def State.onGetCapabilities (s : State) (cn : Conn) : State :=
  if (s.nego cn).version then (s.setNego cn { s.nego cn with caps := true }).reply cn .capabilities capabilityBytes
  else s.refuse cn .unexpectedRequest

/-- `ALGORITHMS`: each supported algorithm that was offered, in the order of the offer's fields. -/
def State.onNegotiateAlgorithms (s : State) (cn : Conn) (a : AlgOffer) : State :=
  if (s.nego cn).caps then
    let base := a.rsassa3072 && a.sha384
    let n := { s.nego cn with algs := base, session := base && a.secp384r1 && a.aes256gcm && a.spdmSchedule }
    (s.setNego cn n).reply cn .algorithms
      ([a.rsassa3072, a.sha384, a.secp384r1, a.aes256gcm, a.spdmSchedule].map fun x => if x then 1 else 0)
  else s.refuse cn .unexpectedRequest

/-! ## Certificates (R410) -/

/-- The RSA chain (0) or the SLH-DSA chain (1). -/
def State.chain (s : State) (n : Nat) : List Byte := s.certChain (n == 0)

def State.onGetDigests (s : State) (cn : Conn) : State :=
  s.whenAgreed cn (s.reply cn .digests (Config.sha384 (s.chain 0)))

/-- `GET_CERTIFICATE`: slot 0 only. -/
def State.onGetCertificate (s : State) (cn : Conn) (slot off len : Nat) : State :=
  s.whenAgreed cn (
    let l := s.chain 0
    if slot ≠ 0 ∨ l.length ≤ off then s.refuse cn .invalidRequest
    else
      let part := (l.drop off).take len
      s.reply cn .certificate (leBytes 2 part.length ++ leBytes 2 (l.length - off - part.length) ++ part))

/-- What a transcript holds before the response: the requests, of which the rows carry not all. -/
def State.before (s : State) : List Byte := Config.transcript s.freeCtr

/-- The RSA signature of a response over its transcript, under the Alias key. -/
def State.sign (s : State) (text : List Byte) : List Byte × State :=
  (padTo 384 (Config.rsaSign s.aliasRsa (s.before ++ text) s.freeCtr), { s with freeCtr := s.freeCtr + 1 })

/-- `CHALLENGE`: the digest of the chain, and a signature. -/
def State.onChallenge (s : State) (cn : Conn) (slot : Nat) : State :=
  s.whenAgreed cn (
    if slot ≠ 0 then s.refuse cn .invalidRequest
    else
      let d := Config.sha384 (s.chain 0)
      let g := s.sign d
      g.2.reply cn .challengeAuth (d ++ g.1))

/-! ## Measurements (R414 to R417) -/

/-- The digest of the image that a component runs; free where none does. -/
def State.imageDigest (s : State) (comp : Nat) : List Byte :=
  match s.sec.runningImages.getD (comp - 1) none with
  | some i => Config.sha384 i.bytes
  | none => (List.range 48).map (Config.secretByte 2 comp)

/-- `DEBUG` of block 8. -/
def State.debugState (s : State) : Nat := if s.fuses.debugFuse then 0 else if s.sec.debugOpen then 2 else 1

/-- Block 8 (R415). -/
def State.securityBlock (s : State) : List Byte :=
  leBytes 1 (if s.fuses.keysetDev then 2 else 1) ++ leBytes 1 s.debugState ++ leBytes 1 (if s.evaluated then 1 else 0)
    ++ leBytes 1 stepping ++ leBytes 1 s.orderCode ++ leBytes 1 1 ++ leBytes 2 0
    ++ (List.range 6).flatMap (fun c => leBytes 4 (s.floor (c + 1))) ++ leBytes 8 s.fuses.serial.toNat

/-- Type and value of a block. -/
def State.blockValue (s : State) (i : Nat) : Nat × List Byte :=
  if i = 1 then (0x00, Config.romDigest)
  else if i = 8 then (0x82, s.securityBlock)
  else (0x01, s.imageDigest (i - 1))

/-- A measurement block in the DMTF format. -/
def State.measBlock (s : State) (i : Nat) : List Byte :=
  let v := s.blockValue i
  leBytes 1 i ++ leBytes 1 1 ++ leBytes 2 (v.2.length + 3) ++ leBytes 1 v.1 ++ leBytes 2 v.2.length ++ v.2

/-- Blocks that a request asks for: 0xFF all. -/
def askedBlocks (block : Nat) : Option (List Nat) :=
  if block = 0 then some []
  else if block = 0xFF then some ((List.range 8).map (· + 1))
  else if block ≤ 8 then some [block]
  else none

/-- Length of a co-signature. -/
def cosigLen : Nat := 16224

/-- What the element says of its co-signature: its identifier, its digest and its first fragment (R416). -/
structure CosigPart where
  id : BitVec 32
  digest : List Byte
  fragment : List Byte
deriving DecidableEq, Repr

/-- The digest of a component's staged image, or of the one that is being activated; zero where there
is none. -/
def State.pendingDigest (s : State) (comp : Nat) : List Byte :=
  let e := s.bootEntry comp
  if !s.heldPending comp then leBytes 48 0
  else match s.image (if e.pending then !e.activeB else e.activeB) comp with
    | some i => Config.sha384 i.bytes
    | none => leBytes 48 0

/-- The co-signature element; with an identifier, of a signed response (R416). -/
def State.element (s : State) (sig : Option CosigPart) : List Byte :=
  leBytes 1 1 ++ leBytes 1 1 ++ leBytes 1 (if sig.isSome then 1 else 0) ++ leBytes 1 0
    ++ leBytes 4 s.mail.resetGen.toNat ++ leBytes 1 (maskOf s.activating)
    ++ leBytes 1 (maskOf s.heldPending) ++ leBytes 1 s.mail.start.toNat ++ leBytes 1 0
    ++ (match sig with
      | some x => leBytes 4 x.id.toNat ++ leBytes 2 cosigLen ++ leBytes 2 646 ++ leBytes 12 0 ++ x.digest
      | none => leBytes 68 0)
    ++ (List.range 6).flatMap (fun c => s.pendingDigest (c + 1))
    ++ (match sig with
      | some x => x.fragment
      | none => [])

/-- Opaque data in the general format with one element of the PCI-SIG. -/
def opaqueData (e : List Byte) : List Byte :=
  let l := leBytes 4 1 ++ leBytes 1 3 ++ leBytes 1 2 ++ leBytes 2 (Config.deviceId 0) ++ leBytes 2 e.length ++ e
  padTo ((l.length + 3) / 4 * 4) l

/-- The record of a response: the number of blocks, the blocks, and the opaque data. -/
def State.measRecord (s : State) (l : List Nat) (sig : Option CosigPart) : List Byte :=
  let o := opaqueData (s.element sig)
  let n := if l = [] then 8 else l.length
  leBytes 1 n ++ l.flatMap s.measBlock ++ leBytes 2 o.length ++ o

/-- The co-signature of a signed response over some blocks: under the SLH-DSA Alias key, over the hash of its
transcript with the digest and the fragment zero (R417). -/
def State.cosign (s : State) (l : List Nat) : List Byte :=
  let zeroed := s.measRecord l (some { id := s.sec.nextCosig, digest := leBytes 48 0, fragment := leBytes 646 0 })
  padTo cosigLen (Config.slhSign s.aliasSlh (Config.sha384 (s.before ++ zeroed)) s.freeCtr)

/-- A signed response, before its RSA signature. -/
def State.signedRecord (s : State) (l : List Nat) : List Byte :=
  let g := s.cosign l
  s.measRecord l (some { id := s.sec.nextCosig, digest := Config.sha384 g, fragment := g.take 646 })

/-- A new co-signature takes the place of the connection's former one. -/
def State.newCosig (s : State) (cn : Conn) (sig : List Byte) : State :=
  let id := s.sec.nextCosig
  let x : Cosig := { id, conn := cn, frame := s.power.frame.toNat, sig }
  { s with sec := { s.sec with
    nextCosig := id + 1, cosigs := (s.sec.cosigs.filter fun y => y.conn != cn) ++ [x] } }

/-- `GET_MEASUREMENTS`. -/
def State.onGetMeasurements (s : State) (cn : Conn) (block : Nat) (signed : Bool) : State :=
  s.whenAgreed cn (
    match askedBlocks block with
    | none => s.refuse cn .invalidRequest
    | some l =>
      if signed then
        let r := s.signedRecord l
        let g := s.sign r
        (g.2.newCosig cn (s.cosign l)).reply cn .measurements (r ++ g.1)
      else s.reply cn .measurements (s.measRecord l none))

/-! ## Sessions (R413) -/

/-- Sessions of a transport. -/
def State.sessionsOf (s : State) (tr : Transport) : List Session := s.sec.sessions.filter fun x => x.tr == tr

/-- `KEY_EXCHANGE`: at most four sessions on a transport. -/
def State.onKeyExchange (s : State) (cn : Conn) : State :=
  if cn.session.isSome || !(s.nego cn).session then s.refuse cn .unexpectedRequest
  else if 4 ≤ (s.sessionsOf cn.tr).length then s.refuse cn .sessionLimitExceeded
  else
    let id := s.sec.nextSession
    let r := s.random
    let x : Session := { id, tr := cn.tr, established := false, secret := r.1 }
    let s1 := { r.2 with sec := { r.2.sec with sessions := s.sec.sessions ++ [x], nextSession := id + 1 } }
    let g := s1.sign []
    g.2.reply cn .keyExchangeRsp (leBytes 4 id ++ g.1)

/-- `FINISH`, in the session that `KEY_EXCHANGE` opened. -/
def State.onFinish (s : State) (cn : Conn) : State :=
  match cn.session with
  | none => s.refuse cn .unexpectedRequest
  | some id =>
    if s.sec.sessions.any fun x => x.id == id && x.tr == cn.tr && !x.established then
      { s with sec := { s.sec with sessions := s.sec.sessions.map fun (x : Session) =>
          if x.id = id then { x with established := true } else x } }.reply cn .finishRsp []
    else s.refuse cn .unexpectedRequest

/-- `END_SESSION`: co-signatures of the session end with it. -/
def State.onEndSession (s : State) (cn : Conn) : State :=
  s.whenSecure cn ({ s with sec := { s.sec with
    sessions := s.sec.sessions.filter fun x => some x.id != cn.session
    cosigs := s.sec.cosigs.filter fun x => x.conn != cn } }.reply cn .endSessionAck [])

/-- `KEY_UPDATE`: the session goes on under keys derived from those it has. -/
def State.onKeyUpdate (s : State) (cn : Conn) : State :=
  let next := fun (x : Session) =>
    if cn.session = some x.id then { x with secret := Config.hkdf (leBytes 48 x.secret.toNat) (label "key update") 1 } else x
  s.whenSecure cn ({ s with sec := { s.sec with sessions := s.sec.sessions.map next } }.reply cn .keyUpdateAck [])

def State.onHeartbeat (s : State) (cn : Conn) : State := s.whenSecure cn (s.reply cn .heartbeatAck [])

/-! ## Chunks (R413) -/

/-- A chunk of a large request; chunk 0 begins another. -/
def State.onChunkSend (s : State) (cn : Conn) (handle : BitVec 8) (seq : Nat) (data : List Byte) : State :=
  s.whenAgreed cn (
    if seq = 0 then
      { s with sec := { s.sec with chunks := data, chunkSeq := 1 } }.reply cn .chunkSendAck [handle]
    else if seq = s.sec.chunkSeq then
      { s with sec := { s.sec with chunks := s.sec.chunks ++ data, chunkSeq := seq + 1 } }.reply cn .chunkSendAck [handle]
    else { s with sec := { s.sec with chunks := [], chunkSeq := 0 } }.refuse cn .invalidRequest)

/-- A chunk of the last response. -/
def State.onChunkGet (s : State) (cn : Conn) (handle : BitVec 8) (seq : Nat) : State :=
  s.whenAgreed cn (
    let n := Config.deviceId 4
    let part := (s.sec.large.drop (seq * n)).take n
    if part = [] then s.refuse cn .invalidRequest
    else s.emit (.spdm cn.tr .chunkResponse (handle :: leBytes 2 seq ++ part)))

/-! ## Vendor-defined requests (R419, R431, R432) -/

def vrDone : Nat := 0x00
def vrUnknownId : Nat := 0x01
def vrRange : Nat := 0x02
def vrRefused : Nat := 0x03

def State.vendor (s : State) (cn : Conn) (code status : Nat) (id : BitVec 32) (data : List Byte) : State :=
  s.emit (.vendor cn.tr code status id data)

/-- Answer with a range of an object. -/
def State.giveRange (s : State) (cn : Conn) (code : Nat) (id : BitVec 32) (l : List Byte) (off len : Nat) : State :=
  if 4096 < len ∨ l.length < off + len then s.vendor cn code vrRange id []
  else s.vendor cn code vrDone id ((l.drop off).take len)

/-- Frames in 10 s. -/
def tenSeconds : Nat := 500000

/-- `COSIG_FETCH`. -/
def State.onCosigFetch (s : State) (cn : Conn) (id : BitVec 32) (off len : Nat) : State :=
  match s.sec.cosigs.find? fun x => x.id == id && x.conn == cn && decide (s.power.frame.toNat ≤ x.frame + tenSeconds) with
  | some x => s.giveRange cn 0x01 id x.sig off len
  | none => s.vendor cn 0x01 vrUnknownId id []

/-- `PQ_CHAIN_GET`. -/
def State.onPqChainGet (s : State) (cn : Conn) (id : BitVec 32) (off len : Nat) : State :=
  if id = 0 then s.giveRange cn 0x02 id (s.chain 1) off len else s.vendor cn 0x02 vrUnknownId id []

def nonceBytes (id : BitVec 32) : List Byte := (List.range 32).map (Config.secretByte 0 id.toNat)

/-- `DEBUG_NONCE`, over MCTP. -/
def State.onDebugNonce (s : State) (cn : Conn) : State :=
  if cn.tr = .doe then s.vendor cn 0x03 vrRefused 0 []
  else
    let id := s.sec.nextNonce
    { s with sec := { s.sec with nonce := some (id, s.power.frame.toNat), nextNonce := id + 1, token := [] } }.vendor
      cn 0x03 vrDone id (nonceBytes id)

def tokenLen : Nat := 16656

/-- The conditions of R432 on a whole token. -/
def State.tokenOk (s : State) (id : BitVec 32) (issued : Nat) (l : List Byte) : Bool :=
  decide (gatherDesc l 0 4 = 1 ∧ gatherDesc l 4 4 < 8 ∧ gatherDesc l 8 8 = s.fuses.serial.toNat
      ∧ s.power.frame.toNat ≤ issued + 3000000)
    && (l.drop 0x10).take 32 == nonceBytes id && Config.tokenSigned l && s.fuses.keysetDev && !s.fuses.debugFuse

/-- The last range of a token: its nonce is spent, and it is accepted or refused. -/
def State.judgeToken (s : State) (cn : Conn) (id : BitVec 32) (issued : Nat) (l : List Byte) : State :=
  let s1 := { s with sec := { s.sec with nonce := none, token := [] } }
  if s.tokenOk id issued l then
    { s1 with sec := { s1.sec with tokenScope := some (BitVec.ofNat 32 (gatherDesc l 4 4)) } }.vendor cn 0x04 vrDone id []
  else s1.vendor cn 0x04 vrRefused id []

/-- `DEBUG_TOKEN`, over MCTP. -/
def State.onDebugToken (s : State) (cn : Conn) (id : BitVec 32) (off : Nat) (data : List Byte) : State :=
  if cn.tr = .doe ∨ !s.fuses.keysetDev ∨ s.fuses.debugFuse then s.vendor cn 0x04 vrRefused id []
  else
    match s.sec.nonce with
    | none => s.vendor cn 0x04 vrUnknownId id []
    | some n =>
      let l := s.sec.token ++ data
      if n.1 ≠ id then s.vendor cn 0x04 vrUnknownId id []
      else if off ≠ s.sec.token.length ∨ 4096 < data.length ∨ tokenLen < l.length then s.vendor cn 0x04 vrRange id []
      else if l.length = tokenLen then s.judgeToken cn id n.2 l
      else { s with sec := { s.sec with token := l } }.vendor cn 0x04 vrDone id []

/-! ## IDE_KM (R422) -/

def State.ide (s : State) : IdeStream → IdeState
  | .ioLink => s.sec.ideIo
  | .ioSelective => s.sec.ideSel
  | .cachemem => s.sec.ideMem

def State.setIde (s : State) (x : IdeStream) (v : IdeState) : State :=
  match x with
  | .ioLink => { s with sec := { s.sec with ideIo := v } }
  | .ioSelective => { s with sec := { s.sec with ideSel := v } }
  | .cachemem => { s with sec := { s.sec with ideMem := v } }

/-- Only within a secured session over DOE. -/
def State.doeSecure (s : State) (cn : Conn) (f : State) : State :=
  if cn.tr = .doe then s.whenSecure cn f else s.refuse cn .unexpectedRequest

/-- IDE_KM messages and statuses: 0 done, 1 not possible. -/
def State.ideReply (s : State) (op status : Nat) : State := s.emit (.doe [op, status])

/-- `QUERY`: key sets programmed and active. -/
def State.onIdeQuery (s : State) (cn : Conn) (x : IdeStream) : State :=
  s.doeSecure cn (s.emit (.doe [1, (s.ide x).programmed.length, (s.ide x).go.length]))

/-- `KEY_PROG` into one of the two key sets of a sub-stream; a set in use is not programmed. -/
def State.onKeyProg (s : State) (cn : Conn) (x : IdeStream) (set sub : Nat) : State :=
  s.doeSecure cn (
    let k := s.ide x
    if 2 ≤ set || k.go.contains (set, sub) then s.ideReply 2 1
    else (s.setIde x { k with programmed := (set, sub) :: k.programmed.filter (· != (set, sub)) }).ideReply 2 0)

/-- `K_SET_GO`: the other set of the sub-stream is no longer in use. -/
def State.onSetGo (s : State) (cn : Conn) (x : IdeStream) (set sub : Nat) : State :=
  s.doeSecure cn (
    let k := s.ide x
    if k.programmed.contains (set, sub) then
      (s.setIde x { k with go := (set, sub) :: k.go.filter fun y => y.2 != sub }).ideReply 3 0
    else s.ideReply 3 1)

/-- `K_SET_STOP`: the keys are gone, and a condition of R423 can cease to hold. -/
def State.onSetStop (s : State) (cn : Conn) (x : IdeStream) (set sub : Nat) : State :=
  s.doeSecure cn (
    let k := s.ide x
    (State.settleAdmission s (s.setIde x
      { programmed := k.programmed.filter (· != (set, sub)), go := k.go.filter (· != (set, sub)) })).ideReply 4 0)

/-! ## TDISP and TSP (R422 to R424) -/

def TdiState.code : TdiState → Nat
  | .configUnlocked => 0
  | .configLocked => 1
  | .run => 2
  | .error => 3

/-- TDISP answers: the message, 0 done or 1 not in this state, and data. -/
def State.tdiReply (s : State) (op status : Nat) (data : List Nat) : State := s.emit (.doe (op :: status :: data))

/-- The base address registers of the TDI's MMIO ranges, and one interrupt kind, MSI-X. -/
def interfaceReport : List Nat := [0, 2, 4, 1]

/-- TSP: trusted-execution state of a window. -/
def State.setTsp (s : State) (w : Nat) (b : Bool) : State :=
  let x := s.mail.windows.getD w Window.reset
  let y := if !b && s.windowConf x then { x with committed := false } else x
  s.setWindow w { y with tsp := b }

def State.onTdisp (s : State) (cn : Conn) (m : TdispMsg) : State :=
  s.doeSecure cn (match m with
    | .getVersion => s.tdiReply 0 0 []
    | .getCapabilities => s.tdiReply 1 0 []
    | .getReport => if s.locked then s.tdiReply 2 0 interfaceReport else s.tdiReply 2 1 []
    | .getState => s.tdiReply 3 0 [s.sec.tdi.code]
    | .lockInterface =>
      if s.sec.tdi = .configUnlocked then (s.setTdi .configLocked).tdiReply 4 0 [] else s.tdiReply 4 1 []
    | .startInterface => if s.sec.tdi = .configLocked then (s.setTdi .run).tdiReply 5 0 [] else s.tdiReply 5 1 []
    | .stopInterface => (s.setTdi .configUnlocked).tdiReply 6 0 []
    | .tspEnable w => if w < 8 then (s.setTsp w true).tdiReply 7 0 [] else s.tdiReply 7 1 []
    | .tspDisable w => if w < 8 then (s.setTsp w false).tdiReply 8 0 [] else s.tdiReply 8 1 [])

/-! ## CDAT (R195) -/

/-- Entries of the table: `DSMAS` and `DSLBIS` for HBM (handle 0) and for the DDR tier (1); the
performance values are free. -/
def State.cdatEntry (s : State) (entry : Nat) : List Nat :=
  let t := s.units.topo
  if entry = 0 then [0, 0, popCount t.hbm * hbmSize]
  else if entry = 1 then [0, 1, ddrBase, t.dimms.sum * 2 ^ 30]
  else [1, entry % 2, s.free.1]

/-- The `CDAT_TABLE_ACCESS` of an entry, with the handle of the next. -/
def State.onCdat (s : State) (entry : Nat) : State :=
  if entry < 4 then s.free.2.emit (.doe (entry :: (if entry = 3 then 0xFFFF else entry + 1) :: s.cdatEntry entry))
  else s.emit (.doe [0xFFFF])

/-! ## Who answers (R420, R421, R490) -/

/-- What is done with a request of a connection. -/
def State.effect (s : State) (cn : Conn) : Request → State
  | .getVersion => s.onGetVersion cn
  | .getCapabilities => s.onGetCapabilities cn
  | .negotiateAlgorithms a => s.onNegotiateAlgorithms cn a
  | .getDigests => s.onGetDigests cn
  | .getCertificate slot off len => s.onGetCertificate cn slot off len
  | .challenge slot => s.onChallenge cn slot
  | .getMeasurements block signed => s.onGetMeasurements cn block signed
  | .keyExchange => s.onKeyExchange cn
  | .finish => s.onFinish cn
  | .endSession => s.onEndSession cn
  | .keyUpdate => s.onKeyUpdate cn
  | .heartbeat => s.onHeartbeat cn
  | .chunkSend handle seq data => s.onChunkSend cn handle seq data
  | .chunkGet handle seq => s.onChunkGet cn handle seq
  | .cosigFetch id off len => s.onCosigFetch cn id off len
  | .pqChainGet id off len => s.onPqChainGet cn id off len
  | .debugNonce => s.onDebugNonce cn
  | .debugToken id off data => s.onDebugToken cn id off data
  | .ideKmQuery x => s.onIdeQuery cn x
  | .keyProg x set sub => s.onKeyProg cn x set sub
  | .kSetGo x set sub => s.onSetGo cn x set sub
  | .kSetStop x set sub => s.onSetStop cn x set sub
  | .tdisp m => s.onTdisp cn m
  | .cdat entry => s.onCdat entry
  | .respondIfReady => s

/-- The relay keeps the request for `RESPOND_IF_READY`; secured messages are dropped. -/
def State.relay (s : State) (cn : Conn) (r : Request) : State :=
  if cn.session.isSome then s
  else { s with sec := { s.sec with
    deferred := (cn, r) :: s.sec.deferred.filter fun x => x.1.tr != cn.tr } }.notReady cn

/-- `RESPOND_IF_READY`: the kept request is answered once the security controller is back. -/
def State.onRespond (s : State) (cn : Conn) : State :=
  match s.sec.deferred.find? fun x => x.1.tr == cn.tr with
  | some x => { s with sec := { s.sec with deferred := s.sec.deferred.filter fun y => y.1.tr != cn.tr } }.effect x.1 x.2
  | none => s.refuse cn .unexpectedRequest

/-- A request at the security controller or, while that cannot answer, at the relay. The command
processor answers for the CDAT by itself. -/
def State.atSec (s : State) (cn : Conn) (r : Request) : State :=
  match r with
  | .cdat entry => s.onCdat entry
  | .respondIfReady => if s.secServes then s.onRespond cn else s.notReady cn
  | q => if s.secServes then s.effect cn q else s.relay cn q

/-- The command processor is paused by its activation. -/
def State.cmdPaused (s : State) : Bool := s.upd.activation.any fun a => a.comp == 3

/-- A request over DOE: absent while the link is down, held during a `CMD` pause. -/
def State.viaDoe (s : State) (cn : Conn) (r : Request) : State :=
  if !s.hostUp then s
  else if s.cmdPaused then { s with sec := { s.sec with waiting := s.sec.waiting ++ [(cn, r)] } }
  else s.atSec cn r

/-- A request over MCTP: `Busy` while a package warm start is under way, no answer before a cold
start has completed. -/
def State.viaMctp (s : State) (cn : Conn) (r : Request) : State :=
  if !s.lampAnswers || s.board.bootsel == 3 || !s.board.railsUp || s.board.coldDue then s
  else if s.board.warmDue then s.refuse cn .busy
  else s.atSec cn r

/-- A request arrives. -/
def receive (cn : Conn) (r : Request) (s : State) : Host.Outcome State Fault Refusal :=
  .next (if cn.tr = .doe then s.viaDoe cn r else s.viaMctp cn r)

def execGetVersion (cn : Conn) (s : State) : Host.Outcome State Fault Refusal :=
  receive cn .getVersion s

def execGetCapabilities (cn : Conn) (s : State) : Host.Outcome State Fault Refusal :=
  receive cn .getCapabilities s

def execNegotiateAlgorithms (cn : Conn) (a : AlgOffer) (s : State) : Host.Outcome State Fault Refusal :=
  receive cn (.negotiateAlgorithms a) s

def execGetDigests (cn : Conn) (s : State) : Host.Outcome State Fault Refusal :=
  receive cn .getDigests s

def execGetCertificate (cn : Conn) (slot : Nat) (off : Nat) (len : Nat) (s : State) :
    Host.Outcome State Fault Refusal :=
  receive cn (.getCertificate slot off len) s

def execChallenge (cn : Conn) (slot : Nat) (s : State) : Host.Outcome State Fault Refusal :=
  receive cn (.challenge slot) s

def execGetMeasurements (cn : Conn) (block : Nat) (signed : Bool) (s : State) :
    Host.Outcome State Fault Refusal :=
  receive cn (.getMeasurements block signed) s

def execKeyExchange (cn : Conn) (s : State) : Host.Outcome State Fault Refusal :=
  receive cn .keyExchange s

def execFinish (cn : Conn) (s : State) : Host.Outcome State Fault Refusal :=
  receive cn .finish s

def execEndSession (cn : Conn) (s : State) : Host.Outcome State Fault Refusal :=
  receive cn .endSession s

def execKeyUpdate (cn : Conn) (s : State) : Host.Outcome State Fault Refusal :=
  receive cn .keyUpdate s

def execSpdmHeartbeat (cn : Conn) (s : State) : Host.Outcome State Fault Refusal :=
  receive cn .heartbeat s

def execChunkSend (cn : Conn) (handle : BitVec 8) (seq : Nat) (_ : Bool) (data : List Byte) (s : State) :
    Host.Outcome State Fault Refusal :=
  receive cn (.chunkSend handle seq data) s

def execChunkGet (cn : Conn) (handle : BitVec 8) (seq : Nat) (s : State) : Host.Outcome State Fault Refusal :=
  receive cn (.chunkGet handle seq) s

def execRespondIfReady (cn : Conn) (s : State) : Host.Outcome State Fault Refusal :=
  receive cn .respondIfReady s

def execCosigFetch (cn : Conn) (id : BitVec 32) (off : Nat) (len : Nat) (s : State) :
    Host.Outcome State Fault Refusal :=
  receive cn (.cosigFetch id off len) s

def execPqChainGet (cn : Conn) (id : BitVec 32) (off : Nat) (len : Nat) (s : State) :
    Host.Outcome State Fault Refusal :=
  receive cn (.pqChainGet id off len) s

def execDebugNonce (cn : Conn) (s : State) : Host.Outcome State Fault Refusal :=
  receive cn .debugNonce s

def execDebugToken (cn : Conn) (id : BitVec 32) (off : Nat) (data : List Byte) (s : State) :
    Host.Outcome State Fault Refusal :=
  receive cn (.debugToken id off data) s

def execIdeKmQuery (cn : Conn) (st : IdeStream) (s : State) : Host.Outcome State Fault Refusal :=
  receive cn (.ideKmQuery st) s

def execKeyProg (cn : Conn) (st : IdeStream) (set : Nat) (sub : Nat) (s : State) :
    Host.Outcome State Fault Refusal :=
  receive cn (.keyProg st set sub) s

def execKSetGo (cn : Conn) (st : IdeStream) (set : Nat) (sub : Nat) (s : State) :
    Host.Outcome State Fault Refusal :=
  receive cn (.kSetGo st set sub) s

def execKSetStop (cn : Conn) (st : IdeStream) (set : Nat) (sub : Nat) (s : State) :
    Host.Outcome State Fault Refusal :=
  receive cn (.kSetStop st set sub) s

def execTdispRequest (cn : Conn) (m : TdispMsg) (s : State) : Host.Outcome State Fault Refusal :=
  receive cn (.tdisp m) s

/-- `COSIG_EXPIRY`: 10 s have passed. -/
def execCosigExpiry (id : BitVec 32) (s : State) : Host.Outcome State Fault Refusal :=
  .next { s with sec := { s.sec with
    cosigs := s.sec.cosigs.filter fun x => x.id != id || decide (s.power.frame.toNat < x.frame + tenSeconds) } }

/-- `CDAT_TABLE_ACCESS`, over DOE. -/
def execCdatTableAccess (entry : Nat) (s : State) : Host.Outcome State Fault Refusal :=
  receive { tr := .doe, session := none } (.cdat entry) s

/-! ## The end of an activation (R420, R448) -/

/-- Requests that waited in the DOE mailbox are answered. -/
def State.answerWaiting (s : State) : State :=
  s.sec.waiting.foldl (fun a x => a.atSec x.1 x.2) { s with sec := { s.sec with waiting := [] } }

/-- `ACTIVATION_COMPLETE` after a pause. -/
def execActivationComplete (pauseUs : Nat) (s : State) : Host.Outcome State Fault Refusal :=
  .next (match s.upd.activation with
    | none => s
    | some a =>
      if !s.activationReady a then s
      else
        let s1 := s.serve a |>.answerWaiting
        match a.slot with
        | some slot => s1.completeSlot slot { Report.of stDone with
            r0 := ((s1.activeImage a.comp).map fun i => i.version.toNat).getD 0, r1 := pauseUs
            r2 := (a.linkDown.filter fun h => !(s.port h).inService).length }
        | none => match s1.upd.pldm.queue with
          | some l => s1.activateNext l
          | none => s1)

/-- `ACTIVATION_TIMEOUT`: the former image is reloaded, and what waited for the pause is answered. -/
def execActivationTimeout (s : State) : Host.Outcome State Fault Refusal :=
  .next (match s.upd.activation with
    | none => s
    | some a =>
      let s1 := s.setBootEntry a.comp { s.bootEntry a.comp with activeB := a.fromB }
      let s1 := if a.comp = 2 then s1.deriveKeys (s1.sec.runningImages.getD 1 none) else s1
      let s2 := { s1 with
        upd := { s1.upd with activation := none }
        power := { s1.power with handover := s1.power.handover && a.comp != 4 }
        sec := { s1.sec with paused := s1.sec.paused && a.comp != 2 }
        rcv := { s1.rcv with secHeld := s1.rcv.secHeld && a.comp != 2 } }
      let s2 := s2.answerWaiting
      match a.slot with
      | some slot => s2.completeSlot slot { Report.of stIncompatible with r0 := 0xFF }
      | none => { s2 with upd := { s2.upd with pldm := { s2.upd.pldm with queue := none } } }.emit (.pldm .error []))

end Sys2Proof.Machine
end

