-- ==== Sys2Proof/Machine/Scalar.lean ====
section
/-! DEFINITION. Scalar arithmetic, immediates, branches and jumps (R98, R100). -/

namespace Sys2Proof.Machine

/-! ## Results -/

def boolWord (b : Bool) : Word := if b then 1 else 0

/-- Division by zero gives all ones (R100). -/
def divSigned (a b : Word) : Word := if b = 0 then BitVec.allOnes 64 else BitVec.ofInt 64 (a.toInt.tdiv b.toInt)

def divUnsigned (a b : Word) : Word := if b = 0 then BitVec.allOnes 64 else a / b

/-- A remainder by zero is the dividend (R100). -/
def remSigned (a b : Word) : Word := if b = 0 then a else BitVec.ofInt 64 (a.toInt.tmod b.toInt)

def remUnsigned (a b : Word) : Word := if b = 0 then a else a % b

def mulHighSigned (a b : Word) : Word := BitVec.ofInt 64 (a.toInt * b.toInt / 2 ^ 64)

def mulHighUnsigned (a b : Word) : Word := BitVec.ofNat 64 (a.toNat * b.toNat / 2 ^ 64)

/-- A shift amount is taken modulo 64 (R100). -/
def shiftAmount (b : Word) : Nat := b.toNat % 64

/-- The immediate, sign-extended (R96). -/
def immValue (o : IOp) : Word := o.imm.signExtend 64

/-! ## The shared forms -/

/-- A register form: `s[SD]` takes a function of `s[SA]` and `s[SB]`. -/
def scalarS (f : Word → Word → Word) (c : Nat) (o : SOp) (u : Upset) (s : State) :
    Host.Outcome State Fault Refusal :=
  s.issue c u kScalar fun s k => .cell s c (k.ws o.sd (f (k.rs o.sa) (k.rs o.sb))) []

/-- An immediate form. -/
def scalarI (f : Word → Word → Word) (c : Nat) (o : IOp) (u : Upset) (s : State) :
    Host.Outcome State Fault Refusal :=
  s.issue c u kScalar fun s k => .cell s c (k.ws o.sd (f (k.rs o.sa) (immValue o))) []

/-- A conditional branch to PC + 8 × `OFF41`: backward ones are predicted taken (R98, R100). -/
def branchTo (s : State) (c : Nat) (k : Cell) (taken : Bool) (off : BitVec 41) : Eff :=
  let evs := if taken == off.msb then [] else [ev 0x58 1]
  if taken then .put s c { k with pc := k.pc + 8 * off.signExtend 64 } evs
  else .cell s c k evs

def branchB (f : Word → Word → Bool) (c : Nat) (o : BOp) (u : Upset) (s : State) :
    Host.Outcome State Fault Refusal :=
  s.issue c u kControl fun s k => branchTo s c k (f (k.rs o.sa) (k.rs o.sb)) o.off

/-! ## Opcodes 0x01 to 0x13 -/

def execAdd (c : Nat) (o : SOp) (u : Upset) (s : State) : Host.Outcome State Fault Refusal :=
  scalarS (fun a b => a + b) c o u s

def execSub (c : Nat) (o : SOp) (u : Upset) (s : State) : Host.Outcome State Fault Refusal :=
  scalarS (fun a b => a - b) c o u s

def execAnd (c : Nat) (o : SOp) (u : Upset) (s : State) : Host.Outcome State Fault Refusal :=
  scalarS (fun a b => a &&& b) c o u s

def execOr (c : Nat) (o : SOp) (u : Upset) (s : State) : Host.Outcome State Fault Refusal :=
  scalarS (fun a b => a ||| b) c o u s

def execXor (c : Nat) (o : SOp) (u : Upset) (s : State) : Host.Outcome State Fault Refusal :=
  scalarS (fun a b => a ^^^ b) c o u s

def execSll (c : Nat) (o : SOp) (u : Upset) (s : State) : Host.Outcome State Fault Refusal :=
  scalarS (fun a b => a <<< shiftAmount b) c o u s

def execSrl (c : Nat) (o : SOp) (u : Upset) (s : State) : Host.Outcome State Fault Refusal :=
  scalarS (fun a b => a >>> shiftAmount b) c o u s

def execSra (c : Nat) (o : SOp) (u : Upset) (s : State) : Host.Outcome State Fault Refusal :=
  scalarS (fun a b => a.sshiftRight (shiftAmount b)) c o u s

def execSlt (c : Nat) (o : SOp) (u : Upset) (s : State) : Host.Outcome State Fault Refusal :=
  scalarS (fun a b => boolWord (a.slt b)) c o u s

def execSltu (c : Nat) (o : SOp) (u : Upset) (s : State) : Host.Outcome State Fault Refusal :=
  scalarS (fun a b => boolWord (a.ult b)) c o u s

def execMul (c : Nat) (o : SOp) (u : Upset) (s : State) : Host.Outcome State Fault Refusal :=
  scalarS (fun a b => a * b) c o u s

def execMulh (c : Nat) (o : SOp) (u : Upset) (s : State) : Host.Outcome State Fault Refusal :=
  scalarS (fun a b => mulHighSigned a b) c o u s

def execMulhu (c : Nat) (o : SOp) (u : Upset) (s : State) : Host.Outcome State Fault Refusal :=
  scalarS (fun a b => mulHighUnsigned a b) c o u s

def execDiv (c : Nat) (o : SOp) (u : Upset) (s : State) : Host.Outcome State Fault Refusal :=
  scalarS (fun a b => divSigned a b) c o u s

def execDivu (c : Nat) (o : SOp) (u : Upset) (s : State) : Host.Outcome State Fault Refusal :=
  scalarS (fun a b => divUnsigned a b) c o u s

def execRem (c : Nat) (o : SOp) (u : Upset) (s : State) : Host.Outcome State Fault Refusal :=
  scalarS (fun a b => remSigned a b) c o u s

def execRemu (c : Nat) (o : SOp) (u : Upset) (s : State) : Host.Outcome State Fault Refusal :=
  scalarS (fun a b => remUnsigned a b) c o u s

def execMin (c : Nat) (o : SOp) (u : Upset) (s : State) : Host.Outcome State Fault Refusal :=
  scalarS (fun a b => if a.sle b then a else b) c o u s

def execMax (c : Nat) (o : SOp) (u : Upset) (s : State) : Host.Outcome State Fault Refusal :=
  scalarS (fun a b => if b.sle a then a else b) c o u s

/-! ## Opcodes 0x18 to 0x1F -/

def execAddi (c : Nat) (o : IOp) (u : Upset) (s : State) : Host.Outcome State Fault Refusal :=
  scalarI (fun a b => a + b) c o u s

def execAndi (c : Nat) (o : IOp) (u : Upset) (s : State) : Host.Outcome State Fault Refusal :=
  scalarI (fun a b => a &&& b) c o u s

def execOri (c : Nat) (o : IOp) (u : Upset) (s : State) : Host.Outcome State Fault Refusal :=
  scalarI (fun a b => a ||| b) c o u s

def execXori (c : Nat) (o : IOp) (u : Upset) (s : State) : Host.Outcome State Fault Refusal :=
  scalarI (fun a b => a ^^^ b) c o u s

def execSlli (c : Nat) (o : IOp) (u : Upset) (s : State) : Host.Outcome State Fault Refusal :=
  scalarI (fun a b => a <<< shiftAmount b) c o u s

def execSrli (c : Nat) (o : IOp) (u : Upset) (s : State) : Host.Outcome State Fault Refusal :=
  scalarI (fun a b => a >>> shiftAmount b) c o u s

def execSrai (c : Nat) (o : IOp) (u : Upset) (s : State) : Host.Outcome State Fault Refusal :=
  scalarI (fun a b => a.sshiftRight (shiftAmount b)) c o u s

/-- `s[SD]` ← `IMM41` << 23; `SA` is unused and zero. -/
def execLui (c : Nat) (o : IOp) (u : Upset) (s : State) : Host.Outcome State Fault Refusal :=
  s.issue c u kScalar fun s k =>
    .legal (o.sa == 0) (.cell s c (k.ws o.sd (o.imm ++ (0 : BitVec 23))) [])

/-! ## Opcodes 0x20 to 0x29 -/

def execBeq (c : Nat) (o : BOp) (u : Upset) (s : State) : Host.Outcome State Fault Refusal :=
  branchB (fun a b => a == b) c o u s

def execBne (c : Nat) (o : BOp) (u : Upset) (s : State) : Host.Outcome State Fault Refusal :=
  branchB (fun a b => a != b) c o u s

def execBlt (c : Nat) (o : BOp) (u : Upset) (s : State) : Host.Outcome State Fault Refusal :=
  branchB (fun a b => a.slt b) c o u s

def execBge (c : Nat) (o : BOp) (u : Upset) (s : State) : Host.Outcome State Fault Refusal :=
  branchB (fun a b => !a.slt b) c o u s

def execBltu (c : Nat) (o : BOp) (u : Upset) (s : State) : Host.Outcome State Fault Refusal :=
  branchB (fun a b => a.ult b) c o u s

def execBgeu (c : Nat) (o : BOp) (u : Upset) (s : State) : Host.Outcome State Fault Refusal :=
  branchB (fun a b => !a.ult b) c o u s

/-- The target counts from the `JAL`; the return address is the next instruction. -/
def execJal (c : Nat) (o : IOp) (u : Upset) (s : State) : Host.Outcome State Fault Refusal :=
  s.issue c u kControl fun s k =>
    .legal (o.sa == 0)
      (.put s c { k.ws o.sd (k.pc + 8) with pc := k.pc + 8 * (immValue o) } [])

/-- The target is `s[SA]` + `IMM41` in bytes, read before `s[SD]` is written; one that is not
8-byte aligned raises `MISALIGNED`. Always counted as mispredicted (R100). -/
def execJalr (c : Nat) (o : IOp) (u : Upset) (s : State) : Host.Outcome State Fault Refusal :=
  s.issue c u kControl fun s k =>
    let target := k.rs o.sa + (immValue o)
    if target.extractLsb' 0 3 = 0 then
      .put s c { k.ws o.sd (k.pc + 8) with pc := target } [ev 0x58 1]
    else .exc cMisaligned target

/-- Branch when any bit of the predicate is set. -/
def execBpany (c : Nat) (o : BPOp) (u : Upset) (s : State) : Host.Outcome State Fault Refusal :=
  s.issueP c u kControl [o.p] fun s k => branchTo s c k (k.rp o.p != 0) o.off

/-- Branch when no bit of the predicate is set. -/
def execBpnone (c : Nat) (o : BPOp) (u : Upset) (s : State) : Host.Outcome State Fault Refusal :=
  s.issueP c u kControl [o.p] fun s k => branchTo s c k (k.rp o.p == 0) o.off

end Sys2Proof.Machine
end

