-- ==== Sys2Proof/Machine/Vector.lean ====
section
/-! DEFINITION. Vector instructions (R101 to R106, R114, R496 to R498). -/

namespace Sys2Proof.Machine

/-! ## Element operations -/

/-- A wrapped integer result on signed operands. -/
def intOp (f : Int → Int → Int) (b x y : Nat) : Nat := wrap b (f (signed b x) (signed b y))

/-- An operation on elements of type `et`: floating point or integer (R496). -/
def arithOp (fl : FFmt → Nat → Nat → Nat × BitVec 7) (int : Nat → Nat → Nat → Nat) (et x y : Nat) :
    Nat × BitVec 7 :=
  match etFormat et with
  | some f => fl f x y
  | none => (int (etWidth et) x y, 0)

def elemAdd (et x y : Nat) : Nat × BitVec 7 := arithOp FFmt.add (intOp (· + ·)) et x y

def elemSub (et x y : Nat) : Nat × BitVec 7 := arithOp FFmt.sub (intOp (· - ·)) et x y

def elemMul (et x y : Nat) : Nat × BitVec 7 := arithOp FFmt.mul (intOp (· * ·)) et x y

def elemMin (et x y : Nat) : Nat × BitVec 7 :=
  arithOp (fun f => f.minMax false) (fun b x y => if signed b x ≤ signed b y then x else y) et x y

def elemMax (et x y : Nat) : Nat × BitVec 7 :=
  arithOp (fun f => f.minMax true) (fun b x y => if signed b y ≤ signed b x then x else y) et x y

/-- a × b + c, or c − a × b (R496). -/
def elemFma (neg : Bool) (et x y z : Nat) : Nat × BitVec 7 :=
  match etFormat et with
  | some f => f.fma neg x y z
  | none =>
    let b := etWidth et
    let p := signed b x * signed b y
    (wrap b (signed b z + if neg then -p else p), 0)

/-- A shift by an amount reduced modulo the element width (R496). -/
def elemShift (f : Nat → Nat → Nat → Nat) (et x y : Nat) : Nat × BitVec 7 :=
  (f (etWidth et) x (y % etWidth et), 0)

/-- The conditions of `VCMP` (R101) on an order: less, equal, unordered. -/
def condHolds (cond : Nat) (lt eq un : Bool) : Bool :=
  match cond with
  | 0 => eq
  | 1 => !eq
  | 2 => lt
  | 3 => lt || eq
  | 4 => !lt && !eq && !un
  | 5 => !lt && !un
  | _ => un

/-- `VCMP` on one element, with its flags: the ordering comparisons signal a quiet NaN
(R103, IEEE 754). -/
def elemCmp (cond et x y : Nat) : Bool × BitVec 7 :=
  if et = etFP32 then
    let a := fp32.decode x
    let b := fp32.decode y
    let un := a.isNan || b.isNan
    let lt := a.lt b
    let eq := !un && !lt && !b.lt a
    let inv := fp32.signalling x || fp32.signalling y || (un && decide (2 ≤ cond ∧ cond ≤ 5))
    (condHolds cond lt eq un, flagIf inv flagNV)
  else
    let a := signed (etWidth et) x
    let b := signed (etWidth et) y
    (condHolds cond (decide (a < b)) (decide (a = b)) false, 0)

/-! ## The elementwise form -/

/-- Write elements under the guard and set the flags they raise. Where source and destination hold different numbers
of elements, the guard bits of the destination element decide (R102 does not say which; DESIGN CHOICE, assumption log
entry 70). -/
def vecResult (s : State) (c : Nat) (k : Cell) (o : VOp) (b lo n : Nat)
    (res : Nat → Nat × BitVec 7) (adjust : BitVec 7 → BitVec 7) : Eff :=
  let g := k.guard o.pg o.pn
  let fl := adjust (vecFlags b lo n g fun i => (res i).2)
  .cell s c ((k.wv o.vd (vecWrite b lo n g o.mz (k.rv o.vd) fun i => (res i).1)).flag fl)
    (if fl = 0 then [] else [ev 0x0B 1])

/-- Two-operand instructions of 0x40 to 0x4C: `VC` is unused, `AUX` reserved. -/
def vecBinary (okType : Nat → Bool) (f : Nat → Nat → Nat → Nat × BitVec 7) (c : Nat) (o : VOp) (u : Upset)
    (s : State) : Host.Outcome State Fault Refusal :=
  s.issueG c u kCompute o.pg o.pn [] fun s k =>
    let et := o.et.toNat
    let b := etWidth et
    .legal (okType et && o.vc == 0 && o.bOk && o.auxIn 0)
      (vecResult s c k o b 0 (8192 / b)
        (fun i => f et (vecElem b (k.rv o.va) i) (k.operandB o b i)) id)

def execVadd (c : Nat) (o : VOp) (u : Upset) (s : State) : Host.Outcome State Fault Refusal :=
  vecBinary etArith elemAdd c o u s

def execVsub (c : Nat) (o : VOp) (u : Upset) (s : State) : Host.Outcome State Fault Refusal :=
  vecBinary etArith elemSub c o u s

def execVmul (c : Nat) (o : VOp) (u : Upset) (s : State) : Host.Outcome State Fault Refusal :=
  vecBinary etArith elemMul c o u s

def execVmin (c : Nat) (o : VOp) (u : Upset) (s : State) : Host.Outcome State Fault Refusal :=
  vecBinary etArith elemMin c o u s

def execVmax (c : Nat) (o : VOp) (u : Upset) (s : State) : Host.Outcome State Fault Refusal :=
  vecBinary etArith elemMax c o u s

def execVand (c : Nat) (o : VOp) (u : Upset) (s : State) : Host.Outcome State Fault Refusal :=
  vecBinary etArith (fun _ x y => (x &&& y, 0)) c o u s

def execVor (c : Nat) (o : VOp) (u : Upset) (s : State) : Host.Outcome State Fault Refusal :=
  vecBinary etArith (fun _ x y => (x ||| y, 0)) c o u s

def execVxor (c : Nat) (o : VOp) (u : Upset) (s : State) : Host.Outcome State Fault Refusal :=
  vecBinary etArith (fun _ x y => (x ^^^ y, 0)) c o u s

def execVsll (c : Nat) (o : VOp) (u : Upset) (s : State) : Host.Outcome State Fault Refusal :=
  vecBinary etInt (elemShift fun _ x n => x <<< n) c o u s

def execVsrl (c : Nat) (o : VOp) (u : Upset) (s : State) : Host.Outcome State Fault Refusal :=
  vecBinary etInt (elemShift fun _ x n => x >>> n) c o u s

def execVsra (c : Nat) (o : VOp) (u : Upset) (s : State) : Host.Outcome State Fault Refusal :=
  vecBinary etInt (elemShift fun b x n => wrap b (signed b x / (2 ^ n : Nat))) c o u s

/-- `VFMA` and `VFNMA`: the only instructions that use `VC` (R496). -/
def vecFma (neg : Bool) (c : Nat) (o : VOp) (u : Upset) (s : State) : Host.Outcome State Fault Refusal :=
  s.issueG c u kCompute o.pg o.pn [] fun s k =>
    let et := o.et.toNat
    let b := etWidth et
    .legal (etArith et && o.bOk && o.auxIn 0)
      (vecResult s c k o b 0 (8192 / b)
        (fun i => elemFma neg et (vecElem b (k.rv o.va) i) (k.operandB o b i) (vecElem b (k.rv o.vc) i)) id)

def execVfma (c : Nat) (o : VOp) (u : Upset) (s : State) : Host.Outcome State Fault Refusal := vecFma false c o u s

def execVfnma (c : Nat) (o : VOp) (u : Upset) (s : State) : Host.Outcome State Fault Refusal := vecFma true c o u s

/-- The predicate that `VCMP` writes: one bit a lane, two for a 64-bit element; unguarded lanes
are 0 (R103). -/
def cmpMask (b : Nat) (g : PReg) (r : Nat → Bool) : PReg :=
  BitVec.ofNat 256 (packElems (b / 32)
    (fun i => if guardOn g b i && r i then 2 ^ (b / 32) - 1 else 0) (8192 / b))

/-- `VCMP` (R103). Every bit of its result is fixed, so `MZ` is an unused bit (R96, R99). -/
def execVcmp (c : Nat) (o : VOp) (u : Upset) (s : State) : Host.Outcome State Fault Refusal :=
  s.issueG c u kCompute o.pg o.pn [BitVec.ofNat 4 o.auxHi] fun s k =>
    let et := o.et.toNat
    let b := etWidth et
    let g := k.guard o.pg o.pn
    let r := fun i => elemCmp o.op3 et (vecElem b (k.rv o.va) i) (k.operandB o b i)
    let fl := vecFlags b 0 (8192 / b) g fun i => (r i).2
    .legal ((et == etFP32 || et == etINT32 || et == etINT64) && o.op3 != 7 && o.vd == 0 && o.vc == 0
        && !o.mz && o.bOk && o.auxIn 0xF0E00)
      (.cell s c ((k.wp (BitVec.ofNat 4 o.auxHi) (cmpMask b g fun i => (r i).1)).flag fl)
        (if fl = 0 then [] else [ev 0x0B 1]))

/-- `VSEL`: `VA` where the guard is true, `VB` elsewhere; `MZ` is ignored (R103). -/
def execVsel (c : Nat) (o : VOp) (u : Upset) (s : State) : Host.Outcome State Fault Refusal :=
  s.issueG c u kCompute o.pg o.pn [] fun s k =>
    let b := etWidth o.et.toNat
    let g := k.guard o.pg o.pn
    .legal (etArith o.et.toNat && o.vc == 0 && o.bOk && o.auxIn 0)
      (.cell s c (k.wv o.vd (vecOf b fun i =>
        if guardOn g b i then vecElem b (k.rv o.va) i else k.operandB o b i)) [])

/-! ## Conversions (R102, R498) -/

/-- The types that `VCVT` takes (R497). -/
def cvtType (et : Nat) : Bool := decide (et < 0xD)

/-- One element converted from `et` to `tet` (R498). -/
def elemCvt (sat : Bool) (et tet x : Nat) : Nat × BitVec 7 :=
  match etFormat et, etFormat tet with
  | some f, some g => g.round sat (f.decode x)
  | some f, none => toInt (etWidth tet) sat (f.decode x)
  | none, some g => g.round sat (FVal.ofInteger (signed (etWidth et) x))
  | none, none => intToInt (etWidth tet) sat (signed (etWidth et) x)

/-- The number of parts of the larger register (R102). -/
def partCount (bs bt : Nat) : Nat := max bs bt / min bs bt

/-- `VCVT` (R102, R498). -/
def execVcvt (c : Nat) (o : VOp) (u : Upset) (s : State) : Host.Outcome State Fault Refusal :=
  s.issueG c u kCompute o.pg o.pn [] fun s k =>
    let et := o.et.toNat
    let tet := o.auxHi
    let bs := etWidth et
    let bt := etWidth tet
    let n := min (8192 / bs) (8192 / bt)
    let srcLo := if bs < bt then o.part * n else 0
    let dstLo := if bt < bs then o.part * n else 0
    .legal (cvtType et && cvtType tet && decide (o.part < partCount bs bt) && o.vc == 0 && o.noB
        && o.ss == 0 && o.auxIn 0xFF000)
      (vecResult s c k o bt dstLo n
        (fun i => elemCvt o.satBit et tet (vecElem bs (k.rv o.va) (srcLo + i))) id)

/-! ## Permutation, reduction, functions -/

/-- `VPERM` (R103). -/
def execVperm (c : Nat) (o : VOp) (u : Upset) (s : State) : Host.Outcome State Fault Refusal :=
  s.issueG c u kCompute o.pg o.pn [] fun s k =>
    .legal ((o.et.toNat == etFP32 || o.et.toNat == etINT32) && o.vc == 0 && o.bOk && o.auxIn 0)
      (vecResult s c k o 32 0 256
        (fun i => (vecElem 32 (k.rv o.va) (k.operandB o 32 i % 256), 0)) id)

/-- The identity of a reduction: −0 or 0, the largest value, the smallest value (R104). -/
def reduceIdentity (rop et : Nat) : Nat :=
  match etFormat et with
  | some f =>
    match rop with
    | 0 => f.sign true
    | 1 => f.infinity false
    | _ => f.infinity true
  | none =>
    match rop with
    | 0 => 0
    | 1 => 2 ^ (etWidth et - 1) - 1
    | _ => 2 ^ (etWidth et - 1)

/-- One combination of a reduction. -/
def reduceOp (rop et x y : Nat) : Nat × BitVec 7 :=
  match rop with
  | 0 => elemAdd et x y
  | 1 => elemMin et x y
  | _ => elemMax et x y

/-- The pairwise tree of R104 over 2^q elements: the result, and the flags so far. -/
def reduceTree (op : Nat → Nat → Nat × BitVec 7) : Nat → List Nat → BitVec 7 → Nat × BitVec 7
  | 0, l, fl => (l.headD 0, fl)
  | q + 1, l, fl =>
    let half := 2 ^ q
    let r := List.zipWith op (l.take half) (l.drop half)
    reduceTree op q (r.map Prod.fst) (r.foldl (fun a x => a ||| x.2) fl)

/-- `VREDUCE` (R104); `MZ` is unused. -/
def execVreduce (c : Nat) (o : VOp) (u : Upset) (s : State) : Host.Outcome State Fault Refusal :=
  s.issueG c u kCompute o.pg o.pn [] fun s k =>
    let et := o.et.toNat
    let b := etWidth et
    let g := k.guard o.pg o.pn
    let l := (List.range (8192 / b)).map fun i =>
      if guardOn g b i then vecElem b (k.rv o.va) i else reduceIdentity o.op3 et
    let r := reduceTree (reduceOp o.op3 et) (Nat.log2 (8192 / b)) l 0
    .legal (etArith et && decide (o.op3 ≤ 2) && o.vc == 0 && !o.mz && o.noB && o.ss == 0 && o.auxIn 0xE00)
      (.cell s c ((k.wv o.vd (BitVec.ofNat 8192 (r.1 % 2 ^ b))).flag r.2)
        (if r.2 = 0 then [] else [ev 0x0B 1]))

/-- `VRCP`, `VRSQRT`, `VEXP2` and `VLOG2` (R105). -/
def vecFun (f : Fun1) (c : Nat) (o : VOp) (u : Upset) (s : State) : Host.Outcome State Fault Refusal :=
  s.issueG c u kCompute o.pg o.pn [] fun s k =>
    let b := etWidth o.et.toNat
    match etFormat o.et.toNat with
    | some fmt =>
      .legal (etFloat o.et.toNat && o.vc == 0 && o.noB && o.ss == 0 && o.auxIn 0)
        (vecResult s c k o b 0 (8192 / b) (fun i => funElem fmt f (vecElem b (k.rv o.va) i)) id)
    | none => .exc cIllegal 0

def execVrcp (c : Nat) (o : VOp) (u : Upset) (s : State) : Host.Outcome State Fault Refusal := vecFun .rcp c o u s

def execVrsqrt (c : Nat) (o : VOp) (u : Upset) (s : State) : Host.Outcome State Fault Refusal := vecFun .rsqrt c o u s

def execVexp2 (c : Nat) (o : VOp) (u : Upset) (s : State) : Host.Outcome State Fault Refusal := vecFun .exp2 c o u s

def execVlog2 (c : Nat) (o : VOp) (u : Upset) (s : State) : Host.Outcome State Fault Refusal := vecFun .log2 c o u s

/-! ## Lanes -/

/-- The width that `LANE` selects: 64-bit elements for INT64, else 32-bit lanes (R103). -/
def laneWidth (o : VOp) : Nat := if o.et.toNat = etINT64 then 64 else 32

/-- `LANE` names an element that exists (R103). -/
def laneOk (o : VOp) : Bool := etArith o.et.toNat && decide (o.lane < 8192 / laneWidth o)

/-- `VEXT`: the selected lane to `s[VD]`, when its guard bit is true (R103). -/
def execVext (c : Nat) (o : VOp) (u : Upset) (s : State) : Host.Outcome State Fault Refusal :=
  s.issueG c u kCompute o.pg o.pn [] fun s k =>
    let b := laneWidth o
    .legal (laneOk o && o.vc == 0 && o.noB && o.ss == 0 && o.auxIn 0xFF)
      (.cell s c (if guardOn (k.guard o.pg o.pn) b o.lane then
          k.ws o.vd (BitVec.ofNat 64 (vecElem b (k.rv o.va) o.lane)) else k) [])

/-- `VINS`: `s[SS]` to the selected lane, when its guard bit is true (R103). -/
def execVins (c : Nat) (o : VOp) (u : Upset) (s : State) : Host.Outcome State Fault Refusal :=
  s.issueG c u kCompute o.pg o.pn [] fun s k =>
    let b := laneWidth o
    .legal (laneOk o && o.va == 0 && o.vc == 0 && o.noB && o.auxIn 0xFF)
      (.cell s c (if guardOn (k.guard o.pg o.pn) b o.lane then
          k.wv o.vd (vecOf b fun i =>
            if i = o.lane then (k.rs o.ss).toNat else vecElem b (k.rv o.vd) i) else k) [])

/-- `VIOTA`: `s[SS]` + i in lane i (R103). -/
def execViota (c : Nat) (o : VOp) (u : Upset) (s : State) : Host.Outcome State Fault Refusal :=
  s.issueG c u kCompute o.pg o.pn [] fun s k =>
    .legal (o.et.toNat == etINT32 && o.va == 0 && o.vc == 0 && o.noB && o.auxIn 0)
      (vecResult s c k o 32 0 256 (fun i => ((k.rs o.ss).toNat + i, 0)) id)

/-! ## Brine in vector registers (R106) -/

/-- The window exponent in `s[SS]` bits [15:0]. -/
def windowOf (w : Word) : Int := (w.extractLsb' 0 16).toInt

/-- A Brine result: saturations set `BOVF` and count as event 0x0A (R149, R338). -/
def brineResult (s : State) (c : Nat) (k : Cell) (o : VOp) (res : Nat → Nat × Bool) : Eff :=
  let g := k.guard o.pg o.pn
  let n := vecCount 64 0 128 g fun j => (res j).2
  .cell s c ((k.wv o.vd (vecWrite 64 0 128 g o.mz (k.rv o.vd) fun j => (res j).1)).flag
      (flagIf (decide (0 < n)) flagBOVF))
    (if n = 0 then [] else [ev 0x0A n, ev 0x0B 1])

/-- `VTOB`: the FP32 lanes of a part as contributions (R106, R146). -/
def execVtob (c : Nat) (o : VOp) (u : Upset) (s : State) : Host.Outcome State Fault Refusal :=
  s.issueG c u kCompute o.pg o.pn [] fun s k =>
    .legal (o.et.toNat == etFP32 && decide (o.part < 2) && o.vc == 0 && o.noB && o.auxIn 0xE000)
      (brineResult s c k o fun j =>
        let r := contribution (windowOf (k.rs o.ss)) (fp32.decode (vecElem 32 (k.rv o.va) (128 * o.part + j)))
        (wrap 64 r.1, r.2))

/-- `VBADD`: words added as they are (R106, R147, R152). -/
def execVbadd (c : Nat) (o : VOp) (u : Upset) (s : State) : Host.Outcome State Fault Refusal :=
  s.issueG c u kCompute o.pg o.pn [] fun s k =>
    .legal (o.et.toNat == etBrine && o.vc == 0 && (!o.bs || o.vb == 0) && o.auxIn 0)
      (brineResult s c k o fun j =>
        let r := brineAdd (BitVec.ofNat 64 (vecElem 64 (k.rv o.va) j)) (BitVec.ofNat 64 (k.operandB o 64 j))
        (r.1.toNat, r.2))

/-- The targets of `XTAL.V` (R106). -/
def xtalTarget (tet : Nat) : Bool := decide (tet ≤ 4)

/-- `XTAL.V`: 128 words crystallized into a part (R106, R155 to R159). -/
def execXtalV (c : Nat) (o : VOp) (u : Upset) (s : State) : Host.Outcome State Fault Refusal :=
  s.issueG c u kCompute o.pg o.pn [] fun s k =>
    let bt := etWidth o.auxHi
    match etFormat o.auxHi with
    | some f =>
      .legal (o.et.toNat == etBrine && xtalTarget o.auxHi && decide (o.part < 64 / bt) && o.vc == 0
          && o.noB && o.auxIn 0xFF000)
        (match vecResult s c k o bt (128 * o.part) 128 (fun j =>
            f.round o.satBit (brineVal (windowOf (k.rs o.ss)) (BitVec.ofNat 64 (vecElem 64 (k.rv o.va) j))))
            withBovf with
          | .next t evs reads writes => .next t (ev 0x09 1 :: evs) reads writes
          | e => e)
    | none => .exc cIllegal 0

/-! ## Top-k (R114) -/

/-- A key of `VTOPK` with its index. -/
structure TopKey where
  key : Nat
  idx : Nat
deriving DecidableEq, Repr

/-- Whether key `x` ranks strictly before key `y` by value: larger first, smaller with `MIN`;
a NaN after every number (R114). -/
def keyBefore (et : Nat) (minSel : Bool) (x y : Nat) : Bool :=
  if et = etFP32 then
    let a := fp32.decode x
    let b := fp32.decode y
    if a.isNan then false
    else if b.isNan then true
    else if minSel then a.lt b else b.lt a
  else if minSel then decide (signed 32 x < signed 32 y) else decide (signed 32 y < signed 32 x)

/-- The rank order: by value, then by the smaller index. -/
def TopKey.before (et : Nat) (minSel : Bool) (x y : TopKey) : Bool :=
  keyBefore et minSel x.key y.key || (!keyBefore et minSel y.key x.key && decide (x.idx < y.idx))

/-- Insert a key in rank order. -/
def topInsert (et : Nat) (minSel : Bool) (x : TopKey) : List TopKey → List TopKey
  | [] => [x]
  | y :: rest =>
    if y.before et minSel x then y :: topInsert et minSel x rest
    else if x.before et minSel y then x :: y :: rest
    else y :: topInsert et minSel x rest

/-- The fill of a segment with too few guarded lanes. -/
def topFill (et : Nat) (minSel : Bool) : TopKey :=
  { key := if et = etFP32 then fp32.infinity (!minSel)
           else if minSel then 2 ^ 31 - 1 else 2 ^ 31,
    idx := 0xFFFFFFFF }

/-- The k first of a segment, in rank order. -/
def topSegment (et : Nat) (minSel : Bool) (k : Nat) (l : List TopKey) : List TopKey :=
  ((l.foldl (fun a x => topInsert et minSel x a) []) ++ List.replicate k (topFill et minSel)).take k

/-- `VTOPK` (R114); `MZ` is unused. -/
def execVtopk (c : Nat) (o : VOp) (u : Upset) (s : State) : Host.Outcome State Fault Refusal :=
  s.issueG c u kCompute o.pg o.pn [] fun s k =>
    let et := o.et.toNat
    let kk := o.aux.toNat / 2 ^ 14 + 1
    let segBits := o.aux.toNat / 2 ^ 11 % 8
    let minSel := o.aux.getLsbD 10
    let merge := o.aux.getLsbD 9
    let seg := 2 ^ segBits
    let g := k.guard o.pg o.pn
    let keys := fun j => (List.range seg).filterMap fun i =>
      let lane := j * seg + i
      if guardOn g 32 lane then
        some { key := vecElem 32 (k.rv o.va) lane,
               idx := if merge then k.operandB o 32 lane else ((k.rs o.ss).toNat + lane) % 2 ^ 32 : TopKey }
      else none
    let res := (List.range (256 / seg)).flatMap fun j => topSegment et minSel kk (keys j)
    let at_ := fun i => res.getD i { key := 0, idx := 0xFFFFFFFF }
    .legal ((et == etFP32 || et == etINT32) && decide (3 ≤ segBits) && decide (kk ≤ seg)
        && o.vd.getLsbD 0 == false && o.vc == 0 && !o.mz && (if merge then o.bOk else o.noB) && o.auxIn 0xFFE00)
      (.cell s c ((k.wv o.vd (vecOf 32 fun i => (at_ i).key)).wv (o.vd + 1)
        (vecOf 32 fun i => (at_ i).idx)) [])

end Sys2Proof.Machine
end

