-- ==== Sys2Proof/Machine/Dispatch.lean ====
section
/-! DEFINITION. One arm per command: what the command does to everything but the queue. -/

namespace Sys2Proof.Machine

def exec (i : Instr) (s : State) : Host.Outcome State Fault Refusal :=
  match i with
  | .inputApplied => Sys2Proof.Machine.execInputApplied s
  | .inputLoss r => Sys2Proof.Machine.execInputLoss r s
  | .undervolt r => Sys2Proof.Machine.execUndervolt r s
  | .overvolt r => Sys2Proof.Machine.execOvervolt r s
  | .overcurrent r => Sys2Proof.Machine.execOvercurrent r s
  | .railFault r => Sys2Proof.Machine.execRailFault r s
  | .pwrEnAssert o => Sys2Proof.Machine.execPwrEnAssert o s
  | .pwrEnDeassert => Sys2Proof.Machine.execPwrEnDeassert s
  | .coldResetAssert => Sys2Proof.Machine.execColdResetAssert s
  | .coldResetDeassert slotId bootsel o => Sys2Proof.Machine.execColdResetDeassert slotId bootsel o s
  | .warmReset => Sys2Proof.Machine.execWarmReset s
  | .snuffer => Sys2Proof.Machine.execSnuffer s
  | .snufferPowerOff r => Sys2Proof.Machine.execSnufferPowerOff r s
  | .coolantStopRelease => Sys2Proof.Machine.execCoolantStopRelease s
  | .hostPerstAssert => Sys2Proof.Machine.execHostPerstAssert s
  | .hostPerstDeassert flit256 => Sys2Proof.Machine.execHostPerstDeassert flit256 s
  | .srefclkPresent => Sys2Proof.Machine.execSrefclkPresent s
  | .frameSyncPresent => Sys2Proof.Machine.execFrameSyncPresent s
  | .frameSyncAbsent => Sys2Proof.Machine.execFrameSyncAbsent s
  | .thermalTrip sensor reading r => Sys2Proof.Machine.execThermalTrip sensor reading r s
  | .droop region deep => Sys2Proof.Machine.execDroop region deep s
  | .droopRecovery region => Sys2Proof.Machine.execDroopRecovery region s
  | .dimmLost d why => Sys2Proof.Machine.execDimmLost d why s
  | .frameTick m => Sys2Proof.Machine.execFrameTick m s
  | .decideStep => Sys2Proof.Machine.execDecideStep s
  | .actStep b => Sys2Proof.Machine.execActStep b s
  | .stateCopy good => Sys2Proof.Machine.execStateCopy good s
  | .frameOverrun => Sys2Proof.Machine.execFrameOverrun s
  | .ctlTakeover why => Sys2Proof.Machine.execCtlTakeover why s
  | .safeState => Sys2Proof.Machine.execSafeState s
  | .calibrationUpdate => Sys2Proof.Machine.execCalibrationUpdate s
  | .trimUpdate region short step => Sys2Proof.Machine.execTrimUpdate region short step s
  | .heartbeatCheck cmd ctl sec => Sys2Proof.Machine.execHeartbeatCheck cmd ctl sec s
  | .firstHeartbeatTimeout comp => Sys2Proof.Machine.execFirstHeartbeatTimeout comp s
  | .lampWatchdog => Sys2Proof.Machine.execLampWatchdog s
  | .hangEscalation => Sys2Proof.Machine.execHangEscalation s
  | .dumpSummaryWrite => Sys2Proof.Machine.execDumpSummaryWrite s
  | .coldStart f => Sys2Proof.Machine.execColdStart f s
  | .warmStart bootsel f => Sys2Proof.Machine.execWarmStart bootsel f s
  | .add c o u => Sys2Proof.Machine.execAdd c o u s
  | .sub c o u => Sys2Proof.Machine.execSub c o u s
  | .and c o u => Sys2Proof.Machine.execAnd c o u s
  | .or c o u => Sys2Proof.Machine.execOr c o u s
  | .xor c o u => Sys2Proof.Machine.execXor c o u s
  | .sll c o u => Sys2Proof.Machine.execSll c o u s
  | .srl c o u => Sys2Proof.Machine.execSrl c o u s
  | .sra c o u => Sys2Proof.Machine.execSra c o u s
  | .slt c o u => Sys2Proof.Machine.execSlt c o u s
  | .sltu c o u => Sys2Proof.Machine.execSltu c o u s
  | .mul c o u => Sys2Proof.Machine.execMul c o u s
  | .mulh c o u => Sys2Proof.Machine.execMulh c o u s
  | .mulhu c o u => Sys2Proof.Machine.execMulhu c o u s
  | .div c o u => Sys2Proof.Machine.execDiv c o u s
  | .divu c o u => Sys2Proof.Machine.execDivu c o u s
  | .rem c o u => Sys2Proof.Machine.execRem c o u s
  | .remu c o u => Sys2Proof.Machine.execRemu c o u s
  | .min c o u => Sys2Proof.Machine.execMin c o u s
  | .max c o u => Sys2Proof.Machine.execMax c o u s
  | .addi c o u => Sys2Proof.Machine.execAddi c o u s
  | .andi c o u => Sys2Proof.Machine.execAndi c o u s
  | .ori c o u => Sys2Proof.Machine.execOri c o u s
  | .xori c o u => Sys2Proof.Machine.execXori c o u s
  | .slli c o u => Sys2Proof.Machine.execSlli c o u s
  | .srli c o u => Sys2Proof.Machine.execSrli c o u s
  | .srai c o u => Sys2Proof.Machine.execSrai c o u s
  | .lui c o u => Sys2Proof.Machine.execLui c o u s
  | .beq c o u => Sys2Proof.Machine.execBeq c o u s
  | .bne c o u => Sys2Proof.Machine.execBne c o u s
  | .blt c o u => Sys2Proof.Machine.execBlt c o u s
  | .bge c o u => Sys2Proof.Machine.execBge c o u s
  | .bltu c o u => Sys2Proof.Machine.execBltu c o u s
  | .bgeu c o u => Sys2Proof.Machine.execBgeu c o u s
  | .jal c o u => Sys2Proof.Machine.execJal c o u s
  | .jalr c o u => Sys2Proof.Machine.execJalr c o u s
  | .bpany c o u => Sys2Proof.Machine.execBpany c o u s
  | .bpnone c o u => Sys2Proof.Machine.execBpnone c o u s
  | .csrr c o u => Sys2Proof.Machine.execCsrr c o u s
  | .csrw c o u => Sys2Proof.Machine.execCsrw c o u s
  | .csrs c o u => Sys2Proof.Machine.execCsrs c o u s
  | .csrc c o u => Sys2Proof.Machine.execCsrc c o u s
  | .scall c u => Sys2Proof.Machine.execScall c u s
  | .sret c u => Sys2Proof.Machine.execSret c u s
  | .sexit c b u => Sys2Proof.Machine.execSexit c b u s
  | .iend c b u => Sys2Proof.Machine.execIend c b u s
  | .brk c u => Sys2Proof.Machine.execBrk c u s
  | .ifence c u => Sys2Proof.Machine.execIfence c u s
  | .mmuinv c b all u => Sys2Proof.Machine.execMmuinv c b all u s
  | .nop c u => Sys2Proof.Machine.execNop c u s
  | .illegalOpcode c w u => Sys2Proof.Machine.execIllegalOpcode c w u s
  | .vadd c o u => Sys2Proof.Machine.execVadd c o u s
  | .vsub c o u => Sys2Proof.Machine.execVsub c o u s
  | .vmul c o u => Sys2Proof.Machine.execVmul c o u s
  | .vfma c o u => Sys2Proof.Machine.execVfma c o u s
  | .vfnma c o u => Sys2Proof.Machine.execVfnma c o u s
  | .vmin c o u => Sys2Proof.Machine.execVmin c o u s
  | .vmax c o u => Sys2Proof.Machine.execVmax c o u s
  | .vand c o u => Sys2Proof.Machine.execVand c o u s
  | .vor c o u => Sys2Proof.Machine.execVor c o u s
  | .vxor c o u => Sys2Proof.Machine.execVxor c o u s
  | .vsll c o u => Sys2Proof.Machine.execVsll c o u s
  | .vsrl c o u => Sys2Proof.Machine.execVsrl c o u s
  | .vsra c o u => Sys2Proof.Machine.execVsra c o u s
  | .vcmp c o u => Sys2Proof.Machine.execVcmp c o u s
  | .vsel c o u => Sys2Proof.Machine.execVsel c o u s
  | .vcvt c o u => Sys2Proof.Machine.execVcvt c o u s
  | .vperm c o u => Sys2Proof.Machine.execVperm c o u s
  | .vreduce c o u => Sys2Proof.Machine.execVreduce c o u s
  | .vrcp c o u => Sys2Proof.Machine.execVrcp c o u s
  | .vrsqrt c o u => Sys2Proof.Machine.execVrsqrt c o u s
  | .vexp2 c o u => Sys2Proof.Machine.execVexp2 c o u s
  | .vlog2 c o u => Sys2Proof.Machine.execVlog2 c o u s
  | .vext c o u => Sys2Proof.Machine.execVext c o u s
  | .vins c o u => Sys2Proof.Machine.execVins c o u s
  | .vtob c o u => Sys2Proof.Machine.execVtob c o u s
  | .vbadd c o u => Sys2Proof.Machine.execVbadd c o u s
  | .xtalV c o u => Sys2Proof.Machine.execXtalV c o u s
  | .vtopk c o u => Sys2Proof.Machine.execVtopk c o u s
  | .viota c o u => Sys2Proof.Machine.execViota c o u s
  | .tmma c o u => Sys2Proof.Machine.execTmma c o u s
  | .twin c o u => Sys2Proof.Machine.execTwin c o u s
  | .tzero c t u => Sys2Proof.Machine.execTzero c t u s
  | .xtalT c o u => Sys2Proof.Machine.execXtalT c o u s
  | .tmovv c o u => Sys2Proof.Machine.execTmovv c o u s
  | .vmovt c o u => Sys2Proof.Machine.execVmovt c o u s
  | .ld c o u => Sys2Proof.Machine.execLd c o u s
  | .ldu c o u => Sys2Proof.Machine.execLdu c o u s
  | .st c o u => Sys2Proof.Machine.execSt c o u s
  | .amoadd c o u => Sys2Proof.Machine.execAmoadd c o u s
  | .amoswap c o u => Sys2Proof.Machine.execAmoswap c o u s
  | .amocas c o u => Sys2Proof.Machine.execAmocas c o u s
  | .amomin c o u => Sys2Proof.Machine.execAmomin c o u s
  | .amomax c o u => Sys2Proof.Machine.execAmomax c o u s
  | .amoand c o u => Sys2Proof.Machine.execAmoand c o u s
  | .amoor c o u => Sys2Proof.Machine.execAmoor c o u s
  | .vld c o u => Sys2Proof.Machine.execVld c o u s
  | .vst c o u => Sys2Proof.Machine.execVst c o u s
  | .vldw c o u => Sys2Proof.Machine.execVldw c o u s
  | .vgather c o u => Sys2Proof.Machine.execVgather c o u s
  | .vscatter c o u => Sys2Proof.Machine.execVscatter c o u s
  | .vldx c o u => Sys2Proof.Machine.execVldx c o u s
  | .vstx c o u => Sys2Proof.Machine.execVstx c o u s
  | .vgatherp c o u => Sys2Proof.Machine.execVgatherp c o u s
  | .mcopy c o u => Sys2Proof.Machine.execMcopy c o u s
  | .waitsig c o u => Sys2Proof.Machine.execWaitsig c o u s
  | .fence c o u => Sys2Proof.Machine.execFence c o u s
  | .vgatherpComplete c id bad => Sys2Proof.Machine.execVgatherpComplete c id bad s
  | .mcopyComplete c id bad => Sys2Proof.Machine.execMcopyComplete c id bad s
  | .asyncFault c => Sys2Proof.Machine.execAsyncFault c s
  | .preemptRequest c => Sys2Proof.Machine.execPreemptRequest c s
  | .cancelRequest c => Sys2Proof.Machine.execCancelRequest c s
  | .forcedStop c => Sys2Proof.Machine.execForcedStop c s
  | .waitsigTimeout c => Sys2Proof.Machine.execWaitsigTimeout c s
  | .cellWatchdogMiss c => Sys2Proof.Machine.execCellWatchdogMiss c s
  | .sramLineRefetch block line ok => Sys2Proof.Machine.execSramLineRefetch block line ok s
  | .blockFence block cause => Sys2Proof.Machine.execBlockFence block cause s
  | .stackLost stack => Sys2Proof.Machine.execStackLost stack s
  | .patrolScrub pa found => Sys2Proof.Machine.execPatrolScrub pa found s
  | .granuleZeroed g => Sys2Proof.Machine.execGranuleZeroed g s
  | .tierPromotion region bad => Sys2Proof.Machine.execTierPromotion region bad s
  | .edgeReplay edge sameFlit => Sys2Proof.Machine.execEdgeReplay edge sameFlit s
  | .edgeRetrainComplete edge ok => Sys2Proof.Machine.execEdgeRetrainComplete edge ok s
  | .hostMemRead addr len tee e => Sys2Proof.Machine.execHostMemRead addr len tee e s
  | .hostMemWrite addr data tee => Sys2Proof.Machine.execHostMemWrite addr data tee s
  | .biSnoopTimeout line part ctx => Sys2Proof.Machine.execBiSnoopTimeout line part ctx s
  | .cxlCacheTimeout part ctx => Sys2Proof.Machine.execCxlCacheTimeout part ctx s
  | .slotPost slot => Sys2Proof.Machine.execSlotPost slot s
  | .slotWithdraw slot => Sys2Proof.Machine.execSlotWithdraw slot s
  | .slotWrite off data => Sys2Proof.Machine.execSlotWrite off data s
  | .slotTake slot => Sys2Proof.Machine.execSlotTake slot s
  | .mbxCtlWrite v => Sys2Proof.Machine.execMbxCtlWrite v s
  | .cmplBaseWrite v => Sys2Proof.Machine.execCmplBaseWrite v s
  | .hdmCommit w base size => Sys2Proof.Machine.execHdmCommit w base size s
  | .registerWrite r v => Sys2Proof.Machine.execRegisterWrite r v s
  | .hello slot => Sys2Proof.Machine.execHello slot s
  | .getInfo slot => Sys2Proof.Machine.execGetInfo slot s
  | .configWriteShadow slot => Sys2Proof.Machine.execConfigWriteShadow slot s
  | .configSwap slot => Sys2Proof.Machine.execConfigSwap slot s
  | .configRead slot => Sys2Proof.Machine.execConfigRead slot s
  | .partCreate slot => Sys2Proof.Machine.execPartCreate slot s
  | .partDestroy slot => Sys2Proof.Machine.execPartDestroy slot s
  | .ctxOpen slot list => Sys2Proof.Machine.execCtxOpen slot list s
  | .ctxGrant slot list => Sys2Proof.Machine.execCtxGrant slot list s
  | .ctxShare slot list => Sys2Proof.Machine.execCtxShare slot list s
  | .ctxClose slot => Sys2Proof.Machine.execCtxClose slot s
  | .submit slot => Sys2Proof.Machine.execSubmit slot s
  | .suspend slot => Sys2Proof.Machine.execSuspend slot s
  | .resume slot => Sys2Proof.Machine.execResume slot s
  | .cancel slot => Sys2Proof.Machine.execCancel slot s
  | .query slot => Sys2Proof.Machine.execQuery slot s
  | .copy slot => Sys2Proof.Machine.execCopy slot s
  | .fill slot => Sys2Proof.Machine.execFill slot s
  | .scrub slot => Sys2Proof.Machine.execScrub slot s
  | .moverTransferComplete slot bad => Sys2Proof.Machine.execMoverTransferComplete slot bad s
  | .suspendPoint slot => Sys2Proof.Machine.execSuspendPoint slot s
  | .commCreate slot => Sys2Proof.Machine.execCommCreate slot s
  | .commDestroy slot => Sys2Proof.Machine.execCommDestroy slot s
  | .collBatch slot => Sys2Proof.Machine.execCollBatch slot s
  | .beaconAssign slot => Sys2Proof.Machine.execBeaconAssign slot s
  | .powerCap slot => Sys2Proof.Machine.execPowerCap slot s
  | .powerFixedEnter slot => Sys2Proof.Machine.execPowerFixedEnter slot s
  | .powerFixedLeave slot => Sys2Proof.Machine.execPowerFixedLeave slot s
  | .energyReadTotals slot => Sys2Proof.Machine.execEnergyReadTotals slot s
  | .energyReadTelemetry slot => Sys2Proof.Machine.execEnergyReadTelemetry slot s
  | .energyReadStatus slot => Sys2Proof.Machine.execEnergyReadStatus slot s
  | .cntConfigConfigure slot => Sys2Proof.Machine.execCntConfigConfigure slot s
  | .cntConfigRead slot => Sys2Proof.Machine.execCntConfigRead slot s
  | .cntConfigClear slot => Sys2Proof.Machine.execCntConfigClear slot s
  | .sampleConfig slot => Sys2Proof.Machine.execSampleConfig slot s
  | .sampleTaken c x => Sys2Proof.Machine.execSampleTaken c x s
  | .sampleSpill c => Sys2Proof.Machine.execSampleSpill c s
  | .fwStage slot data => Sys2Proof.Machine.execFwStage slot data s
  | .fwActivate slot => Sys2Proof.Machine.execFwActivate slot s
  | .fwCommit slot => Sys2Proof.Machine.execFwCommit slot s
  | .fwStatus slot => Sys2Proof.Machine.execFwStatus slot s
  | .stagingTimeout => Sys2Proof.Machine.execStagingTimeout s
  | .activationComplete pauseUs => Sys2Proof.Machine.execActivationComplete pauseUs s
  | .activationTimeout => Sys2Proof.Machine.execActivationTimeout s
  | .logReadEvents slot => Sys2Proof.Machine.execLogReadEvents slot s
  | .logReadRecord slot => Sys2Proof.Machine.execLogReadRecord slot s
  | .dumpRead slot => Sys2Proof.Machine.execDumpRead slot s
  | .residencySelect part => Sys2Proof.Machine.execResidencySelect part s
  | .quantumExpiry part => Sys2Proof.Machine.execQuantumExpiry part s
  | .residencyDrainTimeout part => Sys2Proof.Machine.execResidencyDrainTimeout part s
  | .itemAdmit part => Sys2Proof.Machine.execItemAdmit part s
  | .itemEnding c => Sys2Proof.Machine.execItemEnding c s
  | .submitAging slot => Sys2Proof.Machine.execSubmitAging slot s
  | .suspendDrainTimeout slot => Sys2Proof.Machine.execSuspendDrainTimeout slot s
  | .batchSuspendTimeout slot => Sys2Proof.Machine.execBatchSuspendTimeout slot s
  | .portDetect pid => Sys2Proof.Machine.execPortDetect pid s
  | .portTrainingDone pid laneOk reversed inverted => Sys2Proof.Machine.execPortTrainingDone pid laneOk reversed inverted s
  | .epIdFlit pid ep => Sys2Proof.Machine.execEpIdFlit pid ep s
  | .epIdResend pid => Sys2Proof.Machine.execEpIdResend pid s
  | .keyAgreement pid e => Sys2Proof.Machine.execKeyAgreement pid e s
  | .flitReceive pid f => Sys2Proof.Machine.execFlitReceive pid f s
  | .replayRequest pid ack => Sys2Proof.Machine.execReplayRequest pid ack s
  | .portRetrain pid => Sys2Proof.Machine.execPortRetrain pid s
  | .portRetrainDone pid e => Sys2Proof.Machine.execPortRetrainDone pid e s
  | .portDownExpiry pid => Sys2Proof.Machine.execPortDownExpiry pid s
  | .portCtlWrite pid v => Sys2Proof.Machine.execPortCtlWrite pid v s
  | .fabEpWrite v => Sys2Proof.Machine.execFabEpWrite v s
  | .rekey pid e => Sys2Proof.Machine.execRekey pid e s
  | .rekeyOverrun pid => Sys2Proof.Machine.execRekeyOverrun pid s
  | .packetRoute iod origin p => Sys2Proof.Machine.execPacketRoute iod origin p s
  | .routeWaitExpiry k => Sys2Proof.Machine.execRouteWaitExpiry k s
  | .packetIngress pid p => Sys2Proof.Machine.execPacketIngress pid p s
  | .timeFlit pid x => Sys2Proof.Machine.execTimeFlit pid x s
  | .collOpStart h f => Sys2Proof.Machine.execCollOpStart h f s
  | .panSlotGrant pan f => Sys2Proof.Machine.execPanSlotGrant pan f s
  | .panWaitExpiry h f => Sys2Proof.Machine.execPanWaitExpiry h f s
  | .chdr p f => Sys2Proof.Machine.execChdr p f s
  | .cdata p f => Sys2Proof.Machine.execCdata p f s
  | .credit p f => Sys2Proof.Machine.execCredit p f s
  | .claim p f => Sys2Proof.Machine.execClaim p f s
  | .go p f => Sys2Proof.Machine.execGo p f s
  | .fallbkUp p f => Sys2Proof.Machine.execFallbkUp p f s
  | .fallbkDn p f => Sys2Proof.Machine.execFallbkDn p f s
  | .counts p f => Sys2Proof.Machine.execCounts p f s
  | .barUp p => Sys2Proof.Machine.execBarUp p s
  | .barDn p => Sys2Proof.Machine.execBarDn p s
  | .collTimeout h => Sys2Proof.Machine.execCollTimeout h s
  | .beaconTrigger chan bseq => Sys2Proof.Machine.execBeaconTrigger chan bseq s
  | .beaconUp p => Sys2Proof.Machine.execBeaconUp p s
  | .beaconDn p => Sys2Proof.Machine.execBeaconDn p s
  | .beaconTimeout chan => Sys2Proof.Machine.execBeaconTimeout chan s
  | .coolantReport m o => Sys2Proof.Machine.execCoolantReport m o s
  | .coolantReportStale => Sys2Proof.Machine.execCoolantReportStale s
  | .coolantHoldExpiry => Sys2Proof.Machine.execCoolantHoldExpiry s
  | .rackCeiling w => Sys2Proof.Machine.execRackCeiling w s
  | .serviceClear => Sys2Proof.Machine.execServiceClear s
  | .fabRead iod off count => Sys2Proof.Machine.execFabRead iod off count s
  | .fabWrite iod off vals => Sys2Proof.Machine.execFabWrite iod off vals s
  | .trayFwCommit comp => Sys2Proof.Machine.execTrayFwCommit comp s
  | .telemRead frame => Sys2Proof.Machine.execTelemRead frame s
  | .iodReset iod => Sys2Proof.Machine.execIodReset iod s
  | .getState => Sys2Proof.Machine.execGetState s
  | .setdasa addr => Sys2Proof.Machine.execSetdasa addr s
  | .setaasa => Sys2Proof.Machine.execSetaasa s
  | .entdaa addr => Sys2Proof.Machine.execEntdaa addr s
  | .rstdaa => Sys2Proof.Machine.execRstdaa s
  | .getmrl => Sys2Proof.Machine.execGetmrl s
  | .getmwl => Sys2Proof.Machine.execGetmwl s
  | .getstatus => Sys2Proof.Machine.execGetstatus s
  | .getbcr => Sys2Proof.Machine.execGetbcr s
  | .getdcr => Sys2Proof.Machine.execGetdcr s
  | .getpid => Sys2Proof.Machine.execGetpid s
  | .setEndpointId eid => Sys2Proof.Machine.execSetEndpointId eid s
  | .getEndpointId => Sys2Proof.Machine.execGetEndpointId s
  | .getMctpVersionSupport => Sys2Proof.Machine.execGetMctpVersionSupport s
  | .getMessageTypeSupport => Sys2Proof.Machine.execGetMessageTypeSupport s
  | .getVendorDefinedMessageSupport => Sys2Proof.Machine.execGetVendorDefinedMessageSupport s
  | .getTid => Sys2Proof.Machine.execGetTid s
  | .setTid tid => Sys2Proof.Machine.execSetTid tid s
  | .getPldmVersion type => Sys2Proof.Machine.execGetPldmVersion type s
  | .getPldmTypes => Sys2Proof.Machine.execGetPldmTypes s
  | .getPldmCommands type => Sys2Proof.Machine.execGetPldmCommands type s
  | .getPdrRepositoryInfo => Sys2Proof.Machine.execGetPdrRepositoryInfo s
  | .getPdr handle => Sys2Proof.Machine.execGetPdr handle s
  | .getSensorReading id => Sys2Proof.Machine.execGetSensorReading id s
  | .getStateSensorReadings id => Sys2Proof.Machine.execGetStateSensorReadings id s
  | .pollForPlatformEventMessage ack => Sys2Proof.Machine.execPollForPlatformEventMessage ack s
  | .eventMessageSupported => Sys2Proof.Machine.execEventMessageSupported s
  | .requestUpdate => Sys2Proof.Machine.execRequestUpdate s
  | .passComponentTable comps => Sys2Proof.Machine.execPassComponentTable comps s
  | .updateComponent comp => Sys2Proof.Machine.execUpdateComponent comp s
  | .requestFirmwareData data => Sys2Proof.Machine.execRequestFirmwareData data s
  | .activateFirmware => Sys2Proof.Machine.execActivateFirmware s
  | .cancelUpdateComponent => Sys2Proof.Machine.execCancelUpdateComponent s
  | .cancelUpdate => Sys2Proof.Machine.execCancelUpdate s
  | .getMeasurements cn block signed => Sys2Proof.Machine.execGetMeasurements cn block signed s
  | .getCertificate cn slot off len => Sys2Proof.Machine.execGetCertificate cn slot off len s
  | .challenge cn slot => Sys2Proof.Machine.execChallenge cn slot s
  | .keyExchange cn => Sys2Proof.Machine.execKeyExchange cn s
  | .respondIfReady cn => Sys2Proof.Machine.execRespondIfReady cn s
  | .cosigFetch cn id off len => Sys2Proof.Machine.execCosigFetch cn id off len s
  | .cosigExpiry id => Sys2Proof.Machine.execCosigExpiry id s
  | .pqChainGet cn id off len => Sys2Proof.Machine.execPqChainGet cn id off len s
  | .debugNonce cn => Sys2Proof.Machine.execDebugNonce cn s
  | .debugToken cn id off data => Sys2Proof.Machine.execDebugToken cn id off data s
  | .ideKmQuery cn st => Sys2Proof.Machine.execIdeKmQuery cn st s
  | .keyProg cn st set sub => Sys2Proof.Machine.execKeyProg cn st set sub s
  | .kSetGo cn st set sub => Sys2Proof.Machine.execKSetGo cn st set sub s
  | .kSetStop cn st set sub => Sys2Proof.Machine.execKSetStop cn st set sub s
  | .tdispRequest cn m => Sys2Proof.Machine.execTdispRequest cn m s
  | .coolantStopDeassert o => Sys2Proof.Machine.execCoolantStopDeassert o s
  | .lamplighterReady o => Sys2Proof.Machine.execLamplighterReady o s
  | .restartHoldoffExpiry o => Sys2Proof.Machine.execRestartHoldoffExpiry o s
  | .tripHoldoffExpiry o => Sys2Proof.Machine.execTripHoldoffExpiry o s
  | .vddSbLoss => Sys2Proof.Machine.execVddSbLoss s
  | .regionControllerFault region => Sys2Proof.Machine.execRegionControllerFault region s
  | .iodFabricError iod => Sys2Proof.Machine.execIodFabricError iod s
  | .flashWriteComplete o => Sys2Proof.Machine.execFlashWriteComplete o s
  | .teardownDrainComplete part ctx => Sys2Proof.Machine.execTeardownDrainComplete part ctx s
  | .getVersion cn => Sys2Proof.Machine.execGetVersion cn s
  | .getCapabilities cn => Sys2Proof.Machine.execGetCapabilities cn s
  | .negotiateAlgorithms cn a => Sys2Proof.Machine.execNegotiateAlgorithms cn a s
  | .getDigests cn => Sys2Proof.Machine.execGetDigests cn s
  | .finish cn => Sys2Proof.Machine.execFinish cn s
  | .endSession cn => Sys2Proof.Machine.execEndSession cn s
  | .keyUpdate cn => Sys2Proof.Machine.execKeyUpdate cn s
  | .spdmHeartbeat cn => Sys2Proof.Machine.execSpdmHeartbeat cn s
  | .chunkSend cn handle seq last data => Sys2Proof.Machine.execChunkSend cn handle seq last data s
  | .chunkGet cn handle seq => Sys2Proof.Machine.execChunkGet cn handle seq s
  | .cdatTableAccess entry => Sys2Proof.Machine.execCdatTableAccess entry s
  | .unsupportedPldmCommand type cmd => Sys2Proof.Machine.execUnsupportedPldmCommand type cmd s

end Sys2Proof.Machine
end

