-- ==== Sys2Proof/Machine/Step.lean ====
section
/-! DEFINITION. One step takes the command at the front of the queue and runs it. -/

namespace Sys2Proof.Machine

/-- Take the command at the front of the queue and run it with the queue's rest. On an
empty queue the block idles. -/
def step (s : State) : Host.Outcome State Fault Refusal :=
  match s.pending with
  | [] => .next s
  | c :: rest => Sys2Proof.Machine.exec c { s with pending := rest }

/-- Put the command that a table word spells at the front of the queue; a word that spells
none leaves the state unchanged. -/
def State.withFetchWord (s : State) (nbits w : Nat) : State :=
  match Sys2Proof.decodeTableWord nbits w with
  | some c => { s with pending := c :: s.pending }
  | none => s

end Sys2Proof.Machine
end

