-- ==== Sys2Proof/Safety.lean ====
section
/-! DEFINITION. The terms in which statements speak of the machine: what a command answers, what
an instruction of a cell changes, and what every reachable state keeps. -/

namespace Sys2Proof.Machine

/-! ## What every reachable state keeps -/

/-- Addresses rise strictly: the form of a memory whose unlisted bytes have no fixed value. -/
def Memory.rising (l : List Host.Cell) : Bool := SMap.sorted l

/-- The memories are in canonical form: device memory and the mailbox slots, whose unlisted bytes
read as zero, list no zero byte; and no granule is listed twice. -/
abbrev State.memoryWf (s : State) : Prop :=
  Memory.wf s.mem.cells = true ∧ Memory.rising s.mem.host = true ∧ Memory.wf s.mail.bar2 = true ∧
    SMap.sorted s.mem.granules = true

/-- Partitions, contexts, ports and fabric blocks as many as the module has (R16, R229, R235, R260,
R284). -/
abbrev State.sized (s : State) : Prop :=
  s.parts.length = 8 ∧ (∀ k ∈ s.parts, k.ctxs.length = 16) ∧ s.fabric.ports.length = 72 ∧ s.fabric.blocks.length = 4

/-! ## Answers -/

/-- A command answers a next state with a property. -/
def Answers (i : Instr) (s : State) (p : State → Prop) : Prop := ∃ t, exec i s = .next t ∧ p t

/-! ## Instructions of a cell -/

/-- A cell that can run an instruction: it is present, its clocks run, it issues for an item, and
the fetch at its PC is allowed (R84, R133). -/
abbrev State.Ready (s : State) (c : Nat) : Prop := s.canIssue c = true ∧ s.fetch c = none

/-- An instruction meets no error that stops it: at most 3 parity errors in a row, after which it has been
replayed (R67), and no error in what it reads (R182, R183). -/
abbrev Unhurt (u : Upset) : Prop := u.parity < 4 ∧ u.bad = none ∧ u.corrected = none

/-- A cell without what an instruction's retirement changes besides its own effect: the wait in
progress, the counters, the samples being taken, and the translations held. -/
def Cell.arch (k : Cell) : Cell :=
  { k with
    wait := none, pmc := Vector.replicate 8 0, pmovf := 0, cycle := 0, slotUsed := 0, countdown := [], latches := []
    tlb := [] }

/-- A back-invalidate snoop to the host (R193). -/
def OutMsg.isSnoop : OutMsg → Bool
  | .snoop _ => true
  | _ => false

/-- The module without its cells, its counter banks, the index of the next free value, and the
coherence with the host: the snoop filters and the snoops sent (R193). -/
def State.rest (s : State) : State :=
  { s with cells := [], banks := [], freeCtr := 0, mem := { s.mem with snoop := [] }
           out := s.out.filter fun m => !m.isSnoop }

/-- Two states hold the same: the same registers of every cell and the same outside the cells. -/
abbrev State.Alike (t u : State) : Prop := (∀ d, (t.cell d).arch = (u.cell d).arch) ∧ t.rest = u.rest

/-- From `s` to `t`, cell `c` becomes `k` and nothing else changes: no other cell, no memory, no
other unit. -/
def CellOnly (s t : State) (c : Nat) (k : Cell) : Prop :=
  (t.cell c).arch = k.arch ∧ (∀ d, d ≠ c → (t.cell d).arch = (s.cell d).arch) ∧ t.rest = s.rest

/-- An instruction completes with its cell as `k` and changes nothing else. -/
def Runs (i : Instr) (s : State) (c : Nat) (k : Cell) : Prop := Answers i s fun t => CellOnly s t c k

/-- An instruction takes an exception on its cell (R138). -/
def Raises (i : Instr) (s : State) (c : Nat) (cause : BitVec 8) (addr : Word) : Prop :=
  Answers i s fun t => t.Alike (s.raise c cause addr)

/-- An instruction completes with its cell as `k` and everything outside the cells as in `u`. -/
def Stores (i : Instr) (s u : State) (c : Nat) (k : Cell) : Prop :=
  Answers i s fun t => (t.cell c).arch = k.arch ∧ (∀ d, d ≠ c → (t.cell d).arch = (s.cell d).arch) ∧ t.rest = u.rest

/-- A vector instruction that writes elements `lo` to `lo + n − 1` of `VD` under its guard and sets the
flags of the guarded ones (R95, R96, R102). -/
def VectorRuns (i : Instr) (s : State) (c : Nat) (o : VOp) (b lo n : Nat) (res : Nat → Nat × BitVec 7) : Prop :=
  let k := s.cell c
  let g := k.guard o.pg o.pn
  Runs i s c ((k.wv o.vd (vecWrite b lo n g o.mz (k.rv o.vd) fun i => (res i).1)).flag
    (vecFlags b lo n g fun i => (res i).2)).adv

/-- The fields that R99 and R115 to R118 require of a scalar, whole-register or atomic access: `AM` 0b00 or
0b01, and zero wherever a field is unused. -/
abbrev PlainForm (o : MOp) (guarded atomic cas : Prop) : Prop :=
  (o.am = 0 ∨ o.am = 1) ∧ o.sc = 0 ∧ (guarded ∨ (o.pg = 0 ∧ o.pn = false)) ∧ (o.am = 1 ∨ cas ∨ o.xi = 0) ∧
    (atomic ∨ (o.rel = false ∧ o.acq = false))

end Sys2Proof.Machine
end

