-- ==== Sys2Proof/WellFormed.lean ====
section
/-! DEFINITION. Well-formed commands: every number names something that the spec lays out, every
field fits its width (R8, R16, R56, R208, R260, R272, R362, R386, R393, R484, R491). -/

namespace Sys2Proof

def below (n x : Nat) : Bool := decide (x < n)

/-- A cell: 16 × block + cell (R56). -/
def cellNo (c : Nat) : Bool := below 2048 c

/-- A port identifier: the port, plus 64 for half 1 (R260). -/
def portId (pid : Nat) : Bool := below 128 pid && below 36 (pid % 64)

/-- Parity errors in a row: the fourth fences the cell (R67). -/
def Upset.wf (u : Upset) : Bool := below 5 u.parity

/-- As many values as there are rails, counters, dies and sensors. -/
def Snapshot.wf (m : Snapshot) : Bool :=
  m.rails.length == 36 && m.regionAct.length == 8 && m.regionAct.all (fun l => l.length == 13)
    && m.iodAct.length == 4 && m.iodAct.all (fun l => l.length == 8) && m.temps.length == 192
    && m.transitIod.length == 4

/-- A finding for each DIMM slot; sensors that exist. -/
def StartFindings.wf (f : StartFindings) : Bool := f.dimms.length == 12 && f.sensorsFailed.all (below 192)

/-- Signed and unsigned fields of 16 bits. -/
def CoolantMsg.wf (m : CoolantMsg) : Bool :=
  decide (-32768 ≤ m.inlet ∧ m.inlet < 32768 ∧ -32768 ≤ m.outlet ∧ m.outlet < 32768) && below 65536 m.flow

/-- A payload of at most 4,096 bytes. -/
def Packet.wf (p : Packet) : Bool := below 4097 p.payload.length

/-- An offset within its aperture; a base address register of R197. -/
def HostReg.wf : HostReg → Bool
  | .bar0 off => below 65536 off
  | .bar4 off => below 65536 off
  | .bar n => below 6 n
  | .msixControl => true

/-- The operands of a command are in range. -/
def Instr.wf : Instr → Bool
  | .inputApplied => true
  | .inputLoss _ => true
  | .undervolt _ => true
  | .overvolt _ => true
  | .overcurrent _ => true
  | .railFault _ => true
  | .pwrEnAssert _ => true
  | .pwrEnDeassert => true
  | .coldResetAssert => true
  | .coldResetDeassert _ _ _ => true
  | .warmReset => true
  | .snuffer => true
  | .snufferPowerOff _ => true
  | .coolantStopRelease => true
  | .hostPerstAssert => true
  | .hostPerstDeassert _ => true
  | .srefclkPresent => true
  | .frameSyncPresent => true
  | .frameSyncAbsent => true
  | .thermalTrip sensor _ _ => below 192 sensor
  | .droop region _ => below 8 region
  | .droopRecovery region => below 8 region
  | .dimmLost d _ => below 12 d
  | .frameTick m => m.wf
  | .decideStep => true
  | .actStep _ => true
  | .stateCopy _ => true
  | .frameOverrun => true
  | .ctlTakeover _ => true
  | .safeState => true
  | .calibrationUpdate => true
  | .trimUpdate region _ step => below 8 region && below 256 step
  | .heartbeatCheck _ _ _ => true
  | .firstHeartbeatTimeout comp => below 256 comp
  | .lampWatchdog => true
  | .hangEscalation => true
  | .dumpSummaryWrite => true
  | .coldStart f => f.wf
  | .warmStart _ f => f.wf
  | .add c _ u => cellNo c && u.wf
  | .sub c _ u => cellNo c && u.wf
  | .and c _ u => cellNo c && u.wf
  | .or c _ u => cellNo c && u.wf
  | .xor c _ u => cellNo c && u.wf
  | .sll c _ u => cellNo c && u.wf
  | .srl c _ u => cellNo c && u.wf
  | .sra c _ u => cellNo c && u.wf
  | .slt c _ u => cellNo c && u.wf
  | .sltu c _ u => cellNo c && u.wf
  | .mul c _ u => cellNo c && u.wf
  | .mulh c _ u => cellNo c && u.wf
  | .mulhu c _ u => cellNo c && u.wf
  | .div c _ u => cellNo c && u.wf
  | .divu c _ u => cellNo c && u.wf
  | .rem c _ u => cellNo c && u.wf
  | .remu c _ u => cellNo c && u.wf
  | .min c _ u => cellNo c && u.wf
  | .max c _ u => cellNo c && u.wf
  | .addi c _ u => cellNo c && u.wf
  | .andi c _ u => cellNo c && u.wf
  | .ori c _ u => cellNo c && u.wf
  | .xori c _ u => cellNo c && u.wf
  | .slli c _ u => cellNo c && u.wf
  | .srli c _ u => cellNo c && u.wf
  | .srai c _ u => cellNo c && u.wf
  | .lui c _ u => cellNo c && u.wf
  | .beq c _ u => cellNo c && u.wf
  | .bne c _ u => cellNo c && u.wf
  | .blt c _ u => cellNo c && u.wf
  | .bge c _ u => cellNo c && u.wf
  | .bltu c _ u => cellNo c && u.wf
  | .bgeu c _ u => cellNo c && u.wf
  | .jal c _ u => cellNo c && u.wf
  | .jalr c _ u => cellNo c && u.wf
  | .bpany c _ u => cellNo c && u.wf
  | .bpnone c _ u => cellNo c && u.wf
  | .csrr c _ u => cellNo c && u.wf
  | .csrw c _ u => cellNo c && u.wf
  | .csrs c _ u => cellNo c && u.wf
  | .csrc c _ u => cellNo c && u.wf
  | .scall c u => cellNo c && u.wf
  | .sret c u => cellNo c && u.wf
  | .sexit c _ u => cellNo c && u.wf
  | .iend c _ u => cellNo c && u.wf
  | .brk c u => cellNo c && u.wf
  | .ifence c u => cellNo c && u.wf
  | .mmuinv c _ _ u => cellNo c && u.wf
  | .nop c u => cellNo c && u.wf
  | .illegalOpcode c _ u => cellNo c && u.wf
  | .vadd c _ u => cellNo c && u.wf
  | .vsub c _ u => cellNo c && u.wf
  | .vmul c _ u => cellNo c && u.wf
  | .vfma c _ u => cellNo c && u.wf
  | .vfnma c _ u => cellNo c && u.wf
  | .vmin c _ u => cellNo c && u.wf
  | .vmax c _ u => cellNo c && u.wf
  | .vand c _ u => cellNo c && u.wf
  | .vor c _ u => cellNo c && u.wf
  | .vxor c _ u => cellNo c && u.wf
  | .vsll c _ u => cellNo c && u.wf
  | .vsrl c _ u => cellNo c && u.wf
  | .vsra c _ u => cellNo c && u.wf
  | .vcmp c _ u => cellNo c && u.wf
  | .vsel c _ u => cellNo c && u.wf
  | .vcvt c _ u => cellNo c && u.wf
  | .vperm c _ u => cellNo c && u.wf
  | .vreduce c _ u => cellNo c && u.wf
  | .vrcp c _ u => cellNo c && u.wf
  | .vrsqrt c _ u => cellNo c && u.wf
  | .vexp2 c _ u => cellNo c && u.wf
  | .vlog2 c _ u => cellNo c && u.wf
  | .vext c _ u => cellNo c && u.wf
  | .vins c _ u => cellNo c && u.wf
  | .vtob c _ u => cellNo c && u.wf
  | .vbadd c _ u => cellNo c && u.wf
  | .xtalV c _ u => cellNo c && u.wf
  | .vtopk c _ u => cellNo c && u.wf
  | .viota c _ u => cellNo c && u.wf
  | .tmma c _ u => cellNo c && u.wf
  | .twin c _ u => cellNo c && u.wf
  | .tzero c _ u => cellNo c && u.wf
  | .xtalT c _ u => cellNo c && u.wf
  | .tmovv c _ u => cellNo c && u.wf
  | .vmovt c _ u => cellNo c && u.wf
  | .ld c _ u => cellNo c && u.wf
  | .ldu c _ u => cellNo c && u.wf
  | .st c _ u => cellNo c && u.wf
  | .amoadd c _ u => cellNo c && u.wf
  | .amoswap c _ u => cellNo c && u.wf
  | .amocas c _ u => cellNo c && u.wf
  | .amomin c _ u => cellNo c && u.wf
  | .amomax c _ u => cellNo c && u.wf
  | .amoand c _ u => cellNo c && u.wf
  | .amoor c _ u => cellNo c && u.wf
  | .vld c _ u => cellNo c && u.wf
  | .vst c _ u => cellNo c && u.wf
  | .vldw c _ u => cellNo c && u.wf
  | .vgather c _ u => cellNo c && u.wf
  | .vscatter c _ u => cellNo c && u.wf
  | .vldx c _ u => cellNo c && u.wf
  | .vstx c _ u => cellNo c && u.wf
  | .vgatherp c _ u => cellNo c && u.wf
  | .mcopy c _ u => cellNo c && u.wf
  | .waitsig c _ u => cellNo c && u.wf
  | .fence c _ u => cellNo c && u.wf
  | .vgatherpComplete c id _ => cellNo c && below 65536 id
  | .mcopyComplete c id _ => cellNo c && below 65536 id
  | .asyncFault c => cellNo c
  | .preemptRequest c => cellNo c
  | .cancelRequest c => cellNo c
  | .forcedStop c => cellNo c
  | .waitsigTimeout c => cellNo c
  | .cellWatchdogMiss c => cellNo c
  | .sramLineRefetch block line _ => below 128 block && below 65536 line
  | .blockFence block _ => below 128 block
  | .stackLost stack => below 32 stack
  | .patrolScrub pa _ => below (2 ^ 52) pa
  | .granuleZeroed g => below (2 ^ 31) g
  | .tierPromotion region _ => below 8 region
  | .edgeReplay edge _ => below 12 edge
  | .edgeRetrainComplete edge _ => below 12 edge
  | .hostMemRead addr len _ _ => below (2 ^ 64) addr && below (2 ^ 32) len
  | .hostMemWrite addr _ _ => below (2 ^ 64) addr
  | .biSnoopTimeout line part ctx => below (2 ^ 46) line && below 8 part && below 16 ctx
  | .cxlCacheTimeout part ctx => below 8 part && below 16 ctx
  | .slotPost slot => below 1024 slot
  | .slotWithdraw slot => below 1024 slot
  | .slotWrite off _ => below (2 ^ 18) off
  | .slotTake slot => below 1024 slot
  | .mbxCtlWrite _ => true
  | .cmplBaseWrite _ => true
  | .hdmCommit w base size => below 8 w && below (2 ^ 64) base && below (2 ^ 64) size
  | .registerWrite r _ => r.wf
  | .hello slot => below 1024 slot
  | .getInfo slot => below 1024 slot
  | .configWriteShadow slot => below 1024 slot
  | .configSwap slot => below 1024 slot
  | .configRead slot => below 1024 slot
  | .partCreate slot => below 1024 slot
  | .partDestroy slot => below 1024 slot
  | .ctxOpen slot _ => below 1024 slot
  | .ctxGrant slot _ => below 1024 slot
  | .ctxShare slot _ => below 1024 slot
  | .ctxClose slot => below 1024 slot
  | .submit slot => below 1024 slot
  | .suspend slot => below 1024 slot
  | .resume slot => below 1024 slot
  | .cancel slot => below 1024 slot
  | .query slot => below 1024 slot
  | .copy slot => below 1024 slot
  | .fill slot => below 1024 slot
  | .scrub slot => below 1024 slot
  | .moverTransferComplete slot _ => below 1024 slot
  | .suspendPoint slot => below 1024 slot
  | .commCreate slot => below 1024 slot
  | .commDestroy slot => below 1024 slot
  | .collBatch slot => below 1024 slot
  | .beaconAssign slot => below 1024 slot
  | .powerCap slot => below 1024 slot
  | .powerFixedEnter slot => below 1024 slot
  | .powerFixedLeave slot => below 1024 slot
  | .energyReadTotals slot => below 1024 slot
  | .energyReadTelemetry slot => below 1024 slot
  | .energyReadStatus slot => below 1024 slot
  | .cntConfigConfigure slot => below 1024 slot
  | .cntConfigRead slot => below 1024 slot
  | .cntConfigClear slot => below 1024 slot
  | .sampleConfig slot => below 1024 slot
  | .sampleTaken c _ => cellNo c
  | .sampleSpill c => cellNo c
  | .fwStage slot _ => below 1024 slot
  | .fwActivate slot => below 1024 slot
  | .fwCommit slot => below 1024 slot
  | .fwStatus slot => below 1024 slot
  | .stagingTimeout => true
  | .activationComplete _ => true
  | .activationTimeout => true
  | .logReadEvents slot => below 1024 slot
  | .logReadRecord slot => below 1024 slot
  | .dumpRead slot => below 1024 slot
  | .residencySelect part => below 8 part
  | .quantumExpiry part => below 8 part
  | .residencyDrainTimeout part => below 8 part
  | .itemAdmit part => below 8 part
  | .itemEnding c => cellNo c
  | .submitAging slot => below 1024 slot
  | .suspendDrainTimeout slot => below 1024 slot
  | .batchSuspendTimeout slot => below 1024 slot
  | .portDetect pid => portId pid
  | .portTrainingDone pid _ _ _ => portId pid
  | .epIdFlit pid _ => portId pid
  | .epIdResend pid => portId pid
  | .keyAgreement pid _ => portId pid
  | .flitReceive pid f => portId pid && f.bytes.length == 256 && decide (f.fecUncorr.length ≤ 8)
  | .replayRequest pid _ => portId pid
  | .portRetrain pid => portId pid
  | .portRetrainDone pid _ => portId pid
  | .portDownExpiry pid => portId pid
  | .portCtlWrite pid _ => portId pid
  | .fabEpWrite _ => true
  | .rekey pid _ => portId pid
  | .rekeyOverrun pid => portId pid
  | .packetRoute iod _ p => below 4 iod && p.wf
  | .routeWaitExpiry _ => true
  | .packetIngress pid p => portId pid && p.wf
  | .timeFlit pid _ => portId pid
  | .collOpStart h _ => below 65536 h
  | .panSlotGrant pan _ => below 4 pan
  | .panWaitExpiry h _ => below 65536 h
  | .chdr p _ => p.wf
  | .cdata p _ => p.wf
  | .credit p _ => p.wf
  | .claim p _ => p.wf
  | .go p _ => p.wf
  | .fallbkUp p _ => p.wf
  | .fallbkDn p _ => p.wf
  | .counts p _ => p.wf
  | .barUp p => p.wf
  | .barDn p => p.wf
  | .collTimeout h => below 65536 h
  | .beaconTrigger chan _ => below 16 chan
  | .beaconUp p => p.wf
  | .beaconDn p => p.wf
  | .beaconTimeout chan => below 16 chan
  | .coolantReport m _ => m.wf
  | .coolantReportStale => true
  | .coolantHoldExpiry => true
  | .rackCeiling w => below 65536 w
  | .serviceClear => true
  | .fabRead iod off count => below 4 iod && below (2 ^ 24) off && below 256 count
  | .fabWrite iod off vals => below 4 iod && below (2 ^ 24) off && below 256 vals.length
  | .trayFwCommit comp => below 256 comp
  | .telemRead frame => below (2 ^ 64) frame
  | .iodReset iod => below 4 iod
  | .getState => true
  | .setdasa _ => true
  | .setaasa => true
  | .entdaa _ => true
  | .rstdaa => true
  | .getmrl => true
  | .getmwl => true
  | .getstatus => true
  | .getbcr => true
  | .getdcr => true
  | .getpid => true
  | .setEndpointId _ => true
  | .getEndpointId => true
  | .getMctpVersionSupport => true
  | .getMessageTypeSupport => true
  | .getVendorDefinedMessageSupport => true
  | .getTid => true
  | .setTid _ => true
  | .getPldmVersion type => below 64 type
  | .getPldmTypes => true
  | .getPldmCommands type => below 64 type
  | .getPdrRepositoryInfo => true
  | .getPdr handle => below (2 ^ 32) handle
  | .getSensorReading id => below 65536 id
  | .getStateSensorReadings id => below 65536 id
  | .pollForPlatformEventMessage _ => true
  | .eventMessageSupported => true
  | .requestUpdate => true
  | .passComponentTable comps => comps.all (below 256)
  | .updateComponent comp => below 256 comp
  | .requestFirmwareData _ => true
  | .activateFirmware => true
  | .cancelUpdateComponent => true
  | .cancelUpdate => true
  | .getMeasurements _ block _ => below 256 block
  | .getCertificate _ slot off len => below 8 slot && below (2 ^ 32) off && below (2 ^ 32) len
  | .challenge _ slot => below 8 slot
  | .keyExchange _ => true
  | .respondIfReady _ => true
  | .cosigFetch _ _ off len => below (2 ^ 32) off && below (2 ^ 32) len
  | .cosigExpiry _ => true
  | .pqChainGet _ _ off len => below (2 ^ 32) off && below (2 ^ 32) len
  | .debugNonce _ => true
  | .debugToken _ _ off _ => below (2 ^ 32) off
  | .ideKmQuery _ _ => true
  | .keyProg _ _ set sub_ => below 2 set && below 8 sub_
  | .kSetGo _ _ set sub_ => below 2 set && below 8 sub_
  | .kSetStop _ _ set sub_ => below 2 set && below 8 sub_
  | .tdispRequest _ _ => true
  | .coolantStopDeassert _ => true
  | .lamplighterReady _ => true
  | .restartHoldoffExpiry _ => true
  | .tripHoldoffExpiry _ => true
  | .vddSbLoss => true
  | .regionControllerFault region => below 8 region
  | .iodFabricError iod => below 4 iod
  | .flashWriteComplete _ => true
  | .teardownDrainComplete part ctx => below 8 part && below 16 ctx
  | .getVersion _ => true
  | .getCapabilities _ => true
  | .negotiateAlgorithms _ _ => true
  | .getDigests _ => true
  | .finish _ => true
  | .endSession _ => true
  | .keyUpdate _ => true
  | .spdmHeartbeat _ => true
  | .chunkSend _ _ seq _ _ => below 65536 seq
  | .chunkGet _ _ seq => below 65536 seq
  | .cdatTableAccess entry => below 65536 entry
  | .unsupportedPldmCommand type cmd => below 64 type && below 256 cmd

end Sys2Proof
end

