-- ==== Sys2Proof/Certificates/Slice0/Obligations.lean ====
section
/-! DEFINITION. The statements about the module, family by family. -/

open Sys2Proof Sys2Proof.Machine

/-! ## Commands and steps -/

/-- A step with a command at the front of the queue is that command run with the queue's rest; on an
empty queue the module idles (the queue is the model's own, assumption 1). -/
def Obligations.StepRunsFrontCommand : Prop :=
  (∀ (s : State) (i : Instr) (l : List Instr),
    step { s with pending := i :: l } = exec i { s with pending := l })
  ∧ ∀ s : State, s.pending = [] → step s = .next s

/-! ## Scalar instructions (R98, R100) -/

/-- Register forms, divisions with the corners of R100, and immediate forms: the result to `s[SD]`, the PC past
the instruction, nothing else (R96, R98, R100).
`s0` and `p0` read as constants and discard writes; a write to another register is what a read
of it gives, and leaves every other register (R84). -/
def Obligations.ScalarResults : Prop :=
  ((∀ (s : State) (c : Nat) (u : Upset) (o : SOp), s.Ready c → Unhurt u →
        let k := s.cell c
        let a := k.rs o.sa
        let b := k.rs o.sb
        let n := b.toNat % 64
        let put : Word → Cell := fun w => (k.ws o.sd w).adv
        Runs (.add c o u) s c (put (a + b)) ∧
        Runs (.sub c o u) s c (put (a - b)) ∧
        Runs (.and c o u) s c (put (a &&& b)) ∧
        Runs (.or c o u) s c (put (a ||| b)) ∧
        Runs (.xor c o u) s c (put (a ^^^ b)) ∧
        Runs (.sll c o u) s c (put (a <<< n)) ∧
        Runs (.srl c o u) s c (put (a >>> n)) ∧
        Runs (.sra c o u) s c (put (BitVec.ofInt 64 (a.toInt / 2 ^ n))) ∧
        Runs (.slt c o u) s c (put (if a.toInt < b.toInt then 1 else 0)) ∧
        Runs (.sltu c o u) s c (put (if a.toNat < b.toNat then 1 else 0)) ∧
        Runs (.mul c o u) s c (put (a * b)) ∧
        Runs (.mulh c o u) s c (put (BitVec.ofInt 64 (a.toInt * b.toInt / 2 ^ 64))) ∧
        Runs (.mulhu c o u) s c (put (BitVec.ofNat 64 (a.toNat * b.toNat / 2 ^ 64))) ∧
        Runs (.min c o u) s c (put (if a.toInt ≤ b.toInt then a else b)) ∧
        Runs (.max c o u) s c (put (if b.toInt ≤ a.toInt then a else b))) ∧
    (∀ (s : State) (c : Nat) (u : Upset) (o : SOp), s.Ready c → Unhurt u →
        let k := s.cell c
        let a := k.rs o.sa
        let b := k.rs o.sb
        let put : Word → Cell := fun w => (k.ws o.sd w).adv
        Runs (.div c o u) s c (put (if b = 0 then BitVec.allOnes 64 else BitVec.ofInt 64 (a.toInt.tdiv b.toInt))) ∧
        Runs (.divu c o u) s c (put (if b = 0 then BitVec.allOnes 64 else BitVec.ofNat 64 (a.toNat / b.toNat))) ∧
        Runs (.rem c o u) s c (put (if b = 0 then a else BitVec.ofInt 64 (a.toInt.tmod b.toInt))) ∧
        Runs (.remu c o u) s c (put (if b = 0 then a else BitVec.ofNat 64 (a.toNat % b.toNat))) ∧
        (a = BitVec.intMin 64 → b = BitVec.allOnes 64 →
          Runs (.div c o u) s c (put a) ∧ Runs (.rem c o u) s c (put 0))) ∧
    (∀ (s : State) (c : Nat) (u : Upset) (o : IOp), s.Ready c → Unhurt u →
        let k := s.cell c
        let a := k.rs o.sa
        let i := BitVec.ofInt 64 o.imm.toInt
        let n := i.toNat % 64
        let put : Word → Cell := fun w => (k.ws o.sd w).adv
        Runs (.addi c o u) s c (put (a + i)) ∧
        Runs (.andi c o u) s c (put (a &&& i)) ∧
        Runs (.ori c o u) s c (put (a ||| i)) ∧
        Runs (.xori c o u) s c (put (a ^^^ i)) ∧
        Runs (.slli c o u) s c (put (a <<< n)) ∧
        Runs (.srli c o u) s c (put (a >>> n)) ∧
        Runs (.srai c o u) s c (put (BitVec.ofInt 64 (a.toInt / 2 ^ n))) ∧
        (o.sa = 0 → Runs (.lui c o u) s c (put (BitVec.ofInt 64 (o.imm.toInt * 2 ^ 23)))) ∧
        (o.sa ≠ 0 → Raises (.lui c o u) s c cIllegal 0))) ∧
  (∀ (k : Cell),
      (k.rs 0 = 0 ∧ k.rp 0 = BitVec.allOnes 256 ∧ (∀ w, k.ws 0 w = k) ∧ ∀ w, k.wp 0 w = k) ∧
      (∀ (r : BitVec 5) (w : Word), r ≠ 0 → (k.ws r w).rs r = w ∧ ∀ q, q ≠ r → (k.ws r w).rs q = k.rs q) ∧
      (∀ (r : BitVec 4) (w : PReg), r ≠ 0 → (k.wp r w).rp r = w ∧ ∀ q, q ≠ r → (k.wp r w).rp q = k.rp q))

/-- Branches and jumps: the target is PC + 8 × offset, or `s[SA]` + immediate for `JALR`; both jumps
write the address of the next instruction (R98, R100). -/
def Obligations.BranchesAndJumps : Prop :=
  ∀ (s : State) (c : Nat) (u : Upset), s.Ready c → Unhurt u →
    let k := s.cell c
    let at_ : Bool → Int → Cell := fun t off => { k with pc := if t then k.pc + BitVec.ofInt 64 (8 * off) else k.pc + 8 }
    (∀ o : BOp,
      let a := k.rs o.sa
      let b := k.rs o.sb
      let off := o.off.toInt
      Runs (.beq c o u) s c (at_ (decide (a = b)) off) ∧
      Runs (.bne c o u) s c (at_ (decide (a ≠ b)) off) ∧
      Runs (.blt c o u) s c (at_ (decide (a.toInt < b.toInt)) off) ∧
      Runs (.bge c o u) s c (at_ (decide (b.toInt ≤ a.toInt)) off) ∧
      Runs (.bltu c o u) s c (at_ (decide (a.toNat < b.toNat)) off) ∧
      Runs (.bgeu c o u) s c (at_ (decide (b.toNat ≤ a.toNat)) off)) ∧
    (∀ o : BPOp, k.predBusy [o.p] = false →
      Runs (.bpany c o u) s c (at_ (decide (k.rp o.p ≠ 0)) o.off.toInt) ∧
      Runs (.bpnone c o u) s c (at_ (decide (k.rp o.p = 0)) o.off.toInt)) ∧
    (∀ o : IOp,
      let target := k.rs o.sa + BitVec.ofInt 64 o.imm.toInt
      (o.sa = 0 → Runs (.jal c o u) s c
        { k.ws o.sd (k.pc + 8) with pc := k.pc + BitVec.ofInt 64 (8 * o.imm.toInt) }) ∧
      (target.toNat % 8 = 0 → Runs (.jalr c o u) s c { k.ws o.sd (k.pc + 8) with pc := target }) ∧
      (target.toNat % 8 ≠ 0 → Raises (.jalr c o u) s c cMisaligned target))

/-! ## Control and status registers, system instructions (R86 to R91, R136 to R139) -/

/-- `CSRR` writes the register's value to `s[r]` and changes nothing else; a reserved number, a privileged register
and a read-only one raise their cause, and a reserved encoding of `PMSEL` raises `ILLEGAL` whoever writes it (R87, R137,
R342); `CSRW`, `CSRS` and `CSRC` write the source, its union with the old value, and the old value without it. A counter
has first gone on with the clock (assumption log entry 69). -/
def Obligations.CsrInstructions : Prop :=
  (∀ (s : State) (c : Nat) (u : Upset) (o : CsrOp), s.Ready c → Unhurt u →
      let k := s.cell c
      let n := o.csr.toNat
      let t := s.elapse c n
      (k.csrReadFault c n = none → Runs (.csrr c o u) s c (k.ws o.r (t.csrGet c (t.cell c) n)).adv) ∧
      (n < 0x100 → t = s) ∧
      (s.csrGet c k 0x000 = k.cstat.setWidth 64 ∧
        s.csrGet c k 0x010 = BitVec.ofNat 64 (c / 16 * 256 + c % 16) ∧
        s.csrGet c k 0x011 = s.power.frame ∧
        s.csrGet c k 0x012 = BitVec.ofNat 64 ((k.run.map (·.item)).getD 0) ∧
        s.csrGet c k 0x020 = (if k.uctl then 1 else 0) ∧
        s.csrGet c k 0x040 = k.svec ∧ s.csrGet c k 0x041 = k.epc ∧
        s.csrGet c k 0x042 = k.ecause.setWidth 64 ∧ s.csrGet c k 0x043 = k.eaddr ∧
        s.csrGet c k 0x045 = k.sscratch ∧ s.csrGet c k 0x046 = k.ptroot)) ∧
  (∀ (s : State) (c : Nat) (u : Upset) (o : CsrOp), s.Ready c → Unhurt u →
      let k := s.cell c
      let n := o.csr.toNat
      let refuses : BitVec 8 → Prop := fun cause =>
        Raises (.csrw c o u) s c cause 0 ∧ Raises (.csrs c o u) s c cause 0 ∧
        Raises (.csrc c o u) s c cause 0
      (csrRights n = none → Raises (.csrr c o u) s c cIllegal 0 ∧ refuses cIllegal) ∧
      (0x040 ≤ n → n ≤ 0x046 → k.sup = false →
        Raises (.csrr c o u) s c cPrivileged 0 ∧ refuses cPrivileged) ∧
      (n = 0x042 ∨ n = 0x043 ∨ n = 0x046 → k.sup = true → refuses cIllegal) ∧
      (0x010 ≤ n → n ≤ 0x012 → refuses cIllegal) ∧
      (n = 0x020 → k.sup = false → refuses cPrivileged) ∧
      (0x110 ≤ n → n ≤ 0x117 → pmselReserved (k.rs o.r) = true → Raises (.csrw c o u) s c cIllegal 0)) ∧
  (∀ (s : State) (c : Nat) (u : Upset) (o : CsrOp), s.Ready c → Unhurt u →
      let k := s.cell c
      let n := o.csr.toNat
      let src := k.rs o.r
      let t := s.elapse c n
      let old := t.csrGet c (t.cell c) n
      let writes : Instr → Word → Word → Prop := fun i v ones => csrIllegal n v = false →
        exec i s = .next ((s.finish c kControl false (u.parity != 0)
          (.next (t.csrPut c (t.cell c).adv n v ones) [] [] [])).replay c u kControl k.priv)
      (k.csrWriteFault n = none →
        writes (.csrw c o u) src src ∧ writes (.csrs c o u) (old ||| src) 0 ∧
        writes (.csrc c o u) (old &&& ~~~src) src) ∧
      (∀ (v ones : Word) (t : State) (j : Cell),
        (t.csrPut c j 0x000 v ones = t.setCell c { j with cstat := v.setWidth 7 }) ∧
        (t.csrPut c j 0x020 v ones = t.setCell c { j with uctl := v.getLsbD 0 }) ∧
        (t.csrPut c j 0x040 v ones = t.setCell c { j with svec := v &&& ~~~7 }) ∧
        (t.csrPut c j 0x041 v ones = t.setCell c { j with epc := v &&& ~~~7 }) ∧
        (t.csrPut c j 0x044 v ones = t.setCell c { j with ppriv := v.getLsbD 0 }) ∧
        (t.csrPut c j 0x045 v ones = t.setCell c { j with sscratch := v })))

/-- The entry of an exception (R138): `EPC` the instruction, cause and address, the privilege saved,
supervisor mode at `SVEC`; no other register, no memory. In supervisor mode, or without a handler, the
item ends `FAILED` instead. -/
def Obligations.ExceptionEntry : Prop :=
  ∀ (s : State) (c : Nat) (cause : BitVec 8) (addr : Word),
    let k := s.cell c
    (k.sup = false → k.svec ≠ 0 →
      CellOnly s (s.raise c cause addr) c
        { k with epc := k.pc, ecause := cause, eaddr := addr, ppriv := false, sup := true, pc := k.svec }) ∧
    (k.sup = true ∨ k.svec = 0 →
      CellOnly s (s.raise c cause addr) c
        (if k.async = [] then { k with ended := some { kind := .failedException, value := 0, cause }, faults := [] }
         else { k with ending := some { kind := .failedException, value := 0, cause }, faults := [] }))

/-- System instructions: `SCALL` and `BRK` enter the supervisor, `SRET` returns, `IEND` and `SEXIT` end
the item, `IFENCE`, `MMUINV` and `NOP` only advance, a word that spells no instruction raises `ILLEGAL`.
What R139 delivers first at a boundary in user mode: an asynchronous fault with its cause and unit, else a
cancel request, else a preempt request; a later one stays pending. A forced stop ends the item `FORCED`, at once or when
its outstanding accesses have drained, and leaves an item alone that is ending; a wait that gives up takes the word last observed and an all-zero predicate (R126, R140). -/
def Obligations.SystemAndBoundary : Prop :=
  (∀ (s : State) (c : Nat) (u : Upset), s.Ready c → Unhurt u →
      let k := s.cell c
      let enter : BitVec 8 → Cell := fun cause =>
        { k with epc := k.pc, ecause := cause, eaddr := 0, ppriv := false, sup := true, pc := k.svec }
      let ends : Word → Bool → Cell := fun v save =>
        { k with ended := some { kind := if v = 0 then .complete else if save ∧ v = 1 then .saved else .failedValue,
                                 value := v, cause := 0 } }
      (k.sup = false → k.svec ≠ 0 →
        Runs (.scall c u) s c (enter 0x0A) ∧ Runs (.brk c u) s c (enter 0x09) ∧
        ∀ w, decodeCell c w = none → Runs (.illegalOpcode c w u) s c (enter 0x01)) ∧
      (k.sup = true → (k.ppriv = true ∨ (k.faults = [] ∧ k.cancel = false ∧ k.preempt = false)) →
        Runs (.sret c u) s c { k with pc := k.epc, sup := k.ppriv }) ∧
      (∀ b, k.async = [] → Runs (.iend c b u) s c (ends (k.rs b) false)) ∧
      (∀ b, k.sup = true → k.async = [] → Runs (.sexit c b u) s c (ends (k.rs b) true)) ∧
      (∀ b all, k.sup = true → (all = true → b = 0) → Runs (.mmuinv c b all u) s c k.adv) ∧
      (∀ b, k.sup = false →
        Raises (.sret c u) s c cPrivileged 0 ∧ Raises (.sexit c b u) s c cPrivileged 0 ∧
        Raises (.mmuinv c b false u) s c cPrivileged 0) ∧
      Runs (.ifence c u) s c k.adv ∧ Runs (.nop c u) s c k.adv) ∧
  ((∀ (s : State) (c : Nat), s.canIssue c = true → (s.cell c).sup = false → (s.cell c).svec ≠ 0 →
        let k := s.cell c
        let enter : BitVec 8 → Word → Cell → Cell := fun cause addr j =>
          { j with epc := k.pc, ecause := cause, eaddr := addr, ppriv := false, sup := true, pc := k.svec }
        (∀ f l, k.faults = f :: l →
          Runs (.asyncFault c) s c (enter 0x12 f.addr { k with faults := l, asub := f.cause, aop := f.gather })) ∧
        (k.faults = [] → k.cancel = true → Runs (.cancelRequest c) s c (enter 0x11 0 { k with cancel := false })) ∧
        (k.faults = [] → k.cancel = false → k.preempt = true →
          Runs (.preemptRequest c) s c (enter 0x10 0 { k with preempt := false }))) ∧
    (∀ (s : State) (c : Nat),
        let k := s.cell c
        (s.cellPresent c = true → s.clocksRun = true → k.run.isSome = true → k.requested = true → k.ended = none →
          k.ending = none → k.stopped = false →
          let forced : Ending := { kind := .forced, value := 0, cause := 0 }
          Answers (.forcedStop c) s fun t =>
            CellOnly s t c (if k.async = [] then { k with ended := some forced, faults := [] }
              else { k with ending := some forced, faults := [] }) ∧ t.canIssue c = false) ∧
        (k.requested = false ∨ k.ending.isSome = true → exec (.forcedStop c) s = .next s) ∧
        (∀ o w, s.canIssue c = true → k.wait = some (o, w) → o.tmo ≠ 0 →
          Runs (.waitsigTimeout c) s c ((k.ws o.a w).wp o.pd 0).adv)))

/-! ## Vector instructions (R95, R96, R101 to R106, R114, R496 to R498) -/

/-- Arithmetic, logic and shifts: each guarded element is the element operation on `VA` and on `VB` or the
broadcast, with `VC` for the fused forms; flags are the union over the guarded elements (R496).
What the writes of a vector instruction leave in each element: the result where the guard is true,
else zero with `MZ` and the old value without it; the old value outside the part (R85, R95, R96, R102).
Integer elements wrap in two's complement and set no flag (R496); for floating-point elements (R101) a NaN
gives the canonical NaN, `VMIN` and `VMAX` return the number of a pair with one NaN and take −0 below +0, infinities
add by their signs, and an exact sum of opposite numbers is +0. -/
def Obligations.VectorArithmeticResults : Prop :=
  (∀ (s : State) (c : Nat) (u : Upset) (o : VOp), s.Ready c → Unhurt u → (s.cell c).predBusy [o.pg] = false →
      etArith o.et.toNat = true → o.bOk = true → o.aux = 0 →
      let k := s.cell c
      let et := o.et.toNat
      let b := etWidth et
      let A := fun i => vecElem b (k.rv o.va) i
      let B := fun i => k.operandB o b i
      let C := fun i => vecElem b (k.rv o.vc) i
      let runs := fun (i : Instr) (res : Nat → Nat × BitVec 7) => VectorRuns i s c o b 0 (8192 / b) res
      runs (.vfma c o u) (fun i => elemFma false et (A i) (B i) (C i)) ∧
      runs (.vfnma c o u) (fun i => elemFma true et (A i) (B i) (C i)) ∧
      (o.vc = 0 →
        runs (.vadd c o u) (fun i => elemAdd et (A i) (B i)) ∧
        runs (.vsub c o u) (fun i => elemSub et (A i) (B i)) ∧
        runs (.vmul c o u) (fun i => elemMul et (A i) (B i)) ∧
        runs (.vmin c o u) (fun i => elemMin et (A i) (B i)) ∧
        runs (.vmax c o u) (fun i => elemMax et (A i) (B i)) ∧
        runs (.vand c o u) (fun i => (A i &&& B i, 0)) ∧
        runs (.vor c o u) (fun i => (A i ||| B i, 0)) ∧
        runs (.vxor c o u) (fun i => (A i ^^^ B i, 0)) ∧
        (3 ≤ et →
          runs (.vsll c o u) (fun i => (A i * 2 ^ (B i % b), 0)) ∧
          runs (.vsrl c o u) (fun i => (A i / 2 ^ (B i % b), 0)) ∧
          runs (.vsra c o u) (fun i => (wrap b (signed b (A i) / 2 ^ (B i % b)), 0))))) ∧
  (∀ (et lo n : Nat) (g : PReg) (mz : Bool) (old : VReg) (res : Nat → Nat) (i : Nat),
      etReserved et = false → i < 8192 / etWidth et →
      let b := etWidth et
      let e := vecElem b (vecWrite b lo n g mz old res) i
      (lo ≤ i → i < lo + n → g.getLsbD (b * i / 32) = true → e = res (i - lo) % 2 ^ b) ∧
      (lo ≤ i → i < lo + n → g.getLsbD (b * i / 32) = false → e = if mz then 0 else vecElem b old i) ∧
      (i < lo ∨ lo + n ≤ i → e = vecElem b old i)) ∧
  ((∀ (et x y z : Nat), et = 0x8 ∨ et = 0xA ∨ et = 0xB ∨ et = 0xC →
        let b := etWidth et
        x < 2 ^ b → y < 2 ^ b → z < 2 ^ b →
        elemAdd et x y = ((x + y) % 2 ^ b, 0) ∧
        elemSub et x y = ((x + (2 ^ b - y)) % 2 ^ b, 0) ∧
        elemMul et x y = (x * y % 2 ^ b, 0) ∧
        elemFma false et x y z = ((x * y + z) % 2 ^ b, 0) ∧
        elemFma true et x y z = ((z + (2 ^ b - x * y % 2 ^ b)) % 2 ^ b, 0) ∧
        elemMin et x y = (if signed b x ≤ signed b y then x else y, 0) ∧
        elemMax et x y = (if signed b y ≤ signed b x then x else y, 0)) ∧
    (∀ (et : Nat) (f : FFmt), (et = 0 ∧ f = fp32) ∨ (et = 1 ∧ f = bf16) ∨ (et = 2 ∧ f = fp16) →
        (f.nan = if et = 0 then 0x7FC00000 else if et = 1 then 0x7FC0 else 0x7E00) ∧
        (∀ x y : Nat, f.decode x = .nan ∨ f.decode y = .nan →
          (elemAdd et x y).1 = f.nan ∧ (elemMul et x y).1 = f.nan ∧
          (∀ z, (elemFma false et x y z).1 = f.nan ∧ (elemFma true et x y z).1 = f.nan)) ∧
        (∀ x y : Nat, f.decode x = .nan → f.decode y ≠ .nan →
          (elemMin et x y).1 = y ∧ (elemMin et y x).1 = y ∧ (elemMax et x y).1 = y ∧ (elemMax et y x).1 = y) ∧
        (elemMin et 0 (f.sign true)).1 = f.sign true ∧ (elemMin et (f.sign true) 0).1 = f.sign true ∧
        (elemMax et 0 (f.sign true)).1 = 0 ∧ (elemMax et (f.sign true) 0).1 = 0 ∧
        elemAdd et (f.infinity false) (f.infinity true) = (f.nan, flagNV) ∧
        elemMul et (f.infinity false) 0 = (f.nan, flagNV) ∧
        (∀ (n : Bool) (m : Nat) (e : Int), m ≠ 0 → (FVal.fin n m e).add (.fin (!n) m e) = .fin false 0 0)))

/-- Comparison, selection, conversion, permutation, reduction and the approximate functions (R102 to R105).
Conversions (R498): integers widen by sign, narrow to the low bits or to the nearest bound; NaN gives 0,
infinities and values beyond the range the bounds; a NaN or an infinity between floating-point formats
follows R158. -/
def Obligations.VectorSelectionAndConversion : Prop :=
  (∀ (s : State) (c : Nat) (u : Upset) (o : VOp), s.Ready c → Unhurt u → o.vc = 0 →
      let k := s.cell c
      let et := o.et.toNat
      let b := etWidth et
      let g := k.guard o.pg o.pn
      let A := fun i => vecElem b (k.rv o.va) i
      let B := fun i => k.operandB o b i
      let pd := BitVec.ofNat 4 o.auxHi
      let cmp := fun i => elemCmp o.op3 et (A i) (B i)
      (k.predBusy [o.pg, pd] = false → et = 0 ∨ et = 0xB ∨ et = 0xC → o.op3 ≠ 7 → o.vd = 0 → o.mz = false → o.bOk = true →
        o.auxIn 0xF0E00 = true →
        Runs (.vcmp c o u) s c ((k.wp pd (cmpMask b g fun i => (cmp i).1)).flag
          (vecFlags b 0 (8192 / b) g fun i => (cmp i).2)).adv) ∧
      (k.predBusy [o.pg] = false →
        (etArith et = true → o.bOk = true → o.aux = 0 →
          Runs (.vsel c o u) s c (k.wv o.vd (vecOf b fun i => if guardOn g b i then A i else B i)).adv) ∧
        (et < 0xD → o.auxHi < 0xD → o.part < partCount b (etWidth o.auxHi) → o.noB = true → o.ss = 0 →
          o.auxIn 0xFF000 = true →
          let bt := etWidth o.auxHi
          let n := min (8192 / b) (8192 / bt)
          VectorRuns (.vcvt c o u) s c o bt (if bt < b then o.part * n else 0) n
            (fun i => elemCvt o.satBit et o.auxHi (A ((if b < bt then o.part * n else 0) + i)))) ∧
        (et = 0 ∨ et = 0xB → o.bOk = true → o.aux = 0 →
          VectorRuns (.vperm c o u) s c o 32 0 256 (fun i => (vecElem 32 (k.rv o.va) (k.operandB o 32 i % 256), 0))) ∧
        (etArith et = true → o.op3 ≤ 2 → o.mz = false → o.noB = true → o.ss = 0 → o.auxIn 0xE00 = true →
          let r := reduceTree (reduceOp o.op3 et) (Nat.log2 (8192 / b))
            ((List.range (8192 / b)).map fun i => if guardOn g b i then A i else reduceIdentity o.op3 et) 0
          Runs (.vreduce c o u) s c ((k.wv o.vd (BitVec.ofNat 8192 (r.1 % 2 ^ b))).flag r.2).adv) ∧
        (∀ f, etFormat et = some f → etFloat et = true → o.noB = true → o.ss = 0 → o.aux = 0 →
          VectorRuns (.vrcp c o u) s c o b 0 (8192 / b) (fun i => funElem f .rcp (A i)) ∧
          VectorRuns (.vrsqrt c o u) s c o b 0 (8192 / b) (fun i => funElem f .rsqrt (A i)) ∧
          VectorRuns (.vexp2 c o u) s c o b 0 (8192 / b) (fun i => funElem f .exp2 (A i)) ∧
          VectorRuns (.vlog2 c o u) s c o b 0 (8192 / b) (fun i => funElem f .log2 (A i))))) ∧
  ((∀ (sat : Bool) (et tet x : Nat), et = 0x8 ∨ et = 0x9 ∨ et = 0xA ∨ et = 0xB ∨ et = 0xC →
      tet = 0x8 ∨ tet = 0x9 ∨ tet = 0xA ∨ tet = 0xB ∨ tet = 0xC →
      let v := signed (etWidth et) x
      let w := etWidth tet
      elemCvt sat et tet x =
        if sat = true ∧ v < -2 ^ (w - 1) then (2 ^ (w - 1), flagXSAT)
        else if sat = true ∧ 2 ^ (w - 1) ≤ v then (2 ^ (w - 1) - 1, flagXSAT)
        else (wrap w v, 0)) ∧
    (∀ (sat : Bool) (w : Nat),
      toInt w sat .nan = (0, flagNV) ∧
      toInt w sat (.inf false) = (2 ^ (w - 1) - 1, if sat then flagXSAT else flagNV) ∧
      toInt w sat (.inf true) = (2 ^ (w - 1), if sat then flagXSAT else flagNV)) ∧
    (∀ sat : Bool, fp32.round sat .nan = (0x7FC00000, flagNV) ∧ bf16.round sat .nan = (0x7FC0, flagNV) ∧
      fp16.round sat .nan = (0x7E00, flagNV) ∧ e4m3.round sat .nan = (0x7F, flagNV) ∧
      e5m2.round sat .nan = (0x7E, flagNV) ∧ e2m3.round sat .nan = (0, flagNV) ∧ e3m2.round sat .nan = (0, flagNV) ∧
      e2m1.round sat .nan = (0, flagNV)) ∧
    (e4m3.round false (.inf true) = (0xFF, flagNV) ∧ e4m3.round true (.inf true) = (0xFE, flagXSAT) ∧
      e5m2.round false (.inf false) = (0x7C, 0) ∧ e5m2.round true (.inf false) = (0x7B, flagXSAT) ∧
      e2m1.round false (.inf true) = (0xF, flagNV) ∧ e2m1.round true (.inf true) = (0xF, flagXSAT)) ∧
    (e4m3.round false (.fin false 464 0) = (0x7E, flagNX) ∧ e4m3.round false (.fin false 465 0) = (0x7F, flagNX ||| flagOF)))

/-- Lanes, `VIOTA`, Brine words in vector registers and top-k (R103, R106, R114).
The rank order of `VTOPK` (R114): a segment's result has k entries in rank order; its keys are guarded
keys of the segment or the fill; and no key left out ranks before one that was chosen. -/
def Obligations.VectorLanesBrineAndTopK : Prop :=
  (∀ (s : State) (c : Nat) (u : Upset) (o : VOp), s.Ready c → Unhurt u → (s.cell c).predBusy [o.pg] = false → o.vc = 0 →
      let k := s.cell c
      let et := o.et.toNat
      let g := k.guard o.pg o.pn
      let b := if et = 0xC then 64 else 32
      let E : Int := ((k.rs o.ss).extractLsb' 0 16).toInt
      let word := fun i => BitVec.ofNat 64 (vecElem 64 (k.rv o.va) i)
      let brine := fun (i : Instr) (res : Nat → Nat × Bool) =>
        Runs i s c ((k.wv o.vd (vecWrite 64 0 128 g o.mz (k.rv o.vd) fun j => (res j).1)).flag
          (if 0 < vecCount 64 0 128 g (fun j => (res j).2) then flagBOVF else 0)).adv
      (etArith et = true → o.lane < 8192 / b → o.noB = true → o.auxIn 0xFF = true →
        (o.ss = 0 → Runs (.vext c o u) s c (if guardOn g b o.lane then
          k.ws o.vd (BitVec.ofNat 64 (vecElem b (k.rv o.va) o.lane)) else k).adv) ∧
        (o.va = 0 → Runs (.vins c o u) s c (if guardOn g b o.lane then
          k.wv o.vd (vecOf b fun i => if i = o.lane then (k.rs o.ss).toNat else vecElem b (k.rv o.vd) i) else k).adv)) ∧
      (et = 0xB → o.va = 0 → o.noB = true → o.aux = 0 →
        VectorRuns (.viota c o u) s c o 32 0 256 (fun i => ((k.rs o.ss).toNat + i, 0))) ∧
      (et = 0 → o.part < 2 → o.noB = true → o.auxIn 0xE000 = true →
        brine (.vtob c o u) fun j =>
          let r := contribution E (fp32.decode (vecElem 32 (k.rv o.va) (128 * o.part + j)))
          (wrap 64 r.1, r.2)) ∧
      (et = 0xD → (o.bs = true → o.vb = 0) → o.aux = 0 →
        brine (.vbadd c o u) fun j =>
          let r := brineAdd (word j) (BitVec.ofNat 64 (k.operandB o 64 j))
          (r.1.toNat, r.2)) ∧
      (∀ f, et = 0xD → etFormat o.auxHi = some f → o.auxHi ≤ 4 → o.part < 64 / etWidth o.auxHi → o.noB = true →
        o.auxIn 0xFF000 = true →
        let bt := etWidth o.auxHi
        let res := fun j => f.round o.satBit (brineVal E (word j))
        Runs (.xtalV c o u) s c ((k.wv o.vd (vecWrite bt (128 * o.part) 128 g o.mz (k.rv o.vd) fun j => (res j).1)).flag
          (withBovf (vecFlags bt (128 * o.part) 128 g fun j => (res j).2))).adv) ∧
      (et = 0 ∨ et = 0xB → o.auxIn 0xFFE00 = true → o.vd.getLsbD 0 = false → o.mz = false →
        let kk := o.aux.toNat / 2 ^ 14 + 1
        let seg := 2 ^ (o.aux.toNat / 2 ^ 11 % 8)
        let minSel := o.aux.getLsbD 10
        let merge := o.aux.getLsbD 9
        8 ≤ seg → kk ≤ seg → (if merge then o.bOk else o.noB) = true →
        let keys := fun j => (List.range seg).filterMap fun i =>
          if guardOn g 32 (j * seg + i) then
            some (TopKey.mk (vecElem 32 (k.rv o.va) (j * seg + i))
              (if merge then k.operandB o 32 (j * seg + i) else ((k.rs o.ss).toNat + (j * seg + i)) % 2 ^ 32))
          else none
        let res := (List.range (256 / seg)).flatMap fun j => topSegment et minSel kk (keys j)
        Runs (.vtopk c o u) s c ((k.wv o.vd (vecOf 32 fun i => (res.getD i ⟨0, 0xFFFFFFFF⟩).key)).wv (o.vd + 1)
          (vecOf 32 fun i => (res.getD i ⟨0, 0xFFFFFFFF⟩).idx)).adv)) ∧
  (∀ (et : Nat) (minSel : Bool) (k : Nat) (l : List TopKey), et = 0 ∨ et = 0xB →
      let r := topSegment et minSel k l
      r.length = k ∧
      (∀ x ∈ r, x ∈ l ∨ x = topFill et minSel) ∧
      (k ≤ l.length → ∀ x ∈ l, x ∉ r → ∀ y ∈ r, x.before et minSel y = false))

/-- An element type or a field that R99, R496 and R497 do not allow raises `ILLEGAL` and changes nothing else. -/
def Obligations.IllegalVectorForms : Prop :=
  ∀ (s : State) (c : Nat) (u : Upset) (o : VOp), s.Ready c → Unhurt u → (s.cell c).predBusy [o.pg] = false →
    let et := o.et.toNat
    let illegal := fun i : Instr => Raises i s c cIllegal 0
    (etArith et = false →
      illegal (.vadd c o u) ∧ illegal (.vsub c o u) ∧ illegal (.vmul c o u) ∧ illegal (.vfma c o u) ∧ illegal (.vfnma c o u) ∧
      illegal (.vmin c o u) ∧ illegal (.vmax c o u) ∧ illegal (.vand c o u) ∧ illegal (.vor c o u) ∧ illegal (.vxor c o u) ∧
      illegal (.vsel c o u) ∧ illegal (.vreduce c o u) ∧ illegal (.vext c o u) ∧ illegal (.vins c o u)) ∧
    (etInt et = false → illegal (.vsll c o u) ∧ illegal (.vsrl c o u) ∧ illegal (.vsra c o u)) ∧
    (etFloat et = false → illegal (.vrcp c o u) ∧ illegal (.vrsqrt c o u) ∧ illegal (.vexp2 c o u) ∧ illegal (.vlog2 c o u)) ∧
    (0xD ≤ et → illegal (.vcvt c o u)) ∧
    (et ≠ 0xD → illegal (.vbadd c o u) ∧ illegal (.xtalV c o u)) ∧
    (et ≠ 0 → illegal (.vtob c o u)) ∧ (et ≠ 0xB → illegal (.viota c o u)) ∧
    (o.vc ≠ 0 → illegal (.vadd c o u) ∧ illegal (.vperm c o u) ∧ illegal (.vtopk c o u)) ∧
    (o.mz = true → illegal (.vreduce c o u) ∧ illegal (.vtopk c o u) ∧
      ((s.cell c).predBusy [o.pg, BitVec.ofNat 4 o.auxHi] = false → illegal (.vcmp c o u)))

/-! ## Matrix instructions and Brine sums (R107 to R113, R144 to R163) -/

/-- `TWIN`, `TZERO`, `TMMA` and `XTAL.T`: tiles, status and results; the states in which they raise
`TILE_STATE`. -/
def Obligations.MatrixResults : Prop :=
  ∀ (s : State) (c : Nat) (u : Upset), s.Ready c → Unhurt u →
    let k := s.cell c
    (∀ o : TwinOp, o.mode ≠ 3 → (o.auto = true → o.mode = 1) → (if o.immw then o.ss = 0 else o.win = 0) →
      Runs (.twin c o u) s c ((k.wtile o.td 0).wstat o.td
        { win := if o.immw then o.win else (k.rs o.ss).setWidth 16, mode := o.mode, auto := o.auto, ovf := false,
          pend := o.auto }).adv) ∧
    (∀ o : TwinOp, o.mode = 3 ∨ (o.auto = true ∧ o.mode ≠ 1) → Raises (.twin c o u) s c cIllegal 0) ∧
    (∀ t : BitVec 3,
      ((k.stat t).isOpen = true → Runs (.tzero c t u) s c ((k.wtile t 0).wstat t
        { k.stat t with ovf := false, pend := (k.stat t).auto || (k.stat t).pend }).adv) ∧
      ((k.stat t).isOpen = false → Raises (.tzero c t u) s c cTileState 0)) ∧
    (∀ (o : TmmaOp) (kk : Nat), k.predBusy [o.pg] = false →
      tmmaK o.fa.toNat o.fb.toNat = some kk →
      (if o.scl then o.fa.toNat ≠ 0 ∧ o.fa.toNat ≠ 1 ∧ o.fa.toNat ≠ 2 else o.qa = 0 ∧ o.qb = 0) →
      let st := k.stat o.td
      let g := k.guard o.pg o.pn
      let win := if st.pend then BitVec.ofInt 16 (autoWindow k o g) else st.win
      let el := fun n => if g.getLsbD (n / 64) && g.getLsbD (64 + n % 64) then tmmaElem k o kk win (n / 64) (n % 64)
        else (tileElem (k.tile o.td) n, 0)
      let bad := st.isOpen = false ∨ (o.fa.toNat = 8 ∧ st.mode = 2) ∨ (st.pend = true ∧ o.scl = false)
      (¬ bad → Runs (.tmma c o u) s c ((k.wtile o.td (tileOf fun n => (el n).1)).wstat o.td
        { st with win, pend := false, ovf := st.ovf || ((List.range 4096).any fun n => (el n).2 != 0) }).adv) ∧
      (bad → k.sup = false → k.svec ≠ 0 → Runs (.tmma c o u) s c
        { k with epc := k.pc, ecause := 0x07, eaddr := 0, ppriv := false, sup := true, pc := k.svec })) ∧
    (∀ (o : XtalTOp) (rows : Nat) (f : FFmt), xtalRows o.tet.toNat o.scl = some rows → etFormat o.tet.toNat = some f →
      o.rg.toNat < 64 / rows → (o.scl = false → o.qd = 0) →
      let st := k.stat o.td
      (st.isOpen = false ∨ st.pend = true → Raises (.xtalT c o u) s c cTileState 0) ∧
      (st.isOpen = true → st.pend = false → o.scl = false →
        let el := fun n => f.round o.sat (tileVal k o.td (rows * o.rg.toNat * 64 + n))
        Runs (.xtalT c o u) s c ((k.wv o.vd (vecOf (etWidth o.tet.toNat) fun n => (el n).1)).flag
          ((List.range (rows * 64)).foldl (fun a n => a ||| (el n).2) 0)).adv) ∧
      (st.isOpen = true → st.pend = false → o.scl = true →
        let block := fun n => xtalBlock k o f rows (n / 2) (n % 2)
        Runs (.xtalT c o u) s c (((k.wv o.vd (vecOf (etWidth o.tet.toNat) fun n =>
              if n < 64 * rows then (block (n / 32)).2.1.getD (n % 32) 0 else 0)).wq o.qd
            (BitVec.ofNat 512 (packElems 8 (fun n => if n < 2 * rows then (block n).1 else elemOf 8 (k.rq o.qd).toNat n) 64))).flag
          ((List.range (2 * rows)).foldl (fun a n => a ||| (block n).2.2) 0)).adv))

/-- Where the vector and matrix instructions complete (R101 to R106, R108 to R112, R114, R496 to R498): on a cell that is
ready, with an element type and fields that the rules allow and no guard that a gather has still to write, each
answers a next state in which its cell stands at the next instruction, with the privilege that it had and its item
going on, and nothing outside the cell has changed. -/
def Obligations.VectorAndMatrixCompletion : Prop :=
  ∀ (s : State) (c : Nat) (u : Upset), s.Ready c → Unhurt u →
    let k := s.cell c
    let done := fun (i : Instr) => Answers i s fun t =>
      (t.cell c).pc = k.pc + 8 ∧ (t.cell c).sup = k.sup ∧ (t.cell c).run = k.run ∧ (t.cell c).ended = none ∧
      (∀ d, d ≠ c → (t.cell d).arch = (s.cell d).arch) ∧ t.rest = s.rest
    (∀ o : VOp, k.predBusy [o.pg] = false → o.vc = 0 →
      let et := o.et.toNat
      (k.predBusy [o.pg, BitVec.ofNat 4 o.auxHi] = false → et = 0 ∨ et = 0xB ∨ et = 0xC → o.op3 < 7 → o.vd = 0 →
        o.mz = false → o.bOk = true → o.auxIn 0xF0E00 = true → done (.vcmp c o u)) ∧
      (etArith et = true → o.bOk = true → o.aux = 0 → done (.vsel c o u)) ∧
      (et < 0xD → o.auxHi < 0xD → o.part < partCount (etWidth et) (etWidth o.auxHi) → o.noB = true → o.ss = 0 →
        o.auxIn 0xFF000 = true → done (.vcvt c o u)) ∧
      (et = 0 ∨ et = 0xB → o.bOk = true → o.aux = 0 → done (.vperm c o u)) ∧
      (etArith et = true → o.op3 ≤ 2 → o.mz = false → o.noB = true → o.ss = 0 → o.auxIn 0xE00 = true →
        done (.vreduce c o u)) ∧
      (etFloat et = true → o.noB = true → o.ss = 0 → o.aux = 0 →
        done (.vrcp c o u) ∧ done (.vrsqrt c o u) ∧ done (.vexp2 c o u) ∧ done (.vlog2 c o u)) ∧
      (etArith et = true → o.lane < (if et = 0xC then 128 else 256) → o.noB = true → o.auxIn 0xFF = true →
        (o.ss = 0 → done (.vext c o u)) ∧ (o.va = 0 → done (.vins c o u))) ∧
      (et = 0xB → o.va = 0 → o.noB = true → o.aux = 0 → done (.viota c o u)) ∧
      (et = 0 → o.part < 2 → o.noB = true → o.auxIn 0xE000 = true → done (.vtob c o u)) ∧
      (et = 0xD → (o.bs = true → o.vb = 0) → o.aux = 0 → done (.vbadd c o u)) ∧
      (et = 0xD → o.auxHi ≤ 4 → o.part < 64 / etWidth o.auxHi → o.noB = true → o.auxIn 0xFF000 = true →
        done (.xtalV c o u)) ∧
      (et = 0 ∨ et = 0xB → o.auxIn 0xFFE00 = true → o.vd.getLsbD 0 = false → o.mz = false →
        3 ≤ o.aux.toNat / 2 ^ 11 % 8 → o.aux.toNat / 2 ^ 14 + 1 ≤ 2 ^ (o.aux.toNat / 2 ^ 11 % 8) →
        (if o.aux.getLsbD 9 then o.bOk else o.noB) = true → done (.vtopk c o u))) ∧
    (∀ o : TwinOp, o.mode ≠ 3 → (o.auto = true → o.mode = 1) → (if o.immw then o.ss = 0 else o.win = 0) →
      done (.twin c o u)) ∧
    (∀ t : BitVec 3, (k.stat t).isOpen = true → done (.tzero c t u)) ∧
    (∀ o : TmmaOp, k.predBusy [o.pg] = false → (tmmaK o.fa.toNat o.fb.toNat).isSome = true →
      (if o.scl then 3 ≤ o.fa.toNat else o.qa = 0 ∧ o.qb = 0) → (k.stat o.td).isOpen = true →
      (o.fa.toNat = 8 → (k.stat o.td).mode ≠ 2) → ((k.stat o.td).pend = true → o.scl = true) → done (.tmma c o u)) ∧
    (∀ (o : XtalTOp) (rows : Nat), xtalRows o.tet.toNat o.scl = some rows → o.rg.toNat < 64 / rows →
      (o.scl = false → o.qd = 0) → (k.stat o.td).isOpen = true → (k.stat o.td).pend = false → done (.xtalT c o u))

/-- `TMOVV` and `VMOVT` copy raw 64-bit elements between two rows of a tile and a vector register, and
neither read nor change the tile's status (R113). -/
def Obligations.TileRowMoves : Prop :=
  ∀ (s : State) (c : Nat) (u : Upset) (o : TMovOp), s.Ready c → Unhurt u →
    (Answers (.tmovv c o u) s fun t =>
      CellOnly s t c ((s.cell c).wv o.v ((t.cell c).rv o.v)).adv ∧
      ∀ r x, r < 2 → x < 64 →
        vecElem 64 ((t.cell c).rv o.v) (64 * r + x) = tileElem ((s.cell c).tile o.td) (64 * (2 * o.rp.toNat + r) + x)) ∧
    (Answers (.vmovt c o u) s fun t =>
      CellOnly s t c ((s.cell c).wtile o.td ((t.cell c).tile o.td)).adv ∧
      ∀ r x, r < 64 → x < 64 →
        tileElem ((t.cell c).tile o.td) (64 * r + x) =
          if r / 2 = o.rp.toNat then vecElem 64 ((s.cell c).rv o.v) (64 * (r % 2) + x)
          else tileElem ((s.cell c).tile o.td) (64 * r + x))

/-- A value enters a Brine accumulation as the real value over the window's unit, truncated toward zero, ±(2^44 − 1)
with the flag from 2^E on and for infinities, 0 with the flag for a NaN (R146); words add as integers with saturation and
a flag (R147).
The guarantee of R163 for one accumulation: contributions under one window, in any order, from any
starting word, give the same word when neither order overflows.
Condition 4 of R163 follows from the bounds of R164: at most 524,288 contributions, each below 2^E, from a
zero element never overflow. -/
def Obligations.BrineArithmetic : Prop :=
  ((∀ (E : Int),
        contribution E .nan = (0, true) ∧
        (∀ n, contribution E (.inf n) = (if n then -(2 ^ 44 - 1) else 2 ^ 44 - 1, true)) ∧
        (∀ (n : Bool) (m : Nat) (e : Int),
          let x : Rat := (m : Rat) * (2 : Rat) ^ e
          let u : Rat := (2 : Rat) ^ (E - 44)
          (x < (2 : Rat) ^ E → contribution E (.fin n m e) = (if n then -⌊x / u⌋ else ⌊x / u⌋, false)) ∧
          ((2 : Rat) ^ E ≤ x → contribution E (.fin n m e) = (if n then -(2 ^ 44 - 1) else 2 ^ 44 - 1, true)))) ∧
    (∀ (a b : BitVec 64),
        let z := a.toInt + b.toInt
        (-2 ^ 63 ≤ z → z ≤ 2 ^ 63 - 1 → (brineAdd a b).1.toInt = z ∧ (brineAdd a b).2 = false) ∧
        (2 ^ 63 - 1 < z → (brineAdd a b).1.toInt = 2 ^ 63 - 1 ∧ (brineAdd a b).2 = true) ∧
        (z < -2 ^ 63 → (brineAdd a b).1.toInt = -2 ^ 63 ∧ (brineAdd a b).2 = true))) ∧
  (∀ (E : Int) (l l' : List FVal) (acc : BitVec 64), l.Perm l' →
      (brineSum E l acc 0).2 = 0 → (brineSum E l' acc 0).2 = 0 →
      (brineSum E l acc 0).1 = (brineSum E l' acc 0).1 ∧
      (brineSum E l acc 0).1.toInt = acc.toInt + (l.map fun v => (contribution E v).1).sum) ∧
  (∀ (E : Int) (l : List FVal), l.length ≤ 524288 →
      (∀ v ∈ l, (contribution E v).2 = false) → (brineSum E l 0 0).2 = 0)

/-! ## Memory instructions (R115 to R131) -/

/-- Loads: the little-endian bytes of the translated address, extended or widened, to the destination
register; a misaligned address raises `MISALIGNED`, a fault of translation its cause with the address (R115,
R116, R133, R137). -/
def Obligations.LoadResults : Prop :=
  ∀ (s : State) (c : Nat) (u : Upset) (o : MOp), s.Ready c → Unhurt u → PlainForm o False False False →
    let k := s.cell c
    let va := k.address o
    let bytes := fun ps => s.readPieces (s.cellTag k) ps
    let reads := fun (n : Nat) (ps : List Piece) => s.memRange k .load va.toNat n = .ok ps
    (∀ (n : Nat) (ps : List Piece), scalarSize o.et = some n → va.toNat % n = 0 → reads n ps →
      Runs (.ld c o u) s c (k.ws o.d (BitVec.ofInt 64 (signed (8 * n) (leNat (bytes ps))))).adv ∧
      Runs (.ldu c o u) s c (k.ws o.d (BitVec.ofNat 64 (leNat (bytes ps)))).adv) ∧
    (∀ n : Nat, scalarSize o.et = some n → va.toNat % n ≠ 0 →
      Raises (.ldu c o u) s c cMisaligned va) ∧
    (∀ (n : Nat) (cause : BitVec 8) (fa : Nat), scalarSize o.et = some n → va.toNat % n = 0 →
      s.memRange k .load va.toNat n = .fault cause fa →
      Raises (.ldu c o u) s c cause (BitVec.ofNat 64 fa)) ∧
    (va.toNat % 64 = 0 →
      (∀ ps : List Piece, etReserved o.et.toNat = false → reads 1024 ps →
        Runs (.vld c o u) s c (k.wv o.d (BitVec.ofNat 8192 (leNat (bytes ps)))).adv) ∧
      (∀ ps : List Piece, etReserved o.et.toNat = false → o.d.toNat < 16 → reads 64 ps →
        Runs (.vldx c o u) s c (k.wq (o.d.setWidth 4) (BitVec.ofNat 512 (leNat (bytes ps)))).adv) ∧
      (∀ ps : List Piece, o.et = 0x5 ∨ o.et = 0x6 ∨ o.et = 0x9 → reads (if o.et = 0x9 then 512 else 768) ps →
        Runs (.vldw c o u) s c (k.wv o.d (vecOf 8 fun e => widen o.et.toNat e (leNat (bytes ps)))).adv))

/-- Stores: the low bytes of the register at the translated address, guarded lanes only for `VST`; every
register keeps its value (R115).
A store writes its bytes where its piece lies, and every other byte reads as before; for another context,
the rest of an on-chip line that the store takes over is not meant (R115, R188, R429). -/
def Obligations.StoreResults : Prop :=
  (∀ (s : State) (c : Nat) (u : Upset) (o : MOp), s.Ready c → Unhurt u →
      let k := s.cell c
      let va := k.address o
      let writes := fun ps l => s.writePieces (s.cellTag k) ps l
      (PlainForm o False False False →
        (∀ (n : Nat) (ps : List Piece), scalarSize o.et = some n → va.toNat % n = 0 →
          s.memRange k .store va.toNat n = .ok ps →
          Stores (.st c o u) s (writes ps (leBytes n (k.rs o.d).toNat)) c k.adv) ∧
        (∀ ps : List Piece, etReserved o.et.toNat = false → o.d.toNat < 16 → va.toNat % 64 = 0 →
          s.memRange k .store va.toNat 64 = .ok ps →
          Stores (.vstx c o u) s (writes ps (leBytes 64 (k.rq (o.d.setWidth 4)).toNat)) c k.adv)) ∧
      (PlainForm o True False False → k.predBusy [o.pg] = false → etReserved o.et.toNat = false → va.toNat % 64 = 0 →
        ∀ ps : List Piece,
          let w := if o.et = 0xC ∨ o.et = 0xD then 8 else 4
          let js := (List.range (1024 / w)).filter fun j => (k.guard o.pg o.pn).getLsbD (w * j / 4)
          s.memParts k .store (js.map fun j => (va.toNat + w * j, w)) = .ok ps →
          Stores (.vst c o u) s (writes ps (js.flatMap fun j => leBytes w (vecElem (8 * w) (k.rv o.d) j))) c k.adv)) ∧
  (∀ (s : State) (t : Tag) (p : Piece) (l : List Byte), s.memoryWf → l.length = p.len →
      (∀ x, p.pa ≤ x → x < p.pa + p.len → place x ≠ .hole ∧ place x ≠ .package ∧ ∀ b, place x ≠ .control b) →
      let u := s.writePieces t [p] l
      (∀ i, i < p.len → u.readByte t (p.pa + i) = l.getD i 0) ∧
      (∀ a, a < p.pa ∨ p.pa + p.len ≤ a → u.readByte t a = s.readByte t a) ∧
      (∀ (v : Tag) (a : Nat), a < p.pa ∨ p.pa + p.len ≤ a →
        (∀ x, p.pa ≤ x → x < p.pa + p.len → a / 256 ≠ x / 256) ∨ a < sramBase ∨ packageBase ≤ a →
        u.readByte v a = s.readByte v a))

/-- Atomics: the old value, sign-extended, to `s[D]`, and the combined value to memory; `AMOCAS` stores only
where the old value equals the comparand; host memory is refused (R118). -/
def Obligations.AtomicResults : Prop :=
  ∀ (s : State) (c : Nat) (u : Upset) (o : MOp) (n : Nat) (p : Piece) (ps : List Piece), s.Ready c → Unhurt u →
    let k := s.cell c
    let va := k.address o
    scalarSize o.et = some n → 4 ≤ n → va.toNat % n = 0 → s.memRange k .store va.toNat n = .ok (p :: ps) →
    let old := leNat (s.readPieces (s.cellTag k) (p :: ps))
    let a := signed (8 * n) old
    let m := (k.rs o.d).toNat % 2 ^ (8 * n)
    let x := (k.rs o.xi).toNat % 2 ^ (8 * n)
    let k' := (k.ws o.d (BitVec.ofInt 64 a)).adv
    let stores := fun (i : Instr) (v : Nat) =>
      Stores i s (s.writePieces (s.cellTag k) (p :: ps) (leBytes n v)) c k'
    (PlainForm o False True False → (∀ h, place p.pa ≠ .host h) → s.feedPending p = false →
      (o.rel = true → ∀ a ∈ k.async, a.gather = false) →
      stores (.amoadd c o u) ((old + m) % 2 ^ (8 * n)) ∧
      stores (.amoswap c o u) m ∧
      stores (.amomin c o u) (if a ≤ signed (8 * n) m then old else m) ∧
      stores (.amomax c o u) (if signed (8 * n) m ≤ a then old else m) ∧
      stores (.amoand c o u) (old &&& m) ∧
      stores (.amoor c o u) (old ||| m)) ∧
    (PlainForm o False True True → (∀ h, place p.pa ≠ .host h) → s.feedPending p = false →
      (o.rel = true → ∀ a ∈ k.async, a.gather = false) →
      (old = m → stores (.amocas c o u) x) ∧ (old ≠ m → Stores (.amocas c o u) s s c k')) ∧
    (PlainForm o False True False → (∃ h, place p.pa = .host h) →
      Raises (.amoadd c o u) s c cRefused va ∧ Raises (.amoswap c o u) s c cRefused va)

/-- Gathers and scatters: the address of element j is `s[SB]` + index j × 2^`SC`; only guarded elements are
accessed; a scatter stores a later element over an earlier one (R117). -/
def Obligations.GatherAndScatter : Prop :=
  ∀ (s : State) (c : Nat) (u : Upset) (o : MOp) (w : Nat) (ps : List Piece), s.Ready c → Unhurt u → (s.cell c).predBusy [o.pg] = false →
    gatherSize o.et = some w → o.am = 2 → o.off = 0 → o.rel = false → o.acq = false →
    let k := s.cell c
    let g := k.guard o.pg o.pn
    let js := (List.range (1024 / w)).filter fun j => g.getLsbD (w * j / 4)
    let addr := fun j => ((k.rs o.sb).toNat + vecElem 32 (k.rv o.xi) j * 2 ^ o.sc.toNat) % 2 ^ 64
    (∀ j ∈ js, addr j % w = 0) →
    (s.memParts k .load (js.map fun j => (addr j, w)) = .ok ps →
      let val := fun j => ((js.zip ps).find? fun x => x.1 == j).elim 0
        fun x => leNat (s.readBytes (s.cellTag k) x.2.pa x.2.len)
      Runs (.vgather c o u) s c (k.wv o.d (vecOf (8 * w) fun j =>
        if g.getLsbD (w * j / 4) then val j else vecElem (8 * w) (k.rv o.d) j)).adv) ∧
    (s.memParts k .store (js.map fun j => (addr j, w)) = .ok ps →
      Stores (.vscatter c o u) s (s.writePieces (s.cellTag k) ps
        (js.flatMap fun j => leBytes w (vecElem (8 * w) (k.rv o.d) j))) c k.adv)

/-- Issue of the asynchronous instructions, `WAITSIG` and `FENCE`: a copy or a gather joins the outstanding
ones and the cell goes on; a wait that its word satisfies takes the word and all ones; a fence with `ASYNC`
goes on once nothing is outstanding, one with `PR` once no gather is (R119, R124 to R126, R128, R129).
Completion of a gather (R120 to R122): bit i of `PD` is set exactly where lane i was guarded, below N and valid; a
lane that faults writes `PD` as all zero and leaves an asynchronous fault pending (R124); a gather whose reads lie in a
pending gather-feed piece or in the destination of an earlier gather waits (R124, R327). Completion of a copy (R125): the
bytes move and the signal bit is set by OR; a fault leaves the bit and an asynchronous fault pending. -/
def Obligations.AsynchronousWork : Prop :=
  (∀ (s : State) (c : Nat) (u : Upset), s.Ready c → Unhurt u →
      let k := s.cell c
      (∀ (o : GatherpOp) (dp wp : List Piece), k.predBusy [o.pg, o.pd] = false → k.inFlight true < 4 →
        (k.rs o.c).toNat % 8 = 0 →
        s.memRange k .load (k.rs o.c).toNat 64 = .ok dp →
        let l := s.readPieces (s.cellTag k) dp
        let len := gatherDesc l 0x14 2 * gatherDesc l 0x0A 2
        gatherDescOk l = true → s.ownLocal c k (pageParts (k.rs o.a).toNat len) = true →
        s.memParts k .store (pageParts (k.rs o.a).toNat len) = .ok wp →
        Answers (.vgatherp c o u) s fun t =>
          ∃ a : Async, CellOnly s t c { k with asyncNext := k.asyncNext + 1, async := k.async ++ [a] }.adv ∧
            a.id = k.asyncNext ∧ a.gather = true ∧ a.dst = k.rs o.a ∧ a.len = len ∧ a.pd = o.pd ∧ a.idx = k.rv o.b ∧
            a.guardMask = k.guard o.pg o.pn ∧ a.lanes = gatherDesc l 0x14 2 ∧ a.row = gatherDesc l 0x0A 2 ∧
            a.sup = k.sup) ∧
      (∀ (o : GatherpOp), k.predBusy [o.pg, o.pd] = false → k.inFlight true < 4 →
        (∀ (cause : BitVec 8) (va : Nat), s.memRange k .load (k.rs o.c).toNat 64 = .fault cause va →
          Raises (.vgatherp c o u) s c cause (BitVec.ofNat 64 va)) ∧
        (∀ dp : List Piece, s.memRange k .load (k.rs o.c).toNat 64 = .ok dp → (k.rs o.c).toNat % 8 ≠ 0 →
          Raises (.vgatherp c o u) s c cBadOperand (k.rs o.c))) ∧
      (∀ o : McopyOp, (o.sig = false → o.sw = 0 ∧ o.bit = 0) → (k.rs o.c).toNat ≤ 2 ^ 30 → (k.rs o.c).toNat ≠ 0 →
        (k.rs o.a).toNat % 4 = 0 → (k.rs o.b).toNat % 4 = 0 → (k.rs o.c).toNat % 4 = 0 →
        k.inFlight false < 8 →
        (o.sig = true → (s.signalWord c k .store (k.rs o.sw)).isSome = true) →
        Answers (.mcopy c o u) s fun t =>
          ∃ a : Async, CellOnly s t c { k with asyncNext := k.asyncNext + 1, async := k.async ++ [a] }.adv ∧
            a.id = k.asyncNext ∧ a.gather = false ∧ a.dst = k.rs o.a ∧ a.src = k.rs o.b ∧ a.len = (k.rs o.c).toNat ∧
            a.sup = k.sup ∧
            a.sig = if o.sig then (s.signalWord c k .store (k.rs o.sw)).map (fun pa => (pa, o.bit.toNat)) else none) ∧
      (∀ (o : McopyOp), (o.sig = false → o.sw = 0 ∧ o.bit = 0) → 2 ^ 30 < (k.rs o.c).toNat →
        Raises (.mcopy c o u) s c cBadOperand 0) ∧
      (∀ (o : WaitsigOp) (pa : Nat), k.predBusy [o.pd] = false → s.waitWord c k o = some pa →
        let mask := (k.rs o.c).toNat
        let w := s.readNat (s.cellTag k) pa 8
        mask ≠ 0 → (if o.any then w &&& mask ≠ 0 else w &&& mask = mask) →
        Stores (.waitsig c o u) s
          (if o.clr then s.writeBytes (s.cellTag k) pa (leBytes 8 (w &&& (2 ^ 64 - 1 - mask))) else s)
          c ((k.ws o.a (BitVec.ofNat 64 w)).wp o.pd (BitVec.allOnes 256)).adv) ∧
      (∀ o : FenceOp, o.pr = true ∨ o.pw = true → o.sr = true ∨ o.sw = true → (o.async = true → k.async = []) →
        (o.pr = true → ∀ a ∈ k.async, a.gather = false) →
        Runs (.fence c o u) s c k.adv)) ∧
  ((∀ (s : State) (c id : Nat) (a : Async), s.asyncOf c id true = some a →
        let k := s.cell c
        let lane := fun i => s.gatherLane k a i
        let ps := s.gatherReads k a
        let free := ps.any s.feedPending = false ∧ s.gatherHolds k (fun b => decide (b.id < a.id)) false ps = false
        (free → (∀ i, i < 256 → ∀ cause va, lane i ≠ .fault cause va) →
          Answers (.vgatherpComplete c id .none_) s fun t =>
            (∀ i, i < 256 → a.pd ≠ 0 →
              ((t.cell c).p[a.pd.toNat].getLsbD i = true ↔ ∃ ps e v, lane i = .row ps e v)) ∧
            (t.cell c).async = k.async.filter (fun b => b.id != id) ∧ (t.cell c).x = k.x ∧ (t.cell c).v = k.v ∧
            (t.cell c).pc = k.pc) ∧
        (∀ i, lane i ≠ .skip → i < a.lanes ∧ a.guardMask.getLsbD i = true) ∧
        (¬ free → exec (.vgatherpComplete c id .none_) s = .next s) ∧
        (∀ i cause va, free → i < 256 → lane i = .fault cause va → (∀ j, j < i → ∀ x y, lane j ≠ .fault x y) →
          k.ending = none →
          Answers (.vgatherpComplete c id .none_) s fun t =>
            (a.pd ≠ 0 → (t.cell c).p[a.pd.toNat] = 0) ∧
            (t.cell c).faults = k.faults ++ [{ gather := true, cause, addr := BitVec.ofNat 64 va }] ∧
            (t.cell c).async = k.async.filter (fun b => b.id != id))) ∧
    (∀ (s : State) (c id : Nat) (a : Async), s.asyncOf c id false = some a → (s.cell c).ending = none → s.memoryWf →
        let k := s.cell c
        let tag := s.cellTag k
        let rd := s.translateRange tag k.space .load (!a.sup) a.src.toNat a.len
        let wr := s.translateRange tag k.space .store (!a.sup) a.dst.toNat a.len
        Answers (.mcopyComplete c id .none_) s fun t =>
          (t.cell c).async = k.async.filter (fun b => b.id != id) ∧ (t.cell c).x = k.x ∧ (t.cell c).v = k.v ∧
          (t.cell c).p = k.p ∧ (t.cell c).pc = k.pc ∧
          (rd.2 = none → wr.2 = none → (t.cell c).faults = k.faults ∧
            (∀ pa bit b off, a.sig = some (pa, bit) → bit < 64 → pa % 8 = 0 → place pa = .shared b off →
              (t.readNat tag pa 8).testBit bit = true) ∧
            (∀ r w : Piece, rd.1 = [r] → wr.1 = [w] → a.sig = none → r.pa + r.len ≤ w.pa ∨ w.pa + w.len ≤ r.pa →
              (∀ x, w.pa ≤ x → x < w.pa + w.len → place x ≠ .hole ∧ place x ≠ .package ∧ ∀ b, place x ≠ .control b) →
              t.readBytes tag w.pa w.len = s.readBytes tag r.pa r.len)) ∧
          (∀ cause va, rd.2 = some (cause, va) → wr.2 = none →
            (t.cell c).faults = k.faults ++ [{ gather := false, cause, addr := BitVec.ofNat 64 va }])))

/-! ## Stops, fences and losses of units (R59 to R72, R126, R139, R140, R177, R184, R189) -/

/-- A unit that is fenced or lost is present no longer, and its fence is noted for the next frame boundary with its
unit identifier; while the clocks are held none is detected (R59 to R63, R81, R177). A replay of an edge is counted, and the eighth for one flit or more than 1,000 in a
frame retrain it; a retraining that succeeds clears its failures, and the third failure in a row opens the edge (R71). -/
def Obligations.UnitsAndEdges : Prop :=
  (∀ (s : State), s.units.cellFenced.length = 128 → s.units.dimms.length = 12 →
      (∀ c, s.cellPresent c = true → s.clocksRun = true →
        Answers (.cellWatchdogMiss c) s fun t => t.cellPresent c = false ∧
          ∃ p, (unitId 1 (c / 16) (c % 16) 0x02, p) ∈ t.units.toLog) ∧
      (∀ b why, s.blockPresent b = true → s.clocksRun = true →
        Answers (.blockFence b why) s fun t => t.blockPresent b = false ∧
          ∃ p, (unitId 2 b 0 (blockCauseCode why), p) ∈ t.units.toLog) ∧
      (∀ g, s.regionPresent g = true → s.clocksRun = true →
        Answers (.regionControllerFault g) s fun t => t.regionPresent g = false ∧
          (∀ i, i < 4 → t.stackPresent (4 * g + i) = false) ∧ ∃ p, (unitId 3 g 0 0x08, p) ∈ t.units.toLog) ∧
      (∀ n, s.stackPresent n = true → s.clocksRun = true →
        Answers (.stackLost n) s fun t => t.stackPresent n = false ∧ ∃ p, (unitId 4 n 0 0x06, p) ∈ t.units.toLog) ∧
      (∀ d why, d < 12 → s.units.dimms.getD d 0 ≠ 0 →
        Answers (.dimmLost d why) s fun t => t.units.dimms.getD d 0 = 0 ∧ (unitId 7 d 0 0x06, 0xFF) ∈ t.units.toLog) ∧
      (s.clocksRun = false → ∀ b why g n,
        exec (.blockFence b why) s = .next s ∧ exec (.regionControllerFault g) s = .next s ∧
        exec (.stackLost n) s = .next s)) ∧
  (∀ (s : State) (e n : Nat), e < s.units.edges.length →
      let k := s.edge e
      (k.up = true → k.retraining = false →
        Answers (.edgeReplay e n) s fun t => t.edge e =
          { k with frameReplays := k.frameReplays + 1, retraining := decide (8 ≤ n ∨ 1000 < k.frameReplays + 1) } ∧
          ∀ f, f ≠ e → t.edge f = s.edge f) ∧
      (k.up = true → k.retraining = true →
        (Answers (.edgeRetrainComplete e true) s fun t => t.edge e = { k with retraining := false, failures := 0 }) ∧
        (k.failures < 2 → Answers (.edgeRetrainComplete e false) s fun t => t.edge e = { k with failures := k.failures + 1 }) ∧
        (2 ≤ k.failures → Answers (.edgeRetrainComplete e false) s fun t => (t.edge e).up = false ∧
          (unitId 5 e 0 0x07, 0xFF) ∈ t.units.toLog)))

/-- A clean line of shared SRAM with a parity error is fetched again from its source; a scrubbed granule counts
as zeroed; a page with an uncorrectable error is retired at once, one with a third corrected error in 24 h waits for its
owner (R68, R183 to R185, R189); a promotion that meets no fault copies the page, swaps the level-2 entry to the pool page
and writes a done record for the old page (R180). -/
def Obligations.MemoryUpkeep : Prop :=
  (∀ (s : State),
      (∀ (b line src : Nat) (t : Tag), s.blockPresent b = true → line < 65536 → s.memoryWf →
        let l := sharedBase b / 256 + line
        s.mem.cleanLines.find l = some src → s.mem.tags.find l = some t →
        Answers (.sramLineRefetch b line true) s fun u =>
          ∀ i, i < 256 → u.readByte t (l * 256 + i) = (s.readBytes t src 256).getD i 0) ∧
      (∀ g, s.present (g * granuleSize) = true → s.inDump (g * granuleSize) = false →
        (s.granule g).scrub = .pending →
        Answers (.granuleZeroed g) s fun t => t.granule g = { s.granule g with scrub := .zeroed } ∧
          t.mem.cells = s.mem.cells) ∧
      (∀ pa, s.present pa = true → (∃ n o, place pa = .hbm n o ∨ place pa = .ddr n o) →
        exec (.patrolScrub pa .clean) s = .next s ∧
        (Answers (.patrolScrub pa .uncorrectable) s fun t =>
          t.flash.retired.any (fun r => r.retired && r.page == pa / 4096) = true) ∧
        (2 ≤ (((s.mem.corrected.find (pa / 4096)).getD []).filter fun x => s.power.frame.toNat < x + 4320000000).length →
          Answers (.patrolScrub pa .corrected) s fun t => t.flash.retired.any (fun r => r.page == pa / 4096) = true))) ∧
  (∀ (s : State) (g : Nat) (h : Hint) (l : List Hint), s.mem.hints.find g = some (h :: l) → s.regionPresent g = true →
      s.clocksRun = true →
      let s0 := { s with mem := { s.mem with hints := s.mem.hints.put g l } }
      let cb := (s0.ctx h.part h.ctx).tierCb.toNat
      let r0 := s0.tierRead g h cb 0x40
      exec (.tierPromotion g .none_) s = .next (s0.takeHint g h) ∧
      ∀ (d pe : List Byte) (src dst : List Piece), r0.2 = some d →
        let fld := gatherDesc d
        fld 0x0C 4 ≠ fld 0x10 4 → (fld 0x28 4 + 2 ^ 32 - fld 0x24 4) % 2 ^ 32 < fld 0x20 4 →
        let r1 := r0.1.tierRead g h (fld 0x00 8 + 8 * (fld 0x0C 4 % fld 0x08 4)) 8
        let w1 := r1.1.tierWrite g h (cb + 0x0C) (leBytes 4 (fld 0x0C 4 + 1))
        let s1 := w1.1
        let pool := leNat pe
        let old := h.value.toNat / 4096 * 4096
        r1.2 = some pe → w1.2 = true →
        s1.vpieces h.part h.ctx .load old (2 ^ h.pgsz) = (src, none) →
        s1.vpieces h.part h.ctx .store pool (2 ^ h.pgsz) = (dst, none) →
        pool % 2 ^ h.pgsz = 0 → s1.ownedHbm h.part h.ctx dst = true →
        let b := s1.moverBlock g
        let moved := ((s1.vsnoop h.part h.ctx old (2 ^ h.pgsz)).movePieces (s1.tagOf h.part h.ctx) src src dst).count b
          mkTier 0 (if h.sup then privSup else privUser) clsMemory (moverEvents b false src ++ moverEvents b true dst)
        let r2 := moved.tierRead g h h.entry.toNat 8
        let w2 := r2.1.tierWrite g h h.entry.toNat (leBytes 8 (pool + 1))
        r2.2.map leNat = some h.value.toNat → w2.2 = true →
        s0.takeHint g h = w2.1.endPromotion g h (old + 1)) ∧
  (∀ (s : State) (g : Nat) (h : Hint) (va n : Nat) (l : List Byte),
      let r := s.tierRead g h va n
      let w := s.tierWrite g h va l
      r.1.mem.cells = s.mem.cells ∧ r.2 = r.1.vread h.part h.ctx va n ∧
      (∀ u, s.vwrite h.part h.ctx va l = some u → w.2 = true ∧ w.1.mem = u.mem) ∧
      (s.vwrite h.part h.ctx va l = none → w = (s, false)))

/-! ## Host accesses (R10, R193 to R207) -/

/-- The host reads and writes device memory through a committed window; a line it reads is held in the snoop
filter; an unanswered snoop or CXL.cache request is recorded and stops the context (R193, R194, R424). An access of the
module's agents sends a snoop for each line that the host may hold, which takes it out of the filter, and touches no
other line's entry (R193). -/
def Obligations.HostMemoryAccess : Prop :=
  (∀ (s : State) (addr : Nat) (w : Window), s.hostUp = true → s.windowAt addr = some w →
    let pa := w.toDpa addr
    (∀ (len : Nat) (tee : Bool), addr + len ≤ w.base + w.length → (s.windowConf w = true → tee = true) →
      (Answers (.hostMemRead addr len tee .none_) s fun t =>
        OutMsg.hostData ((List.range len).map fun i => s.hostByte (pa + i)) ∈ t.out ∧ t.mem.cells = s.mem.cells ∧
        t.cells = s.cells) ∧
      (∀ x, pa ≤ x → x < pa + len → (∃ n o, place x = .hbm n o ∨ place x = .ddr n o) →
        Answers (.hostMemRead addr len tee { ReadErr.none_ with bad := some (.uncorrectable x) }) s fun t =>
          OutMsg.hostData (List.replicate len 0xFF) ∈ t.out ∧ { kind := rasData, addr := addr } ∈ t.mem.ras)) ∧
    (∀ (data : List Byte) (tee : Bool), addr + data.length ≤ w.base + w.length →
      (s.windowConf w = true → tee = true) →
      Answers (.hostMemWrite addr data tee) s fun t => t.mem.cells = (s.hostStore pa data).mem.cells ∧ t.cells = s.cells) ∧
    (∀ (len : Nat) (data : List Byte), addr + len ≤ w.base + w.length → addr + data.length ≤ w.base + w.length →
      s.windowConf w = true →
      (Answers (.hostMemRead addr len false .none_) s fun t => t.mem.cells = s.mem.cells ∧
        OutMsg.hostData (List.replicate len 0xFF) ∈ t.out ∧ { kind := rasTee, addr := addr } ∈ t.mem.ras) ∧
      (Answers (.hostMemWrite addr data false) s fun t => t.mem.cells = s.mem.cells ∧
        { kind := rasTee, addr := addr } ∈ t.mem.ras)) ∧
    (∀ line p c, line ∈ (s.mem.snoop.find (line % 4)).getD [] →
      Answers (.biSnoopTimeout line p c) s fun t => { kind := rasSnoop, addr := line * 64 } ∈ t.mem.ras ∧
        (t.ctx p c).st ≠ .resident) ∧
    (∀ p c, (s.ctx p c).host = true →
      Answers (.cxlCacheTimeout p c) s fun t => { kind := rasCache, addr := 0 } ∈ t.mem.ras ∧
        (t.ctx p c).st ≠ .resident)) ∧
  (∀ (s : State) (pa n line d : Nat),
    let u := s.recall pa n
    let touched := 0 < n ∧ pa / 64 ≤ line ∧ line * 64 < pa + n
    u.mem.cells = s.mem.cells ∧
    (touched → line ∉ (u.mem.snoop.find d).getD [] ∧
      (line ∈ (s.mem.snoop.find d).getD [] → OutMsg.snoop line ∈ u.out)) ∧
    (¬ touched → (line ∈ (u.mem.snoop.find d).getD [] ↔ line ∈ (s.mem.snoop.find d).getD []))) ∧
  (∀ (s : State) (c : Nat) (u : Upset) (o : MOp) (n : Nat) (ps : List Piece), s.Ready c → Unhurt u →
    PlainForm o False False False → scalarSize o.et = some n → ((s.cell c).address o).toNat % n = 0 →
    let touches := fun (line : Nat) (p : Piece) => 0 < p.len ∧ p.pa / 64 ≤ line ∧ line * 64 < p.pa + p.len
    let held := fun (x : State) (line d : Nat) => line ∈ (x.mem.snoop.find d).getD []
    let snooped := fun t => ∀ line d,
      ((∃ p ∈ ps ++ s.fetchReads c, touches line p) →
        ¬ held t line d ∧ (held s line d → OutMsg.snoop line ∈ t.out)) ∧
      ((∀ p ∈ ps ++ s.fetchReads c ++ entryPieces (s.dataEntries c (ps.map (·.va))), ¬ touches line p) →
        (held t line d ↔ held s line d))
    (s.memRange (s.cell c) .load ((s.cell c).address o).toNat n = .ok ps → Answers (.ldu c o u) s snooped) ∧
    (s.memRange (s.cell c) .store ((s.cell c).address o).toNat n = .ok ps → Answers (.st c o u) s snooped))

/-- Registers of the apertures: reserved bits are dropped, `CMPL_BASE` changes only while taking is disabled,
`MBX_ERR` clears the bits given as 1, an uncommitted window descriptor takes its fields (R10, R198 to R207). An HDM decoder
commits only for a window that names present memory of a partition in service with the same size in 256 MiB units, and none
at all without 256-byte flits or out of service (R196, R207, R462). The words that a read gives hold the fields at
their places, and a reserved offset reads as zero (R10, R198, R199, R201, R203). -/
def Obligations.HostRegisters : Prop :=
  (∀ (s : State) (v : BitVec 64), s.hostUp = true →
      (Answers (.mbxCtlWrite v) s fun t => t = { s with mail := { s.mail with
        enable := v.getLsbD 0, evtVec := v.extractLsb' 8 6, evtEn := v.getLsbD 14 } }) ∧
      (s.mail.enable = false →
        Answers (.cmplBaseWrite v) s fun t => t = { s with mail := { s.mail with cmplBase := v &&& ~~~0xFFF } }) ∧
      (s.mail.enable = true →
        Answers (.cmplBaseWrite v) s fun t => t = { s with mail := { s.mail with errCtlIgnored := true } }) ∧
      (exec (.registerWrite (.bar0 8) v) s = exec (.mbxCtlWrite v) s) ∧
      (exec (.registerWrite (.bar0 0x10) v) s = exec (.cmplBaseWrite v) s) ∧
      (Answers (.registerWrite (.bar0 0x18) v) s fun t => t = { s with mail := { s.mail with
        errTakenWrite := s.mail.errTakenWrite && !v.getLsbD 0, errBadOwn := s.mail.errBadOwn && !v.getLsbD 1
        errCmplFail := s.mail.errCmplFail && !v.getLsbD 2
        errCtlIgnored := s.mail.errCtlIgnored && !v.getLsbD 3 } }) ∧
      (∀ i w, s.mail.windows[i]? = some w → i < 8 → w.committed = false →
        (Answers (.registerWrite (.bar4 (0x1000 + 32 * i)) v) s fun t =>
          t.mail.windows[i]? = some { w with en := v.getLsbD 0, part := v.extractLsb' 4 8 }) ∧
        (Answers (.registerWrite (.bar4 (0x1008 + 32 * i)) v) s fun t =>
          t.mail.windows[i]? = some { w with dpa := v &&& 0x000FFFFFF0000000 }) ∧
        (Answers (.registerWrite (.bar4 (0x1010 + 32 * i)) v) s fun t =>
          t.mail.windows[i]? = some { w with size := v &&& 0x000FFFFFF0000000 })) ∧
      (∀ off, off ≠ 8 → off ≠ 0x10 → off ≠ 0x18 → off < 0x8000 → exec (.registerWrite (.bar0 off) v) s = .next s)) ∧
  (∀ (s : State) (i base size : Nat) (w : Window), s.hostUp = true → i < 8 → s.mail.windows[i]? = some w →
      (w.committed = true → s.windowConf w = false) →
      (s.board.flit256 = true → s.commitOk i w size = true →
        Answers (.hdmCommit i base size) s fun t =>
          t.mail.windows[i]? = some { w with committed := true, notCommitted := false, refused := false, base, length := size }) ∧
      (s.board.flit256 = true → s.commitOk i w size = false →
        Answers (.hdmCommit i base size) s fun t =>
          t.mail.windows[i]? = some { w with committed := false, notCommitted := true, refused := true }) ∧
      (s.board.flit256 = false →
        Answers (.hdmCommit i base size) s fun t =>
          t.mail.windows[i]? = some { w with committed := false, notCommitted := true }) ∧
      (s.commitOk i w size = true → s.flash.persist.oos = false ∧ w.en = true ∧ w.size.toNat = size ∧ size % 2 ^ 28 = 0 ∧ size ≠ 0 ∧
        w.part.toNat < 8 ∧ (s.part w.part.toNat).inService = true)) ∧
  (∀ s : State,
      let status := s.readReg (.bar0 0)
      status.getLsbD 0 = s.mail.ready ∧ status.getLsbD 1 = s.mail.negotiated ∧ status.getLsbD 2 = s.flash.persist.oos ∧
      status.getLsbD 3 = s.units.noCompute ∧ status.extractLsb' 4 2 = s.mail.start ∧
      status.extractLsb' 8 8 = s.mail.level ∧ status.extractLsb' 32 32 = s.mail.resetGen ∧
      s.readReg (.bar0 0x10) = s.mail.cmplBase ∧ s.readReg (.bar0 0x28) = s.power.frame ∧
      (∀ off, 0x30 ≤ off → off < 0x8000 → s.readReg (.bar0 off) = 0))

/-! ## Slots and completions (R208 to R214) -/

/-- Slots: a host write of 0x01 posts a slot, 0x00 withdraws it, a write to a taken slot is ignored and noted; a
posted slot is taken in its turn (R210), and a command that fails a check of R211 completes at once with none of its effect (R209 to
R211). A completion is the 64-byte record at `CMPL_BASE` + 64 × slot, the slot returned, the command no longer taken, and the
interrupt vector noted unless the command asked for none; where the write to host memory fails, which is open (assumption
log entry 5), `CMPL_FAIL` is set and the slot is returned all the same (R202, R204, R212, R213). -/
def Obligations.SlotsAndCompletions : Prop :=
  (∀ (s : State) (slot : Nat), s.hostUp = true → slot < 1024 → s.memoryWf →
      (s.mail.own slot = 0 ∨ s.mail.own slot = 3 →
        Answers (.slotPost slot) s fun t => t.mail.own slot = 1 ∧ t.mail.posted = s.mail.posted ++ [slot] ∧
          (∀ a, a ≠ slot * 256 → Cells.get t.mail.bar2 a = Cells.get s.mail.bar2 a) ∧ t.mem = s.mem) ∧
      (s.mail.own slot ≠ 2 →
        Answers (.slotWithdraw slot) s fun t => t.mail.own slot = 0 ∧ slot ∉ t.mail.posted) ∧
      (s.mail.own slot = 2 →
        (Answers (.slotPost slot) s fun t => t = { s with mail := { s.mail with errTakenWrite := true } }) ∧
        (Answers (.slotWithdraw slot) s fun t => t = { s with mail := { s.mail with errTakenWrite := true } })) ∧
      (∀ off b, 0 < off → off < 256 →
        Answers (.slotWrite (slot * 256 + off) [b]) s fun t =>
          if s.mail.own slot = 2 then t = { s with mail := { s.mail with errTakenWrite := true } }
          else Cells.get t.mail.bar2 (slot * 256 + off) = b ∧
            ∀ a, a ≠ slot * 256 + off → Cells.get t.mail.bar2 a = Cells.get s.mail.bar2 a) ∧
      (s.takes = true → s.mail.own slot = 1 → s.mail.nextTaken slot = true →
        let t1 := { s with mail := { s.mail.setOwn slot 2 with
          posted := s.mail.posted.filter (· != slot), taken := s.mail.taken ++ [s.header slot] } }
        (∀ r, s.checkTaken (s.header slot) = some r →
          exec (.slotTake slot) s = .next (t1.complete (s.header slot) r)) ∧
        (s.checkTaken (s.header slot) = none → exec (.slotTake slot) s = .next t1 ∧ t1.mail.own slot = 2)) ∧
      (s.mail.nextTaken slot = false → exec (.slotTake slot) s = .next s)) ∧
  (∀ (s : State) (t : Taken) (r : Report), s.memoryWf →
      let u := s.complete t r
      let base := s.mail.cmplBase.toNat + t.slot * 64
      let at_ := fun off n => leNat ((List.range n).map fun i => (SMap.find u.mem.host (base + off + i)).getD 0)
      let fails := s.free.2.hostFails
      u.mail.own t.slot = 3 ∧ (∀ x ∈ u.mail.taken, x.slot ≠ t.slot) ∧
      (∀ x ∈ s.mail.taken, x.slot ≠ t.slot → x ∈ u.mail.taken) ∧
      (fails = false →
        at_ 0 4 = t.seq.toNat ∧ at_ 4 1 = r.status % 256 ∧ at_ 5 1 = t.opcode.toNat ∧ at_ 8 8 = r.r0 % 2 ^ 64 ∧
        at_ 0x10 8 = r.r1 % 2 ^ 64 ∧ at_ 0x18 8 = r.r2 % 2 ^ 64 ∧ at_ 0x20 8 = r.r3 % 2 ^ 64 ∧
        at_ 0x28 8 = r.energy % 2 ^ 64 ∧ at_ 0x30 8 = s.power.frame.toNat ∧ at_ 0x3C 4 = 0 ∧
        (t.noirq = false → t.vec.toNat < 64 → u.mail.frameVecs.getLsbD t.vec.toNat = true) ∧
        u.mail.errCmplFail = s.mail.errCmplFail ∧
        (∀ a, a < base ∨ base + 64 ≤ a → SMap.find u.mem.host a = SMap.find s.mem.host a)) ∧
      (fails = true → u.mem.host = s.mem.host ∧ u.mail.errCmplFail = true ∧ u.mail.frameVecs = s.mail.frameVecs) ∧
      (t.noirq = true → u.mail.frameVecs = s.mail.frameVecs) ∧ u.mem.cells = s.mem.cells ∧
      u.cells = s.cells ∧ u.parts = s.parts)

/-! ## Mailbox commands: levels, information, configuration, partitions, contexts (R214 to R238) -/

/-- `HELLO` negotiates level 0x10, `GET_INFO` writes a page and `CONFIG_READ` a set to the host's buffer, cut to
its length with the report of R218 (R214, R218, R219, R225). The shadow set takes the bytes written and no others; a swap
passes the checks of R226 or completes with the offset of the first failing field, and waits for the frame boundary with the
active set unchanged. -/
def Obligations.InformationAndConfiguration : Prop :=
  (∀ (s : State) (slot : Nat) (t : Taken),
      let b := s.body slot
      let gives := fun (i : Instr) (data : List Byte) =>
        exec i s = .next ((s.hostWrite (b 8 8) (data.take (b 0x10 4))).complete t
          { Report.of stDone with
            r0 := data.length, r1 := min (b 0x10 4) data.length
            flags := if b 0x10 4 < data.length then cflagTrunc else 0 })
      (s.startable slot opHello = some t → b 1 1 ≤ 0x10 → 0x10 ≤ b 0 1 → s.mail.taken.length = 1 →
        exec (.hello slot) s = .next ({ s with mail := { s.mail with negotiated := true, level := 0x10 } }.complete t
          { Report.of stDone with
            r0 := 0x10 + 0x10 * 2 ^ 8 + 1024 * 2 ^ 16
            r1 := providedLevel (s.sec.runningImages.getD 2 none) 0x01 })) ∧
      (s.startable slot opHello = some t → 0x10 < b 1 1 ∨ b 0 1 < 0x10 →
        exec (.hello slot) s = .next (s.complete t (.of stBadLevel))) ∧
      (s.startable slot opGetInfo = some t → b 8 8 % 64 = 0 → b 0x10 4 % 64 = 0 →
        (b 0 1 = 0 → gives (.getInfo slot) s.identityPage) ∧
        (b 0 1 = 1 → gives (.getInfo slot) s.topologyPage) ∧
        (b 0 1 = 2 → gives (.getInfo slot) (s.retiredPages (b 4 4))) ∧
        (2 < b 0 1 → exec (.getInfo slot) s = .next (s.complete t (.of stBadField)))) ∧
      (s.startable slot opConfigRead = some t → b 8 8 % 64 = 0 → b 0x10 4 % 64 = 0 → b 0 1 ≤ 1 →
        gives (.configRead slot) (leBytes 256 (if b 0 1 = 0 then s.config.active else s.config.shadow).toNat))) ∧
  (∀ (s : State) (slot : Nat) (t : Taken),
      let b := s.body slot
      (s.startable slot opConfigWrite = some t → 1 ≤ b 2 2 → b 2 2 ≤ 176 → b 0 2 + b 2 2 ≤ 256 → s.config.swap = none →
        Answers (.configWriteShadow slot) s fun u =>
          (∀ i, cfg u.config.shadow i 1 =
            if b 0 2 ≤ i ∧ i < b 0 2 + b 2 2 then (b (0x10 + (i - b 0 2)) 1) else cfg s.config.shadow i 1) ∧
          u.config.active = s.config.active ∧ u.mail.own t.slot = 3) ∧
      (s.startable slot opConfigWrite = some t → s.config.swap ≠ none → 1 ≤ b 2 2 → b 2 2 ≤ 176 → b 0 2 + b 2 2 ≤ 256 →
        exec (.configWriteShadow slot) s = .next (s.complete t (.of stBusy))) ∧
      (s.startable slot opConfigSwap = some t → s.config.swap = none →
        (∀ off, s.cfgBad s.config.shadow = some off →
          exec (.configSwap slot) s = .next (s.complete t { Report.of stBadField with r0 := off })) ∧
        (s.cfgBad s.config.shadow = none →
          s.config.shadow.getLsbD 33 = false ∨ s.floorFits (cfg s.config.shadow 6 2) = true →
          Answers (.configSwap slot) s fun u => u.config = { s.config with swap := some slot } ∧
            ∀ x ∈ u.mail.taken, x.slot = slot → x.started = true)))

/-- `PART_CREATE` and `PART_DESTROY` (R230 to R233): the partition takes its regions, ranges and weight, with
its contexts closed; destroyed, its granules are free and pending and its generation has advanced. -/
def Obligations.PartitionLifecycle : Prop :=
  ∀ (s : State) (slot : Nat) (t : Taken),
    let p := t.part.toNat
    p < 8 → s.sized → s.memoryWf →
    (s.startable slot opPartCreate = some t → s.partRefusal slot p = none →
      Answers (.partCreate slot) s fun u =>
        (u.part p).inService = true ∧ (u.part p).regions = BitVec.ofNat 8 (s.body slot 0 1) ∧
        (u.part p).weight = s.body slot 2 2 ∧ (u.part p).conf = (s.body slot 1 1 == 1) ∧
        (u.part p).ranges = s.bodyRanges slot ∧ (u.part p).pgen = (s.part p).pgen ∧
        (∀ c, (u.ctx p c).st = .closed) ∧ (∀ q, q ≠ p → u.part q = s.part q) ∧ u.mail.own t.slot = 3) ∧
    (s.startable slot opPartCreate = some t → ∀ st, s.partRefusal slot p = some st →
      exec (.partCreate slot) s = .next (s.complete t (.of st))) ∧
    (s.startable slot opPartDestroy = some t → (∀ c ∈ (s.part p).ctxs, c.st = .closed) → s.flash.retired = [] →
      Answers (.partDestroy slot) s fun u =>
        (u.part p).inService = false ∧ (u.part p).pgen = genNext (s.part p).pgen ∧ (u.part p).ctxs = (s.part p).ctxs ∧
        (∀ g x, (g, x) ∈ s.mem.granules → s.inPart p g = true →
          u.granule g = { owner := .free, scrub := .pending }) ∧ u.mail.own t.slot = 3)

/-- The three forms of `CTX_OPEN` (R237, R238): a context opens with its class, tables and entry; listed
granules get their owner; a form that a check refuses completes with its status and changes no context; one for a
confidential partition waits while the security controller is paused, and ends `BUSY` after 1 s (R238 step 7).
A context closes in two steps (R258): its generation advances and its cells stop issuing at once; when its
traffic has drained, its cells are free, its granules free and pending, its key gone, and the command completes
with the new generation. -/
def Obligations.ContextLifecycle : Prop :=
  (∀ (s : State) (slot : Nat) (t : Taken) (list : List Byte),
      let b := s.body slot
      let p := t.part.toNat
      let c := t.ctx.toNat
      let gs := listGranules (listEntries list (b 0x28 4 / 16))
      s.startable slot opCtxOpen = some t → t.slot = slot → p < 8 → c < 16 → s.sized →
      (b 0 1 = 0 → s.ctxRefusal t 0 (listEntries list (b 0x28 4 / 16)) = none →
        (s.confidential p = true → s.sec.paused = false) →
        Answers (.ctxOpen slot list) s fun u =>
          (u.ctx p c).st = .opened ∧ (u.ctx p c).cls = BitVec.ofNat 8 (b 1 1) ∧
          (u.ctx p c).ptroot = BitVec.ofNat 64 (b 8 8) ∧ (u.ctx p c).svec = BitVec.ofNat 64 (b 0x10 8) ∧
          (u.ctx p c).tierCb = BitVec.ofNat 64 (b 0x18 8) ∧ (u.ctx p c).host = (b 2 1 == 1) ∧
          (u.ctx p c).quantum = (if b 4 4 = 0 then 500 else b 4 4) ∧ (u.ctx p c).cgen = (s.ctx p c).cgen ∧
          (u.ctx p c).key.isSome = s.confidential p ∧
          (∀ g ∈ gs, (u.granule g).owner = .ctx p c) ∧ (∀ g, g ∉ gs → u.granule g = s.granule g) ∧
          u.mail.own slot = 3) ∧
      (b 0 1 = 1 → s.ctxRefusal t 1 (listEntries list (b 0x28 4 / 16)) = none →
        Answers (.ctxGrant slot list) s fun u =>
          (∀ g ∈ gs, (u.granule g).owner = .ctx p c) ∧ (∀ g, g ∉ gs → u.granule g = s.granule g) ∧
          u.parts = s.parts ∧ u.mail.own slot = 3) ∧
      (b 0 1 = 2 → s.ctxRefusal t 2 (listEntries list (b 0x28 4 / 16)) = none →
        Answers (.ctxShare slot list) s fun u =>
          (∀ g ∈ gs, (u.granule g).owner = .shared p) ∧ (∀ g, g ∉ gs → u.granule g = s.granule g) ∧
          u.parts = s.parts ∧ u.mail.own slot = 3) ∧
      (∀ st, b 0 1 = 0 → s.ctxRefusal t 0 (listEntries list (b 0x28 4 / 16)) = some st →
        exec (.ctxOpen slot list) s = .next (s.complete t (.of st))) ∧
      (b 0 1 = 0 → s.ctxRefusal t 0 (listEntries list (b 0x28 4 / 16)) = none → s.confidential p = true →
        s.sec.paused = true →
        (t.waiting = none → Answers (.ctxOpen slot list) s fun u => u.parts = s.parts ∧
          ∀ x ∈ u.mail.taken, x.slot = slot → x.waiting = some s.power.frame.toNat) ∧
        (∀ f, t.waiting = some f → s.power.frame.toNat < f + 50000 → exec (.ctxOpen slot list) s = .next s) ∧
        (∀ f, t.waiting = some f → f + 50000 ≤ s.power.frame.toNat →
          exec (.ctxOpen slot list) s = .next (s.complete t (.of stBusy))))) ∧
  (∀ (s : State) (p c : Nat), p < 8 → c < 16 → s.sized → s.memoryWf →
      (∀ (slot : Nat) (t : Taken), s.startable slot opCtxClose = some t → t.part.toNat = p → t.ctx.toNat = c →
        ((s.ctx p c).st = .opened ∨ (s.ctx p c).st = .resident ∨ (s.ctx p c).st = .stopped →
          Answers (.ctxClose slot) s fun u =>
            (u.ctx p c).st = .closing ∧ (u.ctx p c).cgen = genNext (s.ctx p c).cgen ∧
            (∀ x k, (x, k) ∈ u.cells → k.runs p c = true → k.stopped = true) ∧
            { part := p, ctx := c, slot := some slot } ∈ u.disp.teardowns) ∧
        ((s.ctx p c).st = .closed ∨ (s.ctx p c).st = .closing →
          exec (.ctxClose slot) s = .next (s.complete t (.of stWrongState)))) ∧
      (∀ d : Teardown, s.disp.teardowns.find? (fun x => x.part == p && x.ctx == c) = some d → s.flash.retired = [] →
        Answers (.teardownDrainComplete p c) s fun u =>
          (u.ctx p c).st = .closed ∧ (u.ctx p c).key = none ∧ (u.ctx p c).cgen = (s.ctx p c).cgen ∧
          (∀ x k, (x, k) ∈ u.cells → k.runs p c = false) ∧
          (∀ g, (u.granule g).owner ≠ .ctx p c) ∧
          (∀ x ∈ u.disp.teardowns, ¬(x.part = p ∧ x.ctx = c))))

/-! ## Grids, copies and what stops them (R220 to R223, R242 to R256) -/

/-- `SUBMIT` queues a grid with the fields of its body and no item started, and the context's translations discarded (R134); `COPY` and `FILL` start a transfer;
`SCRUB` frees its granules and marks them pending, and completes with their number (R190, R220, R242).
A running transfer moves the rest of its bytes and completes with the number moved; one that has been
stopped, or whose context is not live, moves nothing (R220, R257). -/
def Obligations.GridsAndTransfers : Prop :=
  (∀ (s : State) (slot : Nat) (t : Taken),
      let b := s.body slot
      let p := t.part.toNat
      let c := t.ctx.toNat
      (s.startable slot opSubmit = some t → t.slot = slot → s.ctxLive p c = true → s.submitOk slot = true →
        Answers (.submit slot) s fun u => ∃ x : Submit,
          u.disp.submits = s.disp.submits ++ [x] ∧ x.slot = slot ∧ x.part = p ∧ x.ctx = c ∧ x.items = b 0x10 4 ∧
          x.kernel = BitVec.ofNat 64 (b 0 8) ∧ x.args = BitVec.ofNat 64 (b 8 8) ∧ x.estUj = b 0x14 4 ∧
          x.prio = b 0x18 1 ∧ x.restart = (b 0x19 1 == 1) ∧ x.next = 0 ∧ x.running = [] ∧ x.complete = 0 ∧
          u.mem = s.mem ∧ (∀ d, (u.cell d).arch = (s.cell d).arch) ∧
          ∀ d, ∀ y ∈ (u.cell d).tlb, ¬(y.tag.part = p ∧ y.tag.ctx = c)) ∧
      (s.startable slot opCopy = some t → t.slot = slot → s.ctxLive p c = true →
        b 0 8 % 4 = 0 → b 8 8 % 4 = 0 → b 0x10 8 % 4 = 0 → 4 ≤ b 0x10 8 → b 0x10 8 ≤ 2 ^ 40 →
        (s.vplace p c .load (b 0 8)).isSome = true → (s.vplace p c .store (b 8 8)).isSome = true →
        Answers (.copy slot) s fun u => ∃ x : Transfer,
          u.disp.transfers = s.disp.transfers ++ [x] ∧ x.slot = slot ∧ x.fill = false ∧ x.src.toNat = b 0 8 % 2 ^ 64 ∧
          x.dst.toNat = b 8 8 % 2 ^ 64 ∧ x.len = b 0x10 8 ∧ x.moved = 0 ∧ u.mem = s.mem) ∧
      (s.startable slot opFill = some t → t.slot = slot → s.ctxLive p c = true →
        b 0 8 % 8 = 0 → b 8 8 % 8 = 0 → 8 ≤ b 8 8 → b 8 8 ≤ 2 ^ 40 → (s.vplace p c .store (b 0 8)).isSome = true →
        Answers (.fill slot) s fun u => ∃ x : Transfer,
          u.disp.transfers = s.disp.transfers ++ [x] ∧ x.slot = slot ∧ x.fill = true ∧ x.dst.toNat = b 0 8 % 2 ^ 64 ∧
          x.len = b 8 8 ∧ x.pattern = BitVec.ofNat 64 (b 0x10 8) ∧ x.moved = 0 ∧ u.mem = s.mem) ∧
      (s.startable slot opScrub = some t → s.memoryWf → b 0 8 % granuleSize = 0 → b 8 4 ≠ 0 → b 8 4 ≤ 2 ^ 20 → s.flash.retired = [] →
        (∀ i, i < b 8 4 → (s.granule (b 0 8 / granuleSize + i)).owner = (if c = 0xFF then .shared p else .ctx p c) ∧
          s.inDump ((b 0 8 / granuleSize + i) * granuleSize) = false) →
        Answers (.scrub slot) s fun u =>
          (∀ i, i < b 8 4 → u.granule (b 0 8 / granuleSize + i) = { owner := .free, scrub := .pending }) ∧
          (∀ g, g < b 0 8 / granuleSize ∨ b 0 8 / granuleSize + b 8 4 ≤ g → u.granule g = s.granule g) ∧
          u.mail.own t.slot = 3)) ∧
  (∀ (s : State) (slot : Nat) (x : Transfer), s.transferOf slot = some x →
      (s.ctxLive x.part x.ctx = true → s.clocksRun = true →
        let r := s.advance x x.len
        exec (.moverTransferComplete slot .none_) s =
          .next (r.1.endTransfer x (if r.2 = x.len then stDone else stBadField) r.2 stWrongState) ∧
        (x.fill = true →
          let wr := (s.vpieces x.part x.ctx .store (x.dst.toNat + x.moved) (x.len - x.moved)).1
          r.2 = x.moved + okBytes wr ∧
          r.1.rest = (s.writePieces (s.tagOf x.part x.ctx) wr (patternBytes x.pattern x.moved (okBytes wr))).rest)) ∧
      (s.ctxLive x.part x.ctx = false → exec (.moverTransferComplete slot .none_) s = .next s) ∧
      (∀ (w : Word) (off n i : Nat), i < n →
        (patternBytes w off n)[i]? = some (w.extractLsb' (8 * ((off + i) % 8)) 8)))

/-- `SUSPEND`, `RESUME`, `CANCEL` and `QUERY` on the operation that a slot and `SEQ` name (R221 to R223);
a grid resumed waits its 500 frames of R251 anew, and one whose items have all ended is not named any more.
Resumable points (R222, R255, R256, R335): a grid with no item running is held or cancelled, a batch between
operations is held, a transfer stops at a multiple of 2 MiB short of its end. -/
def Obligations.SuspensionAndResumption : Prop :=
  (∀ (s : State) (slot : Nat) (t : Taken),
      (s.startable slot opSuspend = some t → s.nameOk t 2 = true →
        (s.liveTarget t = none → exec (.suspend slot) s = .next (s.complete t (.of stWrongState))) ∧
        (∀ x, s.liveTarget t = some x → x.held = false → x.stop = none → s.heldCount < 256 →
          exec (.suspend slot) s = .next (s.applyStop t x false (s.body slot 8 1 == 1))) ∧
        (∀ x, s.liveTarget t = some x → x.held = false → x.stop = none → 256 ≤ s.heldCount →
          exec (.suspend slot) s = .next (s.complete t (.of stNoResource)))) ∧
      (s.startable slot opResume = some t → s.nameOk t 1 = true →
        (∀ u, s.liveTarget t = some (.submit u) → u.held = true → u.stop = none →
          Answers (.resume slot) s fun v => v.disp.submits = s.disp.submits.map (fun y =>
            if y.order = u.order then
              { u with held := false, slot := t.slot, seq := t.seq, idleFrames := 0, aged := false } else y) ∧
            v.mem = s.mem) ∧
        (∀ x, s.liveTarget t = some (.transfer x) → x.held = true → x.stop = none →
          Answers (.resume slot) s fun v => v.disp.transfers = s.disp.transfers.map (fun y =>
            if y = x then { x with held := false, slot := t.slot, seq := t.seq } else y) ∧ v.mem = s.mem)) ∧
      (s.startable slot opCancel = some t → s.nameOk t 1 = true →
        (∀ x, s.liveTarget t = some x → x.held = true →
          exec (.cancel slot) s = .next ((s.discard x).complete t { Report.of stDone with r0 := 1 })) ∧
        (∀ x, s.liveTarget t = some x → x.held = false → cancelled x.stop = false →
          exec (.cancel slot) s = .next ((s.applyStop t x true true).endStop x.stop stWrongState)) ∧
        (s.liveTarget t = none → exec (.cancel slot) s = .next (s.complete t (.of stWrongState)))) ∧
      (s.startable slot opQuery = some t → s.nameOk t 1 = true →
        (s.target t = none → exec (.query slot) s = .next (s.complete t (.of stDone))) ∧
        (∀ x, s.target t = some (.transfer x) → exec (.query slot) s =
          .next (s.complete t { Report.of stDone with r0 := if x.held then 2 else 1, r1 := x.moved })))) ∧
  (∀ (s : State) (slot : Nat),
      (∀ u, s.disp.submits.find? (fun u => !u.held && stopNames slot u.slot u.stop) = some u →
        (u.running = [] → exec (.suspendPoint slot) s = .next (s.submitPoint u)) ∧
        (u.running ≠ [] → exec (.suspendPoint slot) s = .next s) ∧
        (∀ r, u.stop = some r → r.cancel = false → r.hard = false → r.since + 5000 ≤ s.power.frame.toNat →
          Answers (.suspendDrainTimeout slot) s fun t => t.rest = s.rest ∧
            ∀ c k, s.cells.find c = some k → (∃ run, k.run = some run ∧ run.order = u.order) → k.ended = none →
              (t.cell c).preempt = true ∧ (t.cell c).requested = true)) ∧
      (∀ x, s.disp.submits.find? (fun u => !u.held && stopNames slot u.slot u.stop) = none →
        s.disp.transfers.find? (fun x => !x.held && stopNames slot x.slot x.stop) = some x → s.clocksRun = true →
        exec (.suspendPoint slot) s = .next (s.transferPoint x) ∧
        ∀ m ∈ x.points, m % 2 ^ 21 = 0 ∧ x.moved < m ∧ m < x.len) ∧
      (∀ b, s.disp.submits.find? (fun u => !u.held && stopNames slot u.slot u.stop) = none →
        s.disp.transfers.find? (fun x => !x.held && stopNames slot x.slot x.stop) = none →
        s.coll.batches.find? (fun b => !b.held && stopNames slot b.slot b.stop) = some b → s.batchRuns b = false →
        exec (.suspendPoint slot) s = .next
          (if cancelled b.stop then s.endBatch b stCancelled b.count stDone else s.holdBatch b)))

/-! ## Dispatch (R89, R239 to R256) -/

/-- The Sluice's test (R249): a charge passes when the grant is positive and the balance covers it, or when it exceeds
twice the grant and the balance stands at its ceiling. An item starts on a free present cell in user mode at the kernel's
address, `s1` the index, `s2` the arguments, `s3` the number of items, every other register and predicate zero, every tile
closed; its charge leaves the balance; a restarted item starts in supervisor mode at `SVEC` (R89, R91). An ending frees the
cell, and the grid counts the item as complete, Saved, failed with its record, or queued again (R91, R248). A grid whose last item has ended, and
whose energy has been attributed to the last frame of its runs, is completed with the status that R244 gives. -/
def Obligations.ItemStartAndEnding : Prop :=
  (∀ (k : Part) (e : Nat), (k.admits e = true ↔
      0 < k.grant ∧ ((e : Int) ≤ k.balance ∨ (2 * k.grant < e ∧ k.balance = 2 * (k.grant : Int)))) ∧
    ∀ (u : Submit), u.charge = (u.estUj * u.kFactor + 255) / 256) ∧
  (∀ (s : State) (p c d : Nat) (u : Submit), s.resident p = some c → s.headSubmit p c = some u →
      s.placeItem p = some d → s.clocksRun = true → (s.ctx p c).leaving = none → s.itemCount < 4096 →
      (s.part p).admits u.charge = true → u.part = p → u.ctx = c → p < 8 → s.sized →
      Answers (.itemAdmit p) s fun t =>
        let k := t.cell d
        let i := u.nextItem.1
        (t.part p).balance = (s.part p).balance - (u.charge : Int) ∧
        k.run = some { part := p, ctx := c, order := u.order, item := i } ∧ k.ended = none ∧
        k.v = Vector.replicate 32 0 ∧ k.q = Vector.replicate 16 0 ∧ k.p = Vector.replicate 16 0 ∧ k.t = Vector.replicate 8 0 ∧
        (∀ r, (k.stat r).mode = 0) ∧ k.cstat = 0 ∧ k.ptroot = (s.ctx p c).ptroot ∧ k.svec = (s.ctx p c).svec ∧
        k.rs 1 = BitVec.ofNat 64 i ∧ (∀ r : BitVec 5, 4 ≤ r.toNat → k.rs r = 0) ∧
        (u.nextItem.2 = false → k.pc = u.kernel ∧ k.sup = false ∧ k.rs 2 = u.args ∧ k.rs 3 = BitVec.ofNat 64 u.items) ∧
        (u.nextItem.2 = true → k.pc = (s.ctx p c).svec ∧ k.sup = true ∧ k.rs 2 = 0 ∧ k.rs 3 = 0 ∧ k.ecause = 0) ∧
        t.mem = s.mem) ∧
  (∀ (s : State) (c : Nat) (r : Run) (e : Ending) (u : Submit), (s.cell c).run = some r → (s.cell c).ended = some e →
      (s.cell c).stopped = false → s.submitBy r.order = some u →
      exec (.itemEnding c) s = .next ((s.setCell c (s.cell c).release).settle (u.itemEnds r.item e)) ∧
      (s.cell c).release.run = none ∧
      (let v := u.itemEnds r.item e
       (e.kind = .complete → v.complete = u.complete + 1 ∧ v.failed = u.failed) ∧
       (e.kind = .saved → r.item ∈ v.saved ∧ v.complete = u.complete) ∧
       (e.kind = .failedValue → v.failed = u.failed + 1 ∧
         v.records = u.records ++ [{ item := r.item, kind := 0x01, cause := 0, value := e.value }]) ∧
       (e.kind = .failedException → v.failed = u.failed + 1 ∧
         v.records = u.records ++ [{ item := r.item, kind := 0x02, cause := e.cause, value := 0 }]) ∧
       (e.kind = .forced → cancelled u.stop = false →
         (u.restart = true → r.item ∈ v.requeued ∧ v.failed = u.failed) ∧ (u.restart = false → v.failed = u.failed + 1)))) ∧
  (∀ (s : State) (u : Submit) (k : Taken), s.disp.submits = [u] → u.allEnded = true → u.held = false → u.stop = none →
      u.tail = [] → u.due = [] → s.mail.taken = [k] → k.slot = u.slot →
      (s.settle u).disp.submits = [] ∧ (s.settle u).mail.taken = [] ∧ (s.settle u).mail.own u.slot = 3 ∧
      u.finalStatus = if u.lost ≠ 0 then stUnitFailed else if u.rerunDone = [] then stDone else stDegraded)

/-- Residency (R239 to R241, R251): a partition without a Resident context takes the one it prefers; a quantum that
expires while another context waits stops admission; items that still run 5,000 frames later get preempt requests; a
grid that has waited 500 frames is aged. -/
def Obligations.ResidencyRules : Prop :=
  ∀ (s : State) (p : Nat), p < 8 → s.sized →
    (∀ c, (s.part p).inService = true → s.resident p = none → s.chooseContext p = some c → c < 16 →
      Answers (.residencySelect p) s fun t => (t.ctx p c).st = .resident ∧ (t.ctx p c).since = s.power.frame.toNat ∧
        (t.part p).lastCtx = some c ∧ (∀ q, q ≠ p → t.part q = s.part q) ∧
        ∀ i, (t.cell i).arch = (s.cell i).arch) ∧
    (∀ c d, s.resident p = some c → (s.ctx p c).leaving = none →
      (s.ctx p c).since + (s.ctx p c).quantum ≤ s.power.frame.toNat → d < 16 → d ≠ c → (s.ctx p d).st = .opened →
      s.ready p d = true → s.batchKeeps p c = false →
      (∃ u ∈ s.disp.submits, u.part = p ∧ u.ctx = c ∧ u.held = false ∧ u.running ≠ []) →
      Answers (.quantumExpiry p) s fun t => (t.ctx p c).leaving = some s.power.frame.toNat ∧ (t.ctx p c).st = .resident) ∧
    (∀ c f, s.resident p = some c → (s.ctx p c).leaving = some f → f + 5000 ≤ s.power.frame.toNat →
      Answers (.residencyDrainTimeout p) s fun t => t.rest = s.rest ∧
        ∀ i k u, s.cells.find i = some k → u ∈ s.disp.submits → u.part = p → u.ctx = c →
          (∃ run, k.run = some run ∧ run.order = u.order) → k.ended = none →
          (t.cell i).preempt = true ∧ (t.cell i).requested = true) ∧
    (∀ slot u, s.disp.submits.find? (fun u => !u.held && u.slot == slot) = some u → 500 ≤ u.idleFrames →
      u.toStart = true →
      Answers (.submitAging slot) s fun t => t.disp.submits =
        s.disp.submits.map (fun x => if x.order = u.order then { u with aged := true } else x) ∧
        ({ u with aged := true } : Submit).effPrio = 0)

/-! ## Fabric: ports, links, routing and time (R260 to R289) -/

/-- The states of a port half from Detect to Active, and its ways to Down and Disabled (R261, R262, R270, R274,
R275, R284, R288). That a failed training is counted until the third, and that a port whose third authentication
failure has not come leaves Down at its expiry, are the model's readings (assumption 35); that the endpoint ID is the
first link-control flit of the link, and that a link comes up Paused under the Snuffer, are those of entry 78. -/
def Obligations.FabricTraining : Prop :=
  (∀ (s : State) (pid h : Nat), s.sized → s.halfNamed pid = some h →
    let k := s.port h
    let b := s.fabBlock (iodOf h)
    (k.st = .detect → exec (.portDetect pid) s = .next (s.setPort h { k with st := .training })) ∧
    (∀ lanes rev inv, k.st = .training → s.trainedWidth h lanes ≠ 0 →
      Answers (.portTrainingDone pid lanes rev inv) s fun t =>
        (t.port h).st = .secure ∧ (t.port h).width = s.trainedWidth h lanes ∧ (t.port h).laneOk = lanes ∧
        (t.port h).reversed = rev ∧ (t.port h).inverted = inv ∧ (t.port h).trainFails = 0 ∧
        (t.port h).rxSeq = 0 ∧ (t.port h).peerEp = none ∧
        (t.port h).txSeq = (if b.epValid then 1 else 0) ∧ (t.port h).idSent = b.epValid ∧
        (t.port h).credits = fullCredits (s.modeOf (h / 2)).2 ∧ (∀ j, j ≠ h → t.port j = s.port j)) ∧
    (∀ lanes rev inv, k.st = .training → s.trainedWidth h lanes = 0 → k.trainFails < 2 →
      exec (.portTrainingDone pid lanes rev inv) s =
        .next (s.setPort h { k with trainFails := k.trainFails + 1 })) ∧
    (∀ lanes rev inv, k.st = .training → s.trainedWidth h lanes = 0 → 2 ≤ k.trainFails →
      Answers (.portTrainingDone pid lanes rev inv) s fun t => (t.port h).st = .down ∧ (t.port h).cause = 1) ∧
    (∀ ep, k.st = .secure → b.epValid = true →
      Answers (.epIdFlit pid ep) s fun t =>
        if (s.modeOf (h / 2)).1 = 2 then (t.port h).initiator = true ∧ (t.port h).peerEp = some ep
        else if ep = b.ep then (t.port h).st = .down ∧ (t.port h).cause = 6
        else (t.port h).st = .secure ∧ (t.port h).peerEp = some ep ∧
          (t.port h).initiator = decide (b.ep.toNat < ep.toNat)) ∧
    (k.st = .secure → k.peerEp = none → b.epValid = true →
      Answers (.epIdResend pid) s fun t => t = s.sendId h ∧ (t.port h).idSent = true ∧ (t.port h).st = .secure) ∧
    (∀ e : PeerEvidence, k.st = .secure → b.epValid = true → s.secAvailable = true →
      k.peerEp.isSome = true ∨ (s.modeOf (h / 2)).1 = 2 →
      Answers (.keyAgreement pid e) s fun t =>
        if e.stepsOk && e.chainsOk && e.sameSerial && !(e.debugOpen && s.parts.any fun p => p.inService && p.conf) &&
            s.transcriptAgrees h e then
          (t.port h).st = s.upState ∧ (t.port h).authFails = 0 ∧ (t.port h).txKey.isSome = true ∧
            (t.port h).rxKey.isSome = true
        else (t.port h).st = .down ∧ (t.port h).cause = 3 ∧ (t.port h).authFails = k.authFails + 1) ∧
    (k.st = .down → k.cause = 3 ∧ 3 ≤ k.authFails → exec (.portDownExpiry pid) s = .next s) ∧
    (k.st = .down → ¬(k.cause = 3 ∧ 3 ≤ k.authFails) → Answers (.portDownExpiry pid) s fun t =>
      ((t.port h).st = .disabled ∨ (t.port h).st = .detect) ∧
      (s.config.heldModes = [] → (s.modeOf (h / 2)).1 ≠ 0 → k.disable = false → s.board.srefclk = true →
        s.board.railsUp = true → (t.port h).st = .detect)) ∧
    (∀ v : BitVec 64, Answers (.portCtlWrite pid v) s fun t => (t.port h).disable = v.getLsbD 0 ∧
      (v.getLsbD 0 = true → (t.port h).st = .disabled ∧ (t.port h).authFails = 0))) ∧
  (∀ (s : State) (v : BitVec 64), s.sized → s.board.railsUp = true →
    Answers (.fabEpWrite v) s fun t =>
      (∀ d, d < 4 → (t.fabBlock d).epValid = v.getLsbD 31 ∧
        (t.fabBlock d).ep = (if (s.fabBlock d).epValid then (s.fabBlock d).ep else v.setWidth 20)) ∧
      (v.getLsbD 31 = false → ∀ h, h < 72 → (s.fabBlock (iodOf h)).epValid = true → (s.port h).st = .active →
        (t.port h).st = .secure))

/-- What a linked half does with flits, and its replay, retraining and rekeying (R265, R268, R269, R273, R276):
a flit that fails its CRC is discarded, counted and asked for again once; so is one out of order, which counts no
CRC failure; a tag that does not verify takes the half Down; a flit in order is accepted. More than 100 uncorrected
codewords of a lane in a frame, and too many replays, retrain the port at once; how replays are counted is the model's
reading of the two limits of R269 (assumption 78). A flit and a packet on the link read back as what was
written (R265, R272, R273). -/
def Obligations.FabricLinks : Prop :=
  (∀ (s : State) (pid h : Nat), s.sized → s.halfNamed pid = some h →
    let k := s.port h
    (∀ f : Flit, k.linked = true →
      let hd := flitHead f.bytes
      let tooMany := ∃ i, i < 8 ∧ 100 < k.laneErrors.getD i 0 + f.fecUncorr.getD i 0
      let asks := fun (t : State) => (t.port h).asked = true ∧
        t.out = s.out ++ if k.asked then [] else [.flit (pidOf h) (k.plain ftReplay).2]
      (tooMany → Answers (.flitReceive pid f) s fun t => (t.port h).st = .retraining ∧ (t.port h).rxSeq = k.rxSeq) ∧
      (¬tooMany → flitGood f.bytes = false → Answers (.flitReceive pid f) s fun t =>
        (t.port h).rxSeq = k.rxSeq ∧ (t.port h).counters[2] = k.counters[2] + 1 ∧
        (t.port h).counters[3] = k.counters[3] + (if k.asked then 0 else 1) ∧ asks t ∧
        t.fabric.arrived = s.fabric.arrived) ∧
      (¬tooMany → flitGood f.bytes = true → hd.ftype = 0 → Answers (.flitReceive pid f) s fun t =>
        (t.port h).rxSeq = k.rxSeq ∧ (t.port h).ackSeq = (k.acked hd.ack).ackSeq ∧ t.mem = s.mem) ∧
      (¬tooMany → flitGood f.bytes = true → (hd.ftype = 1 ∨ hd.ftype = 3) →
        (hd.fseq ≠ k.rxSeq + 1 → Answers (.flitReceive pid f) s fun t =>
          (t.port h).rxSeq = k.rxSeq ∧ (t.port h).counters[2] = k.counters[2] ∧ asks t ∧
          t.fabric.arrived = s.fabric.arrived) ∧
        (hd.fseq = k.rxSeq + 1 → hd.ftype = 3 → k.controlOk hd.fseq (flitPayload f.bytes) = false →
          Answers (.flitReceive pid f) s fun t =>
            (t.port h).st = .down ∧ (t.port h).cause = 3 ∧ (t.port h).authFails = k.authFails + 1) ∧
        (hd.fseq = k.rxSeq + 1 → hd.ftype = 3 → k.controlOk hd.fseq (flitPayload f.bytes) = true →
          Answers (.flitReceive pid f) s fun t =>
            (t.port h).rxSeq = hd.fseq ∧ (t.port h).st = k.st ∧ t.fabric.arrived = s.fabric.arrived ∧ t.mem = s.mem) ∧
        (∀ key, hd.fseq = k.rxSeq + 1 → hd.ftype = 1 → k.rxKey = some key →
          let got := takePackets 256 key (k.rxBytes.getD hd.vl [] ++ flitPayload f.bytes) []
          (got.2.2.2 = false → Answers (.flitReceive pid f) s fun t =>
            (t.port h).st = .down ∧ (t.port h).cause = 3 ∧ (t.port h).authFails = k.authFails + 1) ∧
          (got.2.2.2 = true → got.1 = [] → s.fabric.arrived = [] → Answers (.flitReceive pid f) s fun t =>
            (t.port h).rxSeq = hd.fseq ∧ (t.port h).st = k.st ∧ (t.port h).rxKey = some got.2.2.1 ∧
            t.fabric.arrived = [] ∧ t.mem = s.mem)))) ∧
    (∀ ack, k.linked = true →
      let k1 := k.acked ack
      let n := (k1.txSeq - k1.ackSeq).toNat
      Answers (.replayRequest pid ack) s fun t =>
        t.out = s.out ++ (if n = 0 ∨ k.st = .paused then []
          else k1.replay.map fun x => .flit (pidOf h) (k1.emitSent (0, 0) x)) ∧
        (k.st = .paused → n ≠ 0 → (t.port h).resendDue = true) ∧
        ((t.port h).st = .retraining ↔
          n ≠ 0 ∧ k.st ≠ .paused ∧ (8 ≤ k1.sameReplays + 1 ∨ 1000 < k1.frameReplays + n))) ∧
    (k.linked = true → Answers (.portRetrain pid) s fun t =>
      (t.port h).st = .retraining ∧ (t.port h).counters[4] = k.counters[4] + 1 ∧
      (t.port h).replay = k.replay ∧ (t.port h).queue = k.queue ∧ ∀ j, j ≠ h → t.port j = s.port j) ∧
    (k.st = .retraining →
      (Answers (.portRetrainDone pid .ok) s fun t => (t.port h).retrainFails = 0 ∧
        ((t.port h).st = s.upState ∨ (t.port h).st = .retraining ∧ s.awaits h = true) ∧
        (s.awaits h = false → (t.port h).st = s.upState)) ∧
      ∀ e : RetrainEnd, e ≠ .ok →
        (k.retrainFails < 2 → Answers (.portRetrainDone pid e) s fun t =>
          (t.port h).st = .retraining ∧ (t.port h).retrainFails = k.retrainFails + 1) ∧
        (2 ≤ k.retrainFails → Answers (.portRetrainDone pid e) s fun t =>
          (t.port h).st = .down ∧ (t.port h).cause = (if e = .peerLost then 5 else 2))) ∧
    (∀ e, k.linked = true → s.secAvailable = true → k.nextTx = none →
      2 ^ 31 ≤ k.keyFlits ∨ 2 ^ 31 ≤ k.rxKeyFlits → Answers (.rekey pid e) s fun t =>
        if s.peerOk e && s.transcriptAgrees h e then
          (t.port h).st = k.st ∧ (t.port h).nextRx = some (s.agreement h e).rx ∧
            (k.queue = [] → k.cut = [] → k.control = [] → k.inFlight + 2 ≤ 1024 →
              (t.port h).keyFlits = 0 ∧ (t.port h).txKey = some (s.agreement h e).tx)
        else (t.port h).st = .down ∧ (t.port h).cause = 3) ∧
    (k.inService = true →
      (2 ^ 32 ≤ k.keyFlits ∨ 2 ^ 32 ≤ k.rxKeyFlits →
        Answers (.rekeyOverrun pid) s fun t => (t.port h).st = .down ∧ (t.port h).cause = 4) ∧
      (k.keyFlits < 2 ^ 32 → k.rxKeyFlits < 2 ^ 32 → exec (.rekeyOverrun pid) s = .next s)) ∧
    (∀ i, k.linked = true → Answers (.timeFlit pid i) s fun t =>
      SMap.find t.fabric.peers pid = some i ∧ t.fabric.ports = s.fabric.ports ∧
      (s.board.frameSync = true → t.fabric.stratum = 0 ∧ t.fabric.source = 1 ∧ t.fabric.locked = true))) ∧
  (∀ (hd : FlitHead) (l : List Byte), hd.ftype ≤ 3 → hd.vl < 8 → hd.start < 256 → hd.crVl < 8 → hd.crCnt < 32 →
    l.length ≤ 242 →
    flitGood (flitBytes hd l) = true ∧ flitHead (flitBytes hd l) = hd ∧ flitPayload (flitBytes hd l) = padTo 242 l) ∧
  (∀ (key : LinkKey) (p : Packet), p.payload.length ≤ 4096 →
    headerClean (key.seal p) = true ∧ key.unseal (key.seal p) = some p)

/-- The routing of a packet at an I/O die (R277, R278, R280, R289): the hop limit, the module's own endpoint, the
route tables, a member of the group, and the wait where no member is usable.
The route tables (R277, R278, R286, R287): a valid direct entry decides; otherwise a matching prefix of greatest
`LEN`, the lowest index among equals; and none exactly where nothing matches. A member that is picked belongs to
the group, exists and is linked. -/
def Obligations.Routing : Prop :=
  ((∀ (s : State) (iod : Nat) (from? : Option Nat) (p : Packet),
      let src := from?.bind s.halfNamed
      let q := if src.isSome then { p with hops := p.hops - 1 } else p
      let b := s.fabBlock iod
      s.board.railsUp = true → iod < 4 → s.fabric.arrived = [] →
      (p.hops = 0 → exec (.packetRoute iod from? p) s = .next (s.drop src cntDropHops)) ∧
      (p.hops ≠ 0 → p.dstEp = b.ep →
        exec (.packetRoute iod from? p) s =
          .next (({ s with fabric := { s.fabric with arrived := [{ iod, src, pkt := q }] } } : State).deliverAll)) ∧
      (p.hops ≠ 0 → p.dstEp ≠ b.ep →
        (b.routesValid = false ∨ s.routeEntry iod p.dstEp = none →
          exec (.packetRoute iod from? p) s = .next (s.drop src cntDropNoRoute)) ∧
        (∀ e, b.routesValid = true → s.routeEntry iod p.dstEp = some e →
          let w : Waiting := { iod, src, pkt := q, groupA := (e.extractLsb' 2 6).toNat, odd := e.getLsbD 1
                               groupB := if e.getLsbD 14 then some (e.extractLsb' 8 6).toNat else none }
          (∀ h, s.pick iod w.groupA q = some h → exec (.packetRoute iod from? p) s = .next (s.sendOn h w)) ∧
          (∀ g h, s.pick iod w.groupA q = none → w.groupB = some g → s.pick iod g q = some h →
            exec (.packetRoute iod from? p) s = .next (s.sendOn h w)) ∧
          (s.pick iod w.groupA q = none → (∀ g, w.groupB = some g → s.pick iod g q = none) →
            exec (.packetRoute iod from? p) s =
              .next { s with fabric := { s.fabric with waiting := s.fabric.waiting ++ [w] } })))) ∧
    (∀ (s : State) (i : Nat) (w : Waiting), s.fabric.waiting[i]? = some w → s.sized →
      Answers (.routeWaitExpiry i) s fun t => t.fabric.waiting = s.fabric.waiting.eraseIdx i ∧
        ∀ h, h < 72 → w.src = some h → (t.port h).counters[9] = (s.port h).counters[9] + 1) ∧
    (∀ (s : State) (pid h : Nat) (p : Packet), s.sized → s.halfNamed pid = some h → s.fabric.arrived = [] →
      (s.accepts = false → Answers (.packetIngress pid p) s fun t =>
        (t.port h).counters[6] = (s.port h).counters[6] + 1 ∧ t.mem = s.mem ∧ t.coll = s.coll) ∧
      (s.accepts = true → s.destOk p = false ∨ wellFormed p = false ∨ s.commOf p = none →
        Answers (.packetIngress pid p) s fun t =>
          (t.port h).counters[5] = (s.port h).counters[5] + 1 ∧ t.mem = s.mem ∧ t.coll = s.coll) ∧
      (∀ k j, s.accepts = true → s.destOk p = true → wellFormed p = true → s.commOf p = some k →
        s.senderOf k p = some j → exec (.packetIngress pid p) s = .next ((s.handOver k j p).deliverAll)))) ∧
  ((∀ (s : State) (iod : Nat) (dst : BitVec 20),
      let b := s.fabBlock iod
      let d : BitVec 32 := (SMap.find b.direct (dst.toNat % 65536)).getD 0
      let len := fun (x : BitVec 64) => (x.extractLsb' 52 5).toNat
      (dst.extractLsb' 16 4 = b.directHi → d.getLsbD 0 = true → s.routeEntry iod dst = some d) ∧
      (¬(dst.extractLsb' 16 4 = b.directHi ∧ d.getLsbD 0 = true) → SMap.sorted b.prefixes = true →
        (s.routeEntry iod dst = none ↔ ∀ x ∈ b.prefixes, prefixMatches x.2 dst = false) ∧
        ∀ e, s.routeEntry iod dst = some e → ∃ x ∈ b.prefixes, prefixMatches x.2 dst = true ∧ e = x.2.setWidth 32 ∧
          ∀ y ∈ b.prefixes, prefixMatches y.2 dst = true → len y.2 < len x.2 ∨ len y.2 = len x.2 ∧ x.1 ≤ y.1)) ∧
    (∀ (s : State) (iod g h : Nat) (p : Packet), s.pick iod g p = some h →
      ((s.fabBlock iod).groups.getD g 0).getLsbD h = true ∧ s.halfExists h = true ∧ (s.port h).linked = true))

/-! ## Collective operations (R290 to R335) -/

/-- `COMM_CREATE`, `COMM_DESTROY` and `COLL_BATCH` (R292 to R297): what each adds or removes, and the statuses of a
failed check. The handle is a free one (a free value). -/
def Obligations.CommunicatorCommands : Prop :=
  ∀ (s : State) (slot : Nat) (t : Taken), t.slot = slot →
    let b := s.body slot
    let p := t.part.toNat
    let c := t.ctx.toNat
    s.ctxLive p c = true →
    (s.startable slot opCommCreate = some t →
      (∀ ms, s.commCheck t = .inr ms → Answers (.commCreate slot) s fun u => ∃ k : Comm,
        u.coll.comms = s.coll.comms ++ [k] ∧ k.handle < 4096 ∧ s.comm k.handle = none ∧ k.part = p ∧ k.ctx = c ∧
        k.key.toNat = b 0x10 4 ∧ k.n = b 8 4 ∧ k.rank = b 0x0C 4 ∧ k.trees = b 0x14 1 ∧
        k.panSlots = (if b 0x15 1 = 0 then 2 else b 0x15 1) ∧
        k.timeoutMs = (if b 0x18 4 = 0 then cfg s.config.active 0x20 4 else b 0x18 4) ∧
        k.broken = false ∧ k.op = none ∧ u.mail.own slot = 3) ∧
      (∀ r, s.commCheck t = .inl r → exec (.commCreate slot) s = .next (s.complete t r))) ∧
    (s.startable slot opCommDestroy = some t → ∀ k, s.ownComm t (b 0 2) = some k →
      let enabled := (List.range 16).any fun c => s.beaconEntry c / 2 ^ 16 % 2 == 1 && s.beaconEntry c % 4096 == k.handle
      (s.batchOf k.handle = none → enabled = false → Answers (.commDestroy slot) s fun u =>
        u.coll.comms = s.coll.comms.filter (fun x => x.handle != k.handle) ∧ u.mail.own slot = 3) ∧
      ((s.batchOf k.handle).isSome = true ∨ enabled = true →
        exec (.commDestroy slot) s = .next (s.complete t (.of stBusy)))) ∧
    (s.startable slot opCollBatch = some t → b 0 8 % 64 = 0 → 0 < b 8 4 → b 8 4 ≤ 65536 →
      ∀ k, s.ownComm t (b 0x0C 2) = some k → k.broken = false →
        (s.batchOf k.handle = none → Answers (.collBatch slot) s fun u => ∃ x : Batch,
          u.coll.batches = s.coll.batches ++ [x] ∧ x.slot = slot ∧ x.handle = k.handle ∧ x.desc = BitVec.ofNat 64 (b 0 8) ∧
          x.count = b 8 4 ∧ x.idx = 0 ∧ x.held = false ∧ x.stop = none ∧ u.coll.comms = s.coll.comms ∧ u.mem = s.mem) ∧
        ((s.batchOf k.handle).isSome = true → exec (.collBatch slot) s = .next (s.complete t (.of stBusy))))

/-- How an operation of a batch begins and how it is cut short (R221, R295, R303, R322, R323, R333): a timeout, or
100 ms after a soft `SUSPEND`, ends it and breaks its communicator, unless a mismatched or failed chunk gives the
status of the timed-out operation (R153, R312); a descriptor that a check refuses ends it with
`BAD_FIELD`; pan requests are served from the head of a pan's queue, and none is served that would exceed its
384 slots.
The packets of an operation (R280, R305 to R309, R322): one that passes every check goes to the engine of its
communicator, and one that fails a check changes nothing there; a `CLAIM` that is not the last is kept; one that
comes before its operation is kept in the peer area, or counted as dropped; an error in a pan slot or in staging
memory stops the context (R183, R313). -/
def Obligations.CollectiveOperations : Prop :=
  ((∀ (s : State) (h : Nat) (k : Comm) (b : Batch), s.comm h = some k → s.batchOf h = some b → b.held = false →
      b.stop = none → k.op = none → k.broken = false → s.clocksRun = true → s.ctxLive k.part k.ctx = true →
      (s.batchOnChip b = false ∨ s.resident k.part = some k.ctx) →
      exec (.collOpStart h .none) s = .next ((s.startDesc k b).deliverAll) ∧
      (s.fabric.arrived = [] →
        let d := Desc.parse ((s.vread k.part k.ctx (b.desc.toNat + 64 * b.idx) 64).getD (List.replicate 64 0))
        d.fieldsOk k.n = false →
        Answers (.collOpStart h .none) s fun t =>
          ∃ k1, t.comm h = some k1 ∧ k1.op = none ∧ k1.broken = true ∧ k1.opSeq = k.opSeq + 1)) ∧
    (∀ (s : State) (h : Nat) (k : Comm) (o : CollOp), s.comm h = some k → k.op = some o →
      o.lastRx + k.timeoutMs * 50 ≤ s.power.frame.toNat → s.panWaits h = false → s.clocksRun = true →
      Answers (.collTimeout h) s fun t => ∃ k1, t.comm h = some k1 ∧ k1.op = none ∧
        k1.broken = (k.broken || !(o.mismatch || o.checkFail))) ∧
    (∀ (s : State) (slot : Nat) (b : Batch) (r : StopReq) (k : Comm) (o : CollOp),
      s.coll.batches.find? (fun x => !x.held && stopNames slot x.slot x.stop) = some b → b.stop = some r →
      r.cancel = false → r.hard = false → r.since + 5000 ≤ s.power.frame.toNat →
      s.comm b.handle = some k → k.op = some o →
      Answers (.batchSuspendTimeout slot) s fun t => ∃ k1, t.comm b.handle = some k1 ∧ k1.op = none ∧ k1.broken = true) ∧
    (∀ (s : State) (pan : Nat), s.clocksRun = true →
      exec (.panSlotGrant pan .none) s =
        .next ((s.servePan pan (s.coll.panQueue.getD pan []).length).claimAll.deliverAll)) ∧
    (∀ (s : State) (pan n : Nat), s.coll.panUsed.getD pan 0 ≤ 384 → pan < s.coll.panUsed.length →
      ((s.servePan pan n).coll.panUsed.getD pan 0 ≤ 384 ∧
        ∃ served, s.coll.panQueue.getD pan [] = served ++ (s.servePan pan n).coll.panQueue.getD pan [] ∧
          served.length ≤ n ∧ (s.servePan pan n).coll.panUsed.getD pan 0 =
            s.coll.panUsed.getD pan 0 + (served.map fun r => r.slots).sum)) ∧
    (∀ (s : State) (h : Nat), s.clocksRun = true →
      ((∃ q ∈ s.coll.panQueue, ∃ r ∈ q, r.comm = h ∧ r.frame + cfg s.config.active 0x24 2 ≤ s.power.frame.toNat) →
        let s1 : State := { s with coll := s.coll.unqueue h }
        exec (.panWaitExpiry h .none) s = .next
          (((s1.withOp h fun k o => s1.setOp k { o with lastRx := s.power.frame.toNat }).askFallback h).deliverAll)) ∧
      ((∀ q ∈ s.coll.panQueue, ∀ r ∈ q, r.comm = h → s.power.frame.toNat < r.frame + cfg s.config.active 0x24 2) →
        ∀ f, exec (.panWaitExpiry h f) s = .next s))) ∧
  ((∀ (s : State) (p : Packet),
      (∀ k j, s.accepts = true → s.destOk p = true → wellFormed p = true → s.commOf p = some k →
        s.senderOf k p = some j →
        let t := (s.handOver k j p).deliverAll
        (p.ptype = 0x01 → exec (.chdr p .none) s = .next t) ∧ (p.ptype = 0x02 → exec (.cdata p .none) s = .next t) ∧
        (p.ptype = 0x03 → exec (.credit p .none) s = .next t) ∧ (p.ptype = 0x04 → exec (.claim p .none) s = .next t) ∧
        (p.ptype = 0x05 → exec (.go p .none) s = .next t) ∧ (p.ptype = 0x06 → exec (.fallbkUp p .none) s = .next t) ∧
        (p.ptype = 0x07 → exec (.fallbkDn p .none) s = .next t) ∧ (p.ptype = 0x08 → exec (.counts p .none) s = .next t) ∧
        (p.ptype = 0x09 → exec (.barUp p) s = .next t) ∧ (p.ptype = 0x0A → exec (.barDn p) s = .next t) ∧
        (p.ptype = 0x0B → exec (.beaconUp p) s = .next t) ∧ (p.ptype = 0x0C → exec (.beaconDn p) s = .next t)) ∧
      (s.accepts = false ∨ s.destOk p = false ∨ wellFormed p = false ∨ s.commOf p = none → s.fabric.arrived = [] →
        ∀ i ∈ [Instr.chdr p .none, .cdata p .none, .credit p .none, .claim p .none, .go p .none, .fallbkUp p .none,
          .fallbkDn p .none, .counts p .none, .barUp p, .barDn p, .beaconUp p, .beaconDn p], exec i s = .next s)) ∧
    (∀ (s : State) (p : Packet) (k : Comm) (j : Nat), s.accepts = true → s.destOk p = true → wellFormed p = true →
      s.commOf p = some k → s.senderOf k p = some j → s.comm k.handle = some k → s.fabric.arrived = [] →
      let o := Obj.of p.obj
      (∀ x, p.ptype = 0x04 → k.op = some x → o.seq = k.opSeq.toNat → x.path = .claiming → x.pans.length < k.trees →
        exec (.claim p .none) s = .next (s.setOp k { x with lastRx := s.power.frame.toNat, claims := j :: x.claims })) ∧
      (p.ptype = 0x04 → k.op = none → o.seq < 65536 →
        (BitVec.ofNat 16 o.seq = k.opSeq + 1 ∨ BitVec.ofNat 16 o.seq = k.opSeq + 2 →
          exec (.claim p .none) s = .next (s.recordEarly k j p 17)) ∧
        (∀ b, BitVec.ofNat 16 o.seq ≠ k.opSeq + 1 → BitVec.ofNat 16 o.seq ≠ k.opSeq + 2 → s.batchOf k.handle = some b →
          Answers (.claim p .none) s fun t => ∃ b1, t.batchOf k.handle = some b1 ∧ b1.dropped = b.dropped + 1 ∧ t.mem = s.mem)) ∧
      (s.sized → k.op.isSome = true → o.seq = k.opSeq.toNat → k.part < 8 → k.ctx < 16 →
        (s.ctx k.part k.ctx).st = .opened ∨ (s.ctx k.part k.ctx).st = .resident →
        (Answers (.cdata p .panParity) s fun t => (t.ctx k.part k.ctx).st = .stopped ∧
          ∀ x ∈ t.coll.comms, ¬(x.part = k.part ∧ x.ctx = k.ctx)) ∧
        ∀ b pa, (s.meets (some b)).2 = some pa →
          exec (.cdata p (.memory b)) s = .next ((s.stopContext k.part k.ctx 0x23).uncorrectable pa 1))))

/-- Beacon (R227, R328 to R332): the assignment of a channel waits for the frame boundary; a trigger begins an
operation, or gives its status at once; the operation of a member without parent and children ends at once; a
contribution of a child is kept until all are in; a timeout fails the channel. The `BEACON_TRIGGER` row stands for
the store to `BSEQ` (assumption 39); that a packet names its channel by its place among those of the communicator is the
model's choice (assumption 37). -/
def Obligations.BeaconOperation : Prop :=
  (∀ (s : State) (slot : Nat) (t : Taken), s.startable slot opBeaconAssign = some t → t.slot = slot →
    let b := s.body slot
    b 0 1 ≤ 15 → b 1 1 ≤ 1 → b 2 2 ≤ 4095 →
    (b 1 1 = 1 → ∃ k, s.comm (b 2 2) = some k ∧ k.trees ≠ 0 ∧ k.beaconArea ≠ 0) →
    ((s.beacon (b 0 1)).busy = none → Answers (.beaconAssign slot) s fun u =>
      u.config.active = s.config.active ∧ ∃ w : ActiveWrite, u.config.writes = s.config.writes ++ [w] ∧ w.slot = slot ∧
        w.beacon = some (b 0 1, BitVec.ofNat 32 (b 2 2 + b 1 1 * 2 ^ 16)) ∧ w.applied = false) ∧
    ((s.beacon (b 0 1)).busy ≠ none → exec (.beaconAssign slot) s = .next (s.complete t (.of stBusy)))) ∧
  (∀ (s : State) (c : Nat) (bseq : BitVec 32) (k : Comm), s.clocksRun = true → c < 16 → s.coll.beacons.length = 16 →
    s.beaconComm c = some k → s.fabric.arrived = [] →
    let b := s.beacon c
    let l := (s.vread k.part k.ctx (k.beaconSlot c) 128).getD []
    let good := l.length = 128 ∧ (BeaconVal.ofSlot l).ok = true ∧ gatherDesc l 7 1 = 0 ∧ gatherDesc l 0x0A 6 = 0 ∧
      gatherDesc l 0x56 2 = 0 ∧ gatherDesc l 0x60 32 = 0
    (b.busy ≠ none → exec (.beaconTrigger c bseq) s = .next s) ∧
    (s.noteTrigger k c).rest = s.rest ∧
    (b.busy = none → b.failed = true →
      exec (.beaconTrigger c bseq) s = .next ((s.noteTrigger k c).beaconResult k c bseq stWrongState false [])) ∧
    (b.busy = none → b.failed = false → ¬good →
      exec (.beaconTrigger c bseq) s = .next ((s.noteTrigger k c).beaconResult k c bseq stBadField false [])) ∧
    (b.busy = none → b.failed = false → good → ¬(∀ j ∈ k.children0, (SMap.find b.ups j).isSome = true) →
      exec (.beaconTrigger c bseq) s = .next ((s.noteTrigger k c).setBeacon c { b with
        busy := some (bseq, s.power.frame.toNat), own := some (BeaconVal.ofSlot l), comm := k.handle })) ∧
    (b.busy = none → b.failed = false → good → b.sent = false → b.ups = [] → k.children0 = [] → k.parent0 = none →
      exec (.beaconTrigger c bseq) s = .next
        (((s.noteTrigger k c).setBeacon c { b with
          busy := none, own := none, ups := [], seq := b.seq + 1, comm := k.handle }).beaconResult k c bseq
          stDone false (BeaconVal.ofSlot l).payload))) ∧
  (∀ (s : State) (p : Packet) (k : Comm) (j c : Nat), s.accepts = true → s.destOk p = true → wellFormed p = true →
    s.commOf p = some k → s.senderOf k p = some j → s.fabric.arrived = [] →
    (s.channelsOf k)[gatherDesc p.payload 6 2]? = some c →
    let b := s.beacon c
    let v := BeaconVal.parse p.payload
    (p.ptype = 0x0B → b.failed = false → (Obj.of p.obj).seq = b.seq.toNat → k.children0.contains j = true →
      c < s.coll.beacons.length → b.own = none →
      exec (.beaconUp p) s = .next
        (if (SMap.find b.ups j).isNone then s.setBeacon c { b with ups := b.ups.put j v } else s)) ∧
    (p.ptype = 0x0C → b.failed = false → (Obj.of p.obj).seq = b.seq.toNat → k.parent0 = some j →
      b.own.isSome = true ∨ b.busy = none →
      exec (.beaconDn p) s = .next ((s.beaconDown k c v).deliverAll))) ∧
  (∀ (s : State) (c f : Nat) (bseq : BitVec 32) (k : Comm), c < s.coll.beacons.length →
    (s.beacon c).busy = some (bseq, f) → s.comm (s.beacon c).comm = some k → f + k.timeoutMs * 50 ≤ s.power.frame.toNat →
    Answers (.beaconTimeout c) s fun t =>
      (t.beacon c).failed = true ∧ (t.beacon c).busy = none ∧ (t.beacon c).seq = (s.beacon c).seq)

/-- The linear check (R310): its value, and that the check of a sum is the sum of the checks whenever no addition
has saturated. -/
def Obligations.CheckLinear : Prop :=
  (∀ ws : List Word, brineCheck ws =
    ((List.range ws.length).map fun i => ((ws.getD i 0).toInt % (2 ^ 61 - 1)).toNat * 3 ^ i).sum % (2 ^ 61 - 1)) ∧
  (∀ a b : List Word, a.length = b.length → (∀ x ∈ a.zip b, (brineAdd x.1 x.2).2 = false) →
    brineCheck (List.zipWith (fun x y => (brineAdd x y).1) a b) = (brineCheck a + brineCheck b) % (2 ^ 61 - 1))

/-! ## Counters and sampling (R336 to R353) -/

/-- In select mode the census counters read as zero; in census mode `CYCLE`, `PMC0` to `PMC7` and `PMOVF` read as
zero, and a write to them is ignored (R337). -/
def Obligations.CounterModes : Prop :=
  ∀ (s : State) (c : Nat) (u : Upset) (o : CsrOp), s.Ready c → Unhurt u →
    let k := s.cell c
    let n := o.csr.toNat
    (k.sup = true → s.census (c / 16) = false → 0x180 ≤ n → n ≤ 0x1DF → Runs (.csrr c o u) s c (k.ws o.r 0).adv) ∧
    (s.census (c / 16) = true → (n = 0x100 ∨ 0x108 ≤ n ∧ n ≤ 0x10F ∨ n = 0x118) →
      (k.sup = true ∨ k.userReads c n = true → Runs (.csrr c o u) s c (k.ws o.r 0).adv) ∧
      (k.sup = true →
        Runs (.csrw c o u) s c k.adv ∧ Runs (.csrs c o u) s c k.adv ∧ Runs (.csrc c o u) s c k.adv))

/-- `CNT_CONFIG`, `SAMPLE_CONFIG` and the sampling of instructions (R344 to R352). -/
def Obligations.CountersAndSampling : Prop :=
  (∀ (s : State) (slot op : Nat) (t : Taken) (i : Instr), s.startable slot opCntConfig = some t → t.slot = slot →
    s.body slot 0 1 = op → (op = 0 ∧ i = .cntConfigConfigure slot ∨ op = 1 ∧ i = .cntConfigRead slot ∨
      op = 2 ∧ i = .cntConfigClear slot) →
    (s.cntFieldsOk t op = false → exec i s = .next (s.complete t (.of stBadField))) ∧
    (s.cntFieldsOk t op = true →
      (op ≠ 1 → t.part.toNat ≠ 0xFF → s.confidential t.part.toNat = true →
        exec i s = .next (s.complete t (.of stWrongState))) ∧
      ((op = 1 ∨ t.part.toNat = 0xFF ∨ s.confidential t.part.toNat = false) → Answers i s fun u =>
        u.cells = s.cells ∧ u.banks = s.banks ∧ ∃ q : CntPending, u.config.counters = s.config.counters ++ [q] ∧
          q.slot = slot ∧ q.op = op ∧ q.first = s.body slot 1 1 ∧ q.n = s.body slot 2 1))) ∧
  (∀ (s : State) (slot : Nat) (t : Taken), s.startable slot opSampleConfig = some t → t.slot = slot →
    let p := t.part.toNat
    let c := t.ctx.toNat
    let mode := s.body slot 0 1
    let n := s.body slot 4 4
    let cb := s.body slot 8 8
    s.ctxLive p c = true → p < 8 → c < 16 → s.sized →
    (s.confidential p = true → exec (.sampleConfig slot) s = .next (s.complete t (.of stWrongState))) ∧
    (s.confidential p = false → mode ≤ 2 → (mode = 0 ∨ 1024 ≤ n) → cb % 64 = 0 → s.sampleCbOk p c cb = true →
      Answers (.sampleConfig slot) s fun u => u.mail.own slot = 3 ∧ (u.ctx p c).sampling.mode = BitVec.ofNat 8 mode ∧
        (u.ctx p c).sampling.interval = n ∧ (u.ctx p c).sampling.cb = BitVec.ofNat 64 cb ∧
        (u.ctx p c).sampling.stopped = false)) ∧
  (∀ (s : State) (c : Nat) (k : Cell) (w : BitVec 64) (ps : List Piece) (again : Bool) (r : Run) (n : Nat),
    k.run = some r → k.countdown.find (16 * r.part + r.ctx) = some n → k.sampMode = 1 →
    (s.ctx r.part r.ctx).sampling.stopped = false →
    let t := s.sample c k w ps true again
    (t.cell c).countdown.find (16 * r.part + r.ctx) = some (if n ≤ 1 then k.sampN else n - 1) ∧
    (1 < n → (t.cell c).latches = (s.cell c).latches) ∧
    (n ≤ 1 → ∃ (x : Sample) (a : Option Nat), (t.cell c).latches = (s.cell c).latches ++ [(x, a)] ∧ x.pc = k.pc ∧
      x.insn = w ∧ x.sup = k.sup ∧ x.item = r.item ∧ x.frame = s.power.frame ∧ x.discarded = false)) ∧
  (∀ (s : State) (c : Nat) (i : SampleInfo) (x : Sample) (l : List (Sample × Option Nat)), s.clocksRun = true →
    let k := s.cell c
    (k.latches = (x, none) :: l → k.samples.length < 256 → Answers (.sampleTaken c i) s fun t =>
      (t.cell c).samples = k.samples ++ [{ x with time := i }] ∧ (t.cell c).latches = l ∧ t.mem = s.mem) ∧
    (k.latches = (x, none) :: l → 256 ≤ k.samples.length →
      exec (.sampleTaken c i) s = .next ((s.setCell c { k with latches := l }).dropSample x.part x.ctx)) ∧
    (∀ id, k.latches = [(x, some id)] → k.async.any (·.id == id) = true →
      exec (.sampleTaken c i) s = .next s)) ∧
  (∀ (s : State) (c : Nat),
    exec (.sampleSpill c) s = .next (if s.clocksRun = true ∧ 64 ≤ (s.cell c).samples.length then
      (s.cell c).samples.foldl (fun a x => a.spill c x) (s.setCell c { s.cell c with samples := [] }) else s)) ∧
  (∀ (s : State) (c : Nat) (x : Sample), (s.ctx x.part x.ctx).sampling.stopped = false →
    let cb := (s.ctx x.part x.ctx).sampling.cb.toNat
    ∀ l, s.vread x.part x.ctx cb 64 = some l →
      let r := ringOf l
      ((r.2.2.2 + 2 ^ 32 - r.2.2.1) % 2 ^ 32 = r.2.1 → s.spill c x = s.dropSample x.part x.ctx) ∧
      (∀ s1 s2, (r.2.2.2 + 2 ^ 32 - r.2.2.1) % 2 ^ 32 ≠ r.2.1 →
        s.vwrite x.part x.ctx (r.1 + 64 * (r.2.2.2 % r.2.1)) (x.bytes c) = some s1 →
        s1.vwrite x.part x.ctx (cb + 0x10) (leBytes 4 (r.2.2.2 + 1)) = some s2 →
        (s.spill c x).rest = s2.rest ∧ ∀ d, ((s.spill c x).cell d).arch = (s2.cell d).arch))

/-! ## Power control (R249, R354 to R385) -/

/-- What begins with a frame (R203, R226, R227, R249, R355, R357, R461, R468): the counter advances, the outputs of
the last act step come into force and balances are refilled, waiting writes and a swap of the configuration sets
are made, a new rack ceiling is taken over, and the log of the ended frame is committed. Without core rails the
counter and the log go on; without `VDD_SB`, or while `COLD_RESET_N` is asserted, nothing does. -/
def Obligations.FrameTick : Prop :=
  ∀ (s : State) (m : Snapshot),
    (s.board.vddSb = false ∨ s.board.coldReset = true → exec (.frameTick m) s = .next s) ∧
    (s.board.vddSb = true → s.board.coldReset = false → Answers (.frameTick m) s fun t =>
      t.power.frame = s.power.frame + 1 ∧
      t.flash.log = (s.flash.log ++ s.rcv.fresh).drop ((s.flash.log ++ s.rcv.fresh).length - 983040) ∧
      t.flash.persist.poweredS = s.flash.persist.poweredS + (if (s.power.frame + 1).toNat % 50000 = 0 then 1 else 0) ∧
      (s.board.railsUp = false → t.parts = s.parts ∧ t.config = s.config ∧ t.cells = s.cells ∧ t.mem = s.mem) ∧
      (s.board.railsUp = true →
        t.power.decided = false ∧ t.power.overran = false ∧ t.power.wroteA = none ∧ t.power.wroteB = none ∧
        t.power.snap = m ∧ t.power.points = s.power.act.points ∧
        t.power.rack = s.power.rackNew.getD s.power.rack ∧ t.power.rackNew = none ∧
        (∀ p, p < 8 →
          let g := s.power.act.grants.getD p 0
          (t.part p).grant = g ∧ (t.part p).balance =
            (if (s.part p).inService then min ((s.part p).balance + g) (2 * g) else (s.part p).balance)) ∧
        (s.config.swap = none → s.coll.dead = [] → t.config.active =
          (s.config.writes.filter fun w => !w.applied).foldl (fun k w => w.to_ k) s.config.active) ∧
        (∀ slot, s.config.swap = some slot → s.coll.dead = [] → s.config.writes = [] →
          t.config.active = s.config.shadow ∧ t.config.shadow = s.config.active ∧ t.config.swap = none)))

/-- The steps of the active control processor (R354, R356, R357, R358, R360, R371, R374): the decide step runs once a
frame, sets the effective cap to the least of the four sources and raises no point by more than one, and none of
its outputs is in force before the act step and the next tick; an act step by the holder of the token writes them,
and a write by both processors leaves the lower of each field; an overrun frame decides nothing; a good copy reaches
the standby.
The token moves to the standby on a missing copy, on a handover and at Lamplighter's word, and the module
enters the safe state where there is no standby with a good copy (R359 to R361); what the reset of the pair leaves is
the model's reading (assumption 79). -/
def Obligations.ControlProcessors : Prop :=
  ((∀ s : State,
      (s.decides = true → Answers .decideStep s fun t =>
        t.power.decided = true ∧ t.power.overruns = 0 ∧
        t.power.effCap = min (min s.power.rack (cfg s.config.active 2 2)) (min t.power.thermalW t.power.coolantW) ∧
        t.power.act = s.power.act ∧ t.power.points = s.power.points ∧
        (∀ p, (t.part p).grant = (s.part p).grant) ∧
        (∀ g, g < 8 → t.power.next.points.getD g 0 ≤ s.power.points.getD g 0 + 1)) ∧
      (s.decides = false → exec .decideStep s = .next s)) ∧
    (∀ (s : State) (b : Bool), s.controlRuns = true → s.power.decided = true → s.power.overran = false →
      b = s.power.tokenB → s.power.actsNext = false → (if b then s.power.wroteB else s.power.wroteA) = none →
      Answers (.actStep b) s fun t =>
        let other := if b then s.power.wroteA else s.power.wroteB
        (other = none → t.power.act = s.power.next ∧ t.power.dualActive = s.power.dualActive) ∧
        (∀ x, other = some x → t.power.act = x.lower s.power.next ∧ t.power.dualActive = s.power.dualActive + 1) ∧
        (if b then t.power.wroteB else t.power.wroteA) = some s.power.next ∧ t.power.points = s.power.points ∧
        t.parts = s.parts) ∧
    (∀ (a b : Outputs) (i : Nat), i < 8 →
      (a.lower b).points.getD i 0 = min (a.points.getD i 0) (b.points.getD i 0) ∧
      (a.lower b).grants.getD i 0 = min (a.grants.getD i 0) (b.grants.getD i 0)) ∧
    (∀ (s : State), s.controlRuns = true → s.standbyThere = true →
      (Answers (.stateCopy true) s fun t => t.power.copied = true ∧ t.power.standbyGood = true ∧
        t.copy = some s.copyOut ∧ s.copyOut.power = s.power ∧ s.copyOut.thermal = s.thermal ∧
        s.copyOut.carries = (s.parts.map fun k => (k.carries, k.ctxs.map (·.carries))) ∧ t.parts = s.parts) ∧
      exec (.stateCopy false) s = .next s) ∧
    (∀ s : State, s.decides = true → Answers .frameOverrun s fun t =>
      t.power.overran = true ∧ t.power.overruns = s.power.overruns + 1 ∧ t.power.frameOverrun = s.power.frameOverrun + 1 ∧
      (3 ≤ s.power.overruns + 1 → t.power.handover = true) ∧ t.decides = false)) ∧
  ((∀ (s : State) (why : TakeoverCause), s.board.railsUp = true → s.rcv.ctlHeld = false → s.power.active < 2 →
      s.power.standbyGood = true →
      (match why with
        | .missingCopy => s.power.copyMissing = true ∧ s.power.decided = false
        | .handover => (∃ k, s.copy = some k ∧ k.power.handover = true) ∧ s.power.copyMissing = false ∧
          s.power.decided = false
        | .lamplighter => 3 ≤ s.rcv.fails.getD 1 0) →
      Answers (.ctlTakeover why) s fun t =>
        t.power.active = (if s.power.active = 0 then 1 else 0) ∧ t.power.tokenB = decide (s.power.active = 0) ∧
        t.power.failovers = s.power.failovers + 1 ∧ t.power.standbyGood = false ∧ t.power.handover = false ∧
        t.power.act = s.power.act ∧ t.power.points = s.power.points ∧ t.copy = none ∧
        (s.copy = none → t.parts = s.parts ∧ t.thermal = s.thermal) ∧
        ∀ k, s.copy = some k → t.power.effCap = k.power.effCap ∧ t.power.coeffs = k.power.coeffs ∧
          t.power.trims = k.power.trims ∧ t.thermal.tp = k.thermal.tp ∧
          (k.carries.length = s.parts.length → ∀ p, (t.part p).grant = (s.part p).grant ∧
            (t.part p).balance = (s.part p).balance ∧ (t.part p).regions = (s.part p).regions)) ∧
    (∀ s : State, s.controlRuns = true → s.power.standbyGood = false → 3 ≤ s.rcv.fails.getD 1 0 →
      Answers .safeState s fun t =>
        t.power.active = 2 ∧ t.power.act = safeOutputs ∧ t.power.points = List.replicate 8 0 ∧ t.copy = none ∧
        (∀ k ∈ t.parts, k.grant = 0) ∧ t.controlRuns = false ∧ t.power.mismatch = false ∧ t.power.implausible = 0 ∧
        t.power.calFrames = 0 ∧ t.power.trims = s.power.trims))

/-- Trims, droops and the calibration of the estimator (R364, R365, R368, R369): a trim moves by at most 2.5 mV once
in 24 h of powered time and stays within 25 mV; a droop stretches the region's clock at once and its recovery
returns it by eighths; an update of the coefficients is made only when it is due. -/
def Obligations.TrimsDroopsCalibration : Prop :=
  (∀ (s : State) (g step : Nat) (short : Bool), g < 8 → s.power.trims.length = 8 → s.power.trimAt.length = 8 →
    s.board.railsUp = true → s.regionPresent g = true → step ≤ 5 →
    s.power.trimAt.getD g 0 + 86400 ≤ s.flash.persist.poweredS.toNat →
    Answers (.trimUpdate g short step) s fun t =>
      let old := s.power.trims.getD g 0
      let new := t.power.trims.getD g 0
      new = max (-50) (min 50 (if short then old + step else old - step)) ∧ t.flash.trims = t.power.trims ∧
      t.flash.trimStored = true ∧ t.power.trimAt.getD g 0 = s.flash.persist.poweredS.toNat ∧
      (∀ h, h ≠ g → t.power.trims.getD h 0 = s.power.trims.getD h 0) ∧ t.power.points = s.power.points) ∧
  (∀ (s : State) (g step : Nat) (short : Bool), s.flash.persist.poweredS.toNat < s.power.trimAt.getD g 0 + 86400 →
    exec (.trimUpdate g short step) s = .next s) ∧
  (∀ (s : State) (g : Nat) (deep : Bool), g < s.power.stretch.length → s.regionPresent g = true → s.clocksRun = true →
    (Answers (.droop g deep) s fun t =>
      t.power.stretch.getD g 8 = min (s.power.stretch.getD g 8) (if deep then 6 else 7) ∧
      (∀ h, h ≠ g → t.power.stretch.getD h 8 = s.power.stretch.getD h 8)) ∧
    (Answers (.droopRecovery g) s fun t =>
      t.power.stretch.getD g 8 = min 8 (s.power.stretch.getD g 8 + 1) ∧
      (∀ h, h ≠ g → t.power.stretch.getD h 8 = s.power.stretch.getD h 8))) ∧
  (∀ s : State,
    (s.board.railsUp = true → s.power.calDue = true → s.power.active < 2 → Answers .calibrationUpdate s fun t =>
      t.power.lastCal = s.power.frame ∧ t.power.calFrames = 0 ∧ t.power.calSums = [] ∧
      t.power.coeffs.length = 37 ∧ (t.power.firstUse = true → s.power.firstUse = true)) ∧
    (s.power.calDue = false → exec .calibrationUpdate s = .next s))

/-- `POWER_CAP`, `POWER_FIXED` and `ENERGY_READ` (R227, R376, R382, R383, R384, R385, R430): what waits for the frame
boundary, what is refused, and what is reported. -/
def Obligations.PowerCommands : Prop :=
  ∀ (s : State) (slot : Nat) (t : Taken), t.slot = slot →
    let b := s.body slot
    let waits : State → ActiveWrite → Prop := fun u w =>
      u.config.writes = s.config.writes ++ [w] ∧ u.config.active = s.config.active ∧ u.power = s.power ∧ u.parts = s.parts
    (s.startable slot opPowerCap = some t →
      (1500 ≤ b 0 2 → b 0 2 ≤ 5000 → b 2 1 ≤ 2 →
        (s.config.swap = none → Answers (.powerCap slot) s fun u => waits u
          { slot, cap := some (BitVec.ofNat 16 (b 0 2)), boost := if b 2 1 = 0 then none else some (decide (b 2 1 = 1))
            fixed := none, mhz := none, beacon := none, applied := false }) ∧
        (s.config.swap ≠ none → exec (.powerCap slot) s = .next (s.complete t (.of stBusy)))) ∧
      (b 0 2 < 1500 ∨ 5000 < b 0 2 ∨ 2 < b 2 1 →
        exec (.powerCap slot) s = .next (s.complete t (.of stBadField)))) ∧
    (s.startable slot opPowerFixed = some t → s.config.swap = none →
      (∀ k, b 0 1 = 1 → k < 16 → b 2 2 = 900 + 100 * k →
        (floorW k ≤ s.power.effCap → Answers (.powerFixedEnter slot) s fun u => waits u
          { slot, cap := none, boost := none, fixed := some true, mhz := some (BitVec.ofNat 16 (b 2 2)), beacon := none
            applied := false }) ∧
        (s.power.effCap < floorW k → exec (.powerFixedEnter slot) s =
          .next (s.complete t { Report.of stRefusedPower with r0 := floorW k, r1 := s.power.effCap }))) ∧
      (b 0 1 = 0 → b 2 2 = 0 → Answers (.powerFixedLeave slot) s fun u => waits u
        { slot, cap := none, boost := none, fixed := some false, mhz := none, beacon := none, applied := false })) ∧
    (s.startable slot opEnergyRead = some t →
      let p := t.part.toNat
      let c := t.ctx.toNat
      let report := fun (r : Nat × Nat × Nat) (coarse : Bool) => s.complete t { Report.of stDone with
        r0 := r.1, r1 := r.2.1, r2 := r.2.2, r3 := s.power.attributed.toNat, flags := if coarse then cflagCoarse else 0 }
      (b 0 1 = 0 → p = 0xFF → exec (.energyReadTotals slot) s = .next (
        let w := s.power
        if s.anyConf then report (coarseUj w.moduleUj, coarseUj w.railsUj, coarseUj w.unattributedUj) true
        else report (w.moduleUj, w.railsUj, w.unattributedUj) false)) ∧
      (b 0 1 = 0 → p ≠ 0xFF → (s.part p).conf = false → exec (.energyReadTotals slot) s = .next (
        let k := s.part p
        let x := s.ctx p c
        report (if c = 0xFF then (k.totalUj, k.ioUj, k.lossUj) else (x.totalUj, x.runUj, x.moverUj)) false)) ∧
      (b 0 1 = 1 → s.energyBufOk t = true → Answers (.energyReadTelemetry slot) s fun u =>
        u.mail.own slot = 3 ∧ u.power = s.power ∧ u.cells = s.cells) ∧
      (b 0 1 = 2 → s.energyBufOk t = true →
        exec (.energyReadStatus slot) s = .next (s.giveBuf t s.statusRecord)))

/-! ## Power, pins and resets (R37 to R50, R399 to R403, R453 to R459) -/

/-- Power-up (R38 to R40, R44, R399, R403): the core rails are raised when the last of their conditions comes about;
then the power-up succeeds, stops for `COOLANT_STOP_N`, or ends with a rail fault. An orderly power-off records cause 0
and commits the log (R41).
Emergency power-off (R46 to R50, R400, R402): the rails go down, what was on chip or in HBM is gone, the cause,
the frame, the input sample and the tripping sensor are recorded, and the shutdown entry is the newest of the event
queue; of causes detected in one `ACLK` cycle (`also`) the lowest is recorded; with the rails down nothing is left to
do. That the reading of the tripping sensor is kept is the model's choice
(assumption 48). -/
def Obligations.PowerUpAndOff : Prop :=
  ((∀ s : State, s.mayRaise = true ↔
      (let b := s.board
       b.inputOn = true ∧ b.vddSb = true ∧ b.lampReady = true ∧ b.coldReset = false ∧ b.coolantStop = false ∧
       b.pwrEn = true ∧ b.railsUp = false ∧ (b.poweredOff = false ∨ (b.holdoff = false ∧ b.rearmed = true)) ∧
       b.tripHold = false)) ∧
    (∀ (s : State) (o : PowerUp),
      let ends : Board → Instr → Prop := fun b i =>
        let u : State := { s with board := b }
        (u.mayRaise = false → exec i s = .next u) ∧
        (u.mayRaise = true → Answers i s fun t =>
          t.board.thermTrip = false ∧ t.cells = s.cells ∧ t.mem = s.mem ∧ t.parts = s.parts ∧ t.fabric = s.fabric ∧
          match o with
          | .good => t.board.railsUp = true ∧ t.board.pwrGood = true ∧ t.board.coldDue = true ∧
              t.board.poweredOff = false ∧ t.power.everDecided = false ∧ t.flash = s.flash
          | .coolantStop => t.board.railsUp = false ∧ t.board.coolantStop = true ∧ t.flash = s.flash
          | .railFault => t.board.railsUp = false ∧ t.board.poweredOff = true ∧ t.board.alert = true ∧
              t.flash.persist = { s.flash.persist with shutdownCause := 0x06 })
      let b := s.board
      (b.pwrEn = false → ends { b with pwrEn := true, rearmed := true } (.pwrEnAssert o)) ∧
      (b.pwrEn = true → exec (.pwrEnAssert o) s = .next s) ∧
      ends { b with coolantStop := false } (.coolantStopDeassert o) ∧
      (b.vddSb = true → b.coldReset = false → b.lampReady = false → ends { b with lampReady := true } (.lamplighterReady o)) ∧
      (b.holdoff = true → ends { b with holdoff := false } (.restartHoldoffExpiry o)) ∧
      (b.tripHold = true → ends { b with tripTen := true, tripHold := !b.tripReport } (.tripHoldoffExpiry o)) ∧
      (b.coldReset = true → b.vddSb = true → b.recordBusy = false → ∀ id sel,
        let b1 := { b with coldReset := false, slotId := id, bootsel := sel, coldRelease := none }
        if b.pwrEn then ends { b1 with lampReady := true, rearmed := true } (.coldResetDeassert id sel o)
        else exec (.coldResetDeassert id sel o) s = .next { s with board := b1 }) ∧
      (b.coldReset = true → b.vddSb = true → b.recordBusy = true → ∀ id sel, exec (.coldResetDeassert id sel o) s =
        .next { s with board := { b with coldRelease := some (id, sel) } }) ∧
      (b.recordBusy = true → b.coldRelease = none → exec (.flashWriteComplete o) s =
        .next { s with board := { b with recordBusy := false } }) ∧
      (b.recordBusy = true → ∀ id sel, b.coldRelease = some (id, sel) → Answers (.flashWriteComplete o) s fun t =>
        t.board.coldReset = false ∧ t.board.recordBusy = false ∧ t.board.slotId = id ∧ t.board.bootsel = sel)) ∧
    (∀ s : State, s.board.railsUp = true → Answers .pwrEnDeassert s fun t =>
      t.board.pwrEn = false ∧ t.board.railsUp = false ∧ t.flash.persist.shutdownCause = 0x00 ∧ t.board.alert = true ∧
      t.flash.log = (s.flash.log ++ s.rcv.fresh).drop ((s.flash.log ++ s.rcv.fresh).length - 983040) ∧ t.rcv.fresh = [] ∧
      t.cells = [] ∧ t.side.queue.getLast? = some (.shutdown t.flash.persist)) ∧
    (∀ s : State, s.board.railsUp = false →
      exec .pwrEnDeassert s = .next { s with board := { s.board with pwrEn := false, rearmed := false } })) ∧
  (∀ (s : State) (r : InputReading),
      let off : State → Nat → Nat → Prop := fun t cause sensor =>
        let p := t.flash.persist
        t.board.railsUp = false ∧ t.board.pwrGood = false ∧ t.board.poweredOff = true ∧ t.board.holdoff = true ∧
        t.board.alert = true ∧ p.shutdownFrame = s.power.frame ∧
        (p.shutdownCause.toNat = cause ∨ 2 ≤ p.shutdownCause.toNat ∧ r.also.getLsbD p.shutdownCause.toNat = true) ∧
        p.shutdownCause.toNat ≤ cause ∧
        (∀ k, 2 ≤ k → k < p.shutdownCause.toNat → r.also.getLsbD k = false) ∧
        p.shutdownMv = BitVec.ofNat 32 r.mv ∧ p.shutdownMa = BitVec.ofNat 32 r.ma ∧
        p.shutdownSensor = BitVec.ofNat 16 sensor ∧ t.side.queue.getLast? = some (.shutdown p) ∧ t.cells = [] ∧
        t.mem.cells = [] ∧ t.mem.host = s.mem.host ∧ t.disp = resetDisp ∧ t.coll = resetColl ∧ t.fabric = resetFabric ∧
        t.flash.log = s.flash.log ∧ t.fuses = s.fuses ∧ t.power.frame = s.power.frame
      (s.board.railsUp = true →
        Answers (.undervolt r) s (fun t => off t 0x03 0xFFFF) ∧ Answers (.overvolt r) s (fun t => off t 0x04 0xFFFF) ∧
        Answers (.overcurrent r) s (fun t => off t 0x05 0xFFFF) ∧ Answers (.railFault r) s (fun t => off t 0x06 0xFFFF) ∧
        Answers (.inputLoss r) s (fun t => off t 0x02 0xFFFF ∧ t.board.inputOn = false) ∧
        (s.board.stopCount = true → Answers (.snufferPowerOff r) s fun t => off t 0x07 0xFFFF) ∧
        ∀ (sensor : Nat) (reading : Int), sensor < 192 →
          (tripAt sensor ≤ reading → s.thermal.selfTest.getLsbD sensor = false → Answers (.thermalTrip sensor reading r) s
            fun t => off t 0x01 sensor ∧ t.board.thermTrip = true ∧ t.board.tripHold = true ∧ t.flash.tripReading = reading) ∧
          (reading < tripAt sensor ∨ s.thermal.selfTest.getLsbD sensor = true →
            exec (.thermalTrip sensor reading r) s = .next s)) ∧
      (s.board.railsUp = false →
        (∀ i ∈ [Instr.undervolt r, .overvolt r, .overcurrent r, .railFault r, .snufferPowerOff r], exec i s = .next s) ∧
        exec (.inputLoss r) s = .next { s with board := { s.board with inputOn := false } } ∧
        ∀ sensor reading, exec (.thermalTrip sensor reading r) s = .next s) ∧
      (s.board.stopCount = false → exec (.snufferPowerOff r) s = .next s))

/-- Pins and resets (R33, R37, R43, R45, R228, R282, R399 to R401, R453, R454, R459): what each event sets, and what
a package warm start resets. -/
def Obligations.PinsAndResets : Prop :=
  ∀ s : State,
    let b := s.board
    let package : State → Bool → Prop := fun t esc =>
      t.board.warmDue = true ∧ t.board.railsUp = true ∧ t.board.escalated = esc ∧ t.board.stopCount = false ∧
      t.board.cxlUp = !b.hostPerst ∧
      t.mail.ready = false ∧ t.mail.resetGen = s.mail.resetGen + 1 ∧ t.cells = [] ∧ t.disp = resetDisp ∧ t.copy = none ∧
      t.upd.staging = none ∧ t.upd.activation = none ∧ t.sec.sessions = [] ∧ t.sec.running = false ∧
      (∀ k ∈ t.parts, k.inService = false) ∧ (s.sized → (∀ p, p < 8 → (t.part p).pgen = genNext (s.part p).pgen) ∧
        ∀ h, h < 72 → (t.port h).st = .disabled) ∧ t.flash.log = s.flash.log ∧ t.fuses = s.fuses
    exec .inputApplied s = .next { s with board := { b with inputOn := true, vddSb := true } } ∧
    (b.inputOn = false → b.vddSb = true → Answers .vddSbLoss s fun t =>
      t.board.vddSb = false ∧ t.board.lampReady = false ∧ t.board.alert = false ∧ t.power.frame = 0 ∧ t.rcv.fresh = [] ∧
      t.side.queue = [] ∧ t.flash = s.flash ∧ t.fuses = s.fuses) ∧
    (b.inputOn = true ∨ b.vddSb = false → exec .vddSbLoss s = .next s) ∧
    (b.coldReset = false → Answers .coldResetAssert s fun t =>
      t.board.coldReset = true ∧ t.board.railsUp = false ∧ t.board.lampReady = false ∧ t.power.frame = 0 ∧
      t.board.recordBusy = b.railsUp ∧
      (b.railsUp = true → t.flash.persist.shutdownCause = 0x08 ∧ t.flash.persist.shutdownFrame = s.power.frame ∧
        t.cells = [] ∧ t.side.queue = [.shutdown t.flash.persist]) ∧ (b.railsUp = false → t.flash = s.flash)) ∧
    (b.coldReset = true → exec .coldResetAssert s = .next { s with board := { b with coldRelease := none } }) ∧
    (b.coldReset = false → b.railsUp = true → b.coldDue = false → b.warmDue = false →
      (b.coolantStop = true → exec .warmReset s = .next { s with board := { b with warmHeld := true } }) ∧
      (b.coolantStop = false → Answers .warmReset s fun t => package t false)) ∧
    (b.coldReset = true ∨ b.railsUp = false ∨ b.coldDue = true ∨ b.warmDue = true → exec .warmReset s = .next s) ∧
    (b.railsUp = true → b.stopCount = true → b.coolantStop = false → Answers .coolantStopRelease s fun t => package t false) ∧
    (b.stopCount = false ∨ b.coolantStop = true → exec .coolantStopRelease s = .next s) ∧
    (b.railsUp = true → b.warmDue = false → s.rcv.hang.isSome = true → Answers .hangEscalation s fun t => package t true) ∧
    (s.rcv.hang = none → exec .hangEscalation s = .next s) ∧
    (b.coolantStop = false → b.railsUp = true → Answers .snuffer s fun t =>
      t.board.coolantStop = true ∧ t.board.stopCount = true ∧ t.board.alert = true ∧ t.clocksRun = false ∧
      t.cells = s.cells ∧ t.mail.evtLast = evFlowStop) ∧
    (b.coolantStop = false → b.railsUp = false → exec .snuffer s = .next { s with board := { b with coolantStop := true } }) ∧
    (b.coolantStop = true → exec .snuffer s = .next s) ∧
    (b.hostPerst = false → Answers .hostPerstAssert s fun t =>
      t.board.hostPerst = true ∧ t.board.cxlUp = false ∧ t.mail.ready = false ∧ t.mail.enable = false ∧
      t.mail.posted = [] ∧ t.mail.taken = [] ∧ t.mail.resetGen = s.mail.resetGen + (if s.mail.ready then 1 else 0) ∧
      t.sec.tdi = .configUnlocked ∧ t.board.railsUp = b.railsUp ∧ t.flash.log = s.flash.log) ∧
    (b.hostPerst = true → exec .hostPerstAssert s = .next s) ∧
    (∀ f, b.hostPerst = true → Answers (.hostPerstDeassert f) s fun t =>
      t.board.hostPerst = false ∧ t.board.flit256 = f ∧ t.board.cxlUp = b.railsUp ∧
      t.mail.ready = (s.started && s.rcv.hang.isNone || s.mail.ready) ∧ t.parts = s.parts) ∧
    (∀ f, b.hostPerst = false → exec (.hostPerstDeassert f) s = .next s) ∧
    (Answers .srefclkPresent s fun t => t.board.srefclk = true ∧ t.parts = s.parts ∧ t.cells = s.cells) ∧
    (Answers .frameSyncPresent s fun t => t.board.frameSync = true ∧ t.fabric.stratum = 0 ∧ t.fabric.source = 1 ∧
      t.fabric.locked = true ∧ t.fabric.ports = s.fabric.ports) ∧
    (Answers .frameSyncAbsent s fun t => t.board.frameSync = false ∧ t.fabric.ports = s.fabric.ports ∧ t.cells = s.cells)

/-- The starts (R407, R450, R453, R463 to R466): a start that passes its self-test, finds a good active image of
every component, trained memory and first heartbeats serves the mailbox with result 0; a failed self-test gives
result 1 and a missing image result 2, and compute stays stopped. A control processor that a start has found out of
service returns at a cold start. A start that is not due does nothing. -/
def Obligations.Starts : Prop :=
  ∀ (s : State) (f : StartFindings),
    let failed : State → BitVec 8 → Prop := fun t n =>
      t.flash.persist.startResult = n ∧ t.mail.ready = false ∧ t.board.alert = true ∧ t.cells = s.cells
    let images := ∀ c, 1 ≤ c → c ≤ 6 → s.imageOk c (s.activeImage c) = true ∧ (s.bootEntry c).fellBack = false
    let good := f.selfTestOk = true ∧ (s.fuses.keysetDev = true ∨ s.fuses.debugFuse = true) ∧ images ∧
      s.sec.runningImages.length = 6 ∧ s.flash.retired = [] ∧ f.edgesOk = BitVec.allOnes 12 ∧
      (∀ c, 1 ≤ c → c ≤ 3 → f.firstBeat.getLsbD c = true) ∧ f.damaged = [] ∧ f.recordBad = 0
    let served : State → Bool → Prop := fun t aOut =>
      t.flash.persist.startResult = 0 ∧ t.mail.ready = !s.board.hostPerst ∧ t.sec.running = true ∧ t.sec.error = false ∧
      t.board.coldDue = false ∧ t.board.warmDue = false ∧ t.board.cxlUp = !s.board.hostPerst ∧
      t.mail.startFrame = s.power.frame ∧ t.power.active = (if f.ctlAOk && !aOut then 0 else 1) ∧ t.power.frame = s.power.frame ∧
      t.power.points = List.replicate 8 0 ∧ (∀ c, 1 ≤ c → c < 5 → t.sec.runningImages.getD c none = s.activeImage (c + 1))
    let lamp : State → Option Image := fun t => t.sec.runningImages.getD 0 none
    (s.board.railsUp = false ∨ s.board.coldDue = false → exec (.coldStart f) s = .next s) ∧
    (∀ sel, s.board.railsUp = false ∨ s.board.warmDue = false → exec (.warmStart sel f) s = .next s) ∧
    (s.board.railsUp = true → s.board.coldDue = true →
      (s.board.bootsel = 0 → good → f.stacksOk = BitVec.allOnes 32 → f.bistFailed = [] → s.flash.fences = [] →
        Answers (.coldStart f) s fun t => served t false ∧ lamp t = s.activeImage 1 ∧ t.mail.start = 1 ∧ t.mail.resetGen = 0 ∧
          t.flash.persist.coldStarts = s.flash.persist.coldStarts + 1 ∧ t.units.hbm = BitVec.allOnes 32 ∧
          ∀ g, g < 8 → t.regionPresent g = true) ∧
      (f.selfTestOk = false → Answers (.coldStart f) s fun t => failed t 1 ∧ t.sec.error = true ∧ t.sec.running = false) ∧
      (∀ c ∈ [1, 2, 4, 5, 6], f.selfTestOk = true → (s.fuses.keysetDev = true ∨ s.fuses.debugFuse = true) →
        s.board.bootsel = 1 → s.imageOk c (s.image false c) = false → Answers (.coldStart f) s fun t => failed t 2)) ∧
    (s.board.railsUp = true → s.board.warmDue = true →
      (s.sec.error = false → good → (lamp s).isSome = true → (∃ g, g < 8 ∧ s.regionPresent g = true) → Answers (.warmStart 0 f) s fun t =>
        served t s.power.aOut ∧ lamp t = lamp s ∧ t.mail.start = 2 ∧ t.mail.resetGen = s.mail.resetGen ∧
        t.flash.persist.warmStarts = s.flash.persist.warmStarts + 1 ∧ t.units.hbm = s.units.hbm &&& f.stacksOk) ∧
      (∀ sel, f.selfTestOk = false ∨ s.sec.error = true → Answers (.warmStart sel f) s fun t =>
        failed t 1 ∧ t.sec.error = true ∧ t.board.bootsel = sel))

/-! ## Heartbeats, recovery and crash dumps (R453 to R475) -/

/-- Heartbeat checks and what follows them (R455 to R462): a heartbeat clears the count, the third failure in a row
of the command processor begins a hang recovery that resets compute and counts in the persistent record; its end
completes every command taken, advances `RESET_GEN`, and sets the latch when the third last recovery lies no more than
3,600 s back; no heartbeat of a component is checked while its activation pauses it, nor any during that of Lamplighter (R449,
R456); the third failure of the security controller resets it; that of a control processor calls for a takeover. A first heartbeat that does not come
fails the start with result 3. That the first heartbeat found after it ends the recovery is the model's choice
(assumption 77).
The event log, the persistent record and the crash dump as they are read and written (R469 to R475): a summary
goes to the older of two areas; reads give what is held, cut to the buffer, with the length that is left. The place of
each section in a dump is free (assumption 33). -/
def Obligations.RecoveryAndDumps : Prop :=
  ((∀ (s : State) (cmd ctl sec : Bool),
      ¬(s.board.railsUp = true ∧ s.started = true ∧ s.power.frame.toNat % 50 = 1) →
      exec (.heartbeatCheck cmd ctl sec) s = .next s) ∧
    (∀ (s : State) (cmd ctl sec : Bool) (a : Activation), s.upd.activation = some a →
      (a.comp = 1 → exec (.heartbeatCheck cmd ctl sec) s = .next s) ∧
      (a.comp = 2 → s.board.railsUp = true → s.started = true → s.power.frame.toNat % 50 = 1 → s.rcv.cmdHeld = true →
        Answers (.heartbeatCheck false ctl sec) s fun t => t.sec = s.sec ∧ t.rcv.fails.getD 2 9 = s.rcv.fails.getD 2 9) ∧
      (a.comp = 3 → s.board.railsUp = true → s.started = true → s.power.frame.toNat % 50 = 1 → s.sec.error = true →
        Answers (.heartbeatCheck cmd ctl sec) s fun t => t.mail = s.mail ∧ t.rcv.hang = s.rcv.hang ∧
          t.rcv.fails.getD 0 9 = s.rcv.fails.getD 0 9)) ∧
    (∀ s : State, s.board.railsUp = true → s.started = true → s.power.frame.toNat % 50 = 1 → s.rcv.fails.length = 3 →
      let n := fun i => s.rcv.fails.getD i 0
      let p := s.flash.persist
      (s.board.hostPerst = false → s.upd.activation = none → s.rcv.cmdHeld = false →
        (Answers (.heartbeatCheck true true true) s fun t => t.rcv.fails.getD 0 9 = 0 ∧ t.mail = s.mail ∧ t.cells = s.cells) ∧
        (n 0 < 2 → Answers (.heartbeatCheck false true true) s fun t =>
          t.rcv.fails.getD 0 9 = n 0 + 1 ∧ t.mail = s.mail ∧ t.cells = s.cells) ∧
        (2 ≤ n 0 → p.hangTimes.length = 3 → Answers (.heartbeatCheck false true true) s fun t =>
          t.mail.resetGen = s.mail.resetGen ∧ t.mail.ready = false ∧ t.disp = resetDisp ∧
          t.board.alert = true ∧ t.rcv.hang = some s.power.frame ∧ t.rcv.cmdHeld = true ∧
          t.rcv.killed = (s.mail.taken.map fun k => (k.slot, s.endReport stKilled k)) ∧
          ((∀ x ∈ s.flash.retired, x.retired = true) → t.mail.taken = s.mail.taken) ∧
          t.flash.persist.hangsLife = p.hangsLife + 1 ∧ t.flash.persist.hangTimes = (p.hangTimes ++ [p.poweredS]).drop 1 ∧
          t.flash.dumpSeq = s.flash.dumpSeq + 1 ∧ t.rcv.summaryDue.isSome = true)) ∧
      (s.board.hostPerst = false → s.upd.activation = none → s.rcv.cmdHeld = true → s.rcv.hang.isSome = true →
        ∀ x y z, p.hangTimes = [x, y, z] → Answers (.heartbeatCheck true true true) s fun t =>
          t.mail.resetGen = s.mail.resetGen + 1 ∧ t.mail.ready = true ∧ t.mail.taken = [] ∧ t.rcv.hang = none ∧
          t.rcv.cmdHeld = false ∧ t.flash.persist.hangsLife = p.hangsLife ∧
          (t.flash.persist.oos = true ↔ p.oos = true ∨ x ≠ 0 ∧ z.toNat ≤ x.toNat + 3600)) ∧
      (s.upd.activation = none → s.rcv.secHeld = false → s.sec.error = false → s.sec.running = true → s.sec.paused = false → s.rcv.cmdHeld = true →
        (n 2 < 2 → Answers (.heartbeatCheck false true false) s fun t =>
          t.rcv.fails.getD 2 9 = n 2 + 1 ∧ t.sec = s.sec ∧ t.mail = s.mail) ∧
        (2 ≤ n 2 → Answers (.heartbeatCheck false true false) s fun t =>
          t.sec.sessions = [] ∧ t.sec.paused = true ∧ t.rcv.secHeld = true ∧ t.board.alert = true ∧ t.cells = s.cells)) ∧
      (s.upd.activation = none → s.controlRuns = true → s.rcv.cmdHeld = true → s.sec.error = true → Answers (.heartbeatCheck false false false) s fun t =>
        t.rcv.fails.getD 1 9 = min 3 (n 1 + 1) ∧ t.power = s.power ∧ t.mail = s.mail)) ∧
    (∀ s : State,
      let failed : State → Prop := fun t =>
        t.flash.persist.startResult = 3 ∧ t.mail.ready = false ∧ t.board.alert = true ∧ t.cells = s.cells
      (s.board.railsUp = true →
        (s.rcv.secHeld = true → s.sec.running = true → Answers (.firstHeartbeatTimeout 2) s failed) ∧
        (s.rcv.cmdHeld = true → s.board.hostPerst = false → Answers (.firstHeartbeatTimeout 3) s failed) ∧
        (s.rcv.ctlHeld = true → Answers (.firstHeartbeatTimeout 4) s failed)) ∧
      (∀ c, s.board.railsUp = false ∨ ¬(c = 2 ∨ c = 3 ∨ c = 4) → exec (.firstHeartbeatTimeout c) s = .next s) ∧
      (s.board.lampReady = true → Answers .lampWatchdog s fun t =>
        t.rcv.fails = [0, 0, 0] ∧ t.board.alert = true ∧ t.mail.evtLast = evHang ∧ t.parts = s.parts ∧ t.cells = s.cells ∧
        ∀ x, x ∈ t.sec.sessions ↔ x ∈ s.sec.sessions ∧ x.tr = .doe) ∧
      (s.board.lampReady = false → exec .lampWatchdog s = .next s) ∧
      (∀ d, d < 4 → s.board.railsUp = true → Answers (.iodFabricError d) s fun t =>
        t.fabBlock d = FabBlock.reset ∧ (∀ e, e ≠ d → t.fabBlock e = s.fabBlock e) ∧ t.coll.panUsed.getD d 0 = 0 ∧
        (s.sized → ∀ h, h < 72 → iodOf h = d → (t.port h).counters = Vector.replicate 10 0 ∧
          ((s.port h).st ≠ .disabled → (t.port h).st = .down) ∧
          ((s.port h).st = .disabled → (t.port h).st = .disabled ∨ (t.port h).st = .detect)) ∧
        t.cells = s.cells) ∧
      (∀ d, 4 ≤ d ∨ s.board.railsUp = false → exec (.iodFabricError d) s = .next s))) ∧
  ((∀ p : Persist, p.bytes.length = 256) ∧
    (∀ s : State,
      (s.rcv.summaryDue = none → exec .dumpSummaryWrite s = .next s) ∧
      (∀ d, s.rcv.summaryDue = some d → Answers .dumpSummaryWrite s fun t =>
        t.rcv.summaryDue = none ∧ t.flash.persist = s.flash.persist ∧
        (dumpAge s.flash.summaryA ≤ dumpAge s.flash.summaryB →
          t.flash.summaryA = some d ∧ t.flash.summaryB = s.flash.summaryB) ∧
        (dumpAge s.flash.summaryB < dumpAge s.flash.summaryA →
          t.flash.summaryB = some d ∧ t.flash.summaryA = s.flash.summaryA) ∧
        (∀ x, s.rcv.dump = some x → t.rcv.dump = some { x with summaryWritten := true }))) ∧
    (∀ (s : State) (slot : Nat) (t : Taken), t.slot = slot →
      let b := s.body slot
      let n := b 0x10 4
      (s.startable slot opLogRead = some t → s.bufOk slot = true →
        (b 0 1 = 1 → exec (.logReadRecord slot) s = .next (s.giveBuf t s.flash.persist.bytes)) ∧
        (b 0 1 = 0 →
          let all := s.flash.log ++ s.rcv.fresh
          let l := all.filter fun e => decide (b 0x18 8 ≤ e.seq)
          let next := s.flash.persist.nextSeq.toNat
          exec (.logReadEvents slot) s = .next (
            (s.hostWrite (b 8 8) ((l.take (n / 32)).flatMap LogEntry.bytes)).complete t { Report.of stDone with
              r0 := 32 * l.length, r1 := 32 * min (n / 32) l.length, r2 := (all.head?.map (·.seq)).getD next, r3 := next
              flags := if n / 32 < l.length then cflagTrunc else 0 })) ∧
        (2 ≤ b 0 1 → exec (.logReadEvents slot) s = .next (s.complete t (.of stBadField)))) ∧
      (s.startable slot opDumpRead = some t → b 0 1 ≤ 2 → s.bufOk slot = true → n ≤ 16 * mib →
        (s.dumpObject (b 0 1) = none → exec (.dumpRead slot) s = .next (s.complete t (.of stWrongState))) ∧
        (∀ d, s.dumpObject (b 0 1) = some d →
          let l := d.bytes
          let off := b 4 4
          (l.length ≤ off → exec (.dumpRead slot) s = .next (s.complete t (.of stBadField))) ∧
          (off < l.length → exec (.dumpRead slot) s = .next (
            (s.hostWrite (b 8 8) ((l.drop off).take n)).complete t { Report.of stDone with
              r0 := l.length - off, r1 := min n (l.length - off), r2 := d.seq.toNat
              flags := if n < l.length - off then cflagTrunc else 0 }))))))

/-! ## Firmware (R435 to R452) -/

/-- Staging (R439, R444 to R446): a first piece that passes the checks makes the slot that is not active invalid and
opens the staging; the last piece closes it by the digest; an abandoned staging is dropped after 60 s. `FW_STATUS`
gives the 208-byte record (R452). A piece that comes while the one before is being written waits (assumption 81), and an
activation of `CMD` waits for the commands taken before it.
Activation and floors (R440, R441, R448, R449): the boot record names the new image before anything runs it; the
image runs when the activation completes; a timeout restores the former one; a commit raises the component's floor to
the version of its active image and never lowers it. -/
def Obligations.Firmware : Prop :=
  (∀ (s : State) (slot : Nat) (t : Taken), t.slot = slot →
      let comp := s.body slot 0 1
      let flags := s.body slot 1 1
      (s.startable slot opFwStage = some t → ∀ data,
        let piece := padTo (s.body slot 0x10 4) data
        let i := parseImage (Config.imageSigned s.fuses.keysetDev s.fuses.rootRsa s.fuses.rootSlh piece) piece
        (s.stageFieldsOk slot = false → exec (.fwStage slot data) s = .next (s.complete t (.of stBadField))) ∧
        (s.stageFieldsOk slot = true → s.board.bootsel ≠ 0 →
          exec (.fwStage slot data) s = .next (s.complete t (.of stWrongState))) ∧
        (s.stageFieldsOk slot = true → s.board.bootsel = 0 →
          (s.stageBusy comp = true → exec (.fwStage slot data) s = .next (s.complete t (.of stBusy))) ∧
          (s.stageBusy comp = false → s.pieceWaits comp = true → exec (.fwStage slot data) s = .next s) ∧
          (s.stageBusy comp = false → s.pieceWaits comp = false → flags = 1 → s.body slot 4 4 = 0 →
            (∀ st, s.checkImage comp (rawHeaderOk piece) i = some st → Answers (.fwStage slot data) s fun u =>
              u.upd.staging = none ∧ u.flash = s.flash ∧ u.mail.own slot = 3) ∧
            (s.checkImage comp (rawHeaderOk piece) i = none → s.flash.boot.entries.length = 6 →
              s.flash.boot.seq + 1 < 2 ^ 32 → Answers (.fwStage slot data) s fun u =>
                let b := !(s.bootEntry comp).activeB
                (∃ g, u.upd.staging = some g ∧ g.comp = comp ∧ g.bytes = piece ∧ g.toB = b ∧ g.slot = some slot ∧
                  g.last = false) ∧
                u.bootEntry comp = { (s.bootEntry comp).setValid b false with pending := false } ∧ u.image b comp = none ∧
                u.image (!b) comp = s.image (!b) comp ∧ ∀ c, 1 ≤ c → c ≠ comp → u.bootEntry c = s.bootEntry c)) ∧
          (s.stageBusy comp = false → s.pieceWaits comp = false → flags % 2 = 0 →
            (s.stagedBytes comp = none → exec (.fwStage slot data) s = .next (s.complete t (.of stBadField))) ∧
            (∀ old, s.stagedBytes comp = some old → s.body slot 4 4 ≠ old.length →
              exec (.fwStage slot data) s = .next (s.complete t (.of stBadField))) ∧
            (∀ old, s.stagedBytes comp = some old → s.body slot 4 4 = old.length → flags = 0 →
              Answers (.fwStage slot data) s fun u =>
                ∃ g, u.upd.staging = some g ∧ g.comp = comp ∧ g.bytes = old ++ piece ∧ g.slot = some slot)))) ∧
      (∀ o g, s.board.recordBusy = false → s.upd.staging = some g → g.slot = some slot →
        (g.last = false → exec (.flashWriteComplete o) s = .next
          (({ s with upd := { s.upd with staging := some { g with slot := none } } } : State).completeSlot slot
            { Report.of stDone with r0 := g.bytes.length })) ∧
        (g.last = true → digestOk g.bytes = false → Answers (.flashWriteComplete o) s fun u =>
          u.upd.staging = none ∧ u.flash = s.flash) ∧
        (g.last = true → digestOk g.bytes = true → 1 ≤ g.comp → g.comp ≤ 6 → s.flash.boot.entries.length = 6 →
          s.flash.boot.seq + 1 < 2 ^ 32 → s.flash.slotA.length = 6 → s.flash.slotB.length = 6 →
          Answers (.flashWriteComplete o) s fun u =>
            u.upd.staging = none ∧ u.image g.toB g.comp = some (parseImage true g.bytes) ∧
            u.bootEntry g.comp = { (s.bootEntry g.comp).setValid g.toB true with pending := true })) ∧
      (∀ g, s.upd.staging = some g → g.slot = none → g.lastFrame + 3000000 ≤ s.power.frame.toNat →
        Answers .stagingTimeout s fun u => u.upd.staging = none ∧ u.flash = s.flash) ∧
      (s.upd.staging = none → exec .stagingTimeout s = .next s) ∧
      s.fwRecord.length = 208 ∧
      (s.startable slot opFwStatus = some t →
        (s.bufOk slot = false → exec (.fwStatus slot) s = .next (s.complete t (.of stBadField))) ∧
        (s.bufOk slot = true → Answers (.fwStatus slot) s fun u => u.mail.own slot = 3 ∧ u.upd = s.upd ∧ u.flash = s.flash))) ∧
  (∀ (s : State) (slot : Nat) (t : Taken), t.slot = slot →
      let comp := s.body slot 0 1
      let boot := s.flash.boot.entries.length = 6 ∧ s.flash.boot.seq + 1 < 2 ^ 32
      (s.startable slot opFwActivate = some t →
        (comp = 0 ∨ 6 < comp → exec (.fwActivate slot) s = .next (s.complete t (.of stBadField))) ∧
        (1 ≤ comp → comp ≤ 6 → ∀ st, s.activateRefusal comp = some st →
          exec (.fwActivate slot) s = .next (s.complete t (.of st))) ∧
        (comp = 3 → s.activateRefusal comp = none → s.earlierTaken t = true → exec (.fwActivate slot) s = .next s) ∧
        (1 ≤ comp → comp ≤ 5 → boot → s.activateRefusal comp = none → comp ≠ 3 ∨ s.earlierTaken t = false →
          Answers (.fwActivate slot) s fun u =>
          let e := s.bootEntry comp
          u.bootEntry comp = { e with activeB := !e.activeB, pending := false } ∧
          (∃ a, u.upd.activation = some a ∧ a.comp = comp ∧ a.slot = some slot ∧ a.fromB = e.activeB) ∧
          u.sec.runningImages = s.sec.runningImages ∧ (comp = 2 → u.sec.sessions = []) ∧
          (comp = 4 → u.power.handover = true)) ∧
        (comp = 6 → boot → s.activateRefusal comp = none → Answers (.fwActivate slot) s fun u =>
          (u.bootEntry 6).activeB = !(s.bootEntry 6).activeB ∧ u.mail.own slot = 3 ∧ u.upd = s.upd)) ∧
      (s.upd.activation = none → exec (.activationComplete 0) s = .next s ∧ exec .activationTimeout s = .next s) ∧
      (∀ a us, s.upd.activation = some a → a.slot = some slot →
        (s.activationReady a = false → exec (.activationComplete us) s = .next s) ∧
        (s.activationReady a = true → 1 ≤ a.comp → a.comp ≤ 6 → s.sec.runningImages.length = 6 →
          Answers (.activationComplete us) s fun u =>
            u.upd.activation = none ∧ u.sec.runningImages.getD (a.comp - 1) none = s.activeImage a.comp ∧
            (s.sec.waiting = [] → u.mail.evtLast = evMeasChanged) ∧ u.sec.waiting = [] ∧ (a.comp = 2 → u.sec.paused = false) ∧ u.flash.boot = s.flash.boot) ∧
        (boot → 1 ≤ a.comp → a.comp ≤ 6 → Answers .activationTimeout s fun u =>
          u.upd.activation = none ∧ (u.bootEntry a.comp).activeB = a.fromB ∧
          u.sec.runningImages = s.sec.runningImages ∧ u.sec.waiting = [])) ∧
      (s.startable slot opFwCommit = some t →
        (∀ st, s.commitRefusal comp = some st → exec (.fwCommit slot) s = .next (
          s.complete t { Report.of st with r0 := if st = stBadField then 0 else s.floor comp })) ∧
        (s.commitRefusal comp = none → s.fuses.svnFloor.length = 6 → Answers (.fwCommit slot) s fun u =>
          u.floor comp = max (s.floor comp) (((s.activeImage comp).map fun i => i.svn).getD 0) ∧
          u.mail.own slot = 3 ∧ ∀ c, 1 ≤ c → c ≠ comp → u.floor c = s.floor c)) ∧
      (∀ comp, s.lampAnswers = true → s.board.bootsel ≠ 3 →
        (s.secServes = false → exec (.trayFwCommit comp) s = .next (s.answer 0x06 trNotReady [])) ∧
        (s.secServes = true → (∀ st, s.commitRefusal comp = some st →
            exec (.trayFwCommit comp) s = .next (s.answer 0x06 (trCode st) [])) ∧
          (s.commitRefusal comp = none → s.fuses.svnFloor.length = 6 → Answers (.trayFwCommit comp) s fun u =>
            u.floor comp = max (s.floor comp) (((s.activeImage comp).map fun i => i.svn).getD 0) ∧
            u.out = s.out ++ [.tray 0x06 trOk (leBytes 4 (u.floor comp))]))))

/-! ## The tray (R393 to R403, R477 to R494) -/

/-- Tray messages (R393, R394, R403, R463, R491 to R494): discarded while Lamplighter does not answer or under
`BOOTSEL` 11; else each is answered with its code and takes its effect. -/
def Obligations.TrayMessages : Prop :=
  (∀ (s : State) (m : CoolantMsg) (o : PowerUp) (w iod off count comp : Nat) (vals : List (BitVec 64)),
    s.lampAnswers = false ∨ s.board.bootsel = 3 →
    ∀ i ∈ [Instr.coolantReport m o, .rackCeiling w, .serviceClear, .fabRead iod off count, .fabWrite iod off vals,
      .trayFwCommit comp, .telemRead w, .iodReset iod, .getState], exec i s = .next s) ∧
  (∀ s : State, s.lampAnswers = true → s.board.bootsel ≠ 3 →
    (∀ m o, reportValid m = true → Answers (.coolantReport m o) s fun t =>
      t.out = s.out ++ [.tray 0x02 trOk [1]] ∧ t.thermal.lastSeq = some m.seq ∧
      t.thermal.lastValid = s.power.frame.toNat ∧
      (s.board.railsUp = true → t.board = s.board ∨ s.board.tripHold = true) ∧
      (s.board.railsUp = true →
        t.thermal.arrived = s.thermal.arrived ++ [(m, s.thermal.lastSeq == some m.seq)])) ∧
    (∀ m o, reportValid m = false → exec (.coolantReport m o) s = .next (s.answer 0x02 trOk [0])) ∧
    (∀ w, (1500 ≤ w → w ≤ 5000 → Answers (.rackCeiling w) s fun t =>
        t.out = s.out ++ [.tray 0x01 trOk (leBytes 2 (if s.power.everDecided then s.power.effCap else 0))] ∧
        (if s.board.railsUp then t.power.rackNew = some w ∧ t.power.rack = s.power.rack else t.power.rack = w)) ∧
      (w < 1500 ∨ 5000 < w → exec (.rackCeiling w) s = .next (s.answer 0x01 trInvalidData []))) ∧
    (s.flash.persist.oos = true → Answers .serviceClear s fun t =>
      t.flash.persist = { s.flash.persist with clearPending := true } ∧ t.out = s.out ++ [.tray 0x03 trOk []]) ∧
    (s.flash.persist.oos = false → exec .serviceClear s = .next (s.answer 0x03 trRefused [])) ∧
    (s.fabricServes = false → ∀ iod off count vals,
      exec (.fabRead iod off count) s = .next (s.answer 0x04 trNotReady []) ∧
      exec (.fabWrite iod off vals) s = .next (s.answer 0x05 trNotReady [])) ∧
    (s.fabricServes = true → ∀ iod off,
      (∀ count, fabFieldsOk iod off count = true → exec (.fabRead iod off count) s = .next (s.answer 0x04 trOk
        ((List.range count).flatMap fun i => leBytes 8 (s.fabReg iod (off + 8 * i)).toNat))) ∧
      (∀ count, fabFieldsOk iod off count = false →
        exec (.fabRead iod off count) s = .next (s.answer 0x04 trInvalidData [])) ∧
      (∀ v, fabFieldsOk iod off 1 = true →
        exec (.fabWrite iod off [v]) s = .next ((s.fabWriteReg iod off v).answer 0x05 trOk [])) ∧
      (∀ v w, fabFieldsOk iod off 2 = true → exec (.fabWrite iod off [v, w]) s =
        .next (((s.fabWriteReg iod off v).fabWriteReg iod (off + 8) w).answer 0x05 trOk [])) ∧
      (∀ vals, fabFieldsOk iod off vals.length = false →
        exec (.fabWrite iod off vals) s = .next (s.answer 0x05 trInvalidData []))) ∧
    (∀ frame, Answers (.telemRead frame) s fun t => ∃ l : List Telem,
      l.length ≤ 3 ∧ (∀ r ∈ l, r ∈ s.power.trayRing ∧ frame ≤ r.frame.toNat) ∧ t.power = s.power ∧
      t.out = s.out ++ [.tray 0x07 trOk (l.flatMap fun r => leBytes 1 l.length ++ r.bytes)]) ∧
    (∀ d, (s.board.railsUp = false → exec (.iodReset d) s = .next (s.answer 0x08 trNotReady [])) ∧
      (s.board.railsUp = true → s.board.coldDue = true ∨ s.board.warmDue = true →
        exec (.iodReset d) s = .next (s.answer 0x08 trBusy [])) ∧
      (s.board.railsUp = true → s.board.coldDue = false → s.board.warmDue = false →
        (d < 4 → Answers (.iodReset d) s fun t =>
          t.fabBlock d = FabBlock.reset ∧ ∀ e, e ≠ d → t.fabBlock e = s.fabBlock e) ∧
        (4 ≤ d → exec (.iodReset d) s = .next (s.answer 0x08 trInvalidData [])))) ∧
    exec .getState s = .next (s.answer 0x09 trOk (leBytes 8 s.stateWord)) ∧
    (s.stateWord.testBit 8 = s.board.pwrEn ∧ s.stateWord.testBit 9 = s.board.pwrGood ∧
      s.stateWord.testBit 12 = s.board.thermTrip ∧ s.stateWord.testBit 15 = s.mail.ready ∧
      s.stateWord % 64 = s.board.slotId.toNat ∧ s.stateWord / 2 ^ 16 = s.mail.resetGen.toNat)) ∧
  (∀ s : State,
    (s.thermal.everValid = true → s.thermal.lastValid + 1500 < s.power.frame.toNat → Answers .coolantReportStale s fun t =>
      t.thermal = { s.thermal with held := true } ∧ t.board = s.board) ∧
    (s.thermal.everValid = false ∨ s.power.frame.toNat ≤ s.thermal.lastValid + 1500 →
      exec .coolantReportStale s = .next s) ∧
    (s.thermal.everValid = true → s.thermal.held = true → s.thermal.lastValid + 3000000 ≤ s.power.frame.toNat →
      Answers .coolantHoldExpiry s fun t => t.thermal = { s.thermal with held3000 := true } ∧ t.board = s.board) ∧
    (s.thermal.held = false → exec .coolantHoldExpiry s = .next s))

/-- I3C and MCTP (R478 to R481): a dynamic address is taken once and dropped by `RSTDAA`, the endpoint ID is set to any
value but 0 and 0xFF, and every request is answered; nothing is while Lamplighter does not answer. Device identifiers
and the status word are free (assumptions 34 and 53). -/
def Obligations.BusAndTransport : Prop :=
  ∀ s : State,
    (s.lampAnswers = false → ∀ (a : BitVec 7) (e : BitVec 8),
      ∀ i ∈ [Instr.setdasa a, .setaasa, .entdaa a, .rstdaa, .getmrl, .getmwl, .getstatus, .getbcr, .getdcr, .getpid,
        .setEndpointId e, .getEndpointId, .getMctpVersionSupport, .getMessageTypeSupport, .getVendorDefinedMessageSupport],
      exec i s = .next s) ∧
    (s.lampAnswers = true →
      (∀ a, s.side.dynAddr = none →
        (∀ i ∈ [Instr.setdasa a, .entdaa a], exec i s = .next { s with side := { s.side with dynAddr := some a } }) ∧
        let own : BitVec 7 := if s.board.slotId = 0x36 then 0x48 else 0x08 + s.board.slotId.setWidth 7
        exec .setaasa s = .next { s with side := { s.side with dynAddr := some own } }) ∧
      (∀ a b, s.side.dynAddr = some b → ∀ i ∈ [Instr.setdasa a, .setaasa, .entdaa a], exec i s = .next s) ∧
      exec .rstdaa s = .next { s with side := { s.side with dynAddr := none } } ∧
      (∀ i ∈ [Instr.getmrl, .getmwl], exec i s = .next (s.emit (.i3c [256]))) ∧
      (Answers .getstatus s fun t => (∃ n, t.out = s.out ++ [.i3c [n]]) ∧ t.side = s.side) ∧
      exec .getbcr s = .next (s.emit (.i3c [Config.deviceId 1])) ∧
      exec .getdcr s = .next (s.emit (.i3c [Config.deviceId 2])) ∧
      exec .getpid s = .next (s.emit (.i3c [Config.deviceId 3])) ∧
      (∀ e, (e ≠ 0 → e ≠ 0xFF → Answers (.setEndpointId e) s fun t =>
          t.side = { s.side with eid := e } ∧ t.out = s.out ++ [.mctp 0 [e.toNat]]) ∧
        (e = 0 ∨ e = 0xFF → exec (.setEndpointId e) s = .next (s.emit (.mctp 2 [])))) ∧
      exec .getEndpointId s = .next (s.emit (.mctp 0 [s.side.eid.toNat])) ∧
      exec .getMctpVersionSupport s = .next (s.emit (.mctp 0 [Config.deviceId 5])) ∧
      exec .getMessageTypeSupport s = .next (s.emit (.mctp 0
        (if s.board.bootsel = 3 then [0, 1] else [0, 1, 5, 6, 0x7E]))) ∧
      exec .getVendorDefinedMessageSupport s = .next (s.emit (.mctp 0 [Config.deviceId 0])))

/-- PLDM base and monitoring (R481 to R486): the boot ROM refuses them; the numeric and state sensors of the
repository answer with their readings, others with `INVALID_SENSOR_ID`; the tray reads the oldest event and an
acknowledgement removes what was read; the last one removed lets `ALERT_N` go. -/
def Obligations.PldmMonitoring : Prop :=
  ∀ (s : State) (id handle type cmd : Nat) (tid : BitVec 8) (ack : Bool),
    (s.lampAnswers = true →
      exec (.unsupportedPldmCommand type cmd) s = .next (s.emit (.pldm .errorUnsupportedPldmCmd [])) ∧
      (s.board.bootsel = 3 →
        ∀ i ∈ [Instr.getTid, .setTid tid, .getPldmVersion type, .getPldmTypes, .getPldmCommands type,
          .getPdrRepositoryInfo, .getPdr handle, .getSensorReading id, .getStateSensorReadings id,
          .pollForPlatformEventMessage ack, .eventMessageSupported],
        exec i s = .next (s.emit (.pldm .errorUnsupportedPldmCmd [])))) ∧
    (s.lampAnswers = true → s.board.bootsel ≠ 3 →
      let give := fun (l : List Nat) => s.emit (.pldm .success l)
      let refuse := fun (c : PldmCode) => s.emit (.pldm c [])
      exec .getTid s = .next (give [s.side.tid.toNat]) ∧
      (Answers (.setTid tid) s fun t => t.side = { s.side with tid } ∧ t.out = s.out ++ [.pldm .success []]) ∧
      (exec (.getPldmVersion 2) s = .next (give [1, 2]) ∧ exec (.getPldmVersion 5) s = .next (give [1, 1])) ∧
      (type ≠ 0 → type ≠ 2 → type ≠ 5 → exec (.getPldmVersion type) s = .next (refuse .invalidType) ∧
        exec (.getPldmCommands type) s = .next (refuse .invalidType)) ∧
      exec .getPldmTypes s = .next (give [0, 2, 5]) ∧
      (∀ y ∈ [0, 2, 5], ∀ l, pldmCommands y = some l → exec (.getPldmCommands y) s = .next (give l)) ∧
      exec .getPdrRepositoryInfo s = .next (give [8 + 192 + 2 * s.side.pdrPorts.length]) ∧
      (∀ x, s.sensorIds[handle - 1]? = some x → Answers (.getPdr handle) s fun t =>
        ∃ next, t.out = s.out ++ [.pldm .success [x, next]] ∧ t.side = s.side) ∧
      (s.sensorIds[handle - 1]? = none → exec (.getPdr handle) s = .next (refuse .invalidRecordHandle)) ∧
      (numericId id = false → exec (.getSensorReading id) s = .next (refuse .invalidSensorId)) ∧
      (numericId id = true → s.board.railsUp = true →
        exec (.getSensorReading id) s = .next (s.emit (.sensor id (s.numericUp id)))) ∧
      (numericId id = true → s.board.railsUp = false →
        (3 < id → exec (.getSensorReading id) s = .next (s.emit (.sensor id none))) ∧
        (id ≤ 3 → Answers (.getSensorReading id) s fun t => ∃ n : Nat, t.out = s.out ++ [.sensor id (some n)])) ∧
      (exec (.getStateSensorReadings 0x10) s =
        .next (s.emit (.states 0x10 (some [s.flash.persist.shutdownCause.toNat + 1])))) ∧
      (exec (.getStateSensorReadings 0x11) s =
        .next (s.emit (.states 0x11 (some [s.flash.persist.startResult.toNat + 1])))) ∧
      (numericId id = true ∨ id ∉ s.sensorIds →
        exec (.getStateSensorReadings id) s = .next (refuse .invalidSensorId)) ∧
      (∀ h, s.board.railsUp = true → s.halfNamed h = some (halfOf h) → h ∈ s.side.pdrPorts →
        let k := s.port (halfOf h)
        exec (.getStateSensorReadings (0x200 + h)) s = .next (s.emit (.states (0x200 + h)
          (some [k.st.code + 1, k.width.toNat + 1, if k.reversed then 2 else 1])))) ∧
      (∀ e l, s.side.queue = e :: l → Answers (.pollForPlatformEventMessage false) s fun t =>
        t.out = s.out ++ [.pldmEvent e s.side.discarded] ∧ t.side.queue = s.side.queue ∧ t.side.polled = true) ∧
      (s.side.queue = [] → exec (.pollForPlatformEventMessage false) s = .next (give [])) ∧
      (s.side.polled = true → Answers (.pollForPlatformEventMessage true) s fun t =>
        t.side.queue = s.side.queue.drop 1 ∧ t.side.polled = false ∧
        t.board.alert = (s.board.alert && !(s.side.queue.drop 1).isEmpty)) ∧
      (s.side.polled = false → exec (.pollForPlatformEventMessage true) s = .next (give [])) ∧
      exec .eventMessageSupported s = .next (give [0xFA, 0xFB]))

/-- Firmware update over PLDM (R447, R451, R488 to R490): the order of the commands, what each refuses, and the pull of
an image piece by piece; the checks of R439 decide the transfer. -/
def Obligations.PldmUpdate : Prop :=
  ∀ (s : State), s.lampAnswers = true →
    let refuse := fun (c : PldmCode) => s.emit (.pldm c [])
    let p := s.upd.pldm
    (p.mode = true ∨ s.mailboxUpdate = true → exec .requestUpdate s = .next (refuse .alreadyInUpdateMode)) ∧
    (p.mode = false → s.mailboxUpdate = false → Answers .requestUpdate s fun t =>
      t.upd.pldm.mode = true ∧ t.upd.pldm.table = [] ∧ t.out = s.out ++ [.pldm .success []] ∧ t.flash = s.flash) ∧
    (p.mode = false → s.upd.staging = none → ∀ comps comp,
      ∀ i ∈ [Instr.passComponentTable comps, .updateComponent comp, .activateFirmware, .cancelUpdateComponent, .cancelUpdate],
        exec i s = .next (refuse .notInUpdateMode)) ∧
    (p.mode = true → s.upd.staging.all (fun g => g.byPldm) = true →
      (∀ comps, Answers (.passComponentTable comps) s fun t => t.upd.pldm = { p with table := comps } ∧ t.flash = s.flash) ∧
      (∀ comp, p.comp = none → p.queue = none →
        (comp ∈ p.table → 1 ≤ comp → comp ≤ 6 → Answers (.updateComponent comp) s fun t =>
          t.upd.pldm = { p with comp := some comp } ∧
          (∃ g, t.upd.staging = some g ∧ g.comp = comp ∧ g.byPldm = true ∧ g.bytes = [] ∧ g.toB = s.stagesB comp) ∧
          t.out = s.out ++ [.pldm .success [], .requestFirmwareData 0 4096] ∧ t.flash = s.flash) ∧
        (comp ∉ p.table ∨ comp = 0 ∨ 6 < comp → exec (.updateComponent comp) s = .next (refuse .error))) ∧
      (∀ c g, p.comp = some c → s.upd.staging = some g →
        (∀ data, data.length < g.wants →
          exec (.requestFirmwareData data) s = .next (s.emit (.requestFirmwareData g.bytes.length g.wants))) ∧
        (∀ data, g.checked = false → 4096 ≤ data.length → g.bytes.length + 4096 < 24576 →
          Answers (.requestFirmwareData data) s fun t =>
            (∃ x, t.upd.staging = some x ∧ x.bytes = g.bytes ++ data.take 4096 ∧ x.comp = g.comp) ∧
            t.out = s.out ++ [.requestFirmwareData (g.bytes.length + 4096) 4096] ∧ t.flash = s.flash) ∧
        (∀ data, g.checked = false → 4096 ≤ data.length → 24576 ≤ g.bytes.length + 4096 →
          let l := g.bytes ++ data.take 4096
          ∀ st, s.stagingStatus g.comp (rawHeaderOk l) (parseImage (Config.imageSigned s.fuses.keysetDev s.fuses.rootRsa s.fuses.rootSlh l) l) = some st →
            Answers (.requestFirmwareData data) s fun t =>
              t.upd.staging = none ∧ t.upd.pldm.comp = none ∧ t.flash = s.flash ∧
              t.out = s.out ++ [.transferComplete (if st = stRollback then 4 else if st = stIncompatible then 5 else 2)]) ∧
        (∀ data, g.checked = true → 0 < g.wants → g.wants < imageHead + gatherDesc g.bytes 0x14 4 - g.bytes.length →
          imageHead ≤ g.bytes.length → g.wants ≤ data.length →
          Answers (.requestFirmwareData data) s fun t =>
            (∃ x, t.upd.staging = some x ∧ x.bytes = g.bytes ++ data.take g.wants) ∧ t.flash = s.flash) ∧
        (∀ data, g.checked = true → 0 < g.wants → g.wants = imageHead + gatherDesc g.bytes 0x14 4 - g.bytes.length →
          imageHead ≤ g.bytes.length → g.wants ≤ data.length →
          let whole := digestOk (g.bytes ++ data.take g.wants)
          Answers (.requestFirmwareData data) s fun t => t.upd.staging = none ∧ t.upd.pldm.comp = none ∧
            t.upd.pldm.applied = (if whole then p.applied ++ [g.comp] else p.applied) ∧
            t.out = s.out ++ (if whole then [.transferComplete 0, .verifyComplete 0, .applyComplete 0]
              else [.transferComplete 0, .verifyComplete 1])) ∧
        (Answers .cancelUpdateComponent s fun t =>
          t.upd.staging = none ∧ t.upd.pldm = { p with comp := none } ∧ t.flash = s.flash) ∧
        exec (.activateFirmware) s = .next (refuse .invalidState)) ∧
      (p.comp = none → exec .cancelUpdateComponent s = .next (refuse .invalidState)) ∧
      (Answers .cancelUpdate s fun t => t.upd.pldm.mode = false ∧ t.flash = s.flash) ∧
      (p.comp = none → p.queue = none → s.board.bootsel ≠ 3 → (p.table.filter fun c => p.applied.contains c) = [] →
        Answers .activateFirmware s fun t => t.upd.pldm.mode = false ∧ t.out = s.out ++ [.pldm .success []]) ∧
      (p.comp = none → p.queue = none → s.board.bootsel ≠ 3 → ∀ c l,
        (p.table.filter fun c => p.applied.contains c) = c :: l →
        (s.activateRefusal c = none → c ≠ 6 → s.board.railsUp = true → Answers .activateFirmware s fun t =>
          (∃ a, t.upd.activation = some a ∧ a.comp = c ∧ a.slot = none) ∧ t.upd.pldm.queue = some l ∧
          t.sec.runningImages = s.sec.runningImages) ∧
        (∀ st, s.activateRefusal c = some st → Answers .activateFirmware s fun t =>
          t.out = s.out ++ [.pldm .activationNotRequired []] ∧ t.flash = s.flash)))

/-! ## Attestation and secure sessions (R195, R406 to R434) -/

/-- Who answers an SPDM request (R420, R421, R490): nobody on a transport that is down, the relay with
`ResponseNotReady` while the security controller cannot, `Busy` over MCTP during a package warm start; a request that
came in a `CMD` pause waits.
SPDM requests that are served (R410 to R419): negotiation, certificates, measurements and their co-signature,
sessions with the limit of four on a transport, and chunks; a request out of order is refused. Signatures, secrets and
certificates are free values (assumption 12). -/
def Obligations.Spdm : Prop :=
  (∀ (s : State) (tr : Transport) (a : AlgOffer) (slot off len : Nat),
      let cn : Conn := { tr, session := none }
      let requests := [Instr.getVersion cn, .getCapabilities cn, .negotiateAlgorithms cn a, .getDigests cn,
        .getCertificate cn slot off len, .challenge cn slot, .getMeasurements cn slot true, .keyExchange cn]
      let mctpUp := s.lampAnswers = true ∧ s.board.bootsel ≠ 3 ∧ s.board.railsUp = true ∧ s.board.coldDue = false
      (∀ i ∈ Instr.respondIfReady cn :: requests,
        (tr = .doe → s.board.cxlUp = false → exec i s = .next s) ∧ (tr = .mctp → ¬mctpUp → exec i s = .next s) ∧
        (tr = .mctp → mctpUp → s.board.warmDue = true → exec i s = .next (s.emit (.spdmError .mctp .busy [])))) ∧
      ((tr = .mctp ∧ mctpUp ∧ s.board.warmDue = false) ∨ (tr = .doe ∧ s.board.cxlUp = true ∧ s.cmdPaused = false) →
        (s.secServes = false →
          (∀ i ∈ requests, Answers i s fun t => t.out = s.out ++ [.spdmError tr .responseNotReady [19, 2]] ∧
            (∃ r, (cn, r) ∈ t.sec.deferred) ∧ t.sec.sessions = s.sec.sessions) ∧
          exec (.respondIfReady cn) s = .next (s.emit (.spdmError tr .responseNotReady [19, 2]))) ∧
        (s.secServes = true →
          ((∀ x ∈ s.sec.deferred, x.1.tr ≠ tr) →
            exec (.respondIfReady cn) s = .next (s.emit (.spdmError tr .unexpectedRequest []))) ∧
          (s.sec.deferred = [(cn, .getVersion)] → s.sec.nego.length = 2 → Answers (.respondIfReady cn) s fun t =>
            t.out = s.out ++ [.spdm tr .version [0x12, 0x13]] ∧ t.sec.deferred = [] ∧ (t.nego cn).version = true))) ∧
      (tr = .doe → s.board.cxlUp = true → s.cmdPaused = true → ∀ i ∈ requests, Answers i s fun t =>
        t.out = s.out ∧ ∃ r, t.sec.waiting = s.sec.waiting ++ [(cn, r)])) ∧
  (∀ (s : State) (cn : Conn), s.secServes = true → s.sec.nego.length = 2 →
      (if cn.tr = .doe then s.board.cxlUp = true ∧ s.cmdPaused = false
        else s.lampAnswers = true ∧ s.board.bootsel ≠ 3 ∧ s.board.railsUp = true ∧ s.board.coldDue = false ∧
          s.board.warmDue = false) →
      let refuse := fun (e : SpdmError) => s.emit (.spdmError cn.tr e [])
      let tells : State → SpdmKind → List Byte → Prop := fun t k l => t.out = s.out ++ [.spdm cn.tr k l] ∧ t.sec.large = l
      (Answers (.getVersion cn) s fun t => tells t .version [0x12, 0x13] ∧
        t.nego cn = { Nego.none_ with version := true }) ∧
      ((s.nego cn).version = true → Answers (.getCapabilities cn) s fun t =>
        tells t .capabilities (17 :: leBytes 4 0x000662F6) ∧ (t.nego cn).caps = true) ∧
      ((s.nego cn).version = false → exec (.getCapabilities cn) s = .next (refuse .unexpectedRequest)) ∧
      (∀ a, (s.nego cn).caps = true → Answers (.negotiateAlgorithms cn a) s fun t =>
        (t.nego cn).algs = (a.rsassa3072 && a.sha384) ∧ (∃ l, tells t .algorithms l ∧ l.length = 5)) ∧
      (∀ a, (s.nego cn).caps = false → exec (.negotiateAlgorithms cn a) s = .next (refuse .unexpectedRequest)) ∧
      (s.agreed cn = false → ∀ slot off len block signed handle seq last data,
        ∀ i ∈ [Instr.getDigests cn, .getCertificate cn slot off len, .challenge cn slot, .getMeasurements cn block signed,
          .chunkSend cn handle seq last data, .chunkGet cn handle seq], exec i s = .next (refuse .unexpectedRequest)) ∧
      (s.agreed cn = true →
        (Answers (.getDigests cn) s fun t => tells t .digests (Config.sha384 (s.chain 0))) ∧
        (∀ off len, off < (s.chain 0).length → Answers (.getCertificate cn 0 off len) s fun t =>
          let part := ((s.chain 0).drop off).take len
          tells t .certificate (leBytes 2 part.length ++ leBytes 2 ((s.chain 0).length - off - part.length) ++ part)) ∧
        (∀ slot off len, slot ≠ 0 ∨ (s.chain 0).length ≤ off →
          exec (.getCertificate cn slot off len) s = .next (refuse .invalidRequest)) ∧
        (Answers (.challenge cn 0) s fun t => ∃ sig : List Byte, sig.length = 384 ∧
          tells t .challengeAuth (Config.sha384 (s.chain 0) ++ sig)) ∧
        (∀ block, 8 < block → block ≠ 0xFF → ∀ signed,
          exec (.getMeasurements cn block signed) s = .next (refuse .invalidRequest)) ∧
        (∀ block l, askedBlocks block = some l →
          (Answers (.getMeasurements cn block false) s fun t =>
            tells t .measurements (s.measRecord l none) ∧ t.sec.cosigs = s.sec.cosigs) ∧
          (Answers (.getMeasurements cn block true) s fun t =>
            (∃ sig : List Byte, sig.length = 384 ∧
              tells t .measurements (s.signedRecord l ++ sig)) ∧
            { id := s.sec.nextCosig, conn := cn, frame := s.power.frame.toNat, sig := s.cosign l } ∈ t.sec.cosigs ∧
            (s.cosign l).length = 16224 ∧
            t.sec.nextCosig = s.sec.nextCosig + 1)) ∧
        (∀ handle last data, Answers (.chunkSend cn handle 0 last data) s fun t =>
          t.sec.chunks = data ∧ t.sec.chunkSeq = 1 ∧ tells t .chunkSendAck [handle]) ∧
        (∀ handle seq, (s.sec.large.drop (seq * Config.deviceId 4)).take (Config.deviceId 4) ≠ [] →
          Answers (.chunkGet cn handle seq) s fun t => t.sec.large = s.sec.large ∧
            t.out = s.out ++ [.spdm cn.tr .chunkResponse (handle :: leBytes 2 seq ++
              (s.sec.large.drop (seq * Config.deviceId 4)).take (Config.deviceId 4))])) ∧
      (cn.session = none → (s.nego cn).session = true →
        ((s.sessionsOf cn.tr).length < 4 → Answers (.keyExchange cn) s fun t =>
          t.sec.sessions = s.sec.sessions ++ [{ id := s.sec.nextSession, tr := cn.tr, established := false, secret := s.random.1 }] ∧
          t.sec.nextSession = s.sec.nextSession + 1 ∧ ∃ l, tells t .keyExchangeRsp l) ∧
        (4 ≤ (s.sessionsOf cn.tr).length → exec (.keyExchange cn) s = .next (refuse .sessionLimitExceeded))) ∧
      (∀ id, cn.session = some id → ∀ x ∈ s.sec.sessions, x.id = id → x.tr = cn.tr → x.established = false →
        Answers (.finish cn) s fun t => t.inSession cn = true ∧ tells t .finishRsp []) ∧
      (s.inSession cn = false →
        ∀ i ∈ [Instr.endSession cn, .keyUpdate cn, .spdmHeartbeat cn], exec i s = .next (refuse .unexpectedRequest)) ∧
      (s.inSession cn = true →
        (Answers (.endSession cn) s fun t => t.inSession cn = false ∧ tells t .endSessionAck [] ∧
          ∀ x ∈ t.sec.cosigs, x.conn ≠ cn) ∧
        (Answers (.keyUpdate cn) s fun t => tells t .keyUpdateAck [] ∧
          t.sec.sessions = s.sec.sessions.map fun x => if cn.session = some x.id then
            { x with secret := Config.hkdf (leBytes 48 x.secret.toNat) (label "key update") 1 } else x) ∧
        (Answers (.spdmHeartbeat cn) s fun t => tells t .heartbeatAck [] ∧ t.sec.sessions = s.sec.sessions)))

/-- Vendor-defined requests (R419, R431, R432): a co-signature can be fetched for 10 s on its own connection, the
SLH-DSA chain is served in ranges, and a debug token takes effect at the next warm start when it meets every
condition; over DOE, or with debug fused off, it is refused. -/
def Obligations.VendorRequests : Prop :=
  ∀ (s : State) (cn : Conn), s.secServes = true →
    (if cn.tr = .doe then s.board.cxlUp = true ∧ s.cmdPaused = false
      else s.lampAnswers = true ∧ s.board.bootsel ≠ 3 ∧ s.board.railsUp = true ∧ s.board.coldDue = false ∧
        s.board.warmDue = false) →
    let tells := fun (code status : Nat) (id : BitVec 32) (l : List Byte) => s.emit (.vendor cn.tr code status id l)
    (∀ (id : BitVec 32) (off len : Nat),
      (∀ x, s.sec.cosigs.find? (fun y => y.id == id && y.conn == cn && decide (s.power.frame.toNat ≤ y.frame + 500000)) = some x →
        x.sig.length = 16224 →
        (len ≤ 4096 → off + len ≤ 16224 →
          exec (.cosigFetch cn id off len) s = .next (tells 1 0x00 id ((x.sig.drop off).take len))) ∧
        (4096 < len ∨ 16224 < off + len → exec (.cosigFetch cn id off len) s = .next (tells 1 0x02 id []))) ∧
      ((∀ x ∈ s.sec.cosigs, x.id = id → x.conn = cn → x.frame + 500000 < s.power.frame.toNat) →
        exec (.cosigFetch cn id off len) s = .next (tells 1 0x01 id [])) ∧
      (id ≠ 0 → exec (.pqChainGet cn id off len) s = .next (tells 2 0x01 id [])) ∧
      (len ≤ 4096 → off + len ≤ (s.chain 1).length →
        exec (.pqChainGet cn 0 off len) s = .next (tells 2 0x00 0 (((s.chain 1).drop off).take len)))) ∧
    (cn.tr = .doe → exec (.debugNonce cn) s = .next (tells 3 0x03 0 []) ∧
      ∀ id off data, exec (.debugToken cn id off data) s = .next (tells 4 0x03 id [])) ∧
    (cn.tr = .mctp → Answers (.debugNonce cn) s fun t =>
      let id := s.sec.nextNonce
      t.sec.nonce = some (id, s.power.frame.toNat) ∧ t.sec.token = [] ∧ t.sec.nextNonce = id + 1 ∧
      t.out = s.out ++ [.vendor .mctp 3 0x00 id (nonceBytes id)]) ∧
    (s.fuses.keysetDev = false ∨ s.fuses.debugFuse = true → ∀ id off data,
      exec (.debugToken cn id off data) s = .next (tells 4 0x03 id [])) ∧
    (cn.tr = .mctp → s.fuses.keysetDev = true → s.fuses.debugFuse = false → ∀ id issued,
      s.sec.nonce = some (id, issued) → ∀ data : List Byte, data.length ≤ 4096 →
        let l := s.sec.token ++ data
        let off := s.sec.token.length
        (l.length < 16656 → Answers (.debugToken cn id off data) s fun t =>
          t.sec.token = l ∧ t.sec.tokenScope = s.sec.tokenScope ∧ t.out = s.out ++ [.vendor .mctp 4 0x00 id []]) ∧
        (l.length = 16656 → Answers (.debugToken cn id off data) s fun t =>
          t.sec.nonce = none ∧ t.sec.debugOpen = s.sec.debugOpen ∧
          if s.tokenOk id issued l then
            t.sec.tokenScope = some (BitVec.ofNat 32 (gatherDesc l 4 4)) ∧ t.out = s.out ++ [.vendor .mctp 4 0x00 id []]
          else t.sec.tokenScope = s.sec.tokenScope ∧ t.out = s.out ++ [.vendor .mctp 4 0x03 id []]) ∧
        (∀ other, other ≠ off → exec (.debugToken cn id other data) s = .next (tells 4 0x02 id []))) ∧
    (∀ id : BitVec 32, Answers (.cosigExpiry id) s fun t => t.out = s.out ∧ t.sec.sessions = s.sec.sessions ∧
      ∀ x, x ∈ t.sec.cosigs ↔ x ∈ s.sec.cosigs ∧ (x.id = id → s.power.frame.toNat < x.frame + 500000))

/-- IDE_KM, TDISP and CDAT over DOE (R195, R422, R423): only within a secured session; key sets are programmed, go
into use and stop; the interface is locked from `CONFIG_UNLOCKED`, started from `CONFIG_LOCKED`, and stopped from any
state. -/
def Obligations.DeviceSecurity : Prop :=
  ∀ (s : State) (cn : Conn) (x : IdeStream) (set sub : Nat),
    s.secServes = true → cn.tr = .doe → s.board.cxlUp = true → s.cmdPaused = false →
    let k := s.ide x
    let said : State → List Nat → Prop := fun t l => t.out = s.out ++ [.doe l]
    (s.inSession cn = false → ∀ m,
      ∀ i ∈ [Instr.ideKmQuery cn x, .keyProg cn x set sub, .kSetGo cn x set sub, .kSetStop cn x set sub,
        .tdispRequest cn m], exec i s = .next (s.emit (.spdmError .doe .unexpectedRequest []))) ∧
    (s.inSession cn = true →
      exec (.ideKmQuery cn x) s = .next (s.emit (.doe [1, k.programmed.length, k.go.length])) ∧
      (set < 2 → (set, sub) ∉ k.go → Answers (.keyProg cn x set sub) s fun t =>
        said t [2, 0] ∧ (set, sub) ∈ (t.ide x).programmed ∧ (t.ide x).go = k.go) ∧
      (2 ≤ set ∨ (set, sub) ∈ k.go → exec (.keyProg cn x set sub) s = .next (s.emit (.doe [2, 1]))) ∧
      ((set, sub) ∈ k.programmed → Answers (.kSetGo cn x set sub) s fun t =>
        said t [3, 0] ∧ (set, sub) ∈ (t.ide x).go ∧ ∀ y ∈ (t.ide x).go, y.2 = sub → y = (set, sub)) ∧
      ((set, sub) ∉ k.programmed → exec (.kSetGo cn x set sub) s = .next (s.emit (.doe [3, 1]))) ∧
      (Answers (.kSetStop cn x set sub) s fun t => (set, sub) ∉ (t.ide x).programmed ∧ (set, sub) ∉ (t.ide x).go) ∧
      exec (.tdispRequest cn .getState) s = .next (s.emit (.doe [3, 0, s.sec.tdi.code])) ∧
      (s.sec.tdi = .configUnlocked → Answers (.tdispRequest cn .lockInterface) s fun t => t.sec.tdi = .configLocked) ∧
      (s.sec.tdi ≠ .configUnlocked → exec (.tdispRequest cn .lockInterface) s = .next (s.emit (.doe [4, 1]))) ∧
      (s.sec.tdi = .configLocked → Answers (.tdispRequest cn .startInterface) s fun t => t.sec.tdi = .run) ∧
      (s.sec.tdi ≠ .configLocked → exec (.tdispRequest cn .startInterface) s = .next (s.emit (.doe [5, 1]))) ∧
      (Answers (.tdispRequest cn .stopInterface) s fun t => t.sec.tdi = .configUnlocked)) ∧
    (∀ entry, entry < 4 → Answers (.cdatTableAccess entry) s fun t =>
      ∃ l, said t (entry :: (if entry = 3 then 0xFFFF else entry + 1) :: l)) ∧
    (∀ entry, 4 ≤ entry → exec (.cdatTableAccess entry) s = .next (s.emit (.doe [0xFFFF])))

/-! ## The whole module -/

/-- Every command leaves memories, mailbox slots and the list of granules in their canonical form. -/
def Obligations.MemoryStaysCanonical : Prop :=
  ∀ s t : State, s.memoryWf → step s = .next t → t.memoryWf

/-- The module right after reset (R24, R37 to R40, R233, R260, R288): no rails, no work, every generation 1, every port
Disabled, memory without a listed byte, and its memories in canonical form. Values that no rule gives are the model's
own (assumptions 2 and 57). -/
def Obligations.ResetState : Prop :=
  let s := State.reset
  s.memoryWf ∧ s.sized ∧ s.pending = [] ∧ s.board.railsUp = false ∧ s.board.pwrGood = false ∧ s.mail.ready = false ∧
  s.mem.cells = [] ∧ s.cells = [] ∧ s.disp.submits = [] ∧ s.coll.comms = [] ∧ s.config.active = s.config.shadow ∧
  (∀ k ∈ s.parts, k.inService = false ∧ k.pgen = 1 ∧ ∀ c ∈ k.ctxs, c.st = .closed ∧ c.cgen = 1) ∧
  (∀ k ∈ s.fabric.ports, k.st = .disabled)

/-- The words of the cell instructions (R95 to R98, R107): what an instruction's word spells is that instruction with
every operand. -/
def Obligations.DecodeEncode : Prop :=
  (∀ (c : Nat) (i : SOp) (j : IOp) (b : BOp) (q : BPOp) (r : CsrOp) (x : BitVec 5) (y : Bool),
    ∀ k ∈ [Instr.add c i .none_, .sub c i .none_, .and c i .none_, .or c i .none_, .xor c i .none_, .sll c i .none_,
        .srl c i .none_, .sra c i .none_, .slt c i .none_, .sltu c i .none_, .mul c i .none_, .mulh c i .none_,
        .mulhu c i .none_, .div c i .none_, .divu c i .none_, .rem c i .none_, .remu c i .none_, .min c i .none_,
        .max c i .none_, .addi c j .none_, .andi c j .none_, .ori c j .none_, .xori c j .none_, .slli c j .none_,
        .srli c j .none_, .srai c j .none_, .lui c j .none_, .jal c j .none_, .jalr c j .none_, .beq c b .none_,
        .bne c b .none_, .blt c b .none_, .bge c b .none_, .bltu c b .none_, .bgeu c b .none_, .bpany c q .none_,
        .bpnone c q .none_, .csrr c r .none_, .csrw c r .none_, .csrs c r .none_, .csrc c r .none_, .scall c .none_,
        .sret c .none_, .brk c .none_, .ifence c .none_, .nop c .none_, .sexit c x .none_, .iend c x .none_,
        .mmuinv c x y .none_],
      (encodeCell k).bind (decodeCell c) = some k) ∧
  (∀ (c : Nat) (v : VOp) (m : MOp) (a : TmmaOp) (w : TwinOp) (z : BitVec 3) (x : XtalTOp) (r : TMovOp) (g : GatherpOp)
      (y : McopyOp) (u : WaitsigOp) (f : FenceOp),
    ∀ k ∈ [Instr.vadd c v .none_, .vsub c v .none_, .vmul c v .none_, .vfma c v .none_, .vfnma c v .none_,
        .vmin c v .none_, .vmax c v .none_, .vand c v .none_, .vor c v .none_, .vxor c v .none_, .vsll c v .none_,
        .vsrl c v .none_, .vsra c v .none_, .vcmp c v .none_, .vsel c v .none_, .vcvt c v .none_, .vperm c v .none_,
        .vreduce c v .none_, .vrcp c v .none_, .vrsqrt c v .none_, .vexp2 c v .none_, .vlog2 c v .none_,
        .vext c v .none_, .vins c v .none_, .vtob c v .none_, .vbadd c v .none_, .xtalV c v .none_,
        .vtopk c v .none_, .viota c v .none_, .tmma c a .none_, .twin c w .none_, .tzero c z .none_,
        .xtalT c x .none_, .tmovv c r .none_, .vmovt c r .none_, .ld c m .none_, .ldu c m .none_, .st c m .none_,
        .amoadd c m .none_, .amoswap c m .none_, .amocas c m .none_, .amomin c m .none_, .amomax c m .none_,
        .amoand c m .none_, .amoor c m .none_, .vld c m .none_, .vst c m .none_, .vldw c m .none_,
        .vgather c m .none_, .vscatter c m .none_, .vldx c m .none_, .vstx c m .none_, .vgatherp c g .none_,
        .mcopy c y .none_, .waitsig c u .none_, .fence c f .none_],
      (encodeCell k).bind (decodeCell c) = some k) ∧
  (∀ (c : Nat) (w : BitVec 64) (i : Instr), decodeCell c w = some i → encodeCell i = some w)

/-- Words of the worked example after R140 and of one instruction of each format, written out bit by bit from R95 to R98 and
R107; a word with a reserved opcode or a nonzero reserved field spells no instruction (R99). -/
def Obligations.DecodedWords : Prop :=
  ∀ c : Nat,
    decodeCell c 0x6000_004C_C000_0000 = some (.tmma c ⟨0, false, 0, 0, 1, 3, 3, 0, 0, false⟩ .none_) ∧
    decodeCell c 0x6100_0280_0900_0000 = some (.twin c ⟨0, 0, 1, false, true, 18⟩ .none_) ∧
    decodeCell c 0x0100_C220_0000_0000 = some (.add c ⟨3, 1, 2⟩ .none_) ∧
    decodeCell c 0x1800_45FF_FFFF_FFFF = some (.addi c ⟨1, 2, -1⟩ .none_) ∧
    decodeCell c 0x2000_4400_0000_0004 = some (.beq c ⟨1, 2, 4⟩ .none_) ∧
    decodeCell c 0x3000_4000_0000_0005 = some (.csrr c ⟨1, 5⟩ .none_) ∧
    decodeCell c 0x4018_8640_0010_0000 = some (.vadd c ⟨1, true, 2, 3, 4, 0, 0, 0, false, true, 0⟩ .none_) ∧
    decodeCell c 0x7000_440C_0000_0008 = some (.ld c ⟨0, false, 1, 2, 0, 0xC, 0, 0, false, false, false, 8⟩ .none_) ∧
    decodeCell c 0x3B00_0000_0000_0000 = some (.nop c .none_) ∧ decodeCell c 0x3B00_0000_0000_0001 = none ∧
    decodeCell c 0x0000_0000_0000_0000 = none ∧ decodeCell c 0xFF00_0000_0000_0000 = none
end

