-- ==== Sys2Proof/Laws/Maps.lean ====
section
/-! SUPPORT. Sparse maps and memories: what a read gives after a write, and that writes keep the
canonical form. -/

namespace Sys2Proof

theorem SMap.find_put_self {α : Type} (l : SMap α) (k : Nat) (v : α) : (l.put k v).find k = some v := by
  induction l with
  | nil => simp [SMap.put, SMap.find]
  | cons x l ih =>
    obtain ⟨a, w⟩ := x
    simp only [SMap.put]
    split
    · simp [SMap.find]
    · split
      · simp [SMap.find]
      · simp [SMap.find, *]

theorem SMap.find_put_other {α : Type} (l : SMap α) (k j : Nat) (v : α) (h : j ≠ k) :
    (l.put k v).find j = l.find j := by
  induction l with
  | nil => simp [SMap.put, SMap.find, Ne.symm h]
  | cons x l ih =>
    obtain ⟨a, w⟩ := x
    simp only [SMap.put]
    split
    · simp [SMap.find, Ne.symm h]
    · split
      · subst_vars; simp [SMap.find, Ne.symm h]
      · simp [SMap.find, ih]

theorem SMap.find_map {α β : Type} (l : SMap α) (k : Nat) (f : Nat → α → β) :
    SMap.find (l.map fun x => (x.1, f x.1 x.2)) k = (l.find k).map (f k) := by
  induction l with
  | nil => simp [SMap.find]
  | cons x l ih =>
    obtain ⟨a, w⟩ := x
    simp only [List.map_cons, SMap.find]
    split
    · subst_vars; simp
    · exact ih

/-- Every key is at least `n`. -/
def SMap.above {α : Type} (n : Nat) (l : SMap α) : Prop := ∀ x ∈ l, n ≤ x.1

theorem SMap.sorted_cons {α : Type} (a : Nat) (w : α) (l : SMap α) :
    SMap.sorted ((a, w) :: l) = true ↔ SMap.above (a + 1) l ∧ SMap.sorted l = true := by
  induction l generalizing a w with
  | nil => simp [SMap.sorted, SMap.above]
  | cons x l ih =>
    obtain ⟨b, u⟩ := x
    simp only [SMap.sorted, Bool.and_eq_true, decide_eq_true_eq]
    constructor
    · rintro ⟨h, hs⟩
      refine ⟨?_, hs⟩
      intro y hy
      rcases List.mem_cons.1 hy with rfl | hy
      · exact h
      · have := ((ih b u).1 hs).1 y hy; omega
    · rintro ⟨h, hs⟩
      exact ⟨h _ List.mem_cons_self, hs⟩

theorem SMap.above_put {α : Type} (n : Nat) (l : SMap α) (k : Nat) (v : α) (h : l.above n) (hk : n ≤ k) :
    (l.put k v).above n := by
  induction l with
  | nil => intro x hx; simp [SMap.put] at hx; subst hx; exact hk
  | cons x l ih =>
    obtain ⟨a, w⟩ := x
    simp only [SMap.put]
    intro y hy
    split at hy
    · rcases List.mem_cons.1 hy with rfl | hy
      · exact hk
      · exact h y hy
    · split at hy
      · rcases List.mem_cons.1 hy with rfl | hy
        · exact hk
        · exact h y (List.mem_cons_of_mem _ hy)
      · rcases List.mem_cons.1 hy with rfl | hy
        · exact h _ List.mem_cons_self
        · exact ih (fun z hz => h z (List.mem_cons_of_mem _ hz)) y hy

/-- A write keeps the keys rising. -/
theorem SMap.sorted_put {α : Type} (l : SMap α) (k : Nat) (v : α) (h : SMap.sorted l = true) :
    SMap.sorted (l.put k v) = true := by
  induction l with
  | nil => simp [SMap.put, SMap.sorted]
  | cons x l ih =>
    obtain ⟨a, w⟩ := x
    have hl := (SMap.sorted_cons a w l).1 h
    simp only [SMap.put]
    split
    · rw [SMap.sorted_cons]
      refine ⟨?_, h⟩
      intro y hy
      rcases List.mem_cons.1 hy with rfl | hy
      · simpa using ‹k < a›
      · have := hl.1 y hy; omega
    · split
      · subst_vars; rw [SMap.sorted_cons]; exact hl
      · rw [SMap.sorted_cons]
        exact ⟨SMap.above_put _ _ _ _ hl.1 (by omega), ih hl.2⟩

theorem SMap.mem_del {α : Type} (l : SMap α) (k : Nat) (x : Nat × α) (h : x ∈ l.del k) : x ∈ l := by
  induction l with
  | nil => simp [SMap.del] at h
  | cons y l ih =>
    obtain ⟨a, w⟩ := y
    simp only [SMap.del] at h
    split at h
    · exact List.mem_cons_of_mem _ h
    · rcases List.mem_cons.1 h with rfl | h
      · exact List.mem_cons_self
      · exact List.mem_cons_of_mem _ (ih h)

/-- A removal keeps the keys rising. -/
theorem SMap.sorted_del {α : Type} (l : SMap α) (k : Nat) (h : SMap.sorted l = true) :
    SMap.sorted (l.del k) = true := by
  induction l with
  | nil => simp [SMap.del, SMap.sorted]
  | cons x l ih =>
    obtain ⟨a, w⟩ := x
    have hl := (SMap.sorted_cons a w l).1 h
    simp only [SMap.del]
    split
    · exact hl.2
    · rw [SMap.sorted_cons]
      exact ⟨fun y hy => hl.1 y (SMap.mem_del _ _ _ hy), ih hl.2⟩

theorem SMap.sorted_filter {α : Type} (l : SMap α) (p : Nat × α → Bool) (h : SMap.sorted l = true) :
    SMap.sorted (l.filter p) = true := by
  induction l with
  | nil => simp [SMap.sorted]
  | cons x l ih =>
    obtain ⟨a, w⟩ := x
    have hl := (SMap.sorted_cons a w l).1 h
    rw [List.filter_cons]
    split
    · rw [SMap.sorted_cons]
      exact ⟨fun y hy => hl.1 y (List.mem_filter.1 hy).1, ih hl.2⟩
    · exact ih hl.2

theorem SMap.mem_put {α : Type} (l : SMap α) (k : Nat) (v : α) (x : Nat × α) (h : x ∈ l.put k v) :
    x = (k, v) ∨ x ∈ l := by
  induction l with
  | nil => simp [SMap.put] at h; exact .inl h
  | cons y l ih =>
    obtain ⟨a, w⟩ := y
    simp only [SMap.put] at h
    split at h
    · rcases List.mem_cons.1 h with h | h
      · exact .inl h
      · exact .inr h
    · split at h
      · rcases List.mem_cons.1 h with h | h
        · exact .inl h
        · exact .inr (List.mem_cons_of_mem _ h)
      · rcases List.mem_cons.1 h with h | h
        · exact .inr (h ▸ List.mem_cons_self)
        · rcases ih h with h | h
          · exact .inl h
          · exact .inr (List.mem_cons_of_mem _ h)

end Sys2Proof

namespace Sys2Proof.Machine

/-! ## Memories in canonical form -/

theorem Memory.wf_iff (l : List Host.Cell) :
    Memory.wf l = true ↔ SMap.sorted l = true ∧ ∀ x ∈ l, x.2 ≠ 0 := by
  simp [Memory.wf]

/-- A store keeps the canonical form. -/
theorem Memory.wf_set (l : List Host.Cell) (a : Nat) (b : Byte) (h : Memory.wf l = true) :
    Memory.wf (Cells.set l a b) = true := by
  rw [Memory.wf_iff] at h ⊢
  unfold Cells.set
  split
  · exact ⟨SMap.sorted_del _ _ h.1, fun x hx => h.2 x (SMap.mem_del _ _ _ hx)⟩
  · refine ⟨SMap.sorted_put _ _ _ h.1, fun x hx => ?_⟩
    rcases SMap.mem_put _ _ _ _ hx with rfl | hx
    · assumption
    · exact h.2 x hx

theorem Memory.wf_setAll (bs : List Byte) (l : List Host.Cell) (a : Nat) (h : Memory.wf l = true) :
    Memory.wf (Cells.setAll l a bs) = true := by
  induction bs generalizing l a with
  | nil => exact h
  | cons b bs ih => exact ih _ _ (Memory.wf_set l a b h)

/-- Zeroing a range keeps the canonical form. -/
theorem Memory.wf_zero (l : List Host.Cell) (a n : Nat) (h : Memory.wf l = true) :
    Memory.wf (Cells.zero l a n) = true := by
  rw [Memory.wf_iff] at h ⊢
  exact ⟨SMap.sorted_filter _ _ h.1, fun x hx => h.2 x (List.mem_filter.1 hx).1⟩

end Sys2Proof.Machine
end

