-- ==== Sys2Proof/Laws/State.lean ====
section
/-! SUPPORT. What each update of the state leaves: one lemma per field. -/

namespace Sys2Proof.Machine

variable (s : State)

/-! ## `emit` -/

@[simp] theorem State.emit_fuses (m : OutMsg) : (s.emit m).fuses = s.fuses := rfl
@[simp] theorem State.emit_flash (m : OutMsg) : (s.emit m).flash = s.flash := rfl
@[simp] theorem State.emit_board (m : OutMsg) : (s.emit m).board = s.board := rfl
@[simp] theorem State.emit_units (m : OutMsg) : (s.emit m).units = s.units := rfl
@[simp] theorem State.emit_cells (m : OutMsg) : (s.emit m).cells = s.cells := rfl
@[simp] theorem State.emit_banks (m : OutMsg) : (s.emit m).banks = s.banks := rfl
@[simp] theorem State.emit_mem (m : OutMsg) : (s.emit m).mem = s.mem := rfl
@[simp] theorem State.emit_mail (m : OutMsg) : (s.emit m).mail = s.mail := rfl
@[simp] theorem State.emit_config (m : OutMsg) : (s.emit m).config = s.config := rfl
@[simp] theorem State.emit_parts (m : OutMsg) : (s.emit m).parts = s.parts := rfl
@[simp] theorem State.emit_disp (m : OutMsg) : (s.emit m).disp = s.disp := rfl
@[simp] theorem State.emit_fabric (m : OutMsg) : (s.emit m).fabric = s.fabric := rfl
@[simp] theorem State.emit_coll (m : OutMsg) : (s.emit m).coll = s.coll := rfl
@[simp] theorem State.emit_power (m : OutMsg) : (s.emit m).power = s.power := rfl
@[simp] theorem State.emit_thermal (m : OutMsg) : (s.emit m).thermal = s.thermal := rfl
@[simp] theorem State.emit_copy (m : OutMsg) : (s.emit m).copy = s.copy := rfl
@[simp] theorem State.emit_sec (m : OutMsg) : (s.emit m).sec = s.sec := rfl
@[simp] theorem State.emit_upd (m : OutMsg) : (s.emit m).upd = s.upd := rfl
@[simp] theorem State.emit_rcv (m : OutMsg) : (s.emit m).rcv = s.rcv := rfl
@[simp] theorem State.emit_side (m : OutMsg) : (s.emit m).side = s.side := rfl
@[simp] theorem State.emit_out (m : OutMsg) : (s.emit m).out = s.out ++ [m] := rfl
@[simp] theorem State.emit_freeCtr (m : OutMsg) : (s.emit m).freeCtr = s.freeCtr := rfl
@[simp] theorem State.emit_pending (m : OutMsg) : (s.emit m).pending = s.pending := rfl

/-! ## `setCell` -/

@[simp] theorem State.setCell_fuses (c : Nat) (k : Cell) : (s.setCell c k).fuses = s.fuses := rfl
@[simp] theorem State.setCell_flash (c : Nat) (k : Cell) : (s.setCell c k).flash = s.flash := rfl
@[simp] theorem State.setCell_board (c : Nat) (k : Cell) : (s.setCell c k).board = s.board := rfl
@[simp] theorem State.setCell_units (c : Nat) (k : Cell) : (s.setCell c k).units = s.units := rfl
@[simp] theorem State.setCell_cells (c : Nat) (k : Cell) : (s.setCell c k).cells = s.cells.put c k := rfl
@[simp] theorem State.setCell_banks (c : Nat) (k : Cell) : (s.setCell c k).banks = s.banks := rfl
@[simp] theorem State.setCell_mem (c : Nat) (k : Cell) : (s.setCell c k).mem = s.mem := rfl
@[simp] theorem State.setCell_mail (c : Nat) (k : Cell) : (s.setCell c k).mail = s.mail := rfl
@[simp] theorem State.setCell_config (c : Nat) (k : Cell) : (s.setCell c k).config = s.config := rfl
@[simp] theorem State.setCell_parts (c : Nat) (k : Cell) : (s.setCell c k).parts = s.parts := rfl
@[simp] theorem State.setCell_disp (c : Nat) (k : Cell) : (s.setCell c k).disp = s.disp := rfl
@[simp] theorem State.setCell_fabric (c : Nat) (k : Cell) : (s.setCell c k).fabric = s.fabric := rfl
@[simp] theorem State.setCell_coll (c : Nat) (k : Cell) : (s.setCell c k).coll = s.coll := rfl
@[simp] theorem State.setCell_power (c : Nat) (k : Cell) : (s.setCell c k).power = s.power := rfl
@[simp] theorem State.setCell_thermal (c : Nat) (k : Cell) : (s.setCell c k).thermal = s.thermal := rfl
@[simp] theorem State.setCell_copy (c : Nat) (k : Cell) : (s.setCell c k).copy = s.copy := rfl
@[simp] theorem State.setCell_sec (c : Nat) (k : Cell) : (s.setCell c k).sec = s.sec := rfl
@[simp] theorem State.setCell_upd (c : Nat) (k : Cell) : (s.setCell c k).upd = s.upd := rfl
@[simp] theorem State.setCell_rcv (c : Nat) (k : Cell) : (s.setCell c k).rcv = s.rcv := rfl
@[simp] theorem State.setCell_side (c : Nat) (k : Cell) : (s.setCell c k).side = s.side := rfl
@[simp] theorem State.setCell_out (c : Nat) (k : Cell) : (s.setCell c k).out = s.out := rfl
@[simp] theorem State.setCell_freeCtr (c : Nat) (k : Cell) : (s.setCell c k).freeCtr = s.freeCtr := rfl
@[simp] theorem State.setCell_pending (c : Nat) (k : Cell) : (s.setCell c k).pending = s.pending := rfl

/-! ## `setBank` -/

@[simp] theorem State.setBank_fuses (b : Nat) (k : CounterBank) : (s.setBank b k).fuses = s.fuses := rfl
@[simp] theorem State.setBank_flash (b : Nat) (k : CounterBank) : (s.setBank b k).flash = s.flash := rfl
@[simp] theorem State.setBank_board (b : Nat) (k : CounterBank) : (s.setBank b k).board = s.board := rfl
@[simp] theorem State.setBank_units (b : Nat) (k : CounterBank) : (s.setBank b k).units = s.units := rfl
@[simp] theorem State.setBank_cells (b : Nat) (k : CounterBank) : (s.setBank b k).cells = s.cells := rfl
@[simp] theorem State.setBank_banks (b : Nat) (k : CounterBank) : (s.setBank b k).banks = s.banks.put b k := rfl
@[simp] theorem State.setBank_mem (b : Nat) (k : CounterBank) : (s.setBank b k).mem = s.mem := rfl
@[simp] theorem State.setBank_mail (b : Nat) (k : CounterBank) : (s.setBank b k).mail = s.mail := rfl
@[simp] theorem State.setBank_config (b : Nat) (k : CounterBank) : (s.setBank b k).config = s.config := rfl
@[simp] theorem State.setBank_parts (b : Nat) (k : CounterBank) : (s.setBank b k).parts = s.parts := rfl
@[simp] theorem State.setBank_disp (b : Nat) (k : CounterBank) : (s.setBank b k).disp = s.disp := rfl
@[simp] theorem State.setBank_fabric (b : Nat) (k : CounterBank) : (s.setBank b k).fabric = s.fabric := rfl
@[simp] theorem State.setBank_coll (b : Nat) (k : CounterBank) : (s.setBank b k).coll = s.coll := rfl
@[simp] theorem State.setBank_power (b : Nat) (k : CounterBank) : (s.setBank b k).power = s.power := rfl
@[simp] theorem State.setBank_thermal (b : Nat) (k : CounterBank) : (s.setBank b k).thermal = s.thermal := rfl
@[simp] theorem State.setBank_copy (b : Nat) (k : CounterBank) : (s.setBank b k).copy = s.copy := rfl
@[simp] theorem State.setBank_sec (b : Nat) (k : CounterBank) : (s.setBank b k).sec = s.sec := rfl
@[simp] theorem State.setBank_upd (b : Nat) (k : CounterBank) : (s.setBank b k).upd = s.upd := rfl
@[simp] theorem State.setBank_rcv (b : Nat) (k : CounterBank) : (s.setBank b k).rcv = s.rcv := rfl
@[simp] theorem State.setBank_side (b : Nat) (k : CounterBank) : (s.setBank b k).side = s.side := rfl
@[simp] theorem State.setBank_out (b : Nat) (k : CounterBank) : (s.setBank b k).out = s.out := rfl
@[simp] theorem State.setBank_freeCtr (b : Nat) (k : CounterBank) : (s.setBank b k).freeCtr = s.freeCtr := rfl
@[simp] theorem State.setBank_pending (b : Nat) (k : CounterBank) : (s.setBank b k).pending = s.pending := rfl

/-! ## `setPart` -/

@[simp] theorem State.setPart_fuses (p : Nat) (v : Part) : (s.setPart p v).fuses = s.fuses := rfl
@[simp] theorem State.setPart_flash (p : Nat) (v : Part) : (s.setPart p v).flash = s.flash := rfl
@[simp] theorem State.setPart_board (p : Nat) (v : Part) : (s.setPart p v).board = s.board := rfl
@[simp] theorem State.setPart_units (p : Nat) (v : Part) : (s.setPart p v).units = s.units := rfl
@[simp] theorem State.setPart_cells (p : Nat) (v : Part) : (s.setPart p v).cells = s.cells := rfl
@[simp] theorem State.setPart_banks (p : Nat) (v : Part) : (s.setPart p v).banks = s.banks := rfl
@[simp] theorem State.setPart_mem (p : Nat) (v : Part) : (s.setPart p v).mem = s.mem := rfl
@[simp] theorem State.setPart_mail (p : Nat) (v : Part) : (s.setPart p v).mail = s.mail := rfl
@[simp] theorem State.setPart_config (p : Nat) (v : Part) : (s.setPart p v).config = s.config := rfl
@[simp] theorem State.setPart_parts (p : Nat) (v : Part) : (s.setPart p v).parts = setAt s.parts p v := rfl
@[simp] theorem State.setPart_disp (p : Nat) (v : Part) : (s.setPart p v).disp = s.disp := rfl
@[simp] theorem State.setPart_fabric (p : Nat) (v : Part) : (s.setPart p v).fabric = s.fabric := rfl
@[simp] theorem State.setPart_coll (p : Nat) (v : Part) : (s.setPart p v).coll = s.coll := rfl
@[simp] theorem State.setPart_power (p : Nat) (v : Part) : (s.setPart p v).power = s.power := rfl
@[simp] theorem State.setPart_thermal (p : Nat) (v : Part) : (s.setPart p v).thermal = s.thermal := rfl
@[simp] theorem State.setPart_copy (p : Nat) (v : Part) : (s.setPart p v).copy = s.copy := rfl
@[simp] theorem State.setPart_sec (p : Nat) (v : Part) : (s.setPart p v).sec = s.sec := rfl
@[simp] theorem State.setPart_upd (p : Nat) (v : Part) : (s.setPart p v).upd = s.upd := rfl
@[simp] theorem State.setPart_rcv (p : Nat) (v : Part) : (s.setPart p v).rcv = s.rcv := rfl
@[simp] theorem State.setPart_side (p : Nat) (v : Part) : (s.setPart p v).side = s.side := rfl
@[simp] theorem State.setPart_out (p : Nat) (v : Part) : (s.setPart p v).out = s.out := rfl
@[simp] theorem State.setPart_freeCtr (p : Nat) (v : Part) : (s.setPart p v).freeCtr = s.freeCtr := rfl
@[simp] theorem State.setPart_pending (p : Nat) (v : Part) : (s.setPart p v).pending = s.pending := rfl

/-! ## `setCtx` -/

@[simp] theorem State.setCtx_fuses (p c : Nat) (v : Ctx) : (s.setCtx p c v).fuses = s.fuses := rfl
@[simp] theorem State.setCtx_flash (p c : Nat) (v : Ctx) : (s.setCtx p c v).flash = s.flash := rfl
@[simp] theorem State.setCtx_board (p c : Nat) (v : Ctx) : (s.setCtx p c v).board = s.board := rfl
@[simp] theorem State.setCtx_units (p c : Nat) (v : Ctx) : (s.setCtx p c v).units = s.units := rfl
@[simp] theorem State.setCtx_cells (p c : Nat) (v : Ctx) : (s.setCtx p c v).cells = s.cells := rfl
@[simp] theorem State.setCtx_banks (p c : Nat) (v : Ctx) : (s.setCtx p c v).banks = s.banks := rfl
@[simp] theorem State.setCtx_mem (p c : Nat) (v : Ctx) : (s.setCtx p c v).mem = s.mem := rfl
@[simp] theorem State.setCtx_mail (p c : Nat) (v : Ctx) : (s.setCtx p c v).mail = s.mail := rfl
@[simp] theorem State.setCtx_config (p c : Nat) (v : Ctx) : (s.setCtx p c v).config = s.config := rfl
@[simp] theorem State.setCtx_disp (p c : Nat) (v : Ctx) : (s.setCtx p c v).disp = s.disp := rfl
@[simp] theorem State.setCtx_fabric (p c : Nat) (v : Ctx) : (s.setCtx p c v).fabric = s.fabric := rfl
@[simp] theorem State.setCtx_coll (p c : Nat) (v : Ctx) : (s.setCtx p c v).coll = s.coll := rfl
@[simp] theorem State.setCtx_power (p c : Nat) (v : Ctx) : (s.setCtx p c v).power = s.power := rfl
@[simp] theorem State.setCtx_thermal (p c : Nat) (v : Ctx) : (s.setCtx p c v).thermal = s.thermal := rfl
@[simp] theorem State.setCtx_copy (p c : Nat) (v : Ctx) : (s.setCtx p c v).copy = s.copy := rfl
@[simp] theorem State.setCtx_sec (p c : Nat) (v : Ctx) : (s.setCtx p c v).sec = s.sec := rfl
@[simp] theorem State.setCtx_upd (p c : Nat) (v : Ctx) : (s.setCtx p c v).upd = s.upd := rfl
@[simp] theorem State.setCtx_rcv (p c : Nat) (v : Ctx) : (s.setCtx p c v).rcv = s.rcv := rfl
@[simp] theorem State.setCtx_side (p c : Nat) (v : Ctx) : (s.setCtx p c v).side = s.side := rfl
@[simp] theorem State.setCtx_out (p c : Nat) (v : Ctx) : (s.setCtx p c v).out = s.out := rfl
@[simp] theorem State.setCtx_freeCtr (p c : Nat) (v : Ctx) : (s.setCtx p c v).freeCtr = s.freeCtr := rfl
@[simp] theorem State.setCtx_pending (p c : Nat) (v : Ctx) : (s.setCtx p c v).pending = s.pending := rfl

/-! ## `setGranule` -/

@[simp] theorem State.setGranule_fuses (g : Nat) (v : Granule) : (s.setGranule g v).fuses = s.fuses := rfl
@[simp] theorem State.setGranule_flash (g : Nat) (v : Granule) : (s.setGranule g v).flash = s.flash := rfl
@[simp] theorem State.setGranule_board (g : Nat) (v : Granule) : (s.setGranule g v).board = s.board := rfl
@[simp] theorem State.setGranule_units (g : Nat) (v : Granule) : (s.setGranule g v).units = s.units := rfl
@[simp] theorem State.setGranule_cells (g : Nat) (v : Granule) : (s.setGranule g v).cells = s.cells := rfl
@[simp] theorem State.setGranule_banks (g : Nat) (v : Granule) : (s.setGranule g v).banks = s.banks := rfl
@[simp] theorem State.setGranule_mail (g : Nat) (v : Granule) : (s.setGranule g v).mail = s.mail := rfl
@[simp] theorem State.setGranule_config (g : Nat) (v : Granule) : (s.setGranule g v).config = s.config := rfl
@[simp] theorem State.setGranule_parts (g : Nat) (v : Granule) : (s.setGranule g v).parts = s.parts := rfl
@[simp] theorem State.setGranule_disp (g : Nat) (v : Granule) : (s.setGranule g v).disp = s.disp := rfl
@[simp] theorem State.setGranule_fabric (g : Nat) (v : Granule) : (s.setGranule g v).fabric = s.fabric := rfl
@[simp] theorem State.setGranule_coll (g : Nat) (v : Granule) : (s.setGranule g v).coll = s.coll := rfl
@[simp] theorem State.setGranule_power (g : Nat) (v : Granule) : (s.setGranule g v).power = s.power := rfl
@[simp] theorem State.setGranule_thermal (g : Nat) (v : Granule) : (s.setGranule g v).thermal = s.thermal := rfl
@[simp] theorem State.setGranule_copy (g : Nat) (v : Granule) : (s.setGranule g v).copy = s.copy := rfl
@[simp] theorem State.setGranule_sec (g : Nat) (v : Granule) : (s.setGranule g v).sec = s.sec := rfl
@[simp] theorem State.setGranule_upd (g : Nat) (v : Granule) : (s.setGranule g v).upd = s.upd := rfl
@[simp] theorem State.setGranule_rcv (g : Nat) (v : Granule) : (s.setGranule g v).rcv = s.rcv := rfl
@[simp] theorem State.setGranule_side (g : Nat) (v : Granule) : (s.setGranule g v).side = s.side := rfl
@[simp] theorem State.setGranule_out (g : Nat) (v : Granule) : (s.setGranule g v).out = s.out := rfl
@[simp] theorem State.setGranule_freeCtr (g : Nat) (v : Granule) : (s.setGranule g v).freeCtr = s.freeCtr := rfl
@[simp] theorem State.setGranule_pending (g : Nat) (v : Granule) : (s.setGranule g v).pending = s.pending := rfl

/-! ## `free` -/

@[simp] theorem State.free_fst : s.free.1 = Config.freeNat s.freeCtr := rfl
@[simp] theorem State.free_fuses : s.free.2.fuses = s.fuses := rfl
@[simp] theorem State.free_flash : s.free.2.flash = s.flash := rfl
@[simp] theorem State.free_board : s.free.2.board = s.board := rfl
@[simp] theorem State.free_units : s.free.2.units = s.units := rfl
@[simp] theorem State.free_cells : s.free.2.cells = s.cells := rfl
@[simp] theorem State.free_banks : s.free.2.banks = s.banks := rfl
@[simp] theorem State.free_mem : s.free.2.mem = s.mem := rfl
@[simp] theorem State.free_mail : s.free.2.mail = s.mail := rfl
@[simp] theorem State.free_config : s.free.2.config = s.config := rfl
@[simp] theorem State.free_parts : s.free.2.parts = s.parts := rfl
@[simp] theorem State.free_disp : s.free.2.disp = s.disp := rfl
@[simp] theorem State.free_fabric : s.free.2.fabric = s.fabric := rfl
@[simp] theorem State.free_coll : s.free.2.coll = s.coll := rfl
@[simp] theorem State.free_power : s.free.2.power = s.power := rfl
@[simp] theorem State.free_thermal : s.free.2.thermal = s.thermal := rfl
@[simp] theorem State.free_copy : s.free.2.copy = s.copy := rfl
@[simp] theorem State.free_sec : s.free.2.sec = s.sec := rfl
@[simp] theorem State.free_upd : s.free.2.upd = s.upd := rfl
@[simp] theorem State.free_rcv : s.free.2.rcv = s.rcv := rfl
@[simp] theorem State.free_side : s.free.2.side = s.side := rfl
@[simp] theorem State.free_out : s.free.2.out = s.out := rfl
@[simp] theorem State.free_freeCtr : s.free.2.freeCtr = s.freeCtr + 1 := rfl
@[simp] theorem State.free_pending : s.free.2.pending = s.pending := rfl

/-! ## Registers of a cell -/

variable (k : Cell)

@[simp] theorem Cell.wv_x (r : BitVec 5) (w : VReg) : (k.wv r w).x = k.x := rfl
@[simp] theorem Cell.wv_p (r : BitVec 5) (w : VReg) : (k.wv r w).p = k.p := rfl
@[simp] theorem Cell.wv_t (r : BitVec 5) (w : VReg) : (k.wv r w).t = k.t := rfl
@[simp] theorem Cell.wv_tstat (r : BitVec 5) (w : VReg) : (k.wv r w).tstat = k.tstat := rfl
@[simp] theorem Cell.wv_q (r : BitVec 5) (w : VReg) : (k.wv r w).q = k.q := rfl
@[simp] theorem Cell.wv_pc (r : BitVec 5) (w : VReg) : (k.wv r w).pc = k.pc := rfl
@[simp] theorem Cell.wv_sup (r : BitVec 5) (w : VReg) : (k.wv r w).sup = k.sup := rfl
@[simp] theorem Cell.wv_cstat (r : BitVec 5) (w : VReg) : (k.wv r w).cstat = k.cstat := rfl
@[simp] theorem Cell.wv_uctl (r : BitVec 5) (w : VReg) : (k.wv r w).uctl = k.uctl := rfl
@[simp] theorem Cell.wv_svec (r : BitVec 5) (w : VReg) : (k.wv r w).svec = k.svec := rfl
@[simp] theorem Cell.wv_epc (r : BitVec 5) (w : VReg) : (k.wv r w).epc = k.epc := rfl
@[simp] theorem Cell.wv_ecause (r : BitVec 5) (w : VReg) : (k.wv r w).ecause = k.ecause := rfl
@[simp] theorem Cell.wv_eaddr (r : BitVec 5) (w : VReg) : (k.wv r w).eaddr = k.eaddr := rfl
@[simp] theorem Cell.wv_ppriv (r : BitVec 5) (w : VReg) : (k.wv r w).ppriv = k.ppriv := rfl
@[simp] theorem Cell.wv_asub (r : BitVec 5) (w : VReg) : (k.wv r w).asub = k.asub := rfl
@[simp] theorem Cell.wv_aop (r : BitVec 5) (w : VReg) : (k.wv r w).aop = k.aop := rfl
@[simp] theorem Cell.wv_sscratch (r : BitVec 5) (w : VReg) : (k.wv r w).sscratch = k.sscratch := rfl
@[simp] theorem Cell.wv_ptroot (r : BitVec 5) (w : VReg) : (k.wv r w).ptroot = k.ptroot := rfl
@[simp] theorem Cell.wv_run (r : BitVec 5) (w : VReg) : (k.wv r w).run = k.run := rfl
@[simp] theorem Cell.wv_ended (r : BitVec 5) (w : VReg) : (k.wv r w).ended = k.ended := rfl
@[simp] theorem Cell.wv_ending (r : BitVec 5) (w : VReg) : (k.wv r w).ending = k.ending := rfl
@[simp] theorem Cell.wv_stopped (r : BitVec 5) (w : VReg) : (k.wv r w).stopped = k.stopped := rfl
@[simp] theorem Cell.wv_preempt (r : BitVec 5) (w : VReg) : (k.wv r w).preempt = k.preempt := rfl
@[simp] theorem Cell.wv_cancel (r : BitVec 5) (w : VReg) : (k.wv r w).cancel = k.cancel := rfl
@[simp] theorem Cell.wv_async (r : BitVec 5) (w : VReg) : (k.wv r w).async = k.async := rfl
@[simp] theorem Cell.wv_asyncNext (r : BitVec 5) (w : VReg) : (k.wv r w).asyncNext = k.asyncNext := rfl
@[simp] theorem Cell.wv_faults (r : BitVec 5) (w : VReg) : (k.wv r w).faults = k.faults := rfl
@[simp] theorem Cell.wv_wait (r : BitVec 5) (w : VReg) : (k.wv r w).wait = k.wait := rfl
@[simp] theorem Cell.wv_requested (r : BitVec 5) (w : VReg) : (k.wv r w).requested = k.requested := rfl
@[simp] theorem Cell.wv_cycle (r : BitVec 5) (w : VReg) : (k.wv r w).cycle = k.cycle := rfl
@[simp] theorem Cell.wv_pmc (r : BitVec 5) (w : VReg) : (k.wv r w).pmc = k.pmc := rfl
@[simp] theorem Cell.wv_pmsel (r : BitVec 5) (w : VReg) : (k.wv r w).pmsel = k.pmsel := rfl
@[simp] theorem Cell.wv_pmovf (r : BitVec 5) (w : VReg) : (k.wv r w).pmovf = k.pmovf := rfl
@[simp] theorem Cell.wv_pmaddr (r : BitVec 5) (w : VReg) : (k.wv r w).pmaddr = k.pmaddr := rfl
@[simp] theorem Cell.wv_samples (r : BitVec 5) (w : VReg) : (k.wv r w).samples = k.samples := rfl
@[simp] theorem Cell.wv_countdown (r : BitVec 5) (w : VReg) : (k.wv r w).countdown = k.countdown := rfl
@[simp] theorem Cell.wv_sampMode (r : BitVec 5) (w : VReg) : (k.wv r w).sampMode = k.sampMode := rfl
@[simp] theorem Cell.wv_sampN (r : BitVec 5) (w : VReg) : (k.wv r w).sampN = k.sampN := rfl
@[simp] theorem Cell.wq_x (r : BitVec 4) (w : QReg) : (k.wq r w).x = k.x := rfl
@[simp] theorem Cell.wq_v (r : BitVec 4) (w : QReg) : (k.wq r w).v = k.v := rfl
@[simp] theorem Cell.wq_p (r : BitVec 4) (w : QReg) : (k.wq r w).p = k.p := rfl
@[simp] theorem Cell.wq_t (r : BitVec 4) (w : QReg) : (k.wq r w).t = k.t := rfl
@[simp] theorem Cell.wq_tstat (r : BitVec 4) (w : QReg) : (k.wq r w).tstat = k.tstat := rfl
@[simp] theorem Cell.wq_pc (r : BitVec 4) (w : QReg) : (k.wq r w).pc = k.pc := rfl
@[simp] theorem Cell.wq_sup (r : BitVec 4) (w : QReg) : (k.wq r w).sup = k.sup := rfl
@[simp] theorem Cell.wq_cstat (r : BitVec 4) (w : QReg) : (k.wq r w).cstat = k.cstat := rfl
@[simp] theorem Cell.wq_uctl (r : BitVec 4) (w : QReg) : (k.wq r w).uctl = k.uctl := rfl
@[simp] theorem Cell.wq_svec (r : BitVec 4) (w : QReg) : (k.wq r w).svec = k.svec := rfl
@[simp] theorem Cell.wq_epc (r : BitVec 4) (w : QReg) : (k.wq r w).epc = k.epc := rfl
@[simp] theorem Cell.wq_ecause (r : BitVec 4) (w : QReg) : (k.wq r w).ecause = k.ecause := rfl
@[simp] theorem Cell.wq_eaddr (r : BitVec 4) (w : QReg) : (k.wq r w).eaddr = k.eaddr := rfl
@[simp] theorem Cell.wq_ppriv (r : BitVec 4) (w : QReg) : (k.wq r w).ppriv = k.ppriv := rfl
@[simp] theorem Cell.wq_asub (r : BitVec 4) (w : QReg) : (k.wq r w).asub = k.asub := rfl
@[simp] theorem Cell.wq_aop (r : BitVec 4) (w : QReg) : (k.wq r w).aop = k.aop := rfl
@[simp] theorem Cell.wq_sscratch (r : BitVec 4) (w : QReg) : (k.wq r w).sscratch = k.sscratch := rfl
@[simp] theorem Cell.wq_ptroot (r : BitVec 4) (w : QReg) : (k.wq r w).ptroot = k.ptroot := rfl
@[simp] theorem Cell.wq_run (r : BitVec 4) (w : QReg) : (k.wq r w).run = k.run := rfl
@[simp] theorem Cell.wq_ended (r : BitVec 4) (w : QReg) : (k.wq r w).ended = k.ended := rfl
@[simp] theorem Cell.wq_ending (r : BitVec 4) (w : QReg) : (k.wq r w).ending = k.ending := rfl
@[simp] theorem Cell.wq_stopped (r : BitVec 4) (w : QReg) : (k.wq r w).stopped = k.stopped := rfl
@[simp] theorem Cell.wq_preempt (r : BitVec 4) (w : QReg) : (k.wq r w).preempt = k.preempt := rfl
@[simp] theorem Cell.wq_cancel (r : BitVec 4) (w : QReg) : (k.wq r w).cancel = k.cancel := rfl
@[simp] theorem Cell.wq_async (r : BitVec 4) (w : QReg) : (k.wq r w).async = k.async := rfl
@[simp] theorem Cell.wq_asyncNext (r : BitVec 4) (w : QReg) : (k.wq r w).asyncNext = k.asyncNext := rfl
@[simp] theorem Cell.wq_faults (r : BitVec 4) (w : QReg) : (k.wq r w).faults = k.faults := rfl
@[simp] theorem Cell.wq_wait (r : BitVec 4) (w : QReg) : (k.wq r w).wait = k.wait := rfl
@[simp] theorem Cell.wq_requested (r : BitVec 4) (w : QReg) : (k.wq r w).requested = k.requested := rfl
@[simp] theorem Cell.wq_cycle (r : BitVec 4) (w : QReg) : (k.wq r w).cycle = k.cycle := rfl
@[simp] theorem Cell.wq_pmc (r : BitVec 4) (w : QReg) : (k.wq r w).pmc = k.pmc := rfl
@[simp] theorem Cell.wq_pmsel (r : BitVec 4) (w : QReg) : (k.wq r w).pmsel = k.pmsel := rfl
@[simp] theorem Cell.wq_pmovf (r : BitVec 4) (w : QReg) : (k.wq r w).pmovf = k.pmovf := rfl
@[simp] theorem Cell.wq_pmaddr (r : BitVec 4) (w : QReg) : (k.wq r w).pmaddr = k.pmaddr := rfl
@[simp] theorem Cell.wq_samples (r : BitVec 4) (w : QReg) : (k.wq r w).samples = k.samples := rfl
@[simp] theorem Cell.wq_countdown (r : BitVec 4) (w : QReg) : (k.wq r w).countdown = k.countdown := rfl
@[simp] theorem Cell.wq_sampMode (r : BitVec 4) (w : QReg) : (k.wq r w).sampMode = k.sampMode := rfl
@[simp] theorem Cell.wq_sampN (r : BitVec 4) (w : QReg) : (k.wq r w).sampN = k.sampN := rfl
@[simp] theorem Cell.wtile_x (r : BitVec 3) (w : Tile) : (k.wtile r w).x = k.x := rfl
@[simp] theorem Cell.wtile_v (r : BitVec 3) (w : Tile) : (k.wtile r w).v = k.v := rfl
@[simp] theorem Cell.wtile_p (r : BitVec 3) (w : Tile) : (k.wtile r w).p = k.p := rfl
@[simp] theorem Cell.wtile_tstat (r : BitVec 3) (w : Tile) : (k.wtile r w).tstat = k.tstat := rfl
@[simp] theorem Cell.wtile_q (r : BitVec 3) (w : Tile) : (k.wtile r w).q = k.q := rfl
@[simp] theorem Cell.wtile_pc (r : BitVec 3) (w : Tile) : (k.wtile r w).pc = k.pc := rfl
@[simp] theorem Cell.wtile_sup (r : BitVec 3) (w : Tile) : (k.wtile r w).sup = k.sup := rfl
@[simp] theorem Cell.wtile_cstat (r : BitVec 3) (w : Tile) : (k.wtile r w).cstat = k.cstat := rfl
@[simp] theorem Cell.wtile_uctl (r : BitVec 3) (w : Tile) : (k.wtile r w).uctl = k.uctl := rfl
@[simp] theorem Cell.wtile_svec (r : BitVec 3) (w : Tile) : (k.wtile r w).svec = k.svec := rfl
@[simp] theorem Cell.wtile_epc (r : BitVec 3) (w : Tile) : (k.wtile r w).epc = k.epc := rfl
@[simp] theorem Cell.wtile_ecause (r : BitVec 3) (w : Tile) : (k.wtile r w).ecause = k.ecause := rfl
@[simp] theorem Cell.wtile_eaddr (r : BitVec 3) (w : Tile) : (k.wtile r w).eaddr = k.eaddr := rfl
@[simp] theorem Cell.wtile_ppriv (r : BitVec 3) (w : Tile) : (k.wtile r w).ppriv = k.ppriv := rfl
@[simp] theorem Cell.wtile_asub (r : BitVec 3) (w : Tile) : (k.wtile r w).asub = k.asub := rfl
@[simp] theorem Cell.wtile_aop (r : BitVec 3) (w : Tile) : (k.wtile r w).aop = k.aop := rfl
@[simp] theorem Cell.wtile_sscratch (r : BitVec 3) (w : Tile) : (k.wtile r w).sscratch = k.sscratch := rfl
@[simp] theorem Cell.wtile_ptroot (r : BitVec 3) (w : Tile) : (k.wtile r w).ptroot = k.ptroot := rfl
@[simp] theorem Cell.wtile_run (r : BitVec 3) (w : Tile) : (k.wtile r w).run = k.run := rfl
@[simp] theorem Cell.wtile_ended (r : BitVec 3) (w : Tile) : (k.wtile r w).ended = k.ended := rfl
@[simp] theorem Cell.wtile_ending (r : BitVec 3) (w : Tile) : (k.wtile r w).ending = k.ending := rfl
@[simp] theorem Cell.wtile_stopped (r : BitVec 3) (w : Tile) : (k.wtile r w).stopped = k.stopped := rfl
@[simp] theorem Cell.wtile_preempt (r : BitVec 3) (w : Tile) : (k.wtile r w).preempt = k.preempt := rfl
@[simp] theorem Cell.wtile_cancel (r : BitVec 3) (w : Tile) : (k.wtile r w).cancel = k.cancel := rfl
@[simp] theorem Cell.wtile_async (r : BitVec 3) (w : Tile) : (k.wtile r w).async = k.async := rfl
@[simp] theorem Cell.wtile_asyncNext (r : BitVec 3) (w : Tile) : (k.wtile r w).asyncNext = k.asyncNext := rfl
@[simp] theorem Cell.wtile_faults (r : BitVec 3) (w : Tile) : (k.wtile r w).faults = k.faults := rfl
@[simp] theorem Cell.wtile_wait (r : BitVec 3) (w : Tile) : (k.wtile r w).wait = k.wait := rfl
@[simp] theorem Cell.wtile_requested (r : BitVec 3) (w : Tile) : (k.wtile r w).requested = k.requested := rfl
@[simp] theorem Cell.wtile_cycle (r : BitVec 3) (w : Tile) : (k.wtile r w).cycle = k.cycle := rfl
@[simp] theorem Cell.wtile_pmc (r : BitVec 3) (w : Tile) : (k.wtile r w).pmc = k.pmc := rfl
@[simp] theorem Cell.wtile_pmsel (r : BitVec 3) (w : Tile) : (k.wtile r w).pmsel = k.pmsel := rfl
@[simp] theorem Cell.wtile_pmovf (r : BitVec 3) (w : Tile) : (k.wtile r w).pmovf = k.pmovf := rfl
@[simp] theorem Cell.wtile_pmaddr (r : BitVec 3) (w : Tile) : (k.wtile r w).pmaddr = k.pmaddr := rfl
@[simp] theorem Cell.wtile_samples (r : BitVec 3) (w : Tile) : (k.wtile r w).samples = k.samples := rfl
@[simp] theorem Cell.wtile_countdown (r : BitVec 3) (w : Tile) : (k.wtile r w).countdown = k.countdown := rfl
@[simp] theorem Cell.wtile_sampMode (r : BitVec 3) (w : Tile) : (k.wtile r w).sampMode = k.sampMode := rfl
@[simp] theorem Cell.wtile_sampN (r : BitVec 3) (w : Tile) : (k.wtile r w).sampN = k.sampN := rfl
@[simp] theorem Cell.wstat_x (r : BitVec 3) (w : Tstat) : (k.wstat r w).x = k.x := rfl
@[simp] theorem Cell.wstat_v (r : BitVec 3) (w : Tstat) : (k.wstat r w).v = k.v := rfl
@[simp] theorem Cell.wstat_p (r : BitVec 3) (w : Tstat) : (k.wstat r w).p = k.p := rfl
@[simp] theorem Cell.wstat_t (r : BitVec 3) (w : Tstat) : (k.wstat r w).t = k.t := rfl
@[simp] theorem Cell.wstat_q (r : BitVec 3) (w : Tstat) : (k.wstat r w).q = k.q := rfl
@[simp] theorem Cell.wstat_pc (r : BitVec 3) (w : Tstat) : (k.wstat r w).pc = k.pc := rfl
@[simp] theorem Cell.wstat_sup (r : BitVec 3) (w : Tstat) : (k.wstat r w).sup = k.sup := rfl
@[simp] theorem Cell.wstat_cstat (r : BitVec 3) (w : Tstat) : (k.wstat r w).cstat = k.cstat := rfl
@[simp] theorem Cell.wstat_uctl (r : BitVec 3) (w : Tstat) : (k.wstat r w).uctl = k.uctl := rfl
@[simp] theorem Cell.wstat_svec (r : BitVec 3) (w : Tstat) : (k.wstat r w).svec = k.svec := rfl
@[simp] theorem Cell.wstat_epc (r : BitVec 3) (w : Tstat) : (k.wstat r w).epc = k.epc := rfl
@[simp] theorem Cell.wstat_ecause (r : BitVec 3) (w : Tstat) : (k.wstat r w).ecause = k.ecause := rfl
@[simp] theorem Cell.wstat_eaddr (r : BitVec 3) (w : Tstat) : (k.wstat r w).eaddr = k.eaddr := rfl
@[simp] theorem Cell.wstat_ppriv (r : BitVec 3) (w : Tstat) : (k.wstat r w).ppriv = k.ppriv := rfl
@[simp] theorem Cell.wstat_asub (r : BitVec 3) (w : Tstat) : (k.wstat r w).asub = k.asub := rfl
@[simp] theorem Cell.wstat_aop (r : BitVec 3) (w : Tstat) : (k.wstat r w).aop = k.aop := rfl
@[simp] theorem Cell.wstat_sscratch (r : BitVec 3) (w : Tstat) : (k.wstat r w).sscratch = k.sscratch := rfl
@[simp] theorem Cell.wstat_ptroot (r : BitVec 3) (w : Tstat) : (k.wstat r w).ptroot = k.ptroot := rfl
@[simp] theorem Cell.wstat_run (r : BitVec 3) (w : Tstat) : (k.wstat r w).run = k.run := rfl
@[simp] theorem Cell.wstat_ended (r : BitVec 3) (w : Tstat) : (k.wstat r w).ended = k.ended := rfl
@[simp] theorem Cell.wstat_ending (r : BitVec 3) (w : Tstat) : (k.wstat r w).ending = k.ending := rfl
@[simp] theorem Cell.wstat_stopped (r : BitVec 3) (w : Tstat) : (k.wstat r w).stopped = k.stopped := rfl
@[simp] theorem Cell.wstat_preempt (r : BitVec 3) (w : Tstat) : (k.wstat r w).preempt = k.preempt := rfl
@[simp] theorem Cell.wstat_cancel (r : BitVec 3) (w : Tstat) : (k.wstat r w).cancel = k.cancel := rfl
@[simp] theorem Cell.wstat_async (r : BitVec 3) (w : Tstat) : (k.wstat r w).async = k.async := rfl
@[simp] theorem Cell.wstat_asyncNext (r : BitVec 3) (w : Tstat) : (k.wstat r w).asyncNext = k.asyncNext := rfl
@[simp] theorem Cell.wstat_faults (r : BitVec 3) (w : Tstat) : (k.wstat r w).faults = k.faults := rfl
@[simp] theorem Cell.wstat_wait (r : BitVec 3) (w : Tstat) : (k.wstat r w).wait = k.wait := rfl
@[simp] theorem Cell.wstat_requested (r : BitVec 3) (w : Tstat) : (k.wstat r w).requested = k.requested := rfl
@[simp] theorem Cell.wstat_cycle (r : BitVec 3) (w : Tstat) : (k.wstat r w).cycle = k.cycle := rfl
@[simp] theorem Cell.wstat_pmc (r : BitVec 3) (w : Tstat) : (k.wstat r w).pmc = k.pmc := rfl
@[simp] theorem Cell.wstat_pmsel (r : BitVec 3) (w : Tstat) : (k.wstat r w).pmsel = k.pmsel := rfl
@[simp] theorem Cell.wstat_pmovf (r : BitVec 3) (w : Tstat) : (k.wstat r w).pmovf = k.pmovf := rfl
@[simp] theorem Cell.wstat_pmaddr (r : BitVec 3) (w : Tstat) : (k.wstat r w).pmaddr = k.pmaddr := rfl
@[simp] theorem Cell.wstat_samples (r : BitVec 3) (w : Tstat) : (k.wstat r w).samples = k.samples := rfl
@[simp] theorem Cell.wstat_countdown (r : BitVec 3) (w : Tstat) : (k.wstat r w).countdown = k.countdown := rfl
@[simp] theorem Cell.wstat_sampMode (r : BitVec 3) (w : Tstat) : (k.wstat r w).sampMode = k.sampMode := rfl
@[simp] theorem Cell.wstat_sampN (r : BitVec 3) (w : Tstat) : (k.wstat r w).sampN = k.sampN := rfl
@[simp] theorem Cell.adv_x : (k.adv ).x = k.x := rfl
@[simp] theorem Cell.adv_v : (k.adv ).v = k.v := rfl
@[simp] theorem Cell.adv_p : (k.adv ).p = k.p := rfl
@[simp] theorem Cell.adv_t : (k.adv ).t = k.t := rfl
@[simp] theorem Cell.adv_tstat : (k.adv ).tstat = k.tstat := rfl
@[simp] theorem Cell.adv_q : (k.adv ).q = k.q := rfl
@[simp] theorem Cell.adv_sup : (k.adv ).sup = k.sup := rfl
@[simp] theorem Cell.adv_cstat : (k.adv ).cstat = k.cstat := rfl
@[simp] theorem Cell.adv_uctl : (k.adv ).uctl = k.uctl := rfl
@[simp] theorem Cell.adv_svec : (k.adv ).svec = k.svec := rfl
@[simp] theorem Cell.adv_epc : (k.adv ).epc = k.epc := rfl
@[simp] theorem Cell.adv_ecause : (k.adv ).ecause = k.ecause := rfl
@[simp] theorem Cell.adv_eaddr : (k.adv ).eaddr = k.eaddr := rfl
@[simp] theorem Cell.adv_ppriv : (k.adv ).ppriv = k.ppriv := rfl
@[simp] theorem Cell.adv_asub : (k.adv ).asub = k.asub := rfl
@[simp] theorem Cell.adv_aop : (k.adv ).aop = k.aop := rfl
@[simp] theorem Cell.adv_sscratch : (k.adv ).sscratch = k.sscratch := rfl
@[simp] theorem Cell.adv_ptroot : (k.adv ).ptroot = k.ptroot := rfl
@[simp] theorem Cell.adv_run : (k.adv ).run = k.run := rfl
@[simp] theorem Cell.adv_ended : (k.adv ).ended = k.ended := rfl
@[simp] theorem Cell.adv_ending : (k.adv ).ending = k.ending := rfl
@[simp] theorem Cell.adv_stopped : (k.adv ).stopped = k.stopped := rfl
@[simp] theorem Cell.adv_preempt : (k.adv ).preempt = k.preempt := rfl
@[simp] theorem Cell.adv_cancel : (k.adv ).cancel = k.cancel := rfl
@[simp] theorem Cell.adv_async : (k.adv ).async = k.async := rfl
@[simp] theorem Cell.adv_asyncNext : (k.adv ).asyncNext = k.asyncNext := rfl
@[simp] theorem Cell.adv_faults : (k.adv ).faults = k.faults := rfl
@[simp] theorem Cell.adv_wait : (k.adv ).wait = k.wait := rfl
@[simp] theorem Cell.adv_requested : (k.adv ).requested = k.requested := rfl
@[simp] theorem Cell.adv_cycle : (k.adv ).cycle = k.cycle := rfl
@[simp] theorem Cell.adv_pmc : (k.adv ).pmc = k.pmc := rfl
@[simp] theorem Cell.adv_pmsel : (k.adv ).pmsel = k.pmsel := rfl
@[simp] theorem Cell.adv_pmovf : (k.adv ).pmovf = k.pmovf := rfl
@[simp] theorem Cell.adv_pmaddr : (k.adv ).pmaddr = k.pmaddr := rfl
@[simp] theorem Cell.adv_samples : (k.adv ).samples = k.samples := rfl
@[simp] theorem Cell.adv_countdown : (k.adv ).countdown = k.countdown := rfl
@[simp] theorem Cell.adv_sampMode : (k.adv ).sampMode = k.sampMode := rfl
@[simp] theorem Cell.adv_sampN : (k.adv ).sampN = k.sampN := rfl
@[simp] theorem Cell.adv_pc : k.adv.pc = k.pc + 8 := rfl
@[simp] theorem Cell.ws_v (r : BitVec 5) (w : Word) : (k.ws r w).v = k.v := by unfold Cell.ws; split <;> rfl
@[simp] theorem Cell.ws_p (r : BitVec 5) (w : Word) : (k.ws r w).p = k.p := by unfold Cell.ws; split <;> rfl
@[simp] theorem Cell.ws_t (r : BitVec 5) (w : Word) : (k.ws r w).t = k.t := by unfold Cell.ws; split <;> rfl
@[simp] theorem Cell.ws_tstat (r : BitVec 5) (w : Word) : (k.ws r w).tstat = k.tstat := by unfold Cell.ws; split <;> rfl
@[simp] theorem Cell.ws_q (r : BitVec 5) (w : Word) : (k.ws r w).q = k.q := by unfold Cell.ws; split <;> rfl
@[simp] theorem Cell.ws_pc (r : BitVec 5) (w : Word) : (k.ws r w).pc = k.pc := by unfold Cell.ws; split <;> rfl
@[simp] theorem Cell.ws_sup (r : BitVec 5) (w : Word) : (k.ws r w).sup = k.sup := by unfold Cell.ws; split <;> rfl
@[simp] theorem Cell.ws_cstat (r : BitVec 5) (w : Word) : (k.ws r w).cstat = k.cstat := by unfold Cell.ws; split <;> rfl
@[simp] theorem Cell.ws_uctl (r : BitVec 5) (w : Word) : (k.ws r w).uctl = k.uctl := by unfold Cell.ws; split <;> rfl
@[simp] theorem Cell.ws_svec (r : BitVec 5) (w : Word) : (k.ws r w).svec = k.svec := by unfold Cell.ws; split <;> rfl
@[simp] theorem Cell.ws_epc (r : BitVec 5) (w : Word) : (k.ws r w).epc = k.epc := by unfold Cell.ws; split <;> rfl
@[simp] theorem Cell.ws_ecause (r : BitVec 5) (w : Word) : (k.ws r w).ecause = k.ecause := by unfold Cell.ws; split <;> rfl
@[simp] theorem Cell.ws_eaddr (r : BitVec 5) (w : Word) : (k.ws r w).eaddr = k.eaddr := by unfold Cell.ws; split <;> rfl
@[simp] theorem Cell.ws_ppriv (r : BitVec 5) (w : Word) : (k.ws r w).ppriv = k.ppriv := by unfold Cell.ws; split <;> rfl
@[simp] theorem Cell.ws_asub (r : BitVec 5) (w : Word) : (k.ws r w).asub = k.asub := by unfold Cell.ws; split <;> rfl
@[simp] theorem Cell.ws_aop (r : BitVec 5) (w : Word) : (k.ws r w).aop = k.aop := by unfold Cell.ws; split <;> rfl
@[simp] theorem Cell.ws_sscratch (r : BitVec 5) (w : Word) : (k.ws r w).sscratch = k.sscratch := by unfold Cell.ws; split <;> rfl
@[simp] theorem Cell.ws_ptroot (r : BitVec 5) (w : Word) : (k.ws r w).ptroot = k.ptroot := by unfold Cell.ws; split <;> rfl
@[simp] theorem Cell.ws_run (r : BitVec 5) (w : Word) : (k.ws r w).run = k.run := by unfold Cell.ws; split <;> rfl
@[simp] theorem Cell.ws_ended (r : BitVec 5) (w : Word) : (k.ws r w).ended = k.ended := by unfold Cell.ws; split <;> rfl
@[simp] theorem Cell.ws_ending (r : BitVec 5) (w : Word) : (k.ws r w).ending = k.ending := by unfold Cell.ws; split <;> rfl
@[simp] theorem Cell.ws_stopped (r : BitVec 5) (w : Word) : (k.ws r w).stopped = k.stopped := by unfold Cell.ws; split <;> rfl
@[simp] theorem Cell.ws_preempt (r : BitVec 5) (w : Word) : (k.ws r w).preempt = k.preempt := by unfold Cell.ws; split <;> rfl
@[simp] theorem Cell.ws_cancel (r : BitVec 5) (w : Word) : (k.ws r w).cancel = k.cancel := by unfold Cell.ws; split <;> rfl
@[simp] theorem Cell.ws_async (r : BitVec 5) (w : Word) : (k.ws r w).async = k.async := by unfold Cell.ws; split <;> rfl
@[simp] theorem Cell.ws_asyncNext (r : BitVec 5) (w : Word) : (k.ws r w).asyncNext = k.asyncNext := by unfold Cell.ws; split <;> rfl
@[simp] theorem Cell.ws_faults (r : BitVec 5) (w : Word) : (k.ws r w).faults = k.faults := by unfold Cell.ws; split <;> rfl
@[simp] theorem Cell.ws_wait (r : BitVec 5) (w : Word) : (k.ws r w).wait = k.wait := by unfold Cell.ws; split <;> rfl
@[simp] theorem Cell.ws_requested (r : BitVec 5) (w : Word) : (k.ws r w).requested = k.requested := by unfold Cell.ws; split <;> rfl
@[simp] theorem Cell.ws_cycle (r : BitVec 5) (w : Word) : (k.ws r w).cycle = k.cycle := by unfold Cell.ws; split <;> rfl
@[simp] theorem Cell.ws_pmc (r : BitVec 5) (w : Word) : (k.ws r w).pmc = k.pmc := by unfold Cell.ws; split <;> rfl
@[simp] theorem Cell.ws_pmsel (r : BitVec 5) (w : Word) : (k.ws r w).pmsel = k.pmsel := by unfold Cell.ws; split <;> rfl
@[simp] theorem Cell.ws_pmovf (r : BitVec 5) (w : Word) : (k.ws r w).pmovf = k.pmovf := by unfold Cell.ws; split <;> rfl
@[simp] theorem Cell.ws_pmaddr (r : BitVec 5) (w : Word) : (k.ws r w).pmaddr = k.pmaddr := by unfold Cell.ws; split <;> rfl
@[simp] theorem Cell.ws_samples (r : BitVec 5) (w : Word) : (k.ws r w).samples = k.samples := by unfold Cell.ws; split <;> rfl
@[simp] theorem Cell.ws_countdown (r : BitVec 5) (w : Word) : (k.ws r w).countdown = k.countdown := by unfold Cell.ws; split <;> rfl
@[simp] theorem Cell.ws_sampMode (r : BitVec 5) (w : Word) : (k.ws r w).sampMode = k.sampMode := by unfold Cell.ws; split <;> rfl
@[simp] theorem Cell.ws_sampN (r : BitVec 5) (w : Word) : (k.ws r w).sampN = k.sampN := by unfold Cell.ws; split <;> rfl
@[simp] theorem Cell.wp_x (r : BitVec 4) (w : PReg) : (k.wp r w).x = k.x := by unfold Cell.wp; split <;> rfl
@[simp] theorem Cell.wp_v (r : BitVec 4) (w : PReg) : (k.wp r w).v = k.v := by unfold Cell.wp; split <;> rfl
@[simp] theorem Cell.wp_t (r : BitVec 4) (w : PReg) : (k.wp r w).t = k.t := by unfold Cell.wp; split <;> rfl
@[simp] theorem Cell.wp_tstat (r : BitVec 4) (w : PReg) : (k.wp r w).tstat = k.tstat := by unfold Cell.wp; split <;> rfl
@[simp] theorem Cell.wp_q (r : BitVec 4) (w : PReg) : (k.wp r w).q = k.q := by unfold Cell.wp; split <;> rfl
@[simp] theorem Cell.wp_pc (r : BitVec 4) (w : PReg) : (k.wp r w).pc = k.pc := by unfold Cell.wp; split <;> rfl
@[simp] theorem Cell.wp_sup (r : BitVec 4) (w : PReg) : (k.wp r w).sup = k.sup := by unfold Cell.wp; split <;> rfl
@[simp] theorem Cell.wp_cstat (r : BitVec 4) (w : PReg) : (k.wp r w).cstat = k.cstat := by unfold Cell.wp; split <;> rfl
@[simp] theorem Cell.wp_uctl (r : BitVec 4) (w : PReg) : (k.wp r w).uctl = k.uctl := by unfold Cell.wp; split <;> rfl
@[simp] theorem Cell.wp_svec (r : BitVec 4) (w : PReg) : (k.wp r w).svec = k.svec := by unfold Cell.wp; split <;> rfl
@[simp] theorem Cell.wp_epc (r : BitVec 4) (w : PReg) : (k.wp r w).epc = k.epc := by unfold Cell.wp; split <;> rfl
@[simp] theorem Cell.wp_ecause (r : BitVec 4) (w : PReg) : (k.wp r w).ecause = k.ecause := by unfold Cell.wp; split <;> rfl
@[simp] theorem Cell.wp_eaddr (r : BitVec 4) (w : PReg) : (k.wp r w).eaddr = k.eaddr := by unfold Cell.wp; split <;> rfl
@[simp] theorem Cell.wp_ppriv (r : BitVec 4) (w : PReg) : (k.wp r w).ppriv = k.ppriv := by unfold Cell.wp; split <;> rfl
@[simp] theorem Cell.wp_asub (r : BitVec 4) (w : PReg) : (k.wp r w).asub = k.asub := by unfold Cell.wp; split <;> rfl
@[simp] theorem Cell.wp_aop (r : BitVec 4) (w : PReg) : (k.wp r w).aop = k.aop := by unfold Cell.wp; split <;> rfl
@[simp] theorem Cell.wp_sscratch (r : BitVec 4) (w : PReg) : (k.wp r w).sscratch = k.sscratch := by unfold Cell.wp; split <;> rfl
@[simp] theorem Cell.wp_ptroot (r : BitVec 4) (w : PReg) : (k.wp r w).ptroot = k.ptroot := by unfold Cell.wp; split <;> rfl
@[simp] theorem Cell.wp_run (r : BitVec 4) (w : PReg) : (k.wp r w).run = k.run := by unfold Cell.wp; split <;> rfl
@[simp] theorem Cell.wp_ended (r : BitVec 4) (w : PReg) : (k.wp r w).ended = k.ended := by unfold Cell.wp; split <;> rfl
@[simp] theorem Cell.wp_ending (r : BitVec 4) (w : PReg) : (k.wp r w).ending = k.ending := by unfold Cell.wp; split <;> rfl
@[simp] theorem Cell.wp_stopped (r : BitVec 4) (w : PReg) : (k.wp r w).stopped = k.stopped := by unfold Cell.wp; split <;> rfl
@[simp] theorem Cell.wp_preempt (r : BitVec 4) (w : PReg) : (k.wp r w).preempt = k.preempt := by unfold Cell.wp; split <;> rfl
@[simp] theorem Cell.wp_cancel (r : BitVec 4) (w : PReg) : (k.wp r w).cancel = k.cancel := by unfold Cell.wp; split <;> rfl
@[simp] theorem Cell.wp_async (r : BitVec 4) (w : PReg) : (k.wp r w).async = k.async := by unfold Cell.wp; split <;> rfl
@[simp] theorem Cell.wp_asyncNext (r : BitVec 4) (w : PReg) : (k.wp r w).asyncNext = k.asyncNext := by unfold Cell.wp; split <;> rfl
@[simp] theorem Cell.wp_faults (r : BitVec 4) (w : PReg) : (k.wp r w).faults = k.faults := by unfold Cell.wp; split <;> rfl
@[simp] theorem Cell.wp_wait (r : BitVec 4) (w : PReg) : (k.wp r w).wait = k.wait := by unfold Cell.wp; split <;> rfl
@[simp] theorem Cell.wp_requested (r : BitVec 4) (w : PReg) : (k.wp r w).requested = k.requested := by unfold Cell.wp; split <;> rfl
@[simp] theorem Cell.wp_cycle (r : BitVec 4) (w : PReg) : (k.wp r w).cycle = k.cycle := by unfold Cell.wp; split <;> rfl
@[simp] theorem Cell.wp_pmc (r : BitVec 4) (w : PReg) : (k.wp r w).pmc = k.pmc := by unfold Cell.wp; split <;> rfl
@[simp] theorem Cell.wp_pmsel (r : BitVec 4) (w : PReg) : (k.wp r w).pmsel = k.pmsel := by unfold Cell.wp; split <;> rfl
@[simp] theorem Cell.wp_pmovf (r : BitVec 4) (w : PReg) : (k.wp r w).pmovf = k.pmovf := by unfold Cell.wp; split <;> rfl
@[simp] theorem Cell.wp_pmaddr (r : BitVec 4) (w : PReg) : (k.wp r w).pmaddr = k.pmaddr := by unfold Cell.wp; split <;> rfl
@[simp] theorem Cell.wp_samples (r : BitVec 4) (w : PReg) : (k.wp r w).samples = k.samples := by unfold Cell.wp; split <;> rfl
@[simp] theorem Cell.wp_countdown (r : BitVec 4) (w : PReg) : (k.wp r w).countdown = k.countdown := by unfold Cell.wp; split <;> rfl
@[simp] theorem Cell.wp_sampMode (r : BitVec 4) (w : PReg) : (k.wp r w).sampMode = k.sampMode := by unfold Cell.wp; split <;> rfl
@[simp] theorem Cell.wp_sampN (r : BitVec 4) (w : PReg) : (k.wp r w).sampN = k.sampN := by unfold Cell.wp; split <;> rfl

end Sys2Proof.Machine
end

