-- ==== Sys2Proof/Laws/Cells.lean ====
section
/-! SUPPORT. Registers of cells, and what the retirement of an instruction changes. -/

namespace Sys2Proof.Machine

/-! ## Registers -/

/-- `s0` reads as zero (R84). -/
@[simp] theorem Cell.rs_zero (k : Cell) : k.rs 0 = 0 := rfl

/-- A write to `s0` is discarded (R84). -/
@[simp] theorem Cell.ws_zero (k : Cell) (w : Word) : k.ws 0 w = k := rfl

/-- `p0` reads as all ones (R84). -/
@[simp] theorem Cell.rp_zero (k : Cell) : k.rp 0 = BitVec.allOnes 256 := rfl

/-- A write to `p0` is discarded (R84). -/
@[simp] theorem Cell.wp_zero (k : Cell) (w : PReg) : k.wp 0 w = k := rfl

theorem Cell.rs_ws_self (k : Cell) (r : BitVec 5) (w : Word) (h : r ≠ 0) : (k.ws r w).rs r = w := by
  unfold Cell.rs Cell.ws; rw [if_neg h, if_neg h]; simp

theorem Cell.rs_ws_other (k : Cell) (r q : BitVec 5) (w : Word) (h : q ≠ r) :
    (k.ws r w).rs q = k.rs q := by
  unfold Cell.rs Cell.ws
  split
  · rfl
  · split
    · rfl
    · have hn : r.toNat ≠ q.toNat := fun e => h (BitVec.eq_of_toNat_eq e.symm)
      simp [hn]

theorem Cell.rp_wp_self (k : Cell) (r : BitVec 4) (w : PReg) (h : r ≠ 0) : (k.wp r w).rp r = w := by
  unfold Cell.rp Cell.wp; rw [if_neg h, if_neg h]; simp

theorem Cell.rp_wp_other (k : Cell) (r q : BitVec 4) (w : PReg) (h : q ≠ r) :
    (k.wp r w).rp q = k.rp q := by
  unfold Cell.rp Cell.wp
  split
  · rfl
  · split
    · rfl
    · have hn : r.toNat ≠ q.toNat := fun e => h (BitVec.eq_of_toNat_eq e.symm)
      simp [hn]

@[simp] theorem Cell.rv_wv_self (k : Cell) (r : BitVec 5) (w : VReg) : (k.wv r w).rv r = w := by
  simp [Cell.rv, Cell.wv]

theorem Cell.rv_wv_other (k : Cell) (r q : BitVec 5) (w : VReg) (h : q ≠ r) :
    (k.wv r w).rv q = k.rv q := by
  have hn : r.toNat ≠ q.toNat := fun e => h (BitVec.eq_of_toNat_eq e.symm)
  simp [Cell.rv, Cell.wv, hn]

@[simp] theorem Cell.rq_wq_self (k : Cell) (r : BitVec 4) (w : QReg) : (k.wq r w).rq r = w := by
  simp [Cell.rq, Cell.wq]

@[simp] theorem Cell.tile_wtile_self (k : Cell) (r : BitVec 3) (w : Tile) : (k.wtile r w).tile r = w := by
  simp [Cell.tile, Cell.wtile]

@[simp] theorem Cell.stat_wstat_self (k : Cell) (r : BitVec 3) (w : Tstat) : (k.wstat r w).stat r = w := by
  simp [Cell.stat, Cell.wstat]

/-! ## Looking up cells -/

@[simp] theorem State.cell_setCell (s : State) (c : Nat) (k : Cell) : (s.setCell c k).cell c = k := by
  simp [State.cell, State.setCell, SMap.find_put_self]

theorem State.cell_setCell_other (s : State) (c d : Nat) (k : Cell) (h : d ≠ c) :
    (s.setCell c k).cell d = s.cell d := by
  simp [State.cell, State.setCell, SMap.find_put_other _ _ _ _ h]

@[simp] theorem State.rest_setCell (s : State) (c : Nat) (k : Cell) : (s.setCell c k).rest = s.rest := rfl

@[simp] theorem State.rest_setBank (s : State) (b : Nat) (k : CounterBank) : (s.setBank b k).rest = s.rest := rfl

@[simp] theorem State.rest_free (s : State) : s.free.2.rest = s.rest := rfl

/-! ## Cells that differ in what `Cell.arch` leaves out -/

theorem Cell.fresh_of_find {s : State} {d : Nat} (h : s.cells.find d = none) : s.cell d = Cell.fresh d := by
  simp [State.cell, h]

/-- A change of every listed cell that `Cell.arch` does not see. -/
theorem State.arch_map (s : State) (f : Nat → Cell → Cell) (hf : ∀ i k, (f i k).arch = k.arch) (d : Nat) :
    (({ s with cells := s.cells.map fun x => (x.1, f x.1 x.2) } : State).cell d).arch = (s.cell d).arch := by
  have h := SMap.find_map s.cells d f
  simp only [State.cell, h]
  cases s.cells.find d with
  | none => rfl
  | some k => exact hf d k

/-- A change of one cell that `Cell.arch` does not see. -/
theorem State.arch_setCell (s : State) (c d : Nat) (k : Cell) (h : k.arch = (s.cell c).arch) :
    ((s.setCell c k).cell d).arch = (s.cell d).arch := by
  by_cases e : d = c
  · subst e; rw [State.cell_setCell, h]
  · rw [State.cell_setCell_other _ _ _ _ e]

theorem State.Alike.refl (s : State) : s.Alike s := ⟨fun _ => rfl, rfl⟩

theorem State.Alike.trans {s t u : State} (h : s.Alike t) (g : t.Alike u) : s.Alike u :=
  ⟨fun d => (h.1 d).trans (g.1 d), h.2.trans g.2⟩

/-! ## Counting -/

theorem Cell.bump_arch (k : Cell) (mk cl priv cls : Nat) (e : Ev) (n : Nat) :
    (k.bump mk cl priv cls e n).arch = k.arch := by
  induction n with
  | zero => rfl
  | succ n ih => rw [← ih]; rfl

theorem State.countOne_alike (s : State) (b mk cl priv cls : Nat) (e : Ev) :
    (s.countOne b mk cl priv cls e).Alike s := by
  unfold State.countOne
  split
  · exact ⟨fun _ => rfl, rfl⟩
  · refine ⟨fun d => ?_, rfl⟩
    have h2 : (s.cells.map fun x =>
          if x.1 / 16 = b ∧ s.cellPresent x.1 then (x.1, x.2.bump mk cl priv cls e 8) else x)
        = s.cells.map fun x =>
          (x.1, if x.1 / 16 = b ∧ s.cellPresent x.1 then x.2.bump mk cl priv cls e 8 else x.2) := by
      apply List.map_congr_left; intro x _; split <;> rfl
    rw [h2]
    refine s.arch_map (fun i k => if i / 16 = b ∧ s.cellPresent i then k.bump mk cl priv cls e 8 else k) ?_ d
    intro i k
    split
    · exact Cell.bump_arch ..
    · rfl

/-- Counting events changes counters only. -/
theorem State.count_alike (s : State) (b mk cl priv cls : Nat) (es : List Ev) :
    (s.count b mk cl priv cls es).Alike s := by
  unfold State.count
  induction es generalizing s with
  | nil => exact .refl s
  | cons e es ih => exact (ih _).trans (State.countOne_alike ..)

theorem State.useSlots_alike (s : State) (c n : Nat) : (s.useSlots c n).Alike s := by
  unfold State.useSlots
  split
  · exact ⟨fun _ => rfl, rfl⟩
  · exact ⟨fun d => s.arch_setCell c d _ rfl, rfl⟩

theorem State.replay_alike (s : State) (c : Nat) (u : Upset) (κ : Kind) (priv : Nat) :
    (s.replay c u κ priv).Alike s := by
  unfold State.replay; dsimp only
  split
  · exact .refl s
  · exact (State.useSlots_alike ..).trans ((State.count_alike ..).trans (State.count_alike ..))

/-! ## Retirement -/

/-- The retirement of an instruction changes counters and the wait only. -/
theorem State.retire_alike (s : State) (c : Nat) (κ : Kind) (priv : Nat) (idle : Bool) (evs : List Ev) :
    (s.retire c κ priv idle evs).Alike s := by
  unfold State.retire
  exact (State.useSlots_alike ..).trans ((State.count_alike ..).trans ((State.count_alike ..).trans
    ⟨fun d => s.arch_setCell c d _ rfl, rfl⟩))

theorem filter_snoops (l : List Nat) : ((l.map OutMsg.snoop).filter fun m => !m.isSnoop) = [] := by
  induction l with
  | nil => rfl
  | cons x l ih => simp [OutMsg.isSnoop]

theorem State.recall_alike (s : State) (pa n : Nat) : (s.recall pa n).Alike s := by
  unfold State.recall; dsimp only
  split
  · exact .refl s
  · refine ⟨fun _ => rfl, ?_⟩
    unfold State.rest
    simp only [List.filter_append, filter_snoops, List.append_nil]

theorem State.recallEntries_alike (s : State) (l : List Nat) : (s.recallEntries l).Alike s := by
  unfold State.recallEntries
  induction l generalizing s with
  | nil => exact .refl s
  | cons x l ih => exact (ih _).trans (State.recall_alike ..)

theorem State.recallPieces_alike (s : State) (l : List Piece) : (s.recallPieces l).Alike s := by
  unfold State.recallPieces
  induction l generalizing s with
  | nil => exact .refl s
  | cons x l ih => exact (ih _).trans (State.recall_alike ..)

theorem Cell.hold_arch (k : Cell) (l : List Xent) : (l.foldl Cell.hold k).arch = k.arch := by
  induction l generalizing k with
  | nil => rfl
  | cons x l ih =>
    rw [List.foldl_cons, ih]
    unfold Cell.hold
    split <;> rfl

theorem State.holdXlat_alike (s : State) (b : Nat) (l : List Xent) : (s.holdXlat b l).Alike s := by
  refine ⟨fun d => s.arch_map (fun i k => if i / 16 = b then l.foldl Cell.hold k else k) (fun i k => ?_) d, rfl⟩
  split
  · exact Cell.hold_arch ..
  · rfl

theorem State.sample_alike (s : State) (c : Nat) (k : Cell) (insn : BitVec 64) (ps : List Piece) (ret rep : Bool) :
    (s.sample c k insn ps ret rep).Alike s := by
  unfold State.sample
  split
  · exact .refl s
  · split
    · exact .refl s
    · refine ⟨fun d => s.arch_setCell c d _ ?_, rfl⟩
      split <;> rfl

/-- What follows an instruction changes counters, samples, cached translations and snoops only. -/
theorem State.afterRun_alike (s t : State) (c : Nat) (rs ws : List Piece) (ret rep : Bool) :
    (s.afterRun t c rs ws ret rep).Alike t := by
  unfold State.afterRun; dsimp only
  refine State.Alike.trans (t := State.sample _ c (s.cell c) (s.insnWord c) (rs ++ ws) ret rep) ⟨fun _ => rfl, rfl⟩ ?_
  exact (State.sample_alike ..).trans ((State.holdXlat_alike ..).trans
    ((State.recallPieces_alike ..).trans (State.recallEntries_alike ..)))

/-- What an instruction leaves whose effect is a next state. -/
theorem State.finish_next_alike (s : State) (c : Nat) (κ : Kind) (idle rep : Bool) (t : State) (evs : List Ev)
    (rs ws : List Piece) : (s.finish c κ idle rep (.next t evs rs ws)).Alike t := by
  simp only [State.finish]
  exact (State.afterRun_alike ..).trans (State.retire_alike ..)

/-- What an instruction leaves that raises an exception. -/
theorem State.finish_exc_alike (s : State) (c : Nat) (κ : Kind) (idle rep : Bool) (cause : BitVec 8) (addr : Word) :
    (s.finish c κ idle rep (.exc cause addr)).Alike (s.raise c cause addr) := by
  simp only [State.finish]
  exact State.afterRun_alike ..

/-! ## Issue -/

/-- What one instruction without an error does on a cell that can run it. -/
theorem State.issueAs_ready (s : State) (c : Nat) (u : Upset) (κ : Kind) (idle : Cell → Bool) (f : State → Cell → Eff)
    (h : s.Ready c) (hu : Unhurt u) :
    s.issueAs c u κ idle f =
      .next ((s.finish c κ (idle (s.cell c)) (u.parity != 0) (f s (s.cell c))).replay c u κ (s.cell c).priv) := by
  obtain ⟨hp, hb, hc⟩ := hu
  simp only [State.issueAs, h.1, hb, hc, State.meets, h.2, hitPiece, State.readCorrected, Bool.not_true,
    Bool.false_eq_true, if_false, Nat.not_le.mpr hp]

theorem CellOnly.alike {s t t' : State} {c : Nat} {k : Cell} (h : CellOnly s t c k) (g : t'.Alike t) :
    CellOnly s t' c k :=
  ⟨(g.1 c).trans h.1, fun d hd => (g.1 d).trans (h.2.1 d hd), g.2.trans h.2.2⟩

theorem CellOnly.setCell (s : State) (c : Nat) (k : Cell) : CellOnly s (s.setCell c k) c k :=
  ⟨by rw [State.cell_setCell], fun d hd => by rw [State.cell_setCell_other _ _ _ _ hd], rfl⟩

/-- An instruction whose effect is a next state. -/
theorem State.issueAs_next {s : State} {c : Nat} {u : Upset} {κ : Kind} {idle : Cell → Bool} {f : State → Cell → Eff}
    {t : State} {evs : List Ev} {rs ws : List Piece} (h : s.Ready c) (hu : Unhurt u)
    (hf : f s (s.cell c) = .next t evs rs ws) :
    ∃ t', s.issueAs c u κ idle f = .next t' ∧ t'.Alike t := by
  rw [State.issueAs_ready s c u κ idle f h hu, hf]
  exact ⟨(s.finish c κ (idle (s.cell c)) (u.parity != 0) (.next t evs rs ws)).replay c u κ (s.cell c).priv, rfl,
    (State.replay_alike _ c u κ _).trans (s.finish_next_alike ..)⟩

/-- An instruction whose effect lies in its cell. -/
theorem State.issueAs_cell {s : State} {c : Nat} {u : Upset} {κ : Kind} {idle : Cell → Bool} {f : State → Cell → Eff}
    {k : Cell} {evs : List Ev} (h : s.Ready c) (hu : Unhurt u) (hf : f s (s.cell c) = .cell s c k evs) :
    ∃ t, s.issueAs c u κ idle f = .next t ∧ CellOnly s t c k.adv :=
  let ⟨t, ht, ha⟩ := State.issueAs_next h hu hf
  ⟨t, ht, (CellOnly.setCell s c k.adv).alike ha⟩

/-- An instruction without a guard, under the same conditions. -/
theorem State.issue_cell {s : State} {c : Nat} {u : Upset} {κ : Kind} {f : State → Cell → Eff} {k : Cell}
    {evs : List Ev} (h : s.Ready c) (hu : Unhurt u) (hf : f s (s.cell c) = .cell s c k evs) :
    ∃ t, s.issue c u κ f = .next t ∧ CellOnly s t c k.adv :=
  State.issueAs_cell h hu hf

/-- The same for an instruction that also needs predicates no outstanding gather will write. -/
theorem State.issueP_cell {s : State} {c : Nat} {u : Upset} {κ : Kind} {ps : List (BitVec 4)} {f : State → Cell → Eff}
    {k : Cell} {evs : List Ev} (h : s.Ready c) (hu : Unhurt u) (hp : (s.cell c).predBusy ps = false)
    (hf : f s (s.cell c) = .cell s c k evs) : ∃ t, s.issueP c u κ ps f = .next t ∧ CellOnly s t c k.adv := by
  unfold State.issueP
  rw [hp]
  exact State.issue_cell h hu hf

/-- The same for an instruction under a guard. -/
theorem State.issueG_cell {s : State} {c : Nat} {u : Upset} {κ : Kind} {pg : BitVec 4} {pn : Bool}
    {ps : List (BitVec 4)} {f : State → Cell → Eff} {k : Cell} {evs : List Ev} (h : s.Ready c) (hu : Unhurt u)
    (hp : (s.cell c).predBusy (pg :: ps) = false) (hf : f s (s.cell c) = .cell s c k evs) :
    ∃ t, s.issueG c u κ pg pn ps f = .next t ∧ CellOnly s t c k.adv := by
  simp only [State.issueG, hp, Bool.false_eq_true, if_false]
  exact State.issueAs_cell (idle := fun k => k.guard pg pn == 0) h hu hf

/-- An instruction that raises an exception. -/
theorem State.issueAs_exc {s : State} {c : Nat} {u : Upset} {κ : Kind} {idle : Cell → Bool} {f : State → Cell → Eff}
    {cause : BitVec 8} {addr : Word} (h : s.Ready c) (hu : Unhurt u) (hf : f s (s.cell c) = .exc cause addr) :
    ∃ t, s.issueAs c u κ idle f = .next t ∧ t.Alike (s.raise c cause addr) := by
  rw [State.issueAs_ready s c u κ idle f h hu, hf]
  exact ⟨(s.finish c κ (idle (s.cell c)) (u.parity != 0) (.exc cause addr)).replay c u κ (s.cell c).priv, rfl,
    (State.replay_alike _ c u κ _).trans (s.finish_exc_alike ..)⟩

@[simp] theorem Eff.legal_true (e : Eff) : Eff.legal true e = e := rfl

@[simp] theorem Eff.legal_false (e : Eff) : Eff.legal false e = .exc cIllegal 0 := rfl

end Sys2Proof.Machine
end

