-- ==== Sys2Proof/Laws/Vector.lean ====
section
/-! SUPPORT. Elements of vector registers and tiles, written and read. -/

namespace Sys2Proof.Machine

theorem packElems_lt (b : Nat) (f : Nat → Nat) (n : Nat) : packElems b f n < 2 ^ (b * n) := by
  induction n with
  | zero => simp [packElems]
  | succ n ih =>
    have h : f n % 2 ^ b < 2 ^ b := Nat.mod_lt _ (Nat.two_pow_pos b)
    simp only [packElems, Nat.shiftLeft_eq, Nat.mul_succ, Nat.pow_add]
    have h2 : f n % 2 ^ b + 1 ≤ 2 ^ b := h
    have := Nat.mul_le_mul_right (2 ^ (b * n)) h2
    rw [Nat.add_mul, Nat.one_mul, Nat.mul_comm (2 ^ b)] at this
    omega

/-- Element `i` of packed elements. -/
theorem elemOf_packElems (b : Nat) (f : Nat → Nat) (n i : Nat) (h : i < n) :
    elemOf b (packElems b f n) i = f i % 2 ^ b := by
  induction n with
  | zero => omega
  | succ n ih =>
    simp only [packElems, elemOf, Nat.shiftLeft_eq, Nat.shiftRight_eq_div_pow] at ih ⊢
    by_cases hi : i = n
    · subst hi
      rw [Nat.add_mul_div_right _ _ (Nat.two_pow_pos _), Nat.div_eq_of_lt (packElems_lt b f i), Nat.zero_add,
        Nat.mod_mod]
    · have hlt : i < n := by omega
      have e : 2 ^ (b * n) = 2 ^ (b * (n - i - 1)) * 2 ^ b * 2 ^ (b * i) := by
        rw [← Nat.pow_add, ← Nat.pow_add]
        congr 1
        have : n = (n - i - 1) + 1 + i := by omega
        conv_lhs => rw [this]
        ring
      rw [e, ← Nat.mul_assoc, Nat.add_mul_div_right _ _ (Nat.two_pow_pos _), ← Nat.mul_assoc,
        Nat.add_mul_mod_self_right]
      exact ih hlt

/-- An element of a register written element by element (R85). -/
theorem vecElem_vecOf (b : Nat) (f : Nat → Nat) (i : Nat) (hb : b * (8192 / b) ≤ 8192) (h : i < 8192 / b) :
    vecElem b (vecOf b f) i = f i % 2 ^ b := by
  have hl : packElems b f (8192 / b) < 2 ^ 8192 :=
    Nat.lt_of_lt_of_le (packElems_lt b f _) (Nat.pow_le_pow_right (by decide) hb)
  rw [vecElem, vecOf, BitVec.toNat_ofNat, Nat.mod_eq_of_lt hl, elemOf_packElems _ _ _ _ h]

/-- Elements written under a guard (R95, R96, R102). -/
theorem vecElem_vecWrite (b lo n : Nat) (g : PReg) (mz : Bool) (old : VReg) (res : Nat → Nat) (i : Nat)
    (hb : b * (8192 / b) ≤ 8192) (h : i < 8192 / b) :
    vecElem b (vecWrite b lo n g mz old res) i =
      (if lo ≤ i ∧ i < lo + n then
        if guardOn g b i then res (i - lo) else if mz then 0 else vecElem b old i
      else vecElem b old i) % 2 ^ b :=
  vecElem_vecOf b _ i hb h

end Sys2Proof.Machine
end

