-- ==== Sys2Proof/Tests/Slice0.lean ====
section
/-! SUPPORT. Tests of decoding, of well-formedness and of single commands; and for each statement concrete states and
operands that meet the hypotheses of its clauses. Expected values of tests are computed by hand from the rules cited. -/

namespace Sys2Proof.Tests
open Sys2Proof Sys2Proof.Machine

set_option Elab.async false

/-! ## States -/

/-- Page tables in stack 0: virtual addresses from 0 reach stack 0, from 1 GiB the shared SRAM of block 0 and
the local stores of its cells, from 2 GiB host memory. -/
def tables : List Host.Cell :=
  [(0x1000, 0x01), (0x1001, 0x20), (0x2000, 0x01), (0x2001, 0x30), (0x3000, 0x3F), (0x3008, 0x3F), (0x300D, 0x20),
    (0x3010, 0x3F), (0x3016, 0x08)]

/-- A module that runs: partition 0 with region 0, its context 0 Resident. -/
def live : State :=
  let r := State.reset
  { r with
    board := { r.board with inputOn := true, vddSb := true, lampReady := true, railsUp := true, pwrGood := true
                            pwrEn := true, coldReset := false, coolantStop := false, hostPerst := false, cxlUp := true
                            flit256 := true }
    units := { r.units with hbm := 0xFFFFFFFF, iods := 0xF, dimms := List.replicate 12 64
                            edges := List.replicate 12 { up := true, frameReplays := 0, retraining := false, failures := 0 } }
    mem := { r.mem with cells := tables, granules := [(0, { owner := .ctx 0 0, scrub := .clean })] }
    parts := r.parts.set 0 { Part.reset with
      inService := true, regions := 1, pgen := 1, weight := 1
      ctxs := (List.replicate 16 { Ctx.reset with cgen := 1 }).set 0 { Ctx.reset with
        cgen := 1, st := .resident, ptroot := 0x1000, svec := 0x100, host := true, quantum := 500, key := some { enc := 1, int := 2 } } }
    mail := { r.mail with ready := true, negotiated := true, level := 0x10, enable := true, cmplBase := 0x10000 } }

/-- Cell 0 runs item 5 of it. -/
def withCell (k : Cell) : State :=
  { live with cells := [(0, { k with run := some { part := 0, ctx := 0, order := 0, item := 5 }, ptroot := 0x1000 })] }

def user : Cell := { Cell.reset with svec := 0x100, pc := 0x80 }
def sup : Cell := { user with sup := true }

/-- A word of 64 bits of memory at an address, for addresses above the page tables. -/
def withWord (s : State) (a : Nat) (w : Nat) : State :=
  { s with mem := { s.mem with cells := Cells.setAll s.mem.cells a (leBytes 8 w) } }

/-- The state that a command answers. -/
def after (i : Instr) (s : State) : State :=
  match exec i s with
  | .next t => t
  | _ => s

/-- A state in which no translation is held. -/
def unheld (s : State) : State := { s with cells := s.cells.map fun x => (x.1, { x.2 with tlb := [] }) }

/-! ## Decoding -/

/-- `TMMA` and `TWIN` of the worked example after R140; `ADD`, `ADDI`, `BEQ`, `CSRR`, `VADD`, `LD` and `NOP` from R95 to
R98, bit by bit. -/
theorem test_decode :
    decodeCell 0 0x6000_004C_C000_0000 = some (.tmma 0 ⟨0, false, 0, 0, 1, 3, 3, 0, 0, false⟩ .none_) ∧
    decodeCell 0 0x6100_0280_0900_0000 = some (.twin 0 ⟨0, 0, 1, false, true, 18⟩ .none_) ∧
    decodeCell 0 0x0100_C220_0000_0000 = some (.add 0 ⟨3, 1, 2⟩ .none_) ∧
    decodeCell 0 0x1800_45FF_FFFF_FFFF = some (.addi 0 ⟨1, 2, -1⟩ .none_) ∧
    decodeCell 0 0x2000_4400_0000_0004 = some (.beq 0 ⟨1, 2, 4⟩ .none_) ∧
    decodeCell 0 0x3000_4000_0000_0005 = some (.csrr 0 ⟨1, 5⟩ .none_) ∧
    decodeCell 0 0x4018_8640_0010_0000 = some (.vadd 0 ⟨1, true, 2, 3, 4, 0, 0, 0, false, true, 0⟩ .none_) ∧
    decodeCell 0 0x7000_440C_0000_0008 =
      some (.ld 0 ⟨0, false, 1, 2, 0, 0xC, 0, 0, false, false, false, 8⟩ .none_) ∧
    decodeCell 0 0x3B00_0000_0000_0000 = some (.nop 0 .none_) := by decide +kernel

/-- Reserved opcodes, and a reserved field that is not zero (R99). -/
theorem test_decode_refuses :
    decodeCell 0 0 = none ∧ decodeCell 0 0xFF00_0000_0000_0000 = none ∧ decodeCell 0 0x3B00_0000_0000_0001 = none := by
  decide +kernel

/-- No row of the table gives bits. -/
theorem test_table_word : ∀ n ∈ [0, 8, 32, 64], decodeTableWord n 0x0100_C220_0000_0000 = none := by decide +kernel

/-! ## Well-formed commands: an ill-formed term for each check -/

def pkt : Packet :=
  { ptype := 4, dstEp := 1, srcEp := 2, hops := 8, dstPart := 0, dstCtx := 0, dstPgen := 1, dstCgen := 1, srcPart := 0
    srcCtx := 0, srcPgen := 1, srcCgen := 1, obj := 0, payload := [] }
/-- `FTYPE` 5 is reserved. -/
def flit : Flit := { bytes := leBytes 256 5, fecCorr := 0, fecUncorr := [] }
def long : Packet := { pkt with payload := List.replicate 4097 0 }
def msg : CoolantMsg := { inlet := 100, outlet := 200, flow := 300, crflags := 0, seq := 1 }
/-- A DIMM of 64 GiB of R174 behind a closed clamp. -/
def dimm : DimmFinding :=
  { closed := true, present := true, mrdimm := true, rate := 8000, subchannels := 2, deviceBits := 4, gib := 64, mw := 18000
    trains := true, spd := 0 }
def finding : StartFindings :=
  { selfTestOk := true, bistFailed := [], stacksOk := BitVec.allOnes 32, dimms := List.replicate 12 dimm
    edgesOk := BitVec.allOnes 12, sensorsFailed := [], trimReadable := true, coeffsReadable := true, repaired := []
    firstBeat := BitVec.allOnes 6, ctlAOk := true, damaged := [], recordBad := 0, trainGood := true }
def reading : InputReading := { mv := 50000, ma := 1000, also := 0 }
def alone : Conn := { tr := .mctp, session := none }

theorem test_wf_cells : ∀ i ∈ [Instr.add 2048 ⟨1, 2, 3⟩ .none_, .ld 0 ⟨0, false, 1, 2, 0, 0xC, 0, 0, false, false, false, 8⟩ { Upset.none_ with parity := 5 },
    .vgatherpComplete 0 65536 .none_, .mcopyComplete 2048 0 .none_, .itemEnding 2048, .sampleSpill 2048], i.wf = false := by
  decide +kernel

theorem test_wf_units : ∀ i ∈ [Instr.thermalTrip 192 0 reading, .droop 8 false, .droopRecovery 8, .dimmLost 12 .pmicFault,
    .trimUpdate 0 false 256, .trimUpdate 8 false 1, .firstHeartbeatTimeout 256, .sramLineRefetch 128 0 true,
    .sramLineRefetch 0 65536 true, .blockFence 128 .lastCell, .stackLost 32, .patrolScrub (2 ^ 52) .clean,
    .granuleZeroed (2 ^ 31), .tierPromotion 8 .none_, .edgeReplay 12 1, .edgeRetrainComplete 12 true,
    .regionControllerFault 8, .iodFabricError 4, .frameTick { resetSnapshot with rails := [] },
    .frameTick { resetSnapshot with regionAct := [] }, .frameTick { resetSnapshot with regionAct := List.replicate 8 [] },
    .frameTick { resetSnapshot with iodAct := [] }, .frameTick { resetSnapshot with iodAct := List.replicate 4 [] },
    .frameTick { resetSnapshot with temps := [] }, .frameTick { resetSnapshot with transitIod := [] },
    .coldStart { finding with dimms := [] }, .warmStart 0 { finding with sensorsFailed := [192] }], i.wf = false := by
  decide +kernel

theorem test_wf_mailbox : ∀ i ∈ [Instr.hostMemRead (2 ^ 64) 0 false .none_, .hostMemRead 0 (2 ^ 32) false .none_,
    .hostMemWrite (2 ^ 64) [] false, .biSnoopTimeout (2 ^ 46) 0 0, .biSnoopTimeout 0 8 0, .biSnoopTimeout 0 0 16,
    .cxlCacheTimeout 8 0, .slotPost 1024, .slotWrite (2 ^ 18) [], .slotTake 1024, .hdmCommit 8 0 0, .hdmCommit 0 (2 ^ 64) 0,
    .hdmCommit 0 0 (2 ^ 64), .registerWrite (.bar0 65536) 0, .registerWrite (.bar4 65536) 0, .registerWrite (.bar 6) 0,
    .hello 1024, .submit 1024, .fwStage 1024 [], .residencySelect 8, .itemAdmit 8, .teardownDrainComplete 8 0,
    .teardownDrainComplete 0 16], i.wf = false := by decide +kernel

theorem test_wf_fabric : ∀ i ∈ [Instr.portDetect 36, .portDetect 128, .packetRoute 4 none pkt, .collOpStart 65536 .none,
    .panSlotGrant 4 .none, .beaconTrigger 16 0, .beaconTimeout 16], i.wf = false := by decide +kernel

theorem test_wf_packet : ∀ i ∈ [Instr.chdr long .none, .packetIngress 0 long, .flitReceive 0 { flit with bytes := [] }],
    i.wf = false := by decide +kernel

theorem test_wf_sideband : ∀ i ∈ [Instr.coolantReport { msg with inlet := 32768 } .good,
    .coolantReport { msg with outlet := -32769 } .good, .coolantReport { msg with flow := 65536 } .good, .rackCeiling 65536,
    .fabRead 4 0 1, .fabRead 0 (2 ^ 24) 1, .fabRead 0 0 256, .fabWrite 4 0 [0], .trayFwCommit 256, .telemRead (2 ^ 64),
    .iodReset 4, .getPldmVersion 64, .getPldmCommands 64, .getPdr (2 ^ 32), .getSensorReading 65536,
    .getStateSensorReadings 65536, .passComponentTable [256], .updateComponent 256, .unsupportedPldmCommand 64 0,
    .unsupportedPldmCommand 0 256], i.wf = false := by decide +kernel

theorem test_wf_security : ∀ i ∈ [Instr.getMeasurements alone 256 false, .getCertificate alone 8 0 0,
    .getCertificate alone 0 (2 ^ 32) 0, .challenge alone 8, .cosigFetch alone 1 (2 ^ 32) 0, .pqChainGet alone 0 0 (2 ^ 32),
    .debugToken alone 1 (2 ^ 32) [], .keyProg alone .ioLink 2 0, .kSetGo alone .ioLink 0 8, .kSetStop alone .ioLink 2 0,
    .chunkSend alone 0 65536 false [], .chunkGet alone 0 65536, .cdatTableAccess 65536], i.wf = false := by decide +kernel

/-- Commands at the upper end of their ranges. -/
theorem test_wf_accepts : ∀ i ∈ [Instr.add 2047 ⟨1, 2, 3⟩ .none_, .thermalTrip 191 0 reading, .slotPost 1023, .portDetect 99,
    .frameTick resetSnapshot, .coldStart finding, .hostMemRead (2 ^ 64 - 1) (2 ^ 32 - 1) true .none_, .chdr pkt .none, .flitReceive 99 flit,
    .coolantReport { msg with inlet := -32768, outlet := 32767, flow := 65535 } .good, .keyProg alone .cachemem 1 7],
    i.wf = true := by decide +kernel

/-! ## Instructions of a cell: small results -/

def two (a b : Word) : Cell := (user.ws 1 a).ws 2 b
def s321 : SOp := ⟨3, 1, 2⟩

theorem test_add_wraps : ((after (.add 0 s321 .none_) (withCell (two (BitVec.allOnes 64) 2))).cell 0).rs 3 = 1 ∧
    ((after (.add 0 s321 .none_) (withCell (two 1 2))).cell 0).pc = 0x88 := by decide +kernel

/-- R100: division by zero, and the most negative number by −1. -/
theorem test_div_corners :
    ((after (.div 0 s321 .none_) (withCell (two 7 0))).cell 0).rs 3 = BitVec.allOnes 64 ∧
    ((after (.div 0 s321 .none_) (withCell (two (BitVec.intMin 64) (BitVec.allOnes 64)))).cell 0).rs 3 = BitVec.intMin 64 := by
  decide +kernel

theorem test_rem_sign : ((after (.rem 0 s321 .none_) (withCell (two (BitVec.ofInt 64 (-7)) 2))).cell 0).rs 3 = BitVec.ofInt 64 (-1) := by
  decide +kernel

theorem test_mulh : ((after (.mulh 0 s321 .none_) (withCell (two (BitVec.ofInt 64 (-1)) 1))).cell 0).rs 3 = BitVec.allOnes 64 ∧
    ((after (.mulhu 0 s321 .none_) (withCell (two (BitVec.ofInt 64 (-1)) 2))).cell 0).rs 3 = 1 := by decide +kernel

theorem test_s0_discards : ((after (.add 0 ⟨0, 1, 2⟩ .none_) (withCell (two 1 2))).cell 0).x = (two 1 2).x ∧
    ((after (.add 0 ⟨0, 1, 2⟩ .none_) (withCell (two 1 2))).cell 0).pc = 0x88 := by decide +kernel

theorem test_lui : ((after (.lui 0 ⟨3, 0, -1⟩ .none_) (withCell user)).cell 0).rs 3 = BitVec.ofInt 64 (-(2 ^ 23)) := by decide +kernel

theorem test_beq : ((after (.beq 0 ⟨1, 2, -2⟩ .none_) (withCell (two 4 4))).cell 0).pc = 0x70 ∧
    ((after (.beq 0 ⟨1, 2, -2⟩ .none_) (withCell (two 4 5))).cell 0).pc = 0x88 := by decide +kernel

theorem test_jalr_links : ((after (.jalr 0 ⟨1, 1, 16⟩ .none_) (withCell (two 0x1000 0))).cell 0).pc = 0x1010 ∧
    ((after (.jalr 0 ⟨1, 1, 16⟩ .none_) (withCell (two 0x1000 0))).cell 0).rs 1 = 0x88 := by decide +kernel

/-- R138: the entry of an exception; R137: code 0x0A. -/
theorem test_scall : let k := (after (.scall 0 .none_) (withCell user)).cell 0
    k.epc = 0x80 ∧ k.ecause = 0x0A ∧ k.sup = true ∧ k.ppriv = false ∧ k.pc = 0x100 := by decide +kernel

theorem test_sret : let k := (after (.sret 0 .none_) (withCell { sup with epc := 0x200, ppriv := false })).cell 0
    k.pc = 0x200 ∧ k.sup = false := by decide +kernel

theorem test_csrr_cell : ((after (.csrr 0 ⟨1, 0x012⟩ .none_) (withCell user)).cell 0).rs 1 = 5 := by decide +kernel

/-- FP32: 1 + 2 = 3 in lane 0; unguarded lanes are zeroed with `MZ` (R96, R101). -/
theorem test_vadd : let k := (((user.wv 1 0x3F800000).wv 2 0x40000000).wv 3 (BitVec.allOnes 8192)).wp 1 1
    ((after (.vadd 0 ⟨1, false, 3, 1, 2, 0, 0, 0, false, true, 0⟩ .none_) (withCell k)).cell 0).rv 3 = 0x40400000 := by
  decide +kernel

theorem test_viota : vecElem 32 (((after (.viota 0 ⟨0, false, 3, 0, 0, 0, 0xB, 1, false, false, 0⟩ .none_)
    (withCell (two 100 0))).cell 0).rv 3) 255 = 355 := by decide +kernel

/-- A signed load takes its bytes in little-endian order and extends the sign (R8, R115). -/
theorem test_ld : ((after (.ld 0 ⟨0, false, 3, 1, 0, 0xA, 0, 0, false, false, false, 2⟩ .none_)
    (withWord (withCell (two 0x4000 0)) 0x4000 0xFF80_1234)).cell 0).rs 3 = BitVec.ofInt 64 (-128) := by decide +kernel

theorem test_ld_misaligned : let k := (after (.ld 0 ⟨0, false, 3, 1, 0, 0xA, 0, 0, false, false, false, 1⟩ .none_)
    (withCell (two 0x4000 0))).cell 0
    k.ecause = 0x03 ∧ k.eaddr = 0x4001 := by decide +kernel

theorem test_st : let t := after (.st 0 ⟨0, false, 2, 1, 0, 0xB, 0, 0, false, false, false, 4⟩ .none_) (withCell (two 0x4000 0x11223344))
    Cells.get t.mem.cells 0x4004 = 0x44 ∧ Cells.get t.mem.cells 0x4007 = 0x11 ∧ Cells.get t.mem.cells 0x4008 = 0 := by
  decide +kernel

theorem test_amocas : let k := ((two 0x4000 9).ws 3 7)
    let t := after (.amocas 0 ⟨0, false, 3, 1, 2, 0xC, 0, 0, false, false, false, 0⟩ .none_) (withWord (withCell k) 0x4000 7)
    (t.cell 0).rs 3 = 7 ∧ Cells.get t.mem.cells 0x4000 = 9 := by decide +kernel

theorem test_translation_fault : let k := (after (.ldu 0 ⟨0, false, 3, 1, 0, 0xC, 0, 0, false, false, false, 0⟩ .none_)
    (withCell (two (2 ^ 50) 0))).cell 0
    k.ecause = 0x04 ∧ k.eaddr = 2 ^ 50 := by decide +kernel

/-! ## Witnesses: instructions of cells -/

theorem witness_step : ({ live with pending := [Instr.inputApplied] } : State).pending ≠ [] ∧ live.pending = [] := by
  decide +kernel

theorem witness_scalar : (withCell (two (BitVec.intMin 64) (BitVec.allOnes 64))).Ready 0 ∧
    (let k := (withCell (two (BitVec.intMin 64) (BitVec.allOnes 64))).cell 0
     k.rs s321.sa = BitVec.intMin 64 ∧ k.rs s321.sb = BitVec.allOnes 64) ∧
    (⟨3, 0, 1⟩ : IOp).sa = 0 ∧ (⟨3, 1, 1⟩ : IOp).sa ≠ 0 ∧ (31 : BitVec 5) ≠ 0 ∧ (1 : BitVec 5) ≠ 31 ∧
    (15 : BitVec 4) ≠ 0 ∧ (1 : BitVec 4) ≠ 15 := by decide +kernel

theorem witness_branches : (withCell (two 0x1000 4)).Ready 0 ∧
    ((withCell (two 0x1000 4)).cell 0).predBusy [(⟨15, 1⟩ : BPOp).p] = false ∧ (⟨1, 0, -1⟩ : IOp).sa = 0 ∧
    (((withCell (two 0x1000 4)).cell 0).rs 1 + BitVec.ofInt 64 ((⟨3, 1, 8⟩ : IOp).imm.toInt)).toNat % 8 = 0 ∧
    (((withCell (two 0x1000 4)).cell 0).rs 2 + BitVec.ofInt 64 ((⟨3, 2, 0⟩ : IOp).imm.toInt)).toNat % 8 ≠ 0 := by
  decide +kernel

theorem witness_csr : (withCell user).Ready 0 ∧ (withCell sup).Ready 0 ∧ ((withCell user).cell 0).csrReadFault 0 0x012 = none ∧
    csrRights 0x001 = none ∧ csrRights 0xFFF = none ∧ ((withCell user).cell 0).sup = false ∧ ((withCell sup).cell 0).sup = true ∧
    ((withCell user).cell 0).csrWriteFault 0x000 = none ∧ ((withCell sup).cell 0).csrWriteFault 0x020 = none ∧
    csrIllegal 0x000 1 = false ∧ csrIllegal 0x117 1 = false ∧ pmselReserved 0x60 = true := by decide +kernel

theorem witness_exception : ((withCell user).cell 0).sup = false ∧ ((withCell user).cell 0).svec ≠ 0 ∧
    ((withCell sup).cell 0).sup = true ∧ ((withCell Cell.reset).cell 0).svec = 0 := by decide +kernel

def faulted : Cell := { user with faults := [{ gather := true, cause := 0x04, addr := 0x4000 }] }

theorem witness_system : (withCell user).Ready 0 ∧ (withCell sup).Ready 0 ∧ decodeCell 0 0 = none ∧
    ((withCell { sup with ppriv := true }).cell 0).ppriv = true ∧ ((withCell sup).cell 0).faults = [] ∧
    ((withCell sup).cell 0).cancel = false ∧ ((withCell sup).cell 0).preempt = false ∧ ((withCell sup).cell 0).async = [] ∧
    (withCell faulted).canIssue 0 = true ∧ ((withCell faulted).cell 0).faults ≠ [] ∧
    (withCell { user with cancel := true }).canIssue 0 = true ∧ (withCell { user with preempt := true }).canIssue 0 = true := by
  decide +kernel

def waitOp : WaitsigOp := { a := 3, b := 1, c := 2, any := false, clr := true, tmo := 4, pd := 1 }

theorem witness_forced_stop :
    (let s := withCell { user with requested := true }
     s.cellPresent 0 = true ∧ s.clocksRun = true ∧ (s.cell 0).run.isSome = true ∧ (s.cell 0).requested = true ∧
       (s.cell 0).ended = none ∧ (s.cell 0).stopped = false) ∧
    ((withCell user).cell 0).requested = false ∧
    (let s := withCell { user with wait := some (waitOp, 0) }
     s.canIssue 0 = true ∧ (s.cell 0).wait = some (waitOp, 0) ∧ waitOp.tmo ≠ 0) := by decide +kernel

def vop (et : BitVec 4) (aux : BitVec 20) : VOp :=
  { pg := 1, pn := true, vd := 2, va := 3, vb := 0, vc := 0, et, ss := 0, bs := false, mz := true, aux }

theorem witness_vector_arithmetic : (withCell user).Ready 0 ∧ ((withCell user).cell 0).predBusy [(vop 0xB 0).pg] = false ∧
    (∀ et ∈ [0, 1, 2, 8, 0xA, 0xB, 0xC], etArith et = true) ∧ (vop 0xB 0).bOk = true ∧
    ({ vop 0xB 0 with bs := true, ss := 7 } : VOp).bOk = true ∧ (vop 0xB 0).aux = 0 ∧ (vop 0xB 0).vc = 0 ∧
    3 ≤ (vop 0xB 0).et.toNat := by decide +kernel

/-- Element 15 of 16-bit elements under a guard of lane 7, in a part of elements 8 to 15, and beside it. -/
theorem witness_vector_write : etReserved 0xD = false ∧ 511 < 8192 / etWidth 1 ∧ (8 ≤ 15 ∧ 15 < 8 + 8) ∧
    (0x80 : PReg).getLsbD (16 * 15 / 32) = true ∧ (0x80 : PReg).getLsbD (16 * 13 / 32) = false ∧ (7 < 8 ∨ 8 + 8 ≤ 7) ∧
    (16 < 8 ∨ 8 + 8 ≤ 16) := by decide +kernel

theorem witness_vector_elements : (2 ^ 16 - 1 < 2 ^ etWidth 0xA) ∧ fp32.decode 0x7FC00000 = .nan ∧ bf16.decode 0xFFFF = .nan ∧
    fp16.decode 0x7E00 = .nan ∧ fp32.decode 0 ≠ .nan ∧ bf16.decode 0x7F80 ≠ .nan ∧ fp16.decode 0x7C00 ≠ .nan := by decide +kernel

/-- One set of operands for each form: comparison, selection, conversion up and down, permutation, reduction,
approximate function. -/
theorem witness_vector_selection : (withCell user).Ready 0 ∧
    (let o : VOp := { vop 0xB 0x10000 with vd := 0, mz := false }
     o.vc = 0 ∧ ((withCell user).cell 0).predBusy [o.pg, BitVec.ofNat 4 o.auxHi] = false ∧ o.op3 < 7 ∧ o.vd = 0 ∧
       o.mz = false ∧ o.bOk = true ∧ o.auxIn 0xF0E00 = true) ∧
    (let o := vop 0x0 0x1000
     o.et.toNat < 0xD ∧ o.auxHi < 0xD ∧ o.part < partCount (etWidth 0) (etWidth o.auxHi) ∧ o.noB = true ∧ o.ss = 0 ∧
       o.auxIn 0xFF000 = true) ∧
    (let o := vop 0x1 0
     o.auxHi < 0xD ∧ o.part < partCount (etWidth 1) (etWidth o.auxHi) ∧ o.auxIn 0xFF000 = true) ∧
    (let o : VOp := { vop 0xB 0x400 with mz := false }
     etArith o.et.toNat = true ∧ o.op3 ≤ 2 ∧ o.mz = false ∧ o.noB = true ∧ o.ss = 0 ∧ o.auxIn 0xE00 = true) ∧
    (etFormat 2 = some fp16 ∧ etFloat 2 = true ∧ (vop 2 0).noB = true) := by decide +kernel

theorem witness_vector_lanes : (withCell user).Ready 0 ∧
    (let o := vop 0xC 0x7F
     etArith o.et.toNat = true ∧ o.lane < 8192 / 64 ∧ o.noB = true ∧ o.auxIn 0xFF = true ∧ o.ss = 0) ∧
    (({ vop 0xB 0xFF with va := 0 } : VOp).va = 0 ∧ (vop 0xB 0xFF).lane < 8192 / 32) ∧
    (let o : VOp := { vop 0xB 0 with va := 0 }
     o.va = 0 ∧ o.noB = true ∧ o.aux = 0) ∧
    (let o := vop 0 0x2000
     o.part < 2 ∧ o.noB = true ∧ o.auxIn 0xE000 = true) ∧
    (let o := vop 0xD 0
     (o.bs = true → o.vb = 0) ∧ o.aux = 0) ∧
    (let o := vop 0xD 0x10000
     etFormat o.auxHi = some bf16 ∧ o.auxHi ≤ 4 ∧ o.part < 64 / etWidth o.auxHi ∧ o.noB = true ∧ o.auxIn 0xFF000 = true) ∧
    (let o : VOp := { vop 0xB 0x5F800 with mz := false }
     o.mz = false ∧ o.auxIn 0xFFE00 = true ∧ o.vd.getLsbD 0 = false ∧ 8 ≤ 2 ^ (o.aux.toNat / 2 ^ 11 % 8) ∧
       o.aux.toNat / 2 ^ 14 + 1 ≤ 2 ^ (o.aux.toNat / 2 ^ 11 % 8) ∧ o.aux.getLsbD 9 = false ∧ o.noB = true) ∧
    (2 ≤ [TopKey.mk 1 1, TopKey.mk 2 2, TopKey.mk 3 3].length ∧ TopKey.mk 1 1 ∉ topSegment 0xB false 2 [⟨1, 1⟩, ⟨2, 2⟩, ⟨3, 3⟩]) := by
  decide +kernel

theorem witness_illegal_vector : (withCell user).Ready 0 ∧ etArith 3 = false ∧ etArith 0xD = false ∧ etInt 2 = false ∧
    etFloat 3 = false ∧ 0xD ≤ (vop 0xF 0).et.toNat ∧ (vop 0 0).et.toNat ≠ 0xD ∧ (vop 1 0).et.toNat ≠ 0 ∧ (vop 0 0).et.toNat ≠ 0xB ∧
    ({ vop 0xB 0 with vc := 1 } : VOp).vc ≠ 0 ∧ (vop 0xB 0).mz = true := by decide +kernel

def openTile (mode : BitVec 2) (pend : Bool) : Cell :=
  user.wstat 1 { win := 4, mode, auto := pend, ovf := false, pend }
def tmmaOp (et : BitVec 4) (scl : Bool) : TmmaOp :=
  { pg := 0, pn := false, td := 1, va := 2, vb := 3, fa := et, fb := et, qa := 0, qb := 0, scl }

theorem witness_matrix : (withCell (openTile 1 false)).Ready 0 ∧
    (let o : TwinOp := { td := 1, ss := 0, mode := 1, auto := true, immw := true, win := 7 }
     o.mode ≠ 3 ∧ (o.auto = true → o.mode = 1) ∧ (if o.immw then o.ss = 0 else o.win = 0)) ∧
    (((withCell (openTile 1 true)).cell 0).stat 1).isOpen = true ∧
    ((((withCell (openTile 1 true)).cell 0).stat 1).pend = true → (((withCell (openTile 1 true)).cell 0).stat 1).auto = true) ∧
    tmmaK 7 7 = some 32 ∧ tmmaK 8 8 = some 16 ∧ tmmaK 1 2 = some 8 ∧ tmmaK 0 0 = some 4 ∧
    ((withCell (openTile 1 false)).cell 0).predBusy [(tmmaOp 7 true).pg] = false ∧
    ((tmmaOp 7 true).fa.toNat ≠ 0 ∧ (tmmaOp 7 true).fa.toNat ≠ 1 ∧ (tmmaOp 7 true).fa.toNat ≠ 2) ∧
    ((tmmaOp 0 false).qa = 0 ∧ (tmmaOp 0 false).qb = 0) ∧ (3 < 4) ∧
    (let st := ((withCell (openTile 1 false)).cell 0).stat 1
     ¬(st.isOpen = false ∨ ((tmmaOp 8 false).fa.toNat = 8 ∧ st.mode = 2) ∨ (st.pend = true ∧ (tmmaOp 8 false).scl = false))) ∧
    (let k := (withCell (openTile 2 false)).cell 0
     ((tmmaOp 8 false).fa.toNat = 8 ∧ (k.stat 1).mode = 2) ∧ k.sup = false ∧ k.svec ≠ 0) ∧
    (((withCell user).cell 0).stat 1).isOpen = false ∧
    (xtalRows 0 false = some 4 ∧ etFormat 0 = some fp32 ∧ (15 : Nat) < 64 / 4) ∧ (xtalRows 7 true).isSome = true := by
  decide +kernel

/-- The forms of `witness_vector_selection`, `witness_vector_lanes` and `witness_matrix` in one state, with an open tile;
and operands that meet no error that stops, at the largest number of replays. -/
theorem witness_completion : (withCell (openTile 1 false)).Ready 0 ∧ Unhurt { Upset.none_ with parity := 3 } ∧
    (let k := (withCell (openTile 1 false)).cell 0
     k.predBusy [(vop 0 0).pg, BitVec.ofNat 4 (vop 0 0x10000).auxHi] = false ∧ k.predBusy [(vop 0 0).pg] = false ∧
       (k.stat 1).isOpen = true ∧ (k.stat 1).pend = false ∧ (k.stat 1).mode ≠ 2) ∧
    etArith 0xC = true ∧ (vop 0xC 0x7F).lane < 128 ∧ etFloat 2 = true ∧ (tmmaK (tmmaOp 7 true).fa.toNat 7).isSome = true ∧
    3 ≤ (tmmaOp 7 true).fa.toNat ∧ xtalRows 0 true = none ∧ xtalRows 7 true = some 32 ∧ 1 < 64 / 32 := by decide +kernel

theorem witness_tile_rows : (withCell user).Ready 0 := by decide +kernel

theorem witness_brine : ((2 ^ 63 - 1 < (BitVec.ofInt 64 (2 ^ 63 - 1)).toInt + (1 : BitVec 64).toInt) ∧
      ((BitVec.intMin 64).toInt + (-1 : BitVec 64).toInt < -2 ^ 63) ∧
      (-2 ^ 63 ≤ (3 : BitVec 64).toInt + (4 : BitVec 64).toInt)) ∧
    (brineSum 4 [.fin false 1 0, .fin true 3 0] 0 0).2 = 0 ∧ (brineSum 4 [.fin true 3 0, .fin false 1 0] 0 0).2 = 0 ∧
    (∀ v ∈ [FVal.fin false 1 0, .fin true 3 0], (contribution 4 v).2 = false) ∧ [FVal.fin false 1 0].length ≤ 524288 := by
  decide +kernel

theorem witness_brine_perm : [FVal.fin false 1 0, .fin true 3 0].Perm [.fin true 3 0, .fin false 1 0] := List.Perm.swap ..

theorem witness_brine_bounds : ((1 : Nat) : Rat) * (2 : Rat) ^ (3 : Int) < (2 : Rat) ^ (4 : Int) ∧
    (2 : Rat) ^ (4 : Int) ≤ ((1 : Nat) : Rat) * (2 : Rat) ^ (4 : Int) := by norm_num

/-! ### Memory -/

def mop (et : BitVec 4) (off : BitVec 24) : MOp :=
  { pg := 0, pn := false, d := 3, sb := 1, xi := 0, et, am := 0, sc := 0, nt := false, rel := false, acq := false, off }

def reader : Cell := two 0x4000 7

/-- The pieces of an access that meets no fault. -/
def okParts : MemRes → Bool
  | .ok _ => true
  | _ => false

def faultOf : MemRes → Option (BitVec 8 × Nat)
  | .fault c va => some (c, va)
  | _ => none

theorem witness_loads : (withCell reader).Ready 0 ∧ PlainForm (mop 0xC 8) False False False ∧
    scalarSize (mop 8 0).et = some 1 ∧ scalarSize (mop 0xC 0).et = some 8 ∧ scalarSize (mop 0 0).et = none ∧
    (((withCell reader).cell 0).address (mop 0xC 8)).toNat = 0x4008 ∧
    okParts ((withCell reader).memRange ((withCell reader).cell 0) .load 0x4008 8) = true ∧
    (((withCell reader).cell 0).address (mop 0xC 4)).toNat % 8 ≠ 0 ∧
    faultOf ((withCell (two (2 ^ 50) 0)).memRange ((withCell (two (2 ^ 50) 0)).cell 0) .load (2 ^ 50) 8) = some (0x04, 2 ^ 50) ∧
    okParts ((withCell reader).memRange ((withCell reader).cell 0) .load 0x4000 1024) = true ∧
    okParts ((withCell reader).memRange ((withCell reader).cell 0) .load 0x4000 768) = true ∧
    okParts ((withCell reader).memRange ((withCell reader).cell 0) .load 0x4000 64) = true ∧
    etReserved (mop 0xD 0).et.toNat = false ∧ (mop 0 0).d.toNat < 16 := by decide +kernel

theorem witness_stores : (withCell reader).Ready 0 ∧ PlainForm (mop 0xB 0) False False False ∧
    okParts ((withCell reader).memRange ((withCell reader).cell 0) .store 0x4000 4) = true ∧
    okParts ((withCell reader).memRange ((withCell reader).cell 0) .store 0x4000 64) = true ∧
    PlainForm { mop 0xC 0 with pg := 1, pn := true } True False False ∧ ((withCell reader).cell 0).predBusy [1] = false ∧
    okParts ((withCell reader).memParts ((withCell reader).cell 0) .store
      (((List.range 128).filter fun j => (((withCell reader).cell 0).guard 1 true).getLsbD (8 * j / 4)).map
        fun j => (0x4000 + 8 * j, 8))) = true := by decide +kernel

/-- A store into shared SRAM at the end of its line, and bytes in the line, beside it and elsewhere. -/
theorem witness_store_bytes : (withCell reader).memoryWf ∧ leBytes 8 1 ≠ [] ∧ (leBytes 8 1).length = 8 ∧
    (∀ i, i < 8 → place (sramBase + 0xF8 + i) = .shared 0 (0xF8 + i)) ∧
    (sramBase < sramBase + 0xF8 ∧ sramBase + 0x100 ≤ sramBase + 0x100) ∧
    ((sramBase + 0x100) / 256 ≠ (sramBase + 0xFF) / 256) ∧ 0x4000 < sramBase := by decide +kernel

theorem witness_atomics : (withCell reader).Ready 0 ∧ PlainForm { mop 0xC 0 with acq := true, rel := true } False True False ∧
    PlainForm { mop 0xC 0 with xi := 2 } False True True ∧ (4 ≤ 8 ∧ scalarSize 0xC = some 8) ∧
    (withCell reader).memRange ((withCell reader).cell 0) .store 0x4000 8 = .ok [{ va := 0x4000, pa := 0x4000, len := 8 }] ∧
    (withCell reader).feedPending { va := 0x4000, pa := 0x4000, len := 8 } = false ∧ place 0x4000 = .hbm 0 0x4000 ∧
    (withCell (two 0x80000000 7)).memRange ((withCell (two 0x80000000 7)).cell 0) .store 0x80000000 8 =
      .ok [{ va := 0x80000000, pa := hostBase, len := 8 }] ∧ place hostBase = .host 0 := by decide +kernel

def gop (am : BitVec 2) : MOp := { mop 0xB 0 with am, xi := 4, sc := 2, pg := 2 }
def gatherer : Cell := (reader.wp 2 5).wv 4 (3 + 2 ^ 64 * 7)

theorem witness_gather : (withCell gatherer).Ready 0 ∧ ((withCell gatherer).cell 0).predBusy [(gop 2).pg] = false ∧
    gatherSize (gop 2).et = some 4 ∧ (gop 2).am = 2 ∧
    (let s := withCell gatherer
     let k := s.cell 0
     let js := (List.range 256).filter fun j => (k.guard 2 false).getLsbD (4 * j / 4)
     let addr := fun j => ((k.rs 1).toNat + vecElem 32 (k.rv 4) j * 2 ^ 2) % 2 ^ 64
     js = [0, 2] ∧ (∀ j ∈ js, addr j % 4 = 0) ∧ okParts (s.memParts k .load (js.map fun j => (addr j, 4))) = true ∧
       okParts (s.memParts k .store (js.map fun j => (addr j, 4))) = true) := by decide +kernel

/-! ### Asynchronous work -/

/-- A descriptor of a gather (R119): tables at 0x10000, pages of 16 KiB, rows of 64 bytes, 4 lanes. -/
def descBytes : List Byte :=
  leBytes 8 0x10000 ++ leBytes 1 14 ++ leBytes 1 0 ++ leBytes 2 64 ++ leBytes 4 64 ++ leBytes 4 0 ++ leBytes 2 4 ++ leBytes 42 0

/-- The gather writes to the local store of cell 0: virtual address 1 GiB + 32 MiB. -/
def gatherCell : Cell := ((user.ws 1 0x42000000).ws 3 0x4000).wv 2 0
def gatherState : State :=
  let s := withCell gatherCell
  { s with mem := { s.mem with cells := Cells.setAll s.mem.cells 0x4000 descBytes } }
def gpOp : GatherpOp := { pg := 0, pn := false, a := 1, b := 2, c := 3, pd := 1 }
def gpDone (id : Nat) : Async :=
  ((after (.vgatherp 0 gpOp .none_) gatherState).cell 0).async.getD id
    { id := 0, gather := false, dst := 0, src := 0, len := 0, sig := none, l1 := 0, pgsz := 0, panel := 0, row := 0, stride := 0,
      offset := 0, lanes := 0, tier := false, idx := 0, guardMask := 0, pd := 0, sup := false }

theorem witness_vgatherp : gatherState.Ready 0 ∧ (gatherState.cell 0).inFlight true < 4 ∧ (gatherState.cell 0).inFlight false < 8 ∧
    okParts (gatherState.memRange (gatherState.cell 0) .load 0x4004 64) = true ∧ 0x4004 % 8 ≠ 0 ∧
    faultOf (gatherState.memRange (gatherState.cell 0) .load (2 ^ 50) 64) = some (0x04, 2 ^ 50) ∧ (gatherState.cell 0).predBusy [gpOp.pg, gpOp.pd] = false ∧
    (gatherState.cell 0).async = [] ∧ ((gatherState.cell 0).rs 3).toNat % 8 = 0 ∧
    gatherState.memRange (gatherState.cell 0) .load 0x4000 64 = .ok [{ va := 0x4000, pa := 0x4000, len := 64 }] ∧
    gatherDescOk descBytes = true ∧ gatherState.ownLocal 0 (gatherState.cell 0) (pageParts 0x42000000 256) = true ∧
    okParts (gatherState.memParts (gatherState.cell 0) .store (pageParts 0x42000000 256)) = true ∧
    ((withCell (user.ws 3 0x4004)).cell 0).rs 3 = 0x4004 := by decide +kernel

/-- Tables whose first entry is present but leads nowhere, and no tables. -/
theorem witness_vgatherp_complete :
    (let s := unheld (after (.vgatherp 0 gpOp .none_) gatherState)
     s.asyncOf 0 0 true = some (gpDone 0) ∧ (s.cell 0).ending = none ∧ (gpDone 0).lanes = 4 ∧
       (∀ i ∈ List.range 256, s.gatherLane (s.cell 0) (gpDone 0) i = .skip) ∧
       (let ps := s.gatherReads (s.cell 0) (gpDone 0)
        ps.any s.feedPending = false ∧ s.gatherHolds (s.cell 0) (fun b => decide (b.id < (gpDone 0).id)) false ps = false)) ∧
    (let s := withWord (unheld (after (.vgatherp 0 gpOp .none_) gatherState)) 0x10000 (2 ^ 45 + 1)
     let ps := s.gatherReads (s.cell 0) (gpDone 0)
     s.gatherLane (s.cell 0) (gpDone 0) 0 = .fault 0x04 (2 ^ 45) ∧ ps.any s.feedPending = false ∧
       s.gatherHolds (s.cell 0) (fun b => decide (b.id < (gpDone 0).id)) false ps = false) := by decide +kernel

def copyCell : Cell := ((user.ws 1 0x40001000).ws 2 0x4000).ws 3 0x40
def copyOp : McopyOp := { a := 1, b := 2, c := 3, sw := 1, bit := 63, sig := true }
def copying : State := unheld (after (.mcopy 0 copyOp .none_) (withCell copyCell))

theorem witness_mcopy : (withCell copyCell).Ready 0 ∧ ((withCell copyCell).cell 0).rs 3 = 0x40 ∧
    ((withCell copyCell).signalWord 0 ((withCell copyCell).cell 0) .store 0x40001000).isSome = true ∧
    ((withCell (user.ws 3 0x40000001)).cell 0).rs 3 = 0x40000001 ∧ 2 ^ 30 < (0x40000001 : Word).toNat := by decide +kernel

theorem witness_mcopy_complete : (copying.asyncOf 0 0 false).isSome = true ∧ (copying.cell 0).ending = none ∧ copying.memoryWf ∧
    (let k := copying.cell 0
     let rd := copying.translateRange (copying.cellTag k) k.space .load true 0x4000 0x40
     let wr := copying.translateRange (copying.cellTag k) k.space .store true 0x40001000 0x40
     rd = ([{ va := 0x4000, pa := 0x4000, len := 0x40 }], none) ∧
       wr = ([{ va := 0x40001000, pa := sramBase + 0x1000, len := 0x40 }], none) ∧ 0x4000 + 0x40 ≤ sramBase + 0x1000) ∧
    place (sramBase + 0x1000) = .shared 0 0x1000 ∧
    (copying.translateRange (copying.cellTag (copying.cell 0)) (copying.cell 0).space .load true (2 ^ 50) 4).2 =
      some (0x04, 2 ^ 50) := by decide +kernel

/-- R129: with `ASYNC`, a fence waits for the transfer under way. -/
theorem test_fence_waits : let o : FenceOp := ⟨0, true, true, true, true, true⟩
    ((after (.fence 0 o .none_) copying).cell 0).pc = 0x88 ∧ (copying.cell 0).pc = 0x88 ∧
    ((after (.fence 0 o .none_) (withCell user)).cell 0).pc = 0x88 := by decide +kernel

def waiter : State := withCell ((user.ws 1 0x40001000).ws 2 1)

theorem witness_waitsig_fence : waiter.Ready 0 ∧ (waiter.cell 0).predBusy [waitOp.pd] = false ∧
    waiter.waitWord 0 (waiter.cell 0) waitOp = some (sramBase + 0x1000) ∧
    (let s := { waiter with mem := { waiter.mem with
        cells := Cells.set waiter.mem.cells (sramBase + 0x1000) 3
        tags := [((sramBase + 0x1000) / 256, waiter.tagOf 0 0)] } }
     s.Ready 0 ∧ s.readNat (s.cellTag (s.cell 0)) (sramBase + 0x1000) 8 &&& 1 = 1 ∧ ((s.cell 0).rs 2).toNat ≠ 0) ∧
    (let o : FenceOp := { scope := 0, pr := true, pw := false, sr := false, sw := true, async := true }
     (o.pr = true ∨ o.pw = true) ∧ (o.sr = true ∨ o.sw = true) ∧ (waiter.cell 0).async = []) := by decide +kernel

/-! ## Witnesses: units, memory, host -/

def atFrame (s : State) (n : Nat) : State := { s with power := { s.power with frame := BitVec.ofNat 64 n } }

def edgeState (retraining : Bool) (failures : Nat) : State :=
  { live with units := { live.units with edges := setAt live.units.edges 11 { up := true, frameReplays := 1000, retraining, failures } } }

theorem witness_units : live.units.cellFenced.length = 128 ∧ live.units.dimms.length = 12 ∧ live.cellPresent 2047 = true ∧
    live.clocksRun = true ∧ live.blockPresent 127 = true ∧ live.regionPresent 7 = true ∧ live.stackPresent 31 = true ∧
    live.units.dimms.getD 11 0 ≠ 0 ∧ 11 < live.units.edges.length ∧ ((edgeState false 0).edge 11).up = true ∧
    ((edgeState false 0).edge 11).retraining = false ∧ ((edgeState true 2).edge 11).retraining = true ∧
    2 ≤ ((edgeState true 2).edge 11).failures ∧ ((edgeState true 1).edge 11).failures < 2 ∧
    ({ live with thermal := { live.thermal with snuffed := true } } : State).clocksRun = false := by decide +kernel

theorem test_edge_replay_limit : ((after (.edgeReplay 11 1) (edgeState false 0)).edge 11).retraining = true ∧
    ((after (.edgeReplay 0 7) live).edge 0).retraining = false := by decide +kernel

/-- Line 65,535 of block 127, clean, loaded from stack 0. -/
def cleanLine : State :=
  let l := sharedBase 127 / 256 + 65535
  { live with mem := { live.mem with cleanLines := [(l, 0x1000)], tags := [(l, live.tagOf 0 0)] } }

theorem witness_upkeep : cleanLine.blockPresent 127 = true ∧ 65535 < 65536 ∧ cleanLine.memoryWf ∧
    cleanLine.mem.cleanLines.find (sharedBase 127 / 256 + 65535) = some 0x1000 ∧
    cleanLine.mem.tags.find (sharedBase 127 / 256 + 65535) = some (live.tagOf 0 0) ∧
    live.present (1 * granuleSize) = true ∧ live.inDump (1 * granuleSize) = false ∧ (live.granule 1).scrub = .pending ∧
    live.present 0x1000 = true ∧ place 0x1000 = .hbm 0 0x1000 ∧ live.present (ddrBase + 64 * 2 ^ 30 - 1) = true ∧
    2 ≤ ((({ live with mem := { live.mem with corrected := [(1, [0, 0])] } } : State).mem.corrected.find 1).getD []).length := by
  decide +kernel

/-- A tier control block at 0x8000: a pool ring of 4 entries at 0x9000 whose entry 0 names page 0x10000, a done ring of 4 at
0xA000; the level-2 entry at 0xB000 names the page 0x14000 of 16 KiB. -/
def tierState : State :=
  let s := { live with mem := { live.mem with hints := [(7, [{ part := 0, ctx := 0, entry := 0xB000, value := 0x14001, pgsz := 14, sup := false }])]
                                              cells := Cells.setAll (Cells.setAll (Cells.setAll live.mem.cells 0x8000
                                                (leBytes 8 0x9000 ++ leBytes 4 4 ++ leBytes 4 0 ++ leBytes 4 1 ++ leBytes 4 0 ++ leBytes 8 0xA000
                                                  ++ leBytes 4 4)) 0x9000 (leBytes 8 0x10000)) 0xB000 (leBytes 8 0x14001) } }
  s.setCtx 0 0 { s.ctx 0 0 with tierCb := 0x8000 }

def isGood {α : Type} (r : List Piece × Option α) : Bool := r.2.isNone

def hint : Hint := { part := 0, ctx := 0, entry := 0xB000, value := 0x14001, pgsz := 14, sup := false }

theorem witness_promotion :
    let s := tierState
    let s0 := { s with mem := { s.mem with hints := s.mem.hints.put 7 [] } }
    let r0 := s0.tierRead 7 hint 0x8000 0x40
    s.mem.hints.find 7 = some [hint] ∧ s.regionPresent 7 = true ∧ s.clocksRun = true ∧ (s0.ctx 0 0).tierCb.toNat = 0x8000 ∧
    (let d := r0.2.getD []
     r0.2.isSome = true ∧ gatherDesc d 0x0C 4 ≠ gatherDesc d 0x10 4 ∧
       (gatherDesc d 0x28 4 + 2 ^ 32 - gatherDesc d 0x24 4) % 2 ^ 32 < gatherDesc d 0x20 4) ∧
    (let r1 := r0.1.tierRead 7 hint 0x9000 8
     let w1 := r1.1.tierWrite 7 hint 0x800C (leBytes 4 1)
     let s1 := w1.1
     r1.2 = some (leBytes 8 0x10000) ∧ w1.2 = true ∧ isGood (s1.vpieces 0 0 .load 0x14000 (2 ^ 14)) = true ∧
       isGood (s1.vpieces 0 0 .store 0x10000 (2 ^ 14)) = true ∧ 0x10000 % 2 ^ 14 = 0 ∧
       s1.ownedHbm 0 0 (s1.vpieces 0 0 .store 0x10000 (2 ^ 14)).1 = true) := by decide +kernel

/-- After the copy: the entry still holds the value of the hint, and takes the new one. -/
theorem witness_promotion_end : (tierState.tierRead 7 hint 0xB000 8).2.map leNat = some 0x14001 ∧
    (tierState.tierWrite 7 hint 0xB000 (leBytes 8 0x10001)).2 = true ∧ (tierState.vwrite 0 0 0xB000 []).isSome = true ∧
    tierState.vwrite 0 0 (2 ^ 50) [1] = none := by decide +kernel

/-- A window of 256 MiB of partition 0 at host address 2^40, committed; confidential or not. -/
def window (committed : Bool) : Window :=
  { Window.reset with en := true, part := 0, dpa := 0, size := 2 ^ 28, committed, base := 2 ^ 40, length := 2 ^ 28, tsp := true }
def windowState (committed conf : Bool) : State :=
  let s := { live with mail := { live.mail with windows := live.mail.windows.set 7 (window committed) }
                       mem := { live.mem with snoop := [(3, [7])] } }
  s.setPart 0 { s.part 0 with conf }

theorem witness_host_memory : (windowState true false).hostUp = true ∧
    (windowState true false).windowAt (2 ^ 40) = some (window true) ∧
    (windowState true false).windowAt (2 ^ 40 + 2 ^ 28 - 1) = some (window true) ∧
    (2 ^ 40 + 2 ^ 28 - 1) + 1 ≤ (window true).base + (window true).length ∧
    (windowState true false).windowConf (window true) = false ∧ (windowState true true).windowConf (window true) = true ∧
    7 ∈ ((windowState true true).mem.snoop.find (7 % 4)).getD [] ∧ (live.ctx 0 0).host = true := by decide +kernel

theorem test_recall_held_line : (((windowState true true).recall 448 64).mem.snoop.find 3).getD [] = [] ∧
    OutMsg.snoop 7 ∈ ((windowState true true).recall 448 64).out ∧
    (((windowState true true).recall 512 64).mem.snoop.find 3).getD [] = [7] := by decide +kernel

theorem witness_host_registers : live.hostUp = true ∧ live.mail.enable = true ∧
    ({ live with mail := { live.mail with enable := false } } : State).mail.enable = false ∧
    (windowState false false).mail.windows[7]? = some (window false) ∧ (window false).committed = false ∧
    (windowState false false).board.flit256 = true ∧ (windowState false false).commitOk 7 (window false) (2 ^ 28) = true ∧
    (windowState false false).commitOk 7 (window false) (2 ^ 29) = false ∧
    ({ live with board := { live.board with flit256 := false } } : State).board.flit256 = false := by decide +kernel

/-! ## Witnesses: mailbox -/

/-- A command in slot 3 as the module has taken it, and one with a body. -/
def taken (op p c : Nat) : Taken :=
  { slot := 3, opcode := BitVec.ofNat 8 op, seq := 9, part := BitVec.ofNat 8 p, ctx := BitVec.ofNat 8 c, pgen := 1, cgen := 1, vec := 63
    noirq := false, ordered := false, started := false, waiting := none, fixedBroken := false }
def put (s : State) (op p c : Nat) (body : List Byte) : State :=
  { s with mail := { s.mail with taken := [taken op p c], bar2 := Cells.setAll [(0x300, 2)] 0x320 body } }
def cmd (op p c : Nat) (body : List Byte) : State := put live op p c body

/-- A posted slot 1023 with a header. -/
def posted (head : List Byte) (body : List Byte) : State :=
  { live with mail := { live.mail with posted := [1023], bar2 := Cells.setAll (Cells.setAll [] (1023 * 256) head) (1023 * 256 + 0x20) body } }
def hello : List Byte := [1, 0x01, 0x10, 0xFF, 5, 0, 0, 0, 0xFF]

theorem witness_slots : live.hostUp = true ∧ live.memoryWf ∧ live.mail.own 1023 = 0 ∧ (cmd 1 0xFF 0xFF []).mail.own 3 = 2 ∧
    (posted hello [0x10, 0x10]).takes = true ∧ (posted hello [0x10, 0x10]).mail.own 1023 = 1 ∧
    (posted hello [0x10, 0x10]).checkTaken ((posted hello [0x10, 0x10]).header 1023) = none ∧
    (opcodeRule ((posted hello [0x10, 0x10]).header 1023).opcode.toNat).isSome = true ∧
    ((posted [1, 0xEF] []).checkTaken ((posted [1, 0xEF] []).header 1023)).isSome = true ∧
    (let s := { posted [1, 0xF0, 0x10, 0xFF, 0, 0, 0, 0, 0xFF] [] with sec := { live.sec with debugOpen := true, debugScope := 1 } }
     s.takes = true ∧ s.checkTaken (s.header 1023) = none ∧ opcodeRule (s.header 1023).opcode.toNat = none) ∧
    (posted hello [0x10, 0x10]).mail.nextTaken 1023 = true ∧ (posted hello [0x10, 0x10]).mail.nextTaken 5 = true ∧
    ({ posted hello [] with mail := { (posted hello []).mail with posted := [7, 1023] } } : State).mail.nextTaken 1023 = false ∧
    ((taken 1 0xFF 0xFF).noirq = false ∧ (taken 1 0xFF 0xFF).vec.toNat < 64) ∧ (cmd 1 0xFF 0xFF []).memoryWf := by decide +kernel

/-- The record of `HELLO` after R212 and R214: status 0, level 0x10 twice, 1,024 slots. -/
theorem test_hello : let l := completionRecord (taken 1 0xFF 0xFF) { Report.of stDone with r0 := 0x4001010 } 7 0
    l.length = 64 ∧ l.take 16 = [9, 0, 0, 0, 0, 1, 0, 0, 0x10, 0x10, 0x00, 0x04, 0, 0, 0, 0] ∧
      (after (.hello 3) (cmd 0x01 0xFF 0xFF [0x10, 0x10])).mail.level = 0x10 := by decide +kernel

theorem witness_information :
    (let s := cmd opHello 0xFF 0xFF [0x10, 0x10]
     s.startable 3 opHello = some (taken opHello 0xFF 0xFF) ∧ s.body 3 1 1 ≤ 0x10 ∧ 0x10 ≤ s.body 3 0 1 ∧ s.mail.taken.length = 1) ∧
    (0x10 < (cmd opHello 0xFF 0xFF [0x11, 0x11]).body 3 1 1 ∧ (cmd opHello 0xFF 0xFF [0x0F, 0x01]).body 3 0 1 < 0x10) ∧
    (let s := cmd opGetInfo 0xFF 0xFF ([2, 0, 0, 0, 0, 0, 0, 0] ++ leBytes 8 0x1000 ++ leBytes 4 128)
     s.startable 3 opGetInfo = some (taken opGetInfo 0xFF 0xFF) ∧ s.body 3 8 8 % 64 = 0 ∧ s.body 3 0x10 4 % 64 = 0 ∧ s.body 3 0 1 = 2) ∧
    2 < (cmd opGetInfo 0xFF 0xFF [3]).body 3 0 1 ∧ (cmd opGetInfo 0xFF 0xFF [1]).body 3 0 1 = 1 ∧
    (let s := cmd opConfigRead 0xFF 0xFF ([1, 0, 0, 0, 0, 0, 0, 0] ++ leBytes 8 0x1000 ++ leBytes 4 256)
     s.startable 3 opConfigRead = some (taken opConfigRead 0xFF 0xFF) ∧ s.body 3 0 1 ≤ 1) ∧
    (let s := cmd opConfigWrite 0xFF 0xFF (leBytes 2 80 ++ leBytes 2 176)
     s.startable 3 opConfigWrite = some (taken opConfigWrite 0xFF 0xFF) ∧ s.body 3 2 2 = 176 ∧ s.body 3 0 2 + s.body 3 2 2 = 256 ∧
       s.config.swap = none ∧ ({ s with config := { s.config with swap := some 4 } } : State).config.swap ≠ none) ∧
    (let s := cmd opConfigSwap 0xFF 0xFF []
     s.startable 3 opConfigSwap = some (taken opConfigSwap 0xFF 0xFF) ∧ s.config.swap = none ∧ s.cfgBad s.config.shadow = none ∧
       s.config.shadow.getLsbD 33 = false ∧ (s.cfgBad 0).isSome = true) := by decide +kernel

theorem witness_partitions :
    (let s := cmd opPartCreate 7 0xFF ([2, 0] ++ leBytes 2 1000)
     (taken opPartCreate 7 0xFF).part.toNat < 8 ∧ s.sized ∧ s.memoryWf ∧
       s.startable 3 opPartCreate = some (taken opPartCreate 7 0xFF) ∧ s.partRefusal 3 7 = none ∧
       (cmd opPartCreate 7 0xFF ([2, 0] ++ leBytes 2 1001)).partRefusal 3 7 = some stBadField ∧
       (cmd opPartCreate 7 0xFF ([1, 0] ++ leBytes 2 1)).partRefusal 3 7 = some stNoResource) ∧
    (let s := put State.reset opPartDestroy 0 0xFF []
     s.startable 3 opPartDestroy = some (taken opPartDestroy 0 0xFF) ∧ (∀ c ∈ (s.part 0).ctxs, c.st = .closed) ∧ s.flash.retired = [] ∧
       s.sized ∧ s.memoryWf) := by decide +kernel

/-- One entry of a granule list (R237): granule 2. -/
def granuleTwo : List Byte := leBytes 8 (2 * granuleSize) ++ leBytes 4 1 ++ leBytes 4 0
def openBody (op : Nat) : List Byte :=
  if op = 0 then leBytes 8 0 ++ leBytes 8 (2 * granuleSize) ++ leBytes 16 0 ++ leBytes 8 0x1000 ++ leBytes 4 16
  else leBytes 1 op ++ leBytes 31 0 ++ leBytes 8 0x1000 ++ leBytes 4 16

theorem witness_context_open :
    (let s := cmd opCtxOpen 0 15 (openBody 0)
     s.startable 3 opCtxOpen = some (taken opCtxOpen 0 15) ∧ (taken opCtxOpen 0 15).slot = 3 ∧ s.sized ∧ s.body 3 0 1 = 0 ∧
       s.ctxRefusal (taken opCtxOpen 0 15) 0 (listEntries granuleTwo (s.body 3 0x28 4 / 16)) = none ∧
       listGranules (listEntries granuleTwo (s.body 3 0x28 4 / 16)) = [2]) ∧
    (let s := cmd opCtxOpen 0 0 (openBody 1)
     s.body 3 0 1 = 1 ∧ s.ctxRefusal (taken opCtxOpen 0 0) 1 (listEntries granuleTwo (s.body 3 0x28 4 / 16)) = none) ∧
    (let s := cmd opCtxOpen 0 0 (openBody 2)
     s.body 3 0 1 = 2 ∧ s.ctxRefusal (taken opCtxOpen 0 0) 2 (listEntries granuleTwo (s.body 3 0x28 4 / 16)) = none) ∧
    (let s := { cmd opCtxOpen 0 15 (openBody 0) with sec := { live.sec with paused := true } }
     let u := s.setPart 0 { s.part 0 with conf := true }
     u.confidential 0 = true ∧ u.sec.paused = true ∧ (taken opCtxOpen 0 15).waiting = none ∧
       u.ctxRefusal (taken opCtxOpen 0 15) 0 (listEntries granuleTwo (u.body 3 0x28 4 / 16)) = none ∧
       (let v := { u with mail := { u.mail with taken := [{ taken opCtxOpen 0 15 with waiting := some 0 }] } }
        v.startable 3 opCtxOpen = some { taken opCtxOpen 0 15 with waiting := some 0 } ∧
          (atFrame v 49999).power.frame.toNat < 0 + 50000 ∧ 0 + 50000 ≤ (atFrame v 50000).power.frame.toNat)) ∧
    (cmd opCtxOpen 0 0 (openBody 0)).ctxRefusal (taken opCtxOpen 0 0) 0 [] = some stWrongState := by decide +kernel

theorem witness_context_close :
    (let s := cmd opCtxClose 0 0 []
     s.sized ∧ s.memoryWf ∧ s.startable 3 opCtxClose = some (taken opCtxClose 0 0) ∧ (s.ctx 0 0).st = .resident) ∧
    (let s := cmd opCtxClose 0 15 []
     s.startable 3 opCtxClose = some (taken opCtxClose 0 15) ∧ (s.ctx 0 15).st = .closed) ∧
    (let s := after (.ctxClose 3) (cmd opCtxClose 0 0 [])
     (s.ctx 0 0).st = .closing ∧
       s.disp.teardowns.find? (fun x => x.part == 0 && x.ctx == 0) = some { part := 0, ctx := 0, slot := some 3 } ∧
       s.flash.retired = [] ∧ s.sized ∧ s.memoryWf) := by decide +kernel

def submitBody : List Byte := leBytes 8 0x4000 ++ leBytes 8 0x5000 ++ leBytes 4 2 ++ leBytes 4 100 ++ leBytes 1 3 ++ leBytes 1 1

theorem witness_grids :
    (let s := cmd opSubmit 0 0 submitBody
     s.startable 3 opSubmit = some (taken opSubmit 0 0) ∧ s.ctxLive 0 0 = true ∧ s.submitOk 3 = true) ∧
    (let s := cmd opCopy 0 0 (leBytes 8 0x4000 ++ leBytes 8 0x8000 ++ leBytes 8 (2 ^ 40))
     s.startable 3 opCopy = some (taken opCopy 0 0) ∧ s.body 3 0x10 8 = 2 ^ 40 ∧ (s.vplace 0 0 .load (s.body 3 0 8)).isSome = true ∧
       (s.vplace 0 0 .store (s.body 3 8 8)).isSome = true) ∧
    (let s := cmd opFill 0 0 (leBytes 8 0x4000 ++ leBytes 8 8 ++ leBytes 8 0xAB)
     s.startable 3 opFill = some (taken opFill 0 0) ∧ s.body 3 0 8 % 8 = 0 ∧ s.body 3 8 8 = 8 ∧
       (s.vplace 0 0 .store (s.body 3 0 8)).isSome = true) ∧
    (let s := cmd opScrub 0 0 (leBytes 8 0 ++ leBytes 4 1)
     s.startable 3 opScrub = some (taken opScrub 0 0) ∧ s.memoryWf ∧ s.body 3 0 8 % granuleSize = 0 ∧ s.body 3 8 4 = 1 ∧
       s.flash.retired = [] ∧ (s.granule 0).owner = .ctx 0 0 ∧ s.inDump 0 = false) := by decide +kernel

/-- A `FILL` that runs, and the grid of a `SUBMIT`. -/
def filling : State := after (.fill 3) (cmd opFill 0 0 (leBytes 8 0x4000 ++ leBytes 8 16 ++ leBytes 8 0xAB))
def submitted : State := after (.submit 3) (cmd opSubmit 0 0 submitBody)

theorem witness_transfer : (filling.transferOf 3).isSome = true ∧ filling.ctxLive 0 0 = true ∧ filling.clocksRun = true ∧
    ((filling.transferOf 3).any fun x => x.fill && x.part == 0 && x.ctx == 0) = true ∧
    ({ filling with parts := freshParts } : State).ctxLive 0 0 = false := by decide +kernel

theorem test_fill : Cells.get (after (.moverTransferComplete 3 .none_) filling).mem.cells 0x4008 = 0xAB ∧
    Cells.get (after (.moverTransferComplete 3 .none_) filling).mem.cells 0x4010 = 0 := by decide +kernel

/-- A second command that names the operation of slot 3. -/
def onTop (s : State) (op : Nat) : State :=
  { s with mail := { s.mail with taken := s.mail.taken ++ [{ taken op 0 0 with slot := 4, seq := 10 }]
                                 bar2 := Cells.setAll s.mail.bar2 0x420 (leBytes 4 3 ++ leBytes 4 9) } }
def hold (s : State) : State :=
  { s with disp := { s.disp with submits := s.disp.submits.map fun u => { u with held := true }
                                 transfers := s.disp.transfers.map fun u => { u with held := true } } }
def stopping (s : State) (r : StopReq) : State :=
  { s with disp := { s.disp with submits := s.disp.submits.map fun u => { u with stop := some r }
                                 transfers := s.disp.transfers.map fun u => { u with stop := some r } } }
def on (op : Nat) : Taken := { taken op 0 0 with slot := 4, seq := 10 }

theorem witness_suspension :
    (∀ op ∈ [opSuspend, opResume, opCancel, opQuery], (onTop submitted op).startable 4 op = some (on op) ∧
      (onTop submitted op).nameOk (on op) 1 = true ∧ (onTop live op).target (on op) = none ∧ (onTop live op).liveTarget (on op) = none ∧
      ((onTop submitted op).target (on op)).isSome = true ∧ ((onTop filling op).target (on op)).isSome = true) ∧
    (((onTop submitted opSuspend).liveTarget (on opSuspend)).any fun x => !x.held && x.stop.isNone) = true ∧
    (onTop submitted opSuspend).nameOk (on opSuspend) 2 = true ∧ (onTop submitted opSuspend).heldCount < 256 ∧
    (((onTop (hold submitted) opResume).liveTarget (on opResume)).any fun x => x.held && x.stop.isNone) = true ∧
    (((onTop (hold filling) opResume).liveTarget (on opResume)).any fun x => x.held && x.stop.isNone) = true ∧
    (((onTop submitted opCancel).liveTarget (on opCancel)).any fun x => !x.held && !cancelled x.stop) = true := by decide +kernel

theorem witness_suspension_full : 256 ≤ ({ submitted with disp := { submitted.disp with
    submits := submitted.disp.submits ++ List.replicate 256 { submitted.newSubmit (taken opSubmit 0 0) with held := true, slot := 1 } } } :
      State).heldCount := by decide +kernel

def softStop : StopReq := { slot := 4, cancel := false, hard := false, since := 0 }

theorem witness_points :
    ((atFrame (stopping submitted softStop) 5000).disp.submits.find? (fun u => !u.held && stopNames 4 u.slot u.stop)).isSome = true ∧
    (((stopping submitted softStop).disp.submits.all fun u => u.running == []) = true) ∧
    0 + 5000 ≤ (atFrame (stopping submitted softStop) 5000).power.frame.toNat ∧
    ((stopping filling softStop).disp.submits.find? (fun u => !u.held && stopNames 4 u.slot u.stop)) = none ∧
    ((stopping filling softStop).disp.transfers.find? (fun x => !x.held && stopNames 4 x.slot x.stop)).isSome = true ∧
    filling.clocksRun = true := by decide +kernel

/-! ## Witnesses: dispatch -/

def grid : Submit := submitted.newSubmit (taken opSubmit 0 0)
def granted (s : State) : State := s.setPart 0 { s.part 0 with grant := 1000, balance := 1000 }
/-- The grid has one item running on cell 0. -/
def runningGrid : Submit := { grid with order := 0, running := [{ item := 0, cell := 0, uj := 0, carry := 0 }], next := 1 }
def busy : State := { withCell user with disp := { live.disp with submits := [runningGrid] } }
def endedCell (e : EndKind) : State :=
  { withCell { user with ended := some { kind := e, value := 7, cause := 0 } } with disp := { live.disp with submits := [runningGrid] } }

theorem witness_item : (granted submitted).resident 0 = some 0 ∧ ((granted submitted).headSubmit 0 0).isSome = true ∧
    (granted submitted).placeItem 0 = some 0 ∧ (granted submitted).clocksRun = true ∧ ((granted submitted).ctx 0 0).leaving = none ∧
    (granted submitted).itemCount < 4096 ∧ ((granted submitted).part 0).admits (((granted submitted).headSubmit 0 0).getD grid).charge = true ∧
    (((granted submitted).headSubmit 0 0).getD grid).part = 0 ∧ (granted submitted).sized ∧
    ({ grid with reruns := [3], restart := true } : Submit).nextItem.1 = 3 ∧
    (∀ e ∈ [EndKind.complete, .saved, .failedValue, .failedException, .forced],
      ((endedCell e).cell 0).run.isSome = true ∧ ((endedCell e).cell 0).ended = some { kind := e, value := 7, cause := 0 } ∧
      ((endedCell e).cell 0).stopped = false ∧ (endedCell e).submitBy 0 = some runningGrid) ∧
    cancelled runningGrid.stop = false ∧ runningGrid.restart = true ∧ ({ runningGrid with restart := false } : Submit).restart = false := by
  decide +kernel

/-- The charge that the spec's rounding gives: 100 µJ at a factor of 256 (R248), and a balance that just covers it. -/
theorem test_admits : grid.charge = 100 ∧ ({ Part.reset with grant := 1, balance := 100 } : Part).admits 100 = true ∧
    ({ Part.reset with grant := 60, balance := 99 } : Part).admits 100 = false ∧
    ({ Part.reset with grant := 49, balance := 98 } : Part).admits 100 = true ∧
    ({ Part.reset with grant := 0, balance := 100 } : Part).admits 100 = false := by decide +kernel

def opened (s : State) (st : CtxState) : State := s.setCtx 0 0 { s.ctx 0 0 with st }
def waiting : State :=
  let s := { busy with disp := { busy.disp with submits := [runningGrid, { grid with order := 1, ctx := 15 }] } }
  s.setCtx 0 15 { s.ctx 0 15 with st := .opened }

theorem witness_residency : submitted.sized ∧ ((opened submitted .opened).part 0).inService = true ∧
    (opened submitted .opened).resident 0 = none ∧ (opened submitted .opened).chooseContext 0 = some 0 ∧
    (let s := atFrame waiting 500
     s.sized ∧ s.resident 0 = some 0 ∧ (s.ctx 0 0).leaving = none ∧ (s.ctx 0 0).since + (s.ctx 0 0).quantum ≤ s.power.frame.toNat ∧
       (s.ctx 0 15).st = .opened ∧ s.ready 0 15 = true ∧ s.batchKeeps 0 0 = false ∧
       (∃ u ∈ s.disp.submits, u.part = 0 ∧ u.ctx = 0 ∧ u.held = false ∧ u.running ≠ [])) ∧
    (let s := atFrame (busy.setCtx 0 0 { busy.ctx 0 0 with leaving := some 0 }) 5000
     s.resident 0 = some 0 ∧ (s.ctx 0 0).leaving = some 0 ∧ 0 + 5000 ≤ s.power.frame.toNat ∧ (s.cell 0).ended = none) ∧
    (let s := { live with disp := { live.disp with submits := [{ grid with idleFrames := 500 }] } }
     (s.disp.submits.find? (fun u => !u.held && u.slot == 3)).isSome = true ∧ grid.toStart = true) := by decide +kernel

/-! ## Witnesses: fabric -/

/-- Half 70 of port 35 in a state, in `FABRIC` mode; the module is endpoint 1. -/
def portState (k : Port) : State :=
  { live with fabric := { live.fabric with ports := setAt live.fabric.ports 70 { k with credits := fullCredits false }
                                           modes := List.replicate 36 (1, false)
                                           blocks := List.replicate 4 { FabBlock.reset with ep := 1, epValid := true } }
              sec := { live.sec with running := true } }
def inState (st : PortState) : State := portState { Port.reset with st }
def chip (s : State) : State := { s with fabric := { s.fabric with modes := List.replicate 36 (2, false) } }

theorem witness_training : (inState .detect).sized ∧ (inState .detect).halfNamed 35 = some 70 ∧ ((inState .detect).port 70).st = .detect ∧
    (inState .training).trainedWidth 70 0xFF = 2 ∧ (inState .training).trainedWidth 70 0x0F = 1 ∧
    (inState .training).trainedWidth 70 0x7E = 0 ∧ ((inState .training).port 70).trainFails < 2 ∧
    2 ≤ ((portState { Port.reset with st := .training, trainFails := 2 }).port 70).trainFails ∧
    ((inState .secure).fabBlock (iodOf 70)).epValid = true ∧ ((inState .secure).port 70).peerEp = none ∧
    (inState .secure).secAvailable = true ∧ ((portState { Port.reset with st := .secure, peerEp := some 2 }).port 70).peerEp.isSome = true ∧
    ((chip (inState .secure)).modeOf (70 / 2)).1 = 2 ∧
    (let k := (portState { Port.reset with st := .down, cause := 3, authFails := 3 }).port 70
     k.st = .down ∧ k.cause = 3 ∧ 3 ≤ k.authFails) ∧
    (let s := { portState { Port.reset with st := .down, cause := 1 } with board := { live.board with srefclk := true } }
     (s.port 70).st = .down ∧ ¬((s.port 70).cause = 3 ∧ 3 ≤ (s.port 70).authFails) ∧ s.config.heldModes = [] ∧
       (s.modeOf (70 / 2)).1 ≠ 0 ∧ (s.port 70).disable = false ∧ s.board.railsUp = true) ∧
    ((inState .active).port 70).st = .active ∧ ((inState .active).fabBlock (iodOf 70)).epValid = true := by decide +kernel

theorem test_ep_id_equal : ((after (.epIdFlit 35 1) (inState .secure)).port 70).st = .down ∧
    ((after (.epIdFlit 35 1) (inState .secure)).port 70).cause = 6 ∧
    ((after (.epIdFlit 35 2) (inState .secure)).port 70).initiator = true := by decide +kernel

def evidence : PeerEvidence := { stepsOk := true, chainsOk := true, sameSerial := true, debugOpen := false, kem := [], nonce := [] }

def idle : FlitHead := { ftype := 0, vl := 0, fseq := 0, ack := 0, start := 0, crVl := 0, crCnt := 0 }
def sent (ftype vl : Nat) (fseq : BitVec 12) (l : List Byte) : Flit :=
  { bytes := flitBytes { idle with ftype, vl, fseq } l, fecCorr := 0, fecUncorr := List.replicate 8 0 }
def aKey : LinkKey := { key := 1, salt := 2, count := 0 }
def keyed_ : Port := { Port.reset with st := .active, rxKey := some aKey }

/-- A flit of padding in order, one out of order, one that is damaged, and one whose lane 7 has too many errors. -/
theorem witness_flits : ((inState .active).port 70).linked = true ∧ ((inState .paused).port 70).linked = true ∧
    (flitHead (sent 1 7 1 []).bytes).ftype = 1 ∧
    (flitHead (sent 1 7 1 []).bytes).fseq = ((portState keyed_).port 70).rxSeq + 1 ∧
    (flitHead (sent 3 0 0 []).bytes).fseq ≠ ((portState keyed_).port 70).rxSeq + 1 ∧ (flitHead (sent 3 0 0 []).bytes).ftype = 3 ∧
    (flitHead (sent 0 0 0 []).bytes).ftype = 0 ∧
    100 < ((inState .active).port 70).laneErrors.getD 7 0 + [0, 0, 0, 0, 0, 0, 0, 101].getD 7 0 ∧
    ((inState .active).port 70).laneErrors.getD 7 0 + [0, 0, 0, 0, 0, 0, 0, 100].getD 7 0 ≤ 100 ∧
    (portState keyed_).fabric.arrived = [] ∧ ((portState keyed_).port 70).rxKey = some aKey ∧
    (takePackets 256 aKey (((portState keyed_).port 70).rxBytes.getD 7 [] ++ flitPayload (sent 1 7 1 []).bytes) []).2.2.2 = true ∧
    (takePackets 256 aKey (((portState keyed_).port 70).rxBytes.getD 7 [] ++ flitPayload (sent 1 7 1 []).bytes) []).1 = [] ∧
    ((inState .active).port 70).controlOk 1 (flitPayload (sent 3 0 1 []).bytes) = true := by decide +kernel

theorem leNat_leBytes8 (n : Nat) (h : n < 2 ^ 64) : leNat (leBytes 8 n) = n := by
  simp only [leBytes, leNat, BitVec.toNat_ofNat]
  omega

/-- A header and a payload of 242 bytes with their CRC are a good flit; `FTYPE` 5 is not. -/
theorem witness_good_flits : (∀ f ∈ [sent 1 7 1 [], sent 3 0 0 [], sent 3 0 1 [], sent 0 0 0 []], flitGood f.bytes = true) ∧
    flitGood flit.bytes = false := by
  have good : ∀ b : List Byte, b.length = 248 → decide ((flitHead (b ++ leBytes 8 (crc64 b).toNat)).ftype ≤ 3) = true →
      (leNat (b.take 1) / 2 ^ 7 == 0) = true → flitGood (b ++ leBytes 8 (crc64 b).toNat) = true := by
    intro b h h1 h2
    have h3 : (b ++ leBytes 8 (crc64 b).toNat).take 1 = b.take 1 := by rw [List.take_append_of_le_length (by omega)]
    have h4 : (b ++ leBytes 8 (crc64 b).toNat).drop 248 = leBytes 8 (crc64 b).toNat := by rw [← h]; simp
    have h5 : (b ++ leBytes 8 (crc64 b).toNat).take 248 = b := by rw [← h]; simp
    have h6 : (leBytes 8 (crc64 b).toNat).length = 8 := by simp [leBytes]
    simp only [flitGood, h1, h2, h3, h4, h5, leNat_leBytes8 _ (crc64 b).isLt, List.length_append, h, h6, BEq.rfl, Bool.and_self]
  refine ⟨?_, ?_⟩
  · intro f hf
    simp only [List.mem_cons, List.not_mem_nil, or_false] at hf
    rcases hf with rfl | rfl | rfl | rfl <;>
      exact good _ (by decide +kernel) (by decide +kernel) (by decide +kernel)
  · have h : decide ((flitHead flit.bytes).ftype ≤ 3) = false := by decide +kernel
    simp [flitGood, h]

/-- Under a key a payload without its tag can be refused: one of two payloads is. -/
theorem witness_tag (seq : BitVec 12) : ∃ l : List Byte, ((portState keyed_).port 70).controlOk seq l = false := by
  refine ⟨[], ?_⟩
  show (([] : List Byte).drop 226 == leBytes 16 _) = false
  simp [leBytes]

theorem witness_links : ((inState .retraining).port 70).st = .retraining ∧ (inState .retraining).awaits 70 = false ∧
    (let s : State := { inState .retraining with upd := { live.upd with
       activation := some { comp := 5, slot := none, fromB := false, linkDown := [70], linkLeft := [70] } } }
     s.awaits 70 = true ∧ (s.port 70).st = .retraining) ∧ ((inState .retraining).port 70).retrainFails < 2 ∧
    2 ≤ ((portState { Port.reset with st := .retraining, retrainFails := 2 }).port 70).retrainFails ∧
    RetrainEnd.peerLost ≠ .ok ∧ (inState .active).secAvailable = true ∧ (inState .active).peerOk evidence = true ∧
    (inState .active).peerOk { evidence with sameSerial := false } = false ∧
    (let k := (portState { Port.reset with st := .active, keyFlits := 2 ^ 31 }).port 70
     k.nextTx = none ∧ 2 ^ 31 ≤ k.keyFlits ∧ k.queue = [] ∧ k.cut = [] ∧ k.control = [] ∧ k.inFlight + 2 ≤ 1024) ∧
    2 ^ 32 ≤ ((portState { Port.reset with st := .active, rxKeyFlits := 2 ^ 32 }).port 70).rxKeyFlits ∧
    ((inState .active).port 70).keyFlits < 2 ^ 32 ∧ ((inState .active).port 70).rxKeyFlits < 2 ^ 32 ∧
    ((inState .retraining).port 70).inService = true ∧
    ({ inState .active with board := { live.board with frameSync := true } } : State).board.frameSync = true := by decide +kernel

/-- The fields of the header at the upper ends of their ranges, and a whole payload. -/
theorem test_flit_head : let h : FlitHead := { ftype := 3, vl := 7, fseq := 0xFFF, ack := 0x123, start := 255, crVl := 7, crCnt := 31 }
    flitHead (flitBytes h []) = h ∧ h.bytes = [0x73, 0xFF, 0x3F, 0x12, 0xFF, 0xFF] ∧ (leBytes 242 0).length ≤ 242 := by decide +kernel

/-- The transcript of the other end agrees where its challenge names it. -/
theorem witness_transcript (s : State) (e : PeerEvidence) :
    s.transcriptAgrees 70 { e with nonce := (s.agreement 70 e).hash.take 32 } = true := by
  simp [State.transcriptAgrees, State.agreement]

/-- Endpoint 0x12345 by a direct entry, 0x2xxxx by a prefix of 4 bits, to group 5 whose member is half 70. -/
def routed : State :=
  let s := inState .active
  { s with fabric := { s.fabric with blocks := List.replicate 4 { FabBlock.reset with
      ep := 1, epValid := true, directHi := 1, routesValid := true, groups := setAt (List.replicate 64 0) 5 (1 <<< 70)
      direct := [(0x2345, 0x15)], prefixes := [(3, 0x0042000000000015), (9, 0x0042000000000019)] } } }
def toward (ep : BitVec 20) : Packet := { pkt with dstEp := ep }

theorem witness_routing : routed.board.railsUp = true ∧ routed.fabric.arrived = [] ∧ ({ pkt with hops := 0 } : Packet).hops = 0 ∧
    pkt.hops ≠ 0 ∧ (routed.fabBlock 3).epValid = true ∧ (toward 1).dstEp = (routed.fabBlock 3).ep ∧
    ¬((routed.fabBlock 3).epValid = true ∧ (toward 0x12345).dstEp = (routed.fabBlock 3).ep) ∧
    routed.routeEntry 3 0x12345 = some 0x15 ∧ routed.routeEntry 3 0x2FFFF = some 0x15 ∧ routed.routeEntry 3 0x30000 = none ∧
    (routed.fabBlock 3).routesValid = true ∧ routed.pick 3 6 (toward 0x12345) = none ∧
    routed.members 3 5 = [70] ∧ SMap.sorted (routed.fabBlock 3).prefixes = true ∧
    ((0x12345 : BitVec 20).extractLsb' 16 4 = (routed.fabBlock 3).directHi ∧ (0x15 : BitVec 32).getLsbD 0 = true) ∧
    (let s := { routed with fabric := { routed.fabric with waiting := [{ iod := 3, src := some 70, pkt, groupA := 6, groupB := none, odd := false }] } }
     (s.fabric.waiting[0]?).isSome = true ∧ s.sized) ∧ routed.halfNamed 35 = some 70 ∧
    ({ routed with mail := { routed.mail with ready := false } } : State).accepts = false ∧ routed.accepts = true ∧
    routed.destOk { pkt with dstPgen := 2 } = false ∧ routed.destOk pkt = true := by decide +kernel

/-! ## Witnesses: collectives and Beacon -/

/-- Two members in one tree: rank 0 is the root at endpoint 1, rank 1 at endpoint 2 is its child. -/
def table : List Byte :=
  leBytes 4 1 ++ [1, 1, 0, 0] ++ leBytes 4 0x1FFFFF ++ leBytes 20 0 ++ leBytes 4 2 ++ [1, 1, 0, 0] ++ leBytes 4 0 ++ leBytes 20 0
def tabled : State :=
  let s := inState .active
  { s with mem := { s.mem with cells := Cells.setAll s.mem.cells 0x6000 table } }
def commBody (rank : Nat) : List Byte :=
  leBytes 8 0x6000 ++ leBytes 4 2 ++ leBytes 4 rank ++ leBytes 4 0xABCDE ++ [1, 0, 0, 0] ++ leBytes 8 0 ++ leBytes 8 0x40000000 ++ leBytes 8 0x7000

theorem test_member_table : tabled.tableEntry 0 0 0x6000 1 1 =
    some { ep := 2, part := 0, ctx := 0, pgen := 1, cgen := 1, trees := [(0, 0)], clean := true } := by decide +kernel

def comm (s : State) : Comm := s.newComm (taken opCommCreate 0 0) 4095 [
  { ep := 1, part := 0, ctx := 0, pgen := 1, cgen := 1, trees := [(rootParent, 0)], clean := true },
  { ep := 2, part := 0, ctx := 0, pgen := 1, cgen := 1, trees := [(0, 0)], clean := true }]
/-- With the communicator 4095. -/
def joined : State :=
  let s := put tabled opCommCreate 0 0 (commBody 0)
  { s with coll := { s.coll with comms := [comm s] } }
def withBatch (s : State) : State := after (.collBatch 3) (put s opCollBatch 0 0 (leBytes 8 0x7800 ++ leBytes 4 1 ++ leBytes 2 4095))
def enabled (s : State) (chan : Nat) : State :=
  { s with config := { s.config with active := s.config.active ||| (BitVec.ofNat 2048 0x10FFF <<< (8 * (0x30 + 4 * chan))) } }

def isRight {α β : Type} : α ⊕ β → Bool
  | .inr _ => true
  | .inl _ => false

theorem witness_communicators :
    (let s := put tabled opCommCreate 0 0 (commBody 0)
     s.ctxLive 0 0 = true ∧ s.startable 3 opCommCreate = some (taken opCommCreate 0 0) ∧ isRight (s.commCheck (taken opCommCreate 0 0)) = true) ∧
    isRight ((put tabled opCommCreate 0 0 (commBody 1)).commCheck (taken opCommCreate 0 0)) = false ∧
    (let s := put joined opCommDestroy 0 0 (leBytes 2 4095)
     s.startable 3 opCommDestroy = some (taken opCommDestroy 0 0) ∧ (s.ownComm (taken opCommDestroy 0 0) (s.body 3 0 2)).isSome = true ∧
       s.batchOf 4095 = none ∧ (enabled s 15).beaconEntry 15 / 2 ^ 16 % 2 = 1) ∧
    (let s := put joined opCollBatch 0 0 (leBytes 8 0x7800 ++ leBytes 4 65536 ++ leBytes 2 4095)
     s.startable 3 opCollBatch = some (taken opCollBatch 0 0) ∧ s.body 3 0 8 % 64 = 0 ∧ s.body 3 8 4 = 65536 ∧
       (s.ownComm (taken opCollBatch 0 0) (s.body 3 0x0C 2)).isSome = true ∧ s.batchOf 4095 = none) ∧
    ((withBatch joined).batchOf 4095).isSome = true := by decide +kernel

/-- A barrier is the operation in progress. -/
def operation : CollOp := { CollOp.fresh (Desc.parse (leBytes 64 6)) false 0 with path := .claiming }
def operating : State :=
  let s := withBatch joined
  { s with coll := { s.coll with comms := s.coll.comms.map fun k => { k with op := some operation, opSeq := 4 } } }
def requesting (n : Nat) : State :=
  { joined with coll := { joined.coll with panUsed := [n, 0, 0, 0], panQueue := [[{ comm := 4095, tree := 0, slots := 2, frame := 0 }], [], [], []] } }

theorem witness_operations :
    (let s := withBatch joined
     (s.comm 4095).any (fun k => k.op.isNone && !k.broken) = true ∧
       ((s.batchOf 4095).any fun b => !b.held && b.stop.isNone) = true ∧ s.clocksRun = true ∧ s.ctxLive 0 0 = true ∧
       s.fabric.arrived = [] ∧ (Desc.parse (leBytes 64 11)).fieldsOk 2 = false ∧ s.resident 0 = some 0) ∧
    (let s := atFrame operating 100000
     (s.comm 4095).any (fun k => k.op.isSome) = true ∧ operation.lastRx + 2000 * 50 ≤ s.power.frame.toNat ∧
       (comm joined).timeoutMs = 2000 ∧ s.panWaits 4095 = false) ∧
    (let s := atFrame operating 5000
     let t : State := { s with coll := { s.coll with batches := s.coll.batches.map fun (b : Batch) => { b with stop := some softStop } } }
     (t.coll.batches.find? (fun x => !x.held && stopNames 4 x.slot x.stop)).isSome = true ∧ softStop.since + 5000 ≤ t.power.frame.toNat) ∧
    ((requesting 382).coll.panUsed.getD 0 0 ≤ 384 ∧ 3 < (requesting 382).coll.panUsed.length) ∧
    (let s := atFrame (requesting 383) 25
     (∃ q ∈ s.coll.panQueue, ∃ r ∈ q, r.comm = 4095 ∧ r.frame + cfg s.config.active 0x24 2 ≤ s.power.frame.toNat)) ∧
    (let s := atFrame (requesting 383) 24
     (∀ q ∈ s.coll.panQueue, ∀ r ∈ q, r.comm = 4095 → s.power.frame.toNat < r.frame + cfg s.config.active 0x24 2)) := by decide +kernel

/-- A packet of member 1 with an operation number. -/
def from1 (pt : BitVec 5) (seq : Nat) (payload : List Byte) : Packet :=
  { pkt with ptype := pt, payload, obj := ({ key := 0xABCDE, seq, arg := 0, pkt := 0, tree := 0, phase := false, done := false } : Obj).bits }

/-- A batch between two operations that is asked to stop. -/
theorem witness_batch_point :
    let s := withBatch joined
    let t : State := { s with coll := { s.coll with batches := s.coll.batches.map fun (b : Batch) => { b with stop := some softStop } } }
    (t.disp.submits.find? fun u => !u.held && stopNames 4 u.slot u.stop) = none ∧
      (t.disp.transfers.find? fun x => !x.held && stopNames 4 x.slot x.stop) = none ∧
      (t.coll.batches.find? fun b => !b.held && stopNames 4 b.slot b.stop).any (fun b => !t.batchRuns b) = true ∧
      (operating.meets (some (.uncorrectable 0x4000))).2 = some 0x4000 ∧ (comm joined).part < 8 ∧ (comm joined).ctx < 16 := by
  decide +kernel

theorem witness_packets : operating.accepts = true ∧ operating.destOk (from1 4 4 []) = true ∧ wellFormed (from1 4 4 []) = true ∧
    (operating.commOf (from1 4 4 [])).isSome = true ∧
    (∀ k, operating.commOf (from1 4 4 []) = some k → operating.senderOf k (from1 4 4 []) = some 1) ∧
    wellFormed (from1 1 4 []) = false ∧ operating.commOf { from1 4 4 [] with obj := 0 } = none ∧ operating.fabric.arrived = [] ∧
    (operating.comm 4095).any (fun k => (Obj.of (from1 4 4 []).obj).seq == k.opSeq.toNat && k.trees == 1) = true ∧
    operation.path = .claiming ∧ operation.pans.length < 1 ∧ (Obj.of (from1 4 0xFFFF []).obj).seq < 65536 ∧
    (joined.comm 4095).any (fun k => k.op.isNone && BitVec.ofNat 16 (Obj.of (from1 4 1 []).obj).seq == k.opSeq + 2) = true ∧
    ((withBatch joined).batchOf 4095).isSome = true ∧ (BitVec.ofNat 16 (Obj.of (from1 4 9 []).obj).seq ≠ (comm joined).opSeq + 1) ∧
    operating.sized ∧ (operating.ctx 0 0).st = .resident := by decide +kernel

def slotBytes (b : List Byte) : State :=
  let s := enabled joined 15
  { s with mem := { s.mem with cells := Cells.setAll s.mem.cells (sramBase + 15 * 128) b
                               tags := [((sramBase + 15 * 128) / 256, s.tagOf 0 0)] } }
/-- `BOP` 6, a barrier. -/
def barrierSlot : State := slotBytes (leBytes 4 7 ++ [6, 0, 0, 0])
def setB (s : State) (b : Beacon) : State := s.setBeacon 15 b
def alone1 (s : State) : State :=
  { s with coll := { s.coll with comms := s.coll.comms.map fun k => { k with children := [[]], parents := [none] } } }

theorem witness_beacon :
    (let s := put joined opBeaconAssign 0xFF 0xFF ([15, 1] ++ leBytes 2 4095)
     s.startable 3 opBeaconAssign = some (taken opBeaconAssign 0xFF 0xFF) ∧ s.body 3 0 1 = 15 ∧ s.body 3 1 1 = 1 ∧ s.body 3 2 2 = 4095 ∧
       (s.comm 4095).any (fun k => k.trees != 0 && k.beaconArea != 0) = true ∧ (s.beacon 15).busy = none) ∧
    (let s := barrierSlot
     s.clocksRun = true ∧ s.coll.beacons.length = 16 ∧ (s.beaconComm 15).isSome = true ∧ s.fabric.arrived = [] ∧
       (∀ k, s.beaconComm 15 = some k →
         let l := (s.vread k.part k.ctx (k.beaconSlot 15) 128).getD []
         l.length = 128 ∧ (BeaconVal.ofSlot l).ok = true ∧ gatherDesc l 7 1 = 0 ∧ gatherDesc l 0x0A 6 = 0 ∧ gatherDesc l 0x56 2 = 0 ∧
           gatherDesc l 0x60 32 = 0 ∧ k.children0 = [1]) ∧
       (∀ k, (alone1 s).beaconComm 15 = some k → k.children0 = [] ∧ k.parent0 = none) ∧ (s.beacon 15).busy = none ∧
       (s.beacon 15).failed = false ∧ (s.beacon 15).ups = [] ∧ (s.beacon 15).sent = false) ∧
    ((slotBytes (leBytes 4 7 ++ [9, 0, 0, 0])).beaconComm 15).isSome = true ∧ (BeaconVal.ofSlot (leBytes 4 7 ++ [9, 0, 0, 0])).ok = false ∧
    ((setB barrierSlot { Beacon.reset with failed := true }).beacon 15).failed = true ∧
    (let s := setB barrierSlot { Beacon.reset with busy := some (7, 0), comm := 4095 }
     (s.beacon 15).busy = some (7, 0) ∧ (s.comm (s.beacon 15).comm).any (fun k => k.timeoutMs == 2000) = true ∧ 0 + 2000 * 50 ≤ (atFrame s 100000).power.frame.toNat) := by decide +kernel

theorem witness_beacon_packets :
    (let s := barrierSlot
     let p := from1 0x0B 0 (leBytes 8 6)
     s.accepts = true ∧ s.destOk p = true ∧ wellFormed p = true ∧ (s.commOf p).isSome = true ∧
       (∀ k, s.commOf p = some k → s.senderOf k p = some 1 ∧ (s.channelsOf k)[gatherDesc p.payload 6 2]? = some 15 ∧ k.children0.contains 1 = true) ∧
       (s.beacon 15).own = none ∧ (Obj.of p.obj).seq = (s.beacon 15).seq.toNat) ∧
    (let s : State := { barrierSlot with coll := { barrierSlot.coll with comms := barrierSlot.coll.comms.map fun (k : Comm) => { k with parents := [some 1] } } }
     let p := from1 0x0C 0 (leBytes 8 6)
     wellFormed p = true ∧ (∀ k, s.commOf p = some k → s.senderOf k p = some 1 ∧ k.parent0 = some 1)) := by decide +kernel

/-! ## Witnesses: counters and sampling -/

def allCensus (s : State) : State := { s with config := { s.config with active := s.config.active ||| (BitVec.ofNat 2048 1 <<< (8 * 0x10)) } }

theorem witness_counters : ((allCensus (withCell { user with uctl := true })).cell 0).userReads 0 0x100 = true ∧
    (allCensus (withCell { user with uctl := true })).Ready 0 ∧ (withCell sup).Ready 0 ∧ ((withCell sup).cell 0).sup = true ∧ (withCell sup).census 0 = false ∧
    (allCensus (withCell sup)).Ready 0 ∧ (allCensus (withCell sup)).census 0 = true ∧
    (∀ op ∈ [0, 1, 2], let s := cmd opCntConfig 0 0xFF ([BitVec.ofNat 8 op, 0, 16] ++ leBytes 21 0)
      s.startable 3 opCntConfig = some (taken opCntConfig 0 0xFF) ∧ s.body 3 0 1 = op ∧ s.cntFieldsOk (taken opCntConfig 0 0xFF) op = true) ∧
    (let s := cmd opCntConfig 0xFF 0xFF [2, 127, 1]
     s.cntFieldsOk (taken opCntConfig 0xFF 0xFF) 2 = true) ∧
    (cmd opCntConfig 0 0xFF [2, 127, 2]).cntFieldsOk (taken opCntConfig 0 0xFF) 2 = false ∧
    live.confidential 0 = false ∧ (live.setPart 0 { live.part 0 with conf := true }).confidential 0 = true := by decide +kernel

def sampleBody (mode : Nat) : List Byte := leBytes 4 mode ++ leBytes 4 1024 ++ leBytes 8 0x9000
def ring (head tail : Nat) : State :=
  let s := put live opSampleConfig 0 0 (sampleBody 2)
  { s with mem := { s.mem with cells := Cells.setAll s.mem.cells 0x9000 (leBytes 8 0xA000 ++ leBytes 4 4 ++ leBytes 4 head ++ leBytes 4 tail) } }
def sample : Sample :=
  { part := 0, ctx := 0, item := 5, pc := 0x80, insn := 0, sup := false, discarded := false, replayed := false, daddr := 0
    frame := 0, time := { latency := 1, stall := 0, offset := 0 } }
def sampled (k : Cell) (head tail : Nat) : State :=
  let s := ring head tail
  ({ s with cells := (withCell k).cells }).setCtx 0 0 { s.ctx 0 0 with sampling := { mode := 1, interval := 1024, cb := 0x9000, stopped := false } }

theorem witness_sampling : (ring 0 0).startable 3 opSampleConfig = some (taken opSampleConfig 0 0) ∧ (ring 0 0).ctxLive 0 0 = true ∧
    (ring 0 0).sized ∧ (ring 0 0).body 3 0 1 = 2 ∧ (ring 0 0).body 3 4 4 = 1024 ∧ (ring 0 0).body 3 8 8 % 64 = 0 ∧
    (ring 0 0).sampleCbOk 0 0 0x9000 = true ∧
    (let s := sampled { user with sampMode := 1, sampN := 1024, countdown := [(0, 1)], latches := [(sample, none)] } 0 0
     (s.cell 0).sampMode = 1 ∧ (s.cell 0).countdown.find (16 * 0 + 0) = some 1 ∧ (s.ctx 0 0).sampling.stopped = false ∧
       s.clocksRun = true ∧ (s.cell 0).samples.length < 256 ∧ (s.cell 0).latches = [(sample, none)] ∧ (s.cell 0).run.isSome = true) ∧
    (sampled { user with countdown := [(0, 2)], samples := List.replicate 256 sample } 0 0 |>.cell 0).samples.length = 256 ∧
    (let k := (copying.setCell 0 { copying.cell 0 with latches := [(sample, some 0)] }).cell 0
     k.latches = [(sample, some 0)] ∧ k.async.any (·.id == 0) = true) ∧
    (let s := sampled { user with samples := [sample] } 0 4
     (s.cell 0).samples = [sample] ∧ (s.vread 0 0 0x9000 64).isSome = true ∧
       (let r := ringOf ((s.vread 0 0 0x9000 64).getD [])
        (r.2.2.2 + 2 ^ 32 - r.2.2.1) % 2 ^ 32 = r.2.1)) ∧
    (let s := sampled { user with samples := [sample] } 0 3
     let s0 := s.setCell 0 { s.cell 0 with samples := [] }
     let r := ringOf ((s0.vread 0 0 0x9000 64).getD [])
     let s1 := (s0.vwrite 0 0 (r.1 + 64 * (r.2.2.2 % r.2.1)) (sample.bytes 0)).getD s0
     (r.2.2.2 + 2 ^ 32 - r.2.2.1) % 2 ^ 32 ≠ r.2.1 ∧ (s0.vwrite 0 0 (r.1 + 64 * (r.2.2.2 % r.2.1)) (sample.bytes 0)).isSome = true ∧
       (s1.vwrite 0 0 0x9010 (leBytes 4 (r.2.2.2 + 1))).isSome = true) := by decide +kernel

/-! ## Witnesses: power and control -/

/-- A control processor runs, and A is the active one with B as its standby. -/
def inPower (s : State) (f : Power → Power) : State := { s with power := f s.power }
def onBoard (s : State) (f : Board → Board) : State := { s with board := f s.board }
def beating : State :=
  inPower { live with rcv := { live.rcv with ctlHeld := false, cmdHeld := false, secHeld := false } } fun p =>
    { p with bOut := false, aOut := false }
def withFlash (s : State) (f : Flash → Flash) : State := { s with flash := f s.flash }
def withRcv (s : State) (f : Recovery → Recovery) : State := { s with rcv := f s.rcv }

theorem witness_frame : live.board.vddSb = true ∧ live.board.coldReset = false ∧ live.board.railsUp = true ∧
    State.reset.board.coldReset = true ∧ (onBoard live fun b => { b with railsUp := false }).board.railsUp = false ∧
    live.config.swap = none ∧ live.coll.dead = [] ∧ live.config.writes = [] ∧
    (let s : State := { live with config := { live.config with swap := some 3 } }
     s.config.swap = some 3 ∧ s.coll.dead = [] ∧ s.config.writes = []) ∧ (live.part 0).inService = true ∧
    (live.part 1).inService = false ∧ (2 : Nat) < 8 := by decide +kernel

theorem witness_control : beating.decides = true ∧ live.decides = false ∧
    (let s := inPower beating fun p => { p with decided := true }
     s.controlRuns = true ∧ s.power.decided = true ∧ s.power.overran = false ∧ s.power.tokenB = false ∧
       s.power.actsNext = false ∧ s.power.wroteA = none ∧ s.power.wroteB = none) ∧
    (let s := inPower beating fun p => { p with decided := true, tokenB := true, wroteA := some safeOutputs }
     s.controlRuns = true ∧ s.power.decided = true ∧ s.power.tokenB = true ∧ s.power.wroteB = none ∧
       s.power.wroteA = some safeOutputs) ∧
    beating.standbyThere = true ∧
    (inPower beating fun p => { p with overruns := 2 }).decides = true := by decide +kernel

/-- The one item of a grid has ended. -/
def allDone : Submit := { grid with order := 0, items := 1, next := 1, complete := 1 }
def settling : State :=
  { beating with disp := { beating.disp with submits := [allDone] }, mail := { beating.mail with taken := [taken opSubmit 0 0] } }

theorem witness_settling : allDone.allEnded = true ∧ allDone.tail = [] ∧ allDone.due = [] ∧ allDone.held = false ∧ allDone.stop = none ∧
    settling.disp.submits = [allDone] ∧ settling.mail.taken = [taken opSubmit 0 0] ∧
    (taken opSubmit 0 0).slot = allDone.slot ∧ ({ allDone with lost := 1 } : Submit).finalStatus = stUnitFailed ∧
    ({ allDone with rerunDone := [0] } : Submit).finalStatus = stDegraded := by decide +kernel

def good (s : State) : State := inPower s fun p => { p with standbyGood := true }
def failing (s : State) (l : List Nat) : State := withRcv s fun r => { r with fails := l }

theorem witness_takeover : (good beating).board.railsUp = true ∧ (good beating).rcv.ctlHeld = false ∧
    (good beating).power.active < 2 ∧ (good beating).power.standbyGood = true ∧
    (let s := inPower (good beating) fun p => { p with copyMissing := true }
     s.power.copyMissing = true ∧ s.power.decided = false) ∧
    (let s := inPower (good beating) fun p => { p with handover := true }
     let t := { s with copy := some s.copyOut }
     (t.copy.any fun k => k.power.handover) = true ∧ t.power.copyMissing = false ∧ t.power.decided = false ∧
       s.copyOut.carries.length = t.parts.length ∧ s.copy = none) ∧
    3 ≤ (failing (good beating) [0, 3, 0]).rcv.fails.getD 1 0 ∧
    (let s := failing beating [0, 3, 0]
     s.controlRuns = true ∧ s.power.standbyGood = false ∧ 3 ≤ s.rcv.fails.getD 1 0) := by decide +kernel

theorem witness_trims :
    (let s := withFlash live fun f => { f with persist := { f.persist with poweredS := 86400 } }
     s.power.trims.length = 8 ∧ s.power.trimAt.length = 8 ∧ s.board.railsUp = true ∧ s.regionPresent 7 = true ∧
       s.power.trimAt.getD 7 0 + 86400 ≤ s.flash.persist.poweredS.toNat) ∧
    live.flash.persist.poweredS.toNat < live.power.trimAt.getD 7 0 + 86400 ∧
    7 < live.power.stretch.length ∧ live.clocksRun = true ∧
    (let s := inPower live fun p => { p with calFrames := 2500 }
     s.board.railsUp = true ∧ s.power.calDue = true ∧ s.power.active < 2) ∧ live.power.calDue = false := by decide +kernel

def startsAs (s : State) (op p c : Nat) : Bool := s.startable 3 op = some (taken op p c)

theorem witness_power_commands :
    (∀ w ∈ [1499, 1500, 5000, 5001], startsAs (cmd opPowerCap 0xFF 0xFF (leBytes 2 w ++ [2])) opPowerCap 0xFF 0xFF = true) ∧
    (let s := cmd opPowerCap 0xFF 0xFF (leBytes 2 5000 ++ [2])
     1500 ≤ s.body 3 0 2 ∧ s.body 3 0 2 ≤ 5000 ∧ s.body 3 2 1 ≤ 2 ∧ s.config.swap = none ∧
       (let t : State := { s with config := { s.config with swap := some 4 } }
        startsAs t opPowerCap 0xFF 0xFF = true ∧ t.config.swap ≠ none ∧ t.body 3 0 2 = 5000)) ∧
    (cmd opPowerCap 0xFF 0xFF (leBytes 2 1499)).body 3 0 2 < 1500 ∧
    2 < (cmd opPowerCap 0xFF 0xFF (leBytes 2 1500 ++ [3])).body 3 2 1 ∧
    (∀ k ∈ [0, 15], let s := cmd opPowerFixed 0xFF 0xFF (leBytes 2 1 ++ leBytes 2 (900 + 100 * k))
      startsAs s opPowerFixed 0xFF 0xFF = true ∧ s.body 3 0 1 = 1 ∧ s.body 3 2 2 = 900 + 100 * k ∧ floorW k ≤ s.power.effCap ∧
        (inPower s fun p => { p with effCap := 2000 }).power.effCap < floorW k) ∧
    (let s := cmd opPowerFixed 0xFF 0xFF []
     startsAs s opPowerFixed 0xFF 0xFF = true ∧ s.body 3 0 1 = 0 ∧ s.body 3 2 2 = 0) := by decide +kernel

theorem witness_energy :
    (∀ op ∈ [0, 1, 2], let s := cmd opEnergyRead 0xFF 0xFF (BitVec.ofNat 8 op :: leBytes 7 0 ++ leBytes 8 0xA000 ++ leBytes 4 64)
      startsAs s opEnergyRead 0xFF 0xFF = true ∧ s.body 3 0 1 = op ∧ s.energyBufOk (taken opEnergyRead 0xFF 0xFF) = true) ∧
    (cmd opEnergyRead 0xFF 0xFF []).anyConf = false ∧
    (let s := cmd opEnergyRead 0xFF 0xFF []
     (s.setPart 0 { s.part 0 with conf := true }).anyConf = true) ∧
    (let s := cmd opEnergyRead 0 0 []
     startsAs s opEnergyRead 0 0 = true ∧ s.body 3 0 1 = 0 ∧ (s.part 0).conf = false) ∧
    startsAs (cmd opEnergyRead 0 0xFF []) opEnergyRead 0 0xFF = true := by decide +kernel

/-! ## Witnesses: pins, resets and starts -/

/-- All that the rails wait for is there, and they are down. -/
def ready : State := onBoard live fun b => { b with railsUp := false, pwrGood := false, rearmed := true }

theorem witness_power_up : ready.mayRaise = true ∧ live.mayRaise = false ∧
    (∀ f ∈ [(fun (b : Board) => { b with pwrEn := false }), (fun (b : Board) => { b with coolantStop := true }),
        (fun (b : Board) => { b with lampReady := false }), (fun (b : Board) => { b with holdoff := true, poweredOff := true }),
        (fun (b : Board) => { b with tripHold := true, tripReport := true }), (fun (b : Board) => { b with coldReset := true })],
      (onBoard ready f).mayRaise = false) ∧
    (onBoard live fun b => { b with coldReset := true, recordBusy := true }).board.recordBusy = true ∧
    (onBoard live fun b => { b with recordBusy := true, coldRelease := some (5, 1) }).board.coldRelease = some (5, 1) ∧
    live.board.railsUp = true ∧ ready.board.railsUp = false ∧ live.board.stopCount = false ∧
    (onBoard live fun b => { b with stopCount := true, coolantStop := true }).board.stopCount = true ∧
    tripAt 191 ≤ (4000 : Int) ∧ live.thermal.selfTest.getLsbD 191 = false ∧ (0 : Int) < tripAt 0 := by decide +kernel

theorem witness_pins :
    (let s := onBoard live fun b => { b with inputOn := false }
     s.board.inputOn = false ∧ s.board.vddSb = true) ∧ live.board.inputOn = true ∧
    live.board.coldReset = false ∧ State.reset.board.coldReset = true ∧ live.board.railsUp = true ∧ live.board.coldDue = false ∧
    live.board.warmDue = false ∧ live.board.coolantStop = false ∧ live.sized ∧
    (onBoard live fun b => { b with coolantStop := true }).board.coolantStop = true ∧
    (onBoard live fun b => { b with stopCount := true }).board.stopCount = true ∧ live.rcv.hang = none ∧
    (withRcv live fun r => { r with hang := some 7 }).rcv.hang.isSome = true ∧ ready.board.railsUp = false ∧
    live.board.hostPerst = false ∧ State.reset.board.hostPerst = true := by decide +kernel

def cold (sel : BitVec 2) : State := onBoard live fun b => { b with coldDue := true, bootsel := sel }
def warm : State := onBoard live fun b => { b with warmDue := true }

theorem witness_starts : finding.damaged = [] ∧ finding.recordBad = 0 ∧
    finding.selfTestOk = true ∧ (live.fuses.keysetDev = true ∨ live.fuses.debugFuse = true) ∧
    (∀ c ∈ [1, 2, 3, 4, 5, 6], live.imageOk c (live.activeImage c) = true ∧ (live.bootEntry c).fellBack = false) ∧
    live.sec.runningImages.length = 6 ∧ live.flash.retired = [] ∧ finding.edgesOk = BitVec.allOnes 12 ∧
    (∀ c ∈ [1, 2, 3], finding.firstBeat.getLsbD c = true) ∧ finding.stacksOk = BitVec.allOnes 32 ∧ finding.bistFailed = [] ∧
    live.flash.fences = [] ∧ (cold 0).board.railsUp = true ∧ (cold 0).board.coldDue = true ∧ (cold 0).board.bootsel = 0 ∧
    live.board.coldDue = false ∧ live.board.warmDue = false ∧ { finding with selfTestOk := false }.selfTestOk = false ∧
    (∀ c ∈ [1, 2, 4, 5, 6], let s := (cold 1).setImage false c none
      s.board.bootsel = 1 ∧ s.imageOk c (s.image false c) = false ∧ s.board.coldDue = true) ∧
    (let s : State := { warm with sec := { warm.sec with runningImages := live.activeImage 1 :: List.replicate 5 none } }
     s.board.warmDue = true ∧ s.board.railsUp = true ∧ s.sec.error = false ∧ s.regionPresent 0 = true ∧
       s.sec.runningImages.length = 6 ∧ (s.sec.runningImages.getD 0 none).isSome = true) := by
  decide +kernel

/-! ## Witnesses: recovery and dumps -/

def checked : State := { atFrame beating 51 with mail := { live.mail with start := 1 }, sec := { live.sec with running := true } }
def shot : Dump :=
  { escalated := false, complete := true, summaryWritten := false, isSummary := true, seq := 1, frame := 7, resetGen := 1
    sections := [(1, [1, 2, 3, 4])] }
def withSum (a b : Option Dump) : State :=
  withRcv (withFlash live fun f => { f with summaryA := a, summaryB := b }) fun r => { r with summaryDue := some shot, dump := some shot }

theorem witness_heartbeats : checked.board.railsUp = true ∧ checked.started = true ∧ checked.power.frame.toNat % 50 = 1 ∧
    (atFrame checked 52).power.frame.toNat % 50 ≠ 1 ∧ checked.rcv.fails.length = 3 ∧ checked.board.hostPerst = false ∧
    checked.upd.activation = none ∧ checked.rcv.cmdHeld = false ∧ checked.rcv.fails.getD 0 0 < 2 ∧
    (let s := failing checked [2, 2, 2]
     s.started = true ∧ s.rcv.fails.length = 3 ∧ 2 ≤ s.rcv.fails.getD 0 0 ∧ s.flash.persist.hangTimes.length = 3 ∧
       2 ≤ s.rcv.fails.getD 2 0) ∧
    (let s := { withRcv checked fun r => { r with cmdHeld := true, hang := some 1 } with
       flash := { live.flash with persist := { live.flash.persist with hangTimes := [1, 2, 3601] } } }
     s.board.hostPerst = false ∧ s.upd.activation = none ∧ s.rcv.cmdHeld = true ∧ s.rcv.hang.isSome = true ∧ s.started = true ∧
       s.flash.persist.hangTimes = [1, 2, 3601]) ∧ (∀ x ∈ checked.flash.retired, x.retired = true) ∧
    (let s := withRcv checked fun r => { r with cmdHeld := true }
     s.rcv.secHeld = false ∧ s.sec.error = false ∧ s.sec.running = true ∧ s.sec.paused = false ∧ s.rcv.cmdHeld = true ∧
       s.rcv.fails.getD 2 0 < 2) ∧
    (let s : State := { withRcv checked fun r => { r with cmdHeld := true } with sec := { live.sec with error := true } }
     s.controlRuns = true ∧ s.started = true ∧ s.rcv.cmdHeld = true ∧ s.sec.error = true) ∧
    (let s : State := { live with sec := { live.sec with running := true } }
     s.rcv.secHeld = true ∧ s.sec.running = true ∧ s.rcv.cmdHeld = true ∧ s.rcv.ctlHeld = true ∧ s.board.hostPerst = false ∧
       s.board.railsUp = true) ∧
    (∀ comp ∈ [1, 2, 3], let s : State := { withRcv checked fun r => { r with cmdHeld := true } with
       sec := { live.sec with error := true }
       upd := { live.upd with activation := some { comp, slot := none, fromB := false, linkDown := [], linkLeft := [] } } }
     s.board.railsUp = true ∧ s.started = true ∧ s.power.frame.toNat % 50 = 1 ∧ s.rcv.cmdHeld = true ∧ s.sec.error = true ∧
       s.upd.activation.any (fun a => a.comp == comp) = true) ∧
    live.board.lampReady = true ∧ State.reset.board.lampReady = false ∧ (3 : Nat) < 4 ∧ live.sized := by decide +kernel

theorem witness_dumps : live.rcv.summaryDue = none ∧ (withSum none none).rcv.summaryDue = some shot ∧
    dumpAge (withSum none (some shot)).flash.summaryA ≤ dumpAge (withSum none (some shot)).flash.summaryB ∧
    dumpAge (withSum (some shot) none).flash.summaryB < dumpAge (withSum (some shot) none).flash.summaryA ∧
    (withSum none none).rcv.dump = some shot ∧
    (∀ op ∈ [0, 1, 2], let s := cmd opLogRead 0xFF 0xFF (BitVec.ofNat 8 op :: leBytes 7 0 ++ leBytes 8 0xA000 ++ leBytes 4 64)
      startsAs s opLogRead 0xFF 0xFF = true ∧ s.bufOk 3 = true ∧ s.body 3 0 1 = op) ∧
    (∀ off ∈ [0, 2 ^ 31], let s := put (withSum none (some shot)) opDumpRead 0xFF 0xFF (leBytes 4 0 ++ leBytes 4 off ++ leBytes 8 0xA000 ++ leBytes 4 64)
      startsAs s opDumpRead 0xFF 0xFF = true ∧ s.body 3 0 1 ≤ 2 ∧ s.bufOk 3 = true ∧ s.body 3 0x10 4 ≤ 16 * mib ∧
        s.dumpObject 0 = some shot ∧ s.body 3 4 4 = off ∧ 0 < shot.bytes.length ∧ shot.bytes.length ≤ 2 ^ 31) ∧
    (let s := cmd opDumpRead 0xFF 0xFF (leBytes 4 0 ++ leBytes 4 0 ++ leBytes 8 0xA000 ++ leBytes 4 64)
     startsAs s opDumpRead 0xFF 0xFF = true ∧ s.dumpObject 0 = none) := by decide +kernel

/-! ## Witnesses: firmware -/

def stage (comp flags off len : Nat) : List Byte :=
  [BitVec.ofNat 8 comp, BitVec.ofNat 8 flags, 0, 0] ++ leBytes 4 off ++ leBytes 8 0x10000 ++ leBytes 4 len
def staged (g : Staging) (s : State) : State := { s with upd := { s.upd with staging := some g } }
def piece : Staging :=
  { comp := 3, byPldm := false, toB := true, checked := true, bytes := [1, 2], lastFrame := 0, slot := some 3, last := false }
/-- Component `comp` has a second good image, and it is pending. -/
def pendingImage (comp : Nat) (s : State) : State :=
  (s.setImage true comp (some (resetImage comp))).setBootEntry comp { s.bootEntry comp with bValid := true, pending := true }
def activating (comp : Nat) (s : State) : State :=
  { s with upd := { s.upd with activation := some { comp, slot := some 3, fromB := false, linkDown := [], linkLeft := [] } } }

theorem witness_staging :
    (let s := cmd opFwStage 0xFF 0xFF (stage 3 1 0 24576)
     startsAs s opFwStage 0xFF 0xFF = true ∧ s.stageFieldsOk 3 = true ∧ s.board.bootsel = 0 ∧ s.stageBusy 3 = false ∧
       s.body 3 1 1 = 1 ∧ s.body 3 4 4 = 0 ∧ s.flash.boot.entries.length = 6 ∧ s.flash.boot.seq + 1 < 2 ^ 32 ∧
       s.checkImage 3 true (resetImage 3) = none ∧ s.checkImage 3 false (resetImage 3) = some stHeaderReject) ∧
    (let s := onBoard (cmd opFwStage 0xFF 0xFF (stage 3 1 0 24576)) fun b => { b with bootsel := 1 }
     startsAs s opFwStage 0xFF 0xFF = true ∧ s.stageFieldsOk 3 = true ∧ s.board.bootsel ≠ 0) ∧
    (cmd opFwStage 0xFF 0xFF (stage 7 1 0 24576)).stageFieldsOk 3 = false ∧
    (let s := staged piece (cmd opFwStage 0xFF 0xFF (stage 3 0 2 4096))
     startsAs s opFwStage 0xFF 0xFF = true ∧ s.stageFieldsOk 3 = true ∧ s.stageBusy 3 = false ∧ s.pieceWaits 3 = true ∧
       (cmd opFwStage 0xFF 0xFF (stage 3 1 0 24576)).pieceWaits 3 = false ∧
       (staged { piece with slot := none } s).pieceWaits 3 = false) ∧
    (staged { piece with comp := 1 } (cmd opFwStage 0xFF 0xFF (stage 3 1 0 24576))).stageBusy 3 = true ∧
    (let s := cmd opFwStage 0xFF 0xFF (stage 3 0 4096 4096)
     startsAs s opFwStage 0xFF 0xFF = true ∧ s.stageFieldsOk 3 = true ∧ s.stageBusy 3 = false ∧ s.stagedBytes 3 = none) ∧
    (∀ off ∈ [2, 4096], let s := staged { piece with slot := none } (cmd opFwStage 0xFF 0xFF (stage 3 0 off 4096))
      startsAs s opFwStage 0xFF 0xFF = true ∧ s.stageFieldsOk 3 = true ∧ s.stageBusy 3 = false ∧ s.stagedBytes 3 = some [1, 2] ∧
        s.body 3 4 4 = off ∧ s.body 3 1 1 = 0) ∧
    live.board.recordBusy = false ∧ (staged piece live).upd.staging = some piece ∧
    (staged { piece with last := true } live).upd.staging.any (fun g => g.last) = true ∧ 1 ≤ piece.comp ∧ piece.comp ≤ 6 ∧
    live.flash.slotA.length = 6 ∧ live.flash.slotB.length = 6 ∧
    (let s := atFrame (staged { piece with slot := none } live) 3000000
     s.upd.staging = some { piece with slot := none } ∧ piece.lastFrame + 3000000 ≤ s.power.frame.toNat) ∧
    live.upd.staging = none ∧
    (∀ b ∈ [0xA000, 0xA001], let s := cmd opFwStatus 0xFF 0xFF (leBytes 8 0 ++ leBytes 8 b ++ leBytes 4 256)
      startsAs s opFwStatus 0xFF 0xFF = true ∧ s.bufOk 3 = decide (b = 0xA000)) := by decide +kernel

/-- The last piece arrives whole or it does not. -/
theorem witness_digest : ∃ b : Bool, digestOk piece.bytes = b := ⟨_, rfl⟩

theorem witness_activation :
    (∀ comp ∈ [1, 2, 3, 4, 5, 6], let s := pendingImage comp (put (good beating) opFwActivate 0xFF 0xFF [BitVec.ofNat 8 comp])
      startsAs s opFwActivate 0xFF 0xFF = true ∧ s.body 3 0 1 = comp ∧ s.activateRefusal comp = none ∧
        s.flash.boot.entries.length = 6 ∧ s.flash.boot.seq + 1 < 2 ^ 32) ∧
    (let s := pendingImage 3 (put (good beating) opFwActivate 0xFF 0xFF [3])
     let u : State := { s with mail := { s.mail with taken := { taken opGetInfo 0xFF 0xFF with slot := 2, started := true } :: s.mail.taken } }
     startsAs u opFwActivate 0xFF 0xFF = true ∧ u.body 3 0 1 = 3 ∧ u.activateRefusal 3 = none ∧
       u.earlierTaken (taken opFwActivate 0xFF 0xFF) = true ∧ s.earlierTaken (taken opFwActivate 0xFF 0xFF) = false) ∧
    (∀ comp ∈ [0, 7], let s := cmd opFwActivate 0xFF 0xFF [BitVec.ofNat 8 comp]
      startsAs s opFwActivate 0xFF 0xFF = true ∧ s.body 3 0 1 = comp) ∧
    (cmd opFwActivate 0xFF 0xFF [3]).activateRefusal 3 = some stWrongState ∧ live.upd.activation = none ∧
    (let s := inPower (activating 4 live) fun p => { p with handover := true }
     s.upd.activation.all (fun a => !s.activationReady a) = true ∧ s.upd.activation.isSome = true) ∧
    (∀ comp ∈ [1, 6], let s := activating comp live
      s.upd.activation.all (fun a => s.activationReady a && a.slot == some 3 && a.comp == comp) = true ∧
        s.upd.activation.isSome = true ∧ s.sec.runningImages.length = 6 ∧ s.sec.waiting = []) ∧
    (∀ comp ∈ [1, 6], let s := cmd opFwCommit 0xFF 0xFF [BitVec.ofNat 8 comp]
      startsAs s opFwCommit 0xFF 0xFF = true ∧ s.commitRefusal comp = none ∧ s.fuses.svnFloor.length = 6) ∧
    (let s := cmd opFwCommit 0xFF 0xFF [7]
     startsAs s opFwCommit 0xFF 0xFF = true ∧ s.commitRefusal 7 = some stBadField) := by decide +kernel

/-! ## Witnesses: the tray and the bus -/

/-- The security controller runs. -/
def serving : State := { beating with sec := { live.sec with running := true } }

theorem witness_tray : live.lampAnswers = true ∧ live.board.bootsel ≠ 3 ∧ State.reset.lampAnswers = false ∧
    (onBoard live fun b => { b with bootsel := 3 }).board.bootsel = 3 ∧ serving.secServes = true ∧ live.secServes = false ∧
    serving.lampAnswers = true ∧ serving.commitRefusal 6 = none ∧ serving.commitRefusal 0 = some stBadField ∧
    serving.fuses.svnFloor.length = 6 ∧
    reportValid { msg with crflags := 5 } = true ∧ reportValid { msg with crflags := 7, outlet := 0 } = true ∧
    reportValid msg = false ∧ reportValid { msg with crflags := 5, flow := 2001 } = false ∧
    (withFlash live fun f => { f with persist := { f.persist with oos := true } }).flash.persist.oos = true ∧
    live.flash.persist.oos = false ∧ live.fabricServes = true ∧ ready.fabricServes = false ∧ ready.lampAnswers = true ∧
    fabFieldsOk 3 0 1 = true ∧ fabFieldsOk 3 0 2 = true ∧ fabFieldsOk 4 0 1 = false ∧ fabFieldsOk 0 4 1 = false ∧ fabFieldsOk 0 0 17 = false ∧
    warm.board.railsUp = true ∧ warm.board.warmDue = true ∧ live.board.coldDue = false ∧ live.board.warmDue = false ∧
    (∀ n ∈ [1500, 1501], let s : State := { atFrame live n with thermal := { live.thermal with everValid := true } }
      s.thermal.everValid = true ∧ (s.thermal.lastValid + 1500 < s.power.frame.toNat ↔ n = 1501)) ∧
    (let s : State := { atFrame live 3000000 with thermal := { live.thermal with everValid := true, held := true } }
     s.thermal.held = true ∧ s.thermal.lastValid + 3000000 ≤ s.power.frame.toNat) ∧ live.thermal.everValid = false ∧
    live.thermal.held = false := by decide +kernel

def addressed : State := { live with side := { live.side with dynAddr := some 0x30 } }

theorem witness_bus : live.lampAnswers = true ∧ live.side.dynAddr = none ∧ addressed.side.dynAddr = some 0x30 ∧
    addressed.lampAnswers = true ∧ State.reset.lampAnswers = false ∧ (1 : BitVec 8) ≠ 0 ∧ (0xFE : BitVec 8) ≠ 0xFF := by decide +kernel

def queued (polled : Bool) : State :=
  { live with side := { live.side with queue := [.shutdown resetPersist], polled } }
def withPort : State :=
  let s := inState .detect
  { s with side := { s.side with pdrPorts := [0] } }

theorem witness_monitoring : (queued true).lampAnswers = true ∧ (queued true).board.bootsel ≠ 3 ∧ (queued true).side.polled = true ∧
    (queued false).side.polled = false ∧ (queued false).side.queue.length = 1 ∧ live.side.queue = [] ∧
    live.sensorIds[0]? = some 1 ∧ live.sensorIds[199]? = some 0x1BF ∧ live.sensorIds[200]? = none ∧
    numericId 0x100 = true ∧ numericId 0x1BF = true ∧ numericId 0x1C0 = false ∧ numericId 0x10 = false ∧
    ready.lampAnswers = true ∧ ready.board.railsUp = false ∧ live.board.railsUp = true ∧ 0x1FF ∉ live.sensorIds ∧
    (pldmCommands 0).isSome = true ∧ (pldmCommands 2).isSome = true ∧ (pldmCommands 5).isSome = true ∧
    withPort.board.railsUp = true ∧ withPort.halfNamed 0 = some (halfOf 0) ∧ 0 ∈ withPort.side.pdrPorts ∧
    (onBoard live fun b => { b with bootsel := 3 }).lampAnswers = true := by decide +kernel

def updating (f : PldmUpdate → PldmUpdate) : State :=
  { live with upd := { live.upd with pldm := f { live.upd.pldm with mode := true, table := [1, 3, 6] } } }
def pulling (g : Staging) : State := staged g (updating fun p => { p with comp := some g.comp })
def pull : Staging :=
  { comp := 3, byPldm := true, toB := true, checked := false, bytes := [], lastFrame := 0, slot := none, last := false }
def applying (c : Nat) : State := pendingImage c (updating fun p => { p with applied := [c] })

theorem witness_update : live.lampAnswers = true ∧ live.upd.pldm.mode = false ∧ live.mailboxUpdate = false ∧
    (updating id).upd.pldm.mode = true ∧ (staged piece live).mailboxUpdate = true ∧ (staged piece live).lampAnswers = true ∧
    (updating id).lampAnswers = true ∧ (updating id).upd.staging.all (fun g => g.byPldm) = true ∧ live.upd.staging = none ∧
    (updating id).upd.pldm.comp = none ∧ (updating id).upd.pldm.queue = none ∧ 1 ∈ (updating id).upd.pldm.table ∧
    6 ∈ (updating id).upd.pldm.table ∧ 2 ∉ (updating id).upd.pldm.table ∧
    (pulling pull).upd.staging = some pull ∧ (pulling pull).upd.pldm.comp = some 3 ∧ pull.checked = false ∧ pull.bytes.length + 4096 < 24576 ∧
    pull.wants = 4096 ∧ (pulling pull).upd.staging.all (fun g => g.byPldm) = true ∧ (pulling pull).upd.pldm.mode = true ∧
    ((updating id).upd.pldm.table.filter fun c => (updating id).upd.pldm.applied.contains c) = [] ∧ (updating id).board.bootsel ≠ 3 ∧
    (∀ c ∈ [1, 3], (applying c).upd.pldm.mode = true ∧ (applying c).upd.pldm.comp = none ∧ (applying c).upd.pldm.queue = none ∧
      ((applying c).upd.pldm.table.filter fun d => (applying c).upd.pldm.applied.contains d) = [c] ∧
      (applying c).activateRefusal c = none ∧ (applying c).board.railsUp = true) ∧
    (let s := updating fun p => { p with applied := [3] }
     (s.upd.pldm.table.filter fun d => s.upd.pldm.applied.contains d) = [3] ∧ s.activateRefusal 3 = some stWrongState) := by
  decide +kernel

/-- Five pieces are in; the sixth makes the head whole, and what is no header is refused. -/
theorem witness_checks : (List.replicate 20480 (0 : Byte)).length + 4096 = 24576 ∧
    (∀ l : List Byte, (pulling { pull with bytes := l }).upd.staging = some { pull with bytes := l } ∧
      (pulling { pull with bytes := l }).upd.pldm.comp = some 3) ∧
    live.stagingStatus 3 false (resetImage 3) = some stHeaderReject := by
  refine ⟨?_, fun l => ⟨rfl, rfl⟩, by decide +kernel⟩
  rw [List.length_replicate]

/-! ## Witnesses: attestation and device security -/

def inSec (f : Security → Security) : State := { serving with sec := f serving.sec }
def doe : Conn := { tr := .doe, session := none }
def inside (tr : Transport) : Conn := { tr, session := some 7 }
def agreedAll : Nego := { version := true, caps := true, algs := true, session := true }
def talking : State := inSec fun k => { k with nego := [agreedAll, agreedAll] }
def sessions (n : Nat) (tr : Transport) (established : Bool) : State :=
  inSec fun k => { k with nego := [agreedAll, agreedAll], sessions := List.replicate n { id := 7, tr, established, secret := 0 } }
/-- The hypotheses of a connection that is served. -/
def open_ (s : State) (cn : Conn) : Bool :=
  s.secServes && s.sec.nego.length == 2 && (if cn.tr = .doe then s.board.cxlUp && !s.cmdPaused
    else s.lampAnswers && s.board.bootsel != 3 && s.board.railsUp && !s.board.coldDue && !s.board.warmDue)

theorem witness_spdm_who :
    (onBoard serving fun b => { b with cxlUp := false }).board.cxlUp = false ∧ ready.board.railsUp = false ∧
    (let s := onBoard serving fun b => { b with warmDue := true }
     s.lampAnswers = true ∧ s.board.bootsel ≠ 3 ∧ s.board.railsUp = true ∧ s.board.coldDue = false ∧ s.board.warmDue = true) ∧
    live.secServes = false ∧ live.board.cxlUp = true ∧ live.cmdPaused = false ∧ live.lampAnswers = true ∧ live.board.warmDue = false ∧
    serving.secServes = true ∧ serving.sec.deferred = [] ∧
    (inSec fun k => { k with deferred := [(alone, .getVersion)] }).sec.deferred = [(alone, .getVersion)] ∧
    (inSec fun k => { k with deferred := [(alone, .getVersion)] }).secServes = true ∧ serving.sec.nego.length = 2 ∧
    (let s := activating 3 serving
     s.board.cxlUp = true ∧ s.cmdPaused = true) := by decide +kernel

theorem witness_spdm :
    (∀ cn ∈ [alone, doe], open_ serving cn = true ∧ open_ talking cn = true ∧ (serving.nego cn).version = false ∧
      (serving.nego cn).caps = false ∧ serving.agreed cn = false ∧ (talking.nego cn).version = true ∧ (talking.nego cn).caps = true ∧
      talking.agreed cn = true ∧ (talking.nego cn).session = true ∧ (talking.sessionsOf cn.tr).length < 4 ∧
      open_ (sessions 4 cn.tr true) cn = true ∧ 4 ≤ ((sessions 4 cn.tr true).sessionsOf cn.tr).length) ∧
    (∀ tr ∈ [Transport.mctp, .doe], open_ (sessions 1 tr false) (inside tr) = true ∧
      ({ id := 7, tr, established := false, secret := 0 } : Session) ∈ (sessions 1 tr false).sec.sessions ∧
      (sessions 1 tr false).inSession (inside tr) = false ∧ (sessions 1 tr true).inSession (inside tr) = true ∧
      (sessions 1 tr true).agreed (inside tr) = true ∧ open_ (sessions 1 tr true) (inside tr) = true) ∧
    askedBlocks 0 = some [] ∧ askedBlocks 8 = some [8] ∧ askedBlocks 0xFF = some [1, 2, 3, 4, 5, 6, 7, 8] ∧ askedBlocks 9 = none := by
  decide +kernel

/-- A range of a chain that has a byte lies in it; and a part of a response that is there. -/
theorem witness_chain (h : serving.chain 0 ≠ []) : 0 < (serving.chain 0).length := List.length_pos_iff.mpr h
theorem witness_chunk (h : 0 < Config.deviceId 4) :
    (([1, 2, 3] : List Byte).drop (0 * Config.deviceId 4)).take (Config.deviceId 4) ≠ [] := by
  cases e : Config.deviceId 4 with
  | zero => omega
  | succ n => simp

def cosigned (frame : Nat) : State :=
  atFrame (inSec fun k => { k with cosigs := [{ id := 1, conn := alone, frame, sig := List.replicate 16224 0 }] }) 600000
def nonced (dev : Bool) (token : List Byte) : State :=
  let s := inSec fun k => { k with nonce := some (1, 0), token }
  { s with fuses := { s.fuses with keysetDev := dev, debugFuse := false } }

theorem witness_vendor :
    (∀ s ∈ [cosigned 100000, cosigned 99999, nonced true [], nonced false []], open_ s alone = true) ∧ open_ serving doe = true ∧
    ((cosigned 100000).sec.cosigs.find? fun x =>
      x.id == 1 && x.conn == alone && decide ((cosigned 100000).power.frame.toNat ≤ x.frame + 500000)).isSome = true ∧
    (∀ x ∈ (cosigned 99999).sec.cosigs, x.frame + 500000 < (cosigned 99999).power.frame.toNat) ∧
    (cosigned 0).sec.cosigs.length = 1 ∧ 4096 ≤ 4096 ∧ 12128 + 4096 ≤ 16224 ∧ 16224 < 12129 + 4096 ∧
    (nonced true []).fuses.keysetDev = true ∧ (nonced true []).fuses.debugFuse = false ∧
    (nonced true []).sec.nonce = some (1, 0) ∧ (nonced false []).fuses.keysetDev = false ∧
    serving.fuses.debugFuse = true := by decide +kernel

theorem witness_cosig : ∀ x ∈ (cosigned 100000).sec.cosigs, x.sig.length = 16224 := by
  intro x hx
  have h : (cosigned 100000).sec.cosigs = [{ id := 1, conn := alone, frame := 100000, sig := List.replicate 16224 0 }] := rfl
  rw [h, List.mem_singleton] at hx
  rw [hx, List.length_replicate]

/-- The last piece of a token: 16,384 bytes are there, and 272 come. -/
theorem witness_token : (List.replicate 16384 (0 : Byte) ++ List.replicate 272 0).length = 16656 ∧
    (List.replicate 272 (0 : Byte)).length ≤ 4096 ∧
    ∀ l, (nonced true l).sec.token = l ∧ (nonced true l).sec.nonce = some (1, 0) ∧ open_ (nonced true l) alone = true := by
  refine ⟨?_, ?_, fun l => ⟨rfl, rfl, rfl⟩⟩
  · rw [List.length_append, List.length_replicate, List.length_replicate]
  · rw [List.length_replicate]; decide +kernel

def keyed (programmed go : List (Nat × Nat)) (tdi : TdiState) : State :=
  let s := sessions 1 .doe true
  { s with sec := { s.sec with ideIo := { programmed, go }, tdi } }

theorem witness_device_security :
    (∀ s ∈ [keyed [] [] .configUnlocked, keyed [(1, 7)] [(0, 7)] .configLocked, keyed [(1, 7)] [(1, 7)] .run],
      open_ s (inside .doe) = true ∧ s.inSession (inside .doe) = true) ∧
    open_ serving doe = true ∧ serving.inSession doe = false ∧
    (1, 7) ∉ ((keyed [(1, 7)] [(0, 7)] .configLocked).ide .ioLink).go ∧
    (1, 7) ∈ ((keyed [(1, 7)] [(0, 7)] .configLocked).ide .ioLink).programmed ∧
    (1, 7) ∈ ((keyed [(1, 7)] [(1, 7)] .run).ide .ioLink).go ∧ (1, 7) ∉ ((keyed [] [] .configUnlocked).ide .ioLink).programmed ∧
    (keyed [] [] .configUnlocked).sec.tdi = .configUnlocked ∧ (keyed [(1, 7)] [(0, 7)] .configLocked).sec.tdi = .configLocked := by
  decide +kernel

/-! ## Witnesses: the whole module -/

theorem witness_canonical : (live.memoryWf ∧ (withCell user).memoryWf) ∧
    ∃ t, step { withCell user with pending := [.inputApplied] } = .next t := ⟨by decide +kernel, _, rfl⟩
end Sys2Proof.Tests
end

section
/-! PROOFS. The module as a whole: its reset state, power-up and power-off, pins and resets (01_module). -/

/-! ## What the compute-side reset keeps (R228, R453) -/

namespace Sys2Proof.Machine

/-- What a reset of compute work leaves alone: fuses, the committed log, the board but for its alert, `RESET_GEN`, the
fabric, and the generations of partitions. -/
structure Kept where
  fuses : Fuses
  log : List LogEntry
  board : Board
  resetGen : BitVec 32
  fabric : Fabric
  pgens : List (BitVec 8)

def State.kept (s : State) : Kept :=
  { fuses := s.fuses, log := s.flash.log, board := { s.board with alert := false }, resetGen := s.mail.resetGen
    fabric := s.fabric, pgens := s.parts.map fun k => k.pgen }

/-- A fold keeps what each of its steps keeps. -/
theorem foldl_keeps {α β γ : Type} (g : β → γ) (f : β → α → β) (h : ∀ b a, g (f b a) = g b) (l : List α) (b : β) :
    g (l.foldl f b) = g b := by
  induction l generalizing b with
  | nil => rfl
  | cons a l ih => exact (ih _).trans (h b a)

/-! ### State operations -/

@[simp] theorem State.kept_free (s : State) : s.free.2.kept = s.kept := rfl

@[simp] theorem State.kept_setGranule (s : State) (g : Nat) (v : Granule) : (s.setGranule g v).kept = s.kept := rfl

@[simp] theorem State.kept_hostWrite (s : State) (a : Nat) (l : List Byte) : (s.hostWrite a l).kept = s.kept := rfl

@[simp] theorem State.kept_complete (s : State) (t : Taken) (r : Report) : (s.complete t r).kept = s.kept := rfl

@[simp] theorem State.kept_completeSlot (s : State) (slot : Nat) (r : Report) : (s.completeSlot slot r).kept = s.kept := by
  unfold State.completeSlot
  split <;> rfl

/-- Logging an event raises the alert and changes no committed entry. -/
@[simp] theorem State.kept_log (s : State) (e : BitVec 16) (src : BitVec 8) (o a : BitVec 32) :
    (s.log e src o a).kept = s.kept := by
  unfold State.log
  dsimp only
  split
  · rfl
  · split <;> rfl

theorem State.kept_setPart (s : State) (p : Nat) (v : Part) (h : v.pgen = (s.part p).pgen) :
    (s.setPart p v).kept = s.kept := by
  have hp : (setAt s.parts p v).map (fun k => k.pgen) = s.parts.map fun k => k.pgen := by
    rw [setAt, List.map_set, h]
    by_cases hl : p < s.parts.length
    · have he : (s.part p).pgen = (s.parts.map fun k => k.pgen)[p]'(by simpa using hl) := by simp [State.part, hl]
      rw [he, List.set_getElem_self]
    · exact List.set_eq_of_length_le (by simpa using hl)
  simp only [State.kept, State.setPart, hp]

@[simp] theorem State.kept_setCtx (s : State) (p c : Nat) (v : Ctx) : (s.setCtx p c v).kept = s.kept :=
  s.kept_setPart p _ rfl

@[simp] theorem State.kept_freezeTotals (s : State) (p : Nat) : (s.freezeTotals p).kept = s.kept :=
  s.kept_setPart p _ rfl

/-! ### Writes to memory -/

@[simp] theorem State.kept_recall (s : State) (pa n : Nat) : (s.recall pa n).kept = s.kept := by
  unfold State.recall
  dsimp only
  split <;> rfl

@[simp] theorem State.kept_firstWrite (s : State) (g : Nat) : (s.firstWrite g).kept = s.kept := by
  unfold State.firstWrite
  split <;> rfl

theorem State.kept_of_mem (s : State) (m : Mem) : ({ s with mem := m } : State).kept = s.kept := rfl

@[simp] theorem State.kept_writeByte (s : State) (t : Tag) (pa : Nat) (b : Byte) : (s.writeByte t pa b).kept = s.kept := by
  have hext : ∀ m, ({ s.firstWrite (pa / granuleSize) with mem := m } : State).kept = s.kept := fun m => by
    rw [State.kept_of_mem, State.kept_firstWrite]
  unfold State.writeByte
  cases place pa with
  | hbm | ddr => exact hext _
  | shared | local_ | host | control | package | hole => rfl

@[simp] theorem State.kept_writeBytes (s : State) (t : Tag) (pa : Nat) (l : List Byte) :
    (s.writeBytes t pa l).kept = s.kept := by
  induction l generalizing s pa with
  | nil => rfl
  | cons b l ih => rw [State.writeBytes, ih, State.kept_writeByte]

@[simp] theorem State.kept_writePieces (s : State) (t : Tag) (ps : List Piece) (l : List Byte) :
    (s.writePieces t ps l).kept = s.kept := by
  induction ps generalizing s l with
  | nil => rfl
  | cons p ps ih => rw [State.writePieces, ih, State.kept_writeBytes, State.kept_recall]

@[simp] theorem State.kept_freeFill (s : State) (t : Tag) (ps : List Piece) : (s.freeFill t ps).kept = s.kept :=
  State.kept_writePieces _ _ _ _

@[simp] theorem State.kept_cutAsync (s : State) (c : Nat) : (s.cutAsync c).kept = s.kept :=
  foldl_keeps State.kept _ (fun _ _ => State.kept_freeFill _ _ _) _ _

@[simp] theorem State.kept_cutShort (s : State) (p c : Nat) : (s.cutShort p c).kept = s.kept := by
  unfold State.cutShort
  rw [foldl_keeps State.kept _ (fun _ _ => State.kept_freeFill _ _ _),
    foldl_keeps State.kept _ (fun _ _ => State.kept_cutAsync _ _)]

/-! ### Contexts that stop -/

@[simp] theorem State.kept_dropSubmit (s : State) (o : Nat) : (s.dropSubmit o).kept = s.kept := rfl

@[simp] theorem State.kept_dropTransfer (s : State) (slot : Nat) : (s.dropTransfer slot).kept = s.kept := rfl

@[simp] theorem State.kept_dropBatch (s : State) (slot : Nat) : (s.dropBatch slot).kept = s.kept := rfl

@[simp] theorem State.kept_dropWaiting (s : State) (slot : Nat) : (s.dropWaiting slot).kept = s.kept := rfl

@[simp] theorem State.kept_endCommand (s : State) (status : Nat) (t : Taken) : (s.endCommand status t).kept = s.kept := by
  unfold State.endCommand
  split
  · dsimp only
    split <;> simp
  · simp

@[simp] theorem State.kept_endCommands (s : State) (p c status : Nat) (but : Option Nat) :
    (s.endCommands p c status but).kept = s.kept :=
  foldl_keeps State.kept _ (fun _ _ => State.kept_endCommand _ _ _) _ _

@[simp] theorem State.kept_freeCells (s : State) (p c : Nat) : (s.freeCells p c).kept = s.kept := rfl

@[simp] theorem State.kept_haltCells (s : State) (p c : Nat) : (s.haltCells p c).kept = s.kept := rfl

@[simp] theorem State.kept_dropComms (s : State) (p c : Nat) : (s.dropComms p c).kept = s.kept := rfl

@[simp] theorem State.kept_dropHeld (s : State) (p c : Nat) : (s.dropHeld p c).kept = s.kept := rfl

@[simp] theorem State.kept_stopContext (s : State) (p c status : Nat) : (s.stopContext p c status).kept = s.kept := by
  unfold State.stopContext
  dsimp only
  split <;> simp

@[simp] theorem State.kept_stopPart (s : State) (p status : Nat) : (s.stopPart p status).kept = s.kept :=
  foldl_keeps State.kept _ (fun _ _ => State.kept_stopContext _ _ _ _) _ _

@[simp] theorem State.kept_stopOwner (s : State) (g status : Nat) : (s.stopOwner g status).kept = s.kept := by
  unfold State.stopOwner
  split <;> simp

/-! ### Pages that retire -/

@[simp] theorem State.kept_loseStack (s : State) (n : Nat) : (s.loseStack n).kept = s.kept := by
  unfold State.loseStack
  split
  · exact State.kept_stopOwner _ _ _
  · rfl

@[simp] theorem State.kept_loseDimm (s : State) (d : Nat) : (s.loseDimm d).kept = s.kept := by
  have hstop : ∀ (a : State) (p : Nat),
      (if (a.part p).inService && (a.part p).ranges.any (fun r => r.chan == d) then a.stopPart p stUnitFailed
        else a).kept = a.kept := by
    intro a p
    split <;> simp
  unfold State.loseDimm
  split
  · exact foldl_keeps State.kept _ hstop _ _
  · rfl

@[simp] theorem State.kept_memoryLimits (s : State) (pa : Nat) : (s.memoryLimits pa).kept = s.kept := by
  unfold State.memoryLimits
  split
  · split <;> simp
  · split <;> simp
  · rfl

@[simp] theorem State.kept_retirePage (s : State) (page : Nat) (cause : BitVec 2) :
    (s.retirePage page cause).kept = s.kept := by
  unfold State.retirePage
  split
  · rfl
  · rw [State.kept_memoryLimits, State.kept_log]
    rfl

@[simp] theorem State.kept_retirePending (s : State) (g : Nat) : (s.retirePending g).kept = s.kept :=
  foldl_keeps State.kept _ (fun _ _ => State.kept_retirePage _ _ _) _ _

@[simp] theorem State.kept_retireShared (s : State) : s.retireShared.kept = s.kept :=
  foldl_keeps State.kept _ (fun _ _ => State.kept_retirePending _ _) _ _

@[simp] theorem State.kept_freeGranule (s : State) (g : Nat) : (s.freeGranule g).kept = s.kept := by
  rw [State.freeGranule, State.kept_retirePending, State.kept_setGranule]

/-! ### Teardown of every context -/

@[simp] theorem State.kept_advanceCtx (s : State) (p c : Nat) : (s.advanceCtx p c).kept = s.kept := s.kept_setCtx p c _

@[simp] theorem State.kept_beginTeardown (s : State) (p c : Nat) : (s.beginTeardown p c).kept = s.kept := by
  simp [State.beginTeardown]

@[simp] theorem State.kept_endTeardown (s : State) (p c : Nat) : (s.endTeardown p c).kept = s.kept := by
  simp only [State.endTeardown, State.kept_setCtx]
  rw [foldl_keeps State.kept _ State.kept_freeGranule, State.kept_freeCells]

@[simp] theorem State.kept_killContext (s : State) (x : Nat × Nat) : (s.killContext x).kept = s.kept := by
  unfold State.killContext
  split <;> simp

@[simp] theorem State.kept_dropWork (s : State) : s.dropWork.kept = s.kept := rfl

@[simp] theorem State.kept_pendAll (s : State) : s.pendAll.kept = s.kept := rfl

@[simp] theorem State.kept_resetRegions (s : State) (m : BitVec 8) : (s.resetRegions m).kept = s.kept :=
  foldl_keeps State.kept State.resetRegion (fun _ _ => rfl) _ _

@[simp] theorem State.kept_resetPresent (s : State) : s.resetPresent.kept = s.kept := by
  unfold State.resetPresent
  dsimp only
  split
  · exact s.kept_resetRegions _
  · rfl

/-- The compute-side reset advances the generation of every partition and keeps all else of `Kept`. -/
theorem State.kept_resetCompute (s : State) :
    s.resetCompute.kept = { s.kept with pgens := s.kept.pgens.map genNext } := by
  have hk : (allContexts.foldl State.killContext s).dropWork.kept = s.kept := by
    rw [State.kept_dropWork, foldl_keeps State.kept _ State.kept_killContext]
  simp only [State.resetCompute, State.kept_resetPresent, State.kept_pendAll, ← hk]
  simp [State.kept, Function.comp_def]

end Sys2Proof.Machine

/-! ## The fabric at a reset (R281, R288), and the package warm start (R453) -/

namespace Sys2Proof.Machine

/-! ### Ports -/

theorem State.port_setPort (s : State) (h j : Nat) (k : Port) (hh : h < s.fabric.ports.length) :
    (s.setPort h k).port j = if j = h then k else s.port j := by
  by_cases e : j = h
  · subst e
    simp [State.port, State.setPort, setAt, hh]
  · rw [if_neg e]
    simp [State.port, State.setPort, setAt, Ne.symm e]

/-- What `State.kept` holds outside the fabric, and the partitions. -/
def State.offFabric (s : State) : Kept × List Part := ({ s.kept with fabric := resetFabric }, s.parts)

@[simp] theorem State.offFabric_setPort (s : State) (h : Nat) (k : Port) : (s.setPort h k).offFabric = s.offFabric := rfl

@[simp] theorem State.log_parts (s : State) (e : BitVec 16) (src : BitVec 8) (o a : BitVec 32) :
    (s.log e src o a).parts = s.parts := by
  unfold State.log
  dsimp only
  split
  · rfl
  · split <;> rfl

@[simp] theorem State.offFabric_log (s : State) (e : BitVec 16) (src : BitVec 8) (o a : BitVec 32) :
    (s.log e src o a).offFabric = s.offFabric := by
  rw [State.offFabric, State.kept_log, State.log_parts, State.offFabric]

/-- One half leaves its link for Disabled, with its event. -/
def State.disableHalf (s : State) (h : Nat) : State :=
  let k := s.port h
  let a := if (true && k.inService) = true then
      s.log evPortDown srcLink (BitVec.ofNat 32 (pidOf h)) (k.cause.setWidth 32) else s
  a.setPort h { k.unlink .disabled with disable := false, cause := 0 }

theorem State.resetHalves_all (s : State) :
    s.resetHalves (fun _ => true) (fun _ => .disabled) true = (List.range 72).foldl State.disableHalf s := by
  rw [State.resetHalves, List.filter_true]
  rfl

@[simp] theorem State.offFabric_disableHalf (s : State) (h : Nat) : (s.disableHalf h).offFabric = s.offFabric := by
  unfold State.disableHalf
  dsimp only
  split <;> simp

theorem State.disableHalf_ports (s : State) (h : Nat) :
    (s.disableHalf h).fabric.ports =
      setAt s.fabric.ports h { (s.port h).unlink .disabled with disable := false, cause := 0 } := by
  have hlog : ∀ e src o a, (s.log e src o a).fabric = s.fabric := fun e src o a =>
    congrArg Kept.fabric (s.kept_log e src o a)
  unfold State.disableHalf
  dsimp only
  split
  · rw [State.setPort, hlog]
  · rfl

/-- A half that is Disabled stays so while others leave their links. -/
theorem State.disableHalf_port (s : State) (h j : Nat) (hh : h < s.fabric.ports.length)
    (hj : j = h ∨ (s.port j).st = .disabled) : ((s.disableHalf h).port j).st = .disabled := by
  have hp : (s.disableHalf h).port j =
      if j = h then { (s.port h).unlink .disabled with disable := false, cause := 0 } else s.port j := by
    rw [← s.port_setPort h j _ hh, State.port, State.disableHalf_ports]
    rfl
  rw [hp]
  split
  · rfl
  · exact hj.resolve_left ‹_›

theorem State.foldl_disableHalf_port (l : List Nat) (s : State) (hl : ∀ h ∈ l, h < s.fabric.ports.length) (j : Nat)
    (hj : j ∈ l ∨ (s.port j).st = .disabled) : ((l.foldl State.disableHalf s).port j).st = .disabled := by
  induction l generalizing s with
  | nil => simpa using hj
  | cons h l ih =>
    have hlen : (s.disableHalf h).fabric.ports.length = s.fabric.ports.length := by
      rw [State.disableHalf_ports, setAt, List.length_set]
    refine ih _ (fun x hx => hlen ▸ hl x (List.mem_cons_of_mem _ hx)) ?_
    rcases hj with hj | hj
    · rcases List.mem_cons.1 hj with rfl | hj
      · exact .inr (s.disableHalf_port _ _ (hl _ List.mem_cons_self) (.inl rfl))
      · exact .inl hj
    · exact .inr (s.disableHalf_port _ _ (hl _ List.mem_cons_self) (.inr hj))

/-- The tables and time information of the fabric return to their reset values. -/
def State.clearFabric (s : State) : State :=
  { s with fabric := { resetFabric with modes := s.fabric.modes, ports := s.fabric.ports } }

theorem State.resetFabricAll_eq (s : State) :
    s.resetFabricAll = ((List.range 72).foldl State.disableHalf s).clearFabric := by
  rw [State.resetFabricAll, State.resetHalves_all, State.clearFabric]

theorem State.offFabric_clearFabric (s : State) : s.clearFabric.offFabric = s.offFabric := rfl

theorem State.clearFabric_port (s : State) (h : Nat) : s.clearFabric.port h = s.port h := rfl

theorem State.offFabric_resetFabricAll (s : State) : s.resetFabricAll.offFabric = s.offFabric := by
  rw [State.resetFabricAll_eq, State.offFabric_clearFabric, foldl_keeps State.offFabric _ State.offFabric_disableHalf]

theorem State.resetFabricAll_port (s : State) (hs : s.fabric.ports.length = 72) (h : Nat) (hh : h < 72) :
    (s.resetFabricAll.port h).st = .disabled := by
  rw [State.resetFabricAll_eq, State.clearFabric_port]
  exact State.foldl_disableHalf_port _ s (fun x hx => hs ▸ List.mem_range.1 hx) h (.inl (List.mem_range.2 hh))

/-! ### The package warm start -/

/-- What a package warm start resets: the terms of the statement on pins and resets. -/
def State.PackageReset (s t : State) (esc : Bool) : Prop :=
  t.board.warmDue = true ∧ t.board.railsUp = true ∧ t.board.escalated = esc ∧ t.board.stopCount = false ∧
  t.board.cxlUp = !s.board.hostPerst ∧
  t.mail.ready = false ∧ t.mail.resetGen = s.mail.resetGen + 1 ∧ t.cells = [] ∧ t.disp = resetDisp ∧ t.copy = none ∧
  t.upd.staging = none ∧ t.upd.activation = none ∧ t.sec.sessions = [] ∧ t.sec.running = false ∧
  (∀ k ∈ t.parts, k.inService = false) ∧ (s.sized → (∀ p, p < 8 → (t.part p).pgen = genNext (s.part p).pgen) ∧
    ∀ h, h < 72 → (t.port h).st = .disabled) ∧ t.flash.log = s.flash.log ∧ t.fuses = s.fuses

/-- The compute side, `RESET_GEN` and the partitions, before the fabric resets. -/
def State.resetWork (s : State) : State := s.retireShared.resetCompute.advanceGen.endParts

theorem State.kept_endParts (s : State) : s.endParts.kept = s.kept := by
  simp [State.kept, State.endParts, Function.comp_def]

theorem State.endParts_inService (s : State) : ∀ k ∈ s.endParts.parts, k.inService = false := by
  intro k hk
  obtain ⟨x, -, rfl⟩ := List.mem_map.1 hk
  rfl

theorem State.kept_resetWork (s : State) :
    s.resetWork.kept = { s.kept with resetGen := s.kept.resetGen + 1, pgens := s.kept.pgens.map genNext } := by
  have hc : s.retireShared.resetCompute.kept = { s.kept with pgens := s.kept.pgens.map genNext } := by
    rw [State.kept_resetCompute, State.kept_retireShared]
  have hg : ∀ t : State, t.advanceGen.kept = { t.kept with resetGen := t.kept.resetGen + 1 } := fun _ => rfl
  rw [State.resetWork, State.kept_endParts, hg, hc]

/-- Outside the fabric, two states agree on what follows. -/
theorem State.fields_of_offFabric {s t : State} (h : s.offFabric = t.offFabric) :
    s.parts = t.parts ∧ s.fuses = t.fuses ∧ s.flash.log = t.flash.log ∧ s.mail.resetGen = t.mail.resetGen ∧
    s.board.railsUp = t.board.railsUp ∧ s.board.hostPerst = t.board.hostPerst := by
  obtain ⟨hk, hp⟩ := Prod.mk.inj h
  exact ⟨hp, congrArg Kept.fuses hk, congrArg Kept.log hk, congrArg Kept.resetGen hk,
    congrArg (fun k => k.board.railsUp) hk, congrArg (fun k => k.board.hostPerst) hk⟩

theorem State.fields_of_kept {t : State} {k : Kept} (h : t.kept = k) :
    t.fuses = k.fuses ∧ t.flash.log = k.log ∧ t.mail.resetGen = k.resetGen ∧ t.board.railsUp = k.board.railsUp ∧
    t.board.hostPerst = k.board.hostPerst ∧ t.fabric = k.fabric := by
  subst h
  exact ⟨rfl, rfl, rfl, rfl, rfl, rfl⟩

/-- The state in which compute work and the fabric have been reset, from which a package warm start goes on. -/
theorem State.resetWork_fields (s : State) :
    s.resetWork.fuses = s.fuses ∧ s.resetWork.flash.log = s.flash.log ∧
    s.resetWork.mail.resetGen = s.mail.resetGen + 1 ∧ s.resetWork.board.railsUp = s.board.railsUp ∧
    s.resetWork.board.hostPerst = s.board.hostPerst ∧ s.resetWork.fabric = s.fabric :=
  State.fields_of_kept s.kept_resetWork

theorem State.part_pgen (s : State) (p : Nat) (h : p < s.parts.length) :
    s.kept.pgens[p]? = some (s.part p).pgen := by
  simp [State.kept, State.part, h]

/-- What a package warm start takes over from the state in which work and fabric have been reset. -/
theorem State.packageReset_fields (s : State) (esc : Bool) :
    let u := s.resetWork.resetFabricAll
    let t := s.packageReset esc
    t.parts = u.parts ∧ t.fabric = u.fabric ∧ t.fuses = u.fuses ∧ t.flash = u.flash ∧ t.mail.resetGen = u.mail.resetGen ∧
    t.board = { u.board with
      warmDue := true, warmHeld := false, stopCount := false, escalated := esc, cxlUp := !u.board.hostPerst } ∧
    t.sec.sessions = (u.sec.sessions.filter fun x => !(x.tr == .doe)).filter (fun _ => false) ∧ t.sec.running = false ∧
    t.mail.ready = false ∧ t.cells = [] ∧ t.disp = resetDisp ∧ t.copy = none ∧ t.upd.staging = none ∧
    t.upd.activation = none := by
  unfold State.packageReset State.resetWork
  dsimp only
  generalize s.retireShared.resetCompute.advanceGen.endParts.resetFabricAll = u
  exact ⟨rfl, rfl, rfl, rfl, rfl, rfl, rfl, rfl, rfl, rfl, rfl, rfl, rfl, rfl⟩

theorem State.packageReset_parts (s : State) (esc : Bool) : (s.packageReset esc).parts = s.resetWork.parts := by
  obtain ⟨hparts, -⟩ := s.packageReset_fields esc
  obtain ⟨hfab, -⟩ := State.fields_of_offFabric s.resetWork.offFabric_resetFabricAll
  exact hparts.trans hfab

theorem State.packageReset_pgen (s : State) (esc : Bool) (p : Nat) (h : p < s.parts.length) :
    ((s.packageReset esc).part p).pgen = genNext (s.part p).pgen := by
  have hg : s.resetWork.kept.pgens = s.kept.pgens.map genNext := by rw [State.kept_resetWork]
  have hl : p < s.resetWork.parts.length := by
    have := congrArg List.length hg
    simp only [State.kept, List.length_map] at this
    omega
  have hp := s.resetWork.part_pgen p hl
  rw [hg, List.getElem?_map, s.part_pgen p h] at hp
  rw [State.part, State.packageReset_parts]
  exact (Option.some.inj hp).symm

theorem State.packageReset_port (s : State) (esc : Bool) (hs : s.fabric.ports.length = 72) (h : Nat) (hh : h < 72) :
    ((s.packageReset esc).port h).st = .disabled := by
  obtain ⟨-, hfab, -⟩ := s.packageReset_fields esc
  obtain ⟨-, -, -, -, -, hf⟩ := s.resetWork_fields
  rw [State.port, hfab]
  exact s.resetWork.resetFabricAll_port (by rw [hf, hs]) h hh

theorem State.packageReset_spec (s : State) (esc : Bool) (hup : s.board.railsUp = true) :
    s.PackageReset (s.packageReset esc) esc := by
  obtain ⟨-, -, hfuses, hflash, hgen, hb, hsess, hrun, hready, hcells, hdisp, hcopy, hstage, hact⟩ :=
    s.packageReset_fields esc
  obtain ⟨-, hfuses', hlog', hgen', hrails', hperst'⟩ :=
    State.fields_of_offFabric s.resetWork.offFabric_resetFabricAll
  obtain ⟨hfuses0, hlog0, hgen0, hrails0, hperst0, -⟩ := s.resetWork_fields
  refine ⟨by rw [hb], by rw [hb, hrails', hrails0, hup], by rw [hb], by rw [hb], by rw [hb, hperst', hperst0], hready,
    by rw [hgen, hgen', hgen0], hcells, hdisp, hcopy, hstage, hact, by rw [hsess, List.filter_false], hrun, ?_, ?_,
    by rw [hflash, hlog', hlog0], by rw [hfuses, hfuses', hfuses0]⟩
  · rw [State.packageReset_parts]
    exact State.endParts_inService _
  · rintro ⟨hparts, -, hports, -⟩
    exact ⟨fun p hp => s.packageReset_pgen esc p (hparts ▸ hp), s.packageReset_port esc hports⟩

end Sys2Proof.Machine

/-! ## Pins and resets (R33 to R45, R399 to R401) -/

namespace Sys2Proof.Machine

/-! ### Ports that settle, and the frame phase -/

theorem State.settlePort_fields (s : State) (p : Nat) :
    ((s.settlePort p).board, (s.settlePort p).parts, (s.settlePort p).cells) = (s.board, s.parts, s.cells) := by
  have hmode : ((s.applyMode p).board, (s.applyMode p).parts, (s.applyMode p).cells) = (s.board, s.parts, s.cells) := by
    unfold State.applyMode
    split
    · split <;> rfl
    · rfl
  unfold State.settlePort
  dsimp only
  split
  · exact hmode
  · refine (foldl_keeps (fun a : State => (a.board, a.parts, a.cells)) _ (fun a h => ?_) _ _).trans hmode
    split <;> rfl

theorem State.settlePorts_fields (s : State) :
    (s.settlePorts.board, s.settlePorts.parts, s.settlePorts.cells) = (s.board, s.parts, s.cells) :=
  foldl_keeps (fun a : State => (a.board, a.parts, a.cells)) _ State.settlePort_fields _ _

/-- Choosing the source of the frame phase changes the time information of the fabric alone. -/
theorem State.retime_fields (s : State) :
    s.retime.board = s.board ∧ s.retime.cells = s.cells ∧ s.retime.fabric.ports = s.fabric.ports := by
  unfold State.retime
  dsimp only
  split
  · exact ⟨rfl, rfl, rfl⟩
  · split
    · split <;> exact ⟨rfl, rfl, rfl⟩
    · split
      · exact ⟨rfl, rfl, rfl⟩
      · split <;> exact ⟨rfl, rfl, rfl⟩

theorem State.retime_of_frameSync (s : State) (h : s.board.frameSync = true) :
    s.retime.fabric.stratum = 0 ∧ s.retime.fabric.source = 1 ∧ s.retime.fabric.locked = true := by
  unfold State.retime
  dsimp only
  rw [if_pos h]
  exact ⟨rfl, rfl, rfl⟩

/-! ### The event log and the tray queue -/

/-- An event that is logged leaves the board but for its alert, the thermal state and the cells, and is the last event
of `EVT_STATUS`. -/
theorem State.log_fields (s : State) (e : BitVec 16) (src : BitVec 8) (o a : BitVec 32) :
    let t := s.log e src o a
    t.thermal = s.thermal ∧ t.cells = s.cells ∧ t.mail.evtLast = e ∧
      t.board = { s.board with alert := s.board.alert || t.board.alert } := by
  unfold State.log
  dsimp only
  split
  · simp
  · split <;> simp

theorem State.closeGate_fields (s : State) (halt : Bool) :
    let t := s.closeGate halt
    t.board = s.board ∧ t.cells = s.cells ∧ t.mail = s.mail ∧ t.thermal.snuffed = (s.thermal.snuffed || !halt) := by
  unfold State.closeGate
  dsimp only
  split <;> exact ⟨rfl, rfl, rfl, rfl⟩

/-- An entry that is queued for the tray is the newest of the queue (R482). -/
theorem Sideband.enqueue_getLast? (q : Sideband) (e : TrayEvent) : (q.enqueue e).queue.getLast? = some e := by
  unfold Sideband.enqueue
  split <;> simp

/-! ### The answers of the rows -/

/-- A command answers the branch `t` of what it answers. -/
theorem Answers.of_next {i : Instr} {s t u : State} {p : State → Prop} (h : exec i s = .next u) (hu : u = t) (ht : p t) :
    Answers i s p := ⟨t, hu ▸ h, ht⟩

variable {s : State}

theorem vddSbLoss_answers (hin : s.board.inputOn = false) (hsb : s.board.vddSb = true) :
    Answers .vddSbLoss s fun t =>
      t.board.vddSb = false ∧ t.board.lampReady = false ∧ t.board.alert = false ∧ t.power.frame = 0 ∧ t.rcv.fresh = [] ∧
      t.side.queue = [] ∧ t.flash = s.flash ∧ t.fuses = s.fuses := by
  have hc : ¬(s.board.inputOn || !s.board.vddSb) = true := by simp [hin, hsb]
  exact .of_next rfl (if_neg hc) ⟨rfl, rfl, rfl, rfl, rfl, rfl, rfl, rfl⟩

/-- With the rails up, `COLD_RESET_N` records its cause in the record that it then waits for (R43). -/
theorem coldResetAssert_answers (hcold : s.board.coldReset = false) :
    Answers .coldResetAssert s fun t =>
      t.board.coldReset = true ∧ t.board.railsUp = false ∧ t.board.lampReady = false ∧ t.power.frame = 0 ∧
      t.board.recordBusy = s.board.railsUp ∧
      (s.board.railsUp = true → t.flash.persist.shutdownCause = 0x08 ∧ t.flash.persist.shutdownFrame = s.power.frame ∧
        t.cells = [] ∧ t.side.queue = [.shutdown t.flash.persist]) ∧
      (s.board.railsUp = false → t.flash = s.flash) := by
  refine .of_next rfl (if_neg (by simp [hcold])) ?_
  cases hup : s.board.railsUp with
  | true => exact ⟨rfl, rfl, rfl, rfl, rfl, fun _ => ⟨rfl, rfl, rfl, rfl⟩, nofun⟩
  | false => exact ⟨rfl, hup, rfl, rfl, rfl, nofun, fun _ => rfl⟩

/-- The gate closes on an event that is logged: no clock of a region runs. -/
theorem State.closeGate_log (s : State) (e : BitVec 16) (src : BitVec 8) (o a : BitVec 32) :
    let t := (s.log e src o a).closeGate false
    t.board = { s.board with alert := s.board.alert || t.board.alert } ∧ t.clocksRun = false ∧ t.cells = s.cells ∧
      t.mail.evtLast = e := by
  obtain ⟨-, hcells, hevt, hboard⟩ := s.log_fields e src o a
  obtain ⟨gboard, gcells, gmail, gsnuffed⟩ := (s.log e src o a).closeGate_fields false
  dsimp only
  refine ⟨?_, ?_, gcells.trans hcells, ?_⟩
  · rw [gboard, ← hboard]
  · simp [State.clocksRun, gsnuffed]
  · rw [gmail, hevt]

/-- An accepted `COOLANT_STOP_N` with the rails up closes the gate and is logged (R399, R400). -/
theorem snuffer_answers (hstop : s.board.coolantStop = false) (hup : s.board.railsUp = true) :
    Answers .snuffer s fun t =>
      t.board.coolantStop = true ∧ t.board.stopCount = true ∧ t.board.alert = true ∧ t.clocksRun = false ∧
      t.cells = s.cells ∧ t.mail.evtLast = evFlowStop := by
  obtain ⟨hboard, hclocks, hcells, hevt⟩ := State.closeGate_log
    { s with board := { s.board with coolantStop := true, stopCount := true, alert := true } } evFlowStop srcHardware 0
    (BitVec.ofNat 32 s.coolantUse.2)
  refine .of_next rfl ((if_neg (by simp [hstop])).trans (if_pos hup)) ⟨?_, ?_, ?_, hclocks, hcells, hevt⟩
  · exact congrArg Board.coolantStop hboard
  · exact congrArg Board.stopCount hboard
  · exact congrArg Board.alert hboard

/-- Compute work ends where the mailbox serves. -/
theorem State.perstReset_fields (s : State) :
    let u := if s.mail.ready then s.resetCompute.advanceGen else s
    u.mail.resetGen = s.mail.resetGen + (if s.mail.ready then 1 else 0) ∧ u.board.railsUp = s.board.railsUp ∧
      u.flash.log = s.flash.log := by
  obtain ⟨-, hlog, hgen, hrails, -⟩ := State.fields_of_kept s.kept_resetCompute
  dsimp only
  split
  · generalize s.resetCompute = u at hlog hgen hrails
    exact ⟨congrArg (· + 1) hgen, hrails, hlog⟩
  · exact ⟨(BitVec.add_zero _).symm, rfl, rfl⟩

/-- `HOST_PERST_N` ends compute work where the mailbox serves, and in any case the link (R45, R228). -/
theorem hostPerstAssert_answers (hperst : s.board.hostPerst = false) :
    Answers .hostPerstAssert s fun t =>
      t.board.hostPerst = true ∧ t.board.cxlUp = false ∧ t.mail.ready = false ∧ t.mail.enable = false ∧
      t.mail.posted = [] ∧ t.mail.taken = [] ∧ t.mail.resetGen = s.mail.resetGen + (if s.mail.ready then 1 else 0) ∧
      t.sec.tdi = .configUnlocked ∧ t.board.railsUp = s.board.railsUp ∧ t.flash.log = s.flash.log := by
  have hwork := s.perstReset_fields
  refine .of_next rfl (if_neg (by simp [hperst])) ?_
  dsimp only at hwork ⊢
  generalize (if s.mail.ready then s.resetCompute.advanceGen else s) = u at hwork ⊢
  obtain ⟨hgen, hrails, hlog⟩ := hwork
  exact ⟨rfl, rfl, rfl, rfl, rfl, rfl, hgen, rfl, hrails, hlog⟩

/-- When `HOST_PERST_N` is released the port trains, and a module that has started serves again (R45). -/
theorem hostPerstDeassert_answers (f : Bool) (hperst : s.board.hostPerst = true) :
    Answers (.hostPerstDeassert f) s fun t =>
      t.board.hostPerst = false ∧ t.board.flit256 = f ∧ t.board.cxlUp = s.board.railsUp ∧
      t.mail.ready = (s.started && s.rcv.hang.isNone || s.mail.ready) ∧ t.parts = s.parts := by
  refine .of_next rfl (if_neg (by simp [hperst])) ?_
  dsimp only
  split
  case isTrue h => exact ⟨rfl, rfl, rfl, (by rw [show (s.started && s.rcv.hang.isNone) = true from h]; rfl), rfl⟩
  case isFalse h =>
    have hn : (s.started && s.rcv.hang.isNone) = false := Bool.eq_false_iff.2 h
    exact ⟨rfl, rfl, rfl, by rw [hn]; rfl, rfl⟩

theorem srefclkPresent_answers :
    Answers .srefclkPresent s fun t => t.board.srefclk = true ∧ t.parts = s.parts ∧ t.cells = s.cells := by
  refine .of_next rfl rfl ?_
  dsimp only
  split
  · have h := State.settlePorts_fields { s with board := { s.board with srefclk := true } }
    simp only [Prod.mk.injEq] at h
    obtain ⟨hb, hp, hc⟩ := h
    exact ⟨by rw [hb], hp, hc⟩
  · exact ⟨rfl, rfl, rfl⟩

theorem frameSyncPresent_answers :
    Answers .frameSyncPresent s fun t => t.board.frameSync = true ∧ t.fabric.stratum = 0 ∧ t.fabric.source = 1 ∧
      t.fabric.locked = true ∧ t.fabric.ports = s.fabric.ports := by
  obtain ⟨hb, -, hp⟩ := State.retime_fields { s with board := { s.board with frameSync := true } }
  obtain ⟨hstratum, hsource, hlocked⟩ :=
    State.retime_of_frameSync { s with board := { s.board with frameSync := true } } rfl
  exact .of_next rfl rfl ⟨by rw [hb], hstratum, hsource, hlocked, hp⟩

theorem frameSyncAbsent_answers :
    Answers .frameSyncAbsent s fun t =>
      t.board.frameSync = false ∧ t.fabric.ports = s.fabric.ports ∧ t.cells = s.cells := by
  obtain ⟨hb, hc, hp⟩ := State.retime_fields { s with board := { s.board with frameSync := false } }
  exact .of_next rfl rfl ⟨by rw [hb], hp, hc⟩

theorem State.PackageReset.of_rcv {t : State} {esc : Bool} (h : s.PackageReset t esc) (r : Recovery) :
    s.PackageReset { t with rcv := r } esc := h

theorem warmReset_answers (hcold : s.board.coldReset = false) (hup : s.board.railsUp = true)
    (hcd : s.board.coldDue = false) (hwd : s.board.warmDue = false) (hstop : s.board.coolantStop = false) :
    Answers .warmReset s fun t => s.PackageReset t false :=
  .of_next rfl ((if_neg (by simp [hcold, hup, hcd, hwd])).trans (if_neg (by simp [hstop]))) (s.packageReset_spec false hup)

theorem coolantStopRelease_answers (hup : s.board.railsUp = true) (hcount : s.board.stopCount = true)
    (hstop : s.board.coolantStop = false) : Answers .coolantStopRelease s fun t => s.PackageReset t false :=
  .of_next rfl (if_pos (by simp [hcount, hstop])) (s.packageReset_spec false hup)

theorem hangEscalation_answers (hup : s.board.railsUp = true) (hwd : s.board.warmDue = false)
    (hhang : s.rcv.hang.isSome = true) : Answers .hangEscalation s fun t => s.PackageReset t true :=
  .of_next rfl (if_pos (by simp [hup, hwd, hhang])) ((s.packageReset_spec true hup).of_rcv _)

/-- Settles O45, row by row. -/
theorem pinsAndResets : Obligations.PinsAndResets := by
  unfold Obligations.PinsAndResets
  intro s
  refine ⟨rfl, vddSbLoss_answers, fun h => ?standbyKept, coldResetAssert_answers, fun h => congrArg _ (if_pos h),
    fun hcold hup hcd hwd => ⟨fun hstop => ?warmHeld, warmReset_answers hcold hup hcd hwd⟩, fun h => ?warmIdle,
    coolantStopRelease_answers, fun h => ?notCounting, hangEscalation_answers, fun h => ?noHang,
    fun hstop hup => snuffer_answers hstop hup, fun hstop hup => ?snufferRailsDown, fun h => congrArg _ (if_pos h),
    hostPerstAssert_answers, fun h => congrArg _ (if_pos h), hostPerstDeassert_answers,
    fun f h => congrArg _ (if_pos (by simp [h])), srefclkPresent_answers, frameSyncPresent_answers,
    frameSyncAbsent_answers⟩
  case standbyKept => exact congrArg _ (if_pos (by simpa using h))
  case warmHeld => exact congrArg _ ((if_neg (by simp [hcold, hup, hcd, hwd])).trans (if_pos hstop))
  case warmIdle => exact congrArg _ (if_pos (by simpa [or_assoc] using h))
  case notCounting => exact congrArg _ (if_neg (by rcases h with h | h <;> simp [h]))
  case noHang => exact congrArg _ (if_neg (by simp [h]))
  case snufferRailsDown => exact congrArg _ ((if_neg (by simp [hstop])).trans (if_neg (by simp [hup])))

end Sys2Proof.Machine

/-! ## Power-up and power-off (R38 to R50) -/

namespace Sys2Proof.Machine

/-! ### Power-up -/

theorem State.mayRaise_iff (s : State) : s.mayRaise = true ↔
    (s.board.inputOn = true ∧ s.board.vddSb = true ∧ s.board.lampReady = true ∧ s.board.coldReset = false ∧
      s.board.coolantStop = false ∧ s.board.pwrEn = true ∧ s.board.railsUp = false ∧
      (s.board.poweredOff = false ∨ (s.board.holdoff = false ∧ s.board.rearmed = true)) ∧ s.board.tripHold = false) := by
  simp [State.mayRaise, and_assoc]

/-- What the module is like when a power-up that began in `u` has ended as `o` says. -/
def State.PoweredUp (u t : State) (o : PowerUp) : Prop :=
  t.board.thermTrip = false ∧ t.cells = u.cells ∧ t.mem = u.mem ∧ t.parts = u.parts ∧ t.fabric = u.fabric ∧
  match o with
  | .good => t.board.railsUp = true ∧ t.board.pwrGood = true ∧ t.board.coldDue = true ∧
      t.board.poweredOff = false ∧ t.power.everDecided = false ∧ t.flash = u.flash
  | .coolantStop => t.board.railsUp = false ∧ t.board.coolantStop = true ∧ t.flash = u.flash
  | .railFault => t.board.railsUp = false ∧ t.board.poweredOff = true ∧ t.board.alert = true ∧
      t.flash.persist = { u.flash.persist with shutdownCause := 0x06 }

theorem State.tryPowerUp_idle {u : State} (h : u.mayRaise = false) (o : PowerUp) : u.tryPowerUp o = u :=
  if_pos (by simp [h])

theorem State.tryPowerUp_raises {u : State} (h : u.mayRaise = true) (o : PowerUp) : u.PoweredUp (u.tryPowerUp o) o := by
  obtain ⟨-, -, -, -, -, -, hdown, -⟩ := u.mayRaise_iff.1 h
  have ht : u.tryPowerUp o = _ := if_neg (by simp [h])
  rw [ht]
  cases o with
  | good => exact ⟨rfl, rfl, rfl, rfl, rfl, rfl, rfl, rfl, rfl, rfl, rfl⟩
  | coolantStop => exact ⟨rfl, rfl, rfl, rfl, rfl, hdown, rfl, rfl⟩
  | railFault => exact ⟨rfl, rfl, rfl, rfl, rfl, hdown, rfl, rfl, rfl⟩

/-- A power-up changes on the board neither resets nor straps. -/
theorem State.tryPowerUp_board (u : State) (o : PowerUp) :
    let b := (u.tryPowerUp o).board
    b.coldReset = u.board.coldReset ∧ b.recordBusy = u.board.recordBusy ∧ b.slotId = u.board.slotId ∧
      b.bootsel = u.board.bootsel := by
  cases hu : u.mayRaise with
  | false =>
    rw [State.tryPowerUp_idle hu]
    exact ⟨rfl, rfl, rfl, rfl⟩
  | true =>
    have ht : u.tryPowerUp o = _ := if_neg (by simp [hu])
    rw [ht]
    cases o <;> exact ⟨rfl, rfl, rfl, rfl⟩

/-- A command that changes the board to `b` and then tries to raise the rails. -/
theorem exec_powerUp {s : State} {i : Instr} {b : Board} {o : PowerUp}
    (h : exec i s = .next (State.tryPowerUp { s with board := b } o)) :
    let u : State := { s with board := b }
    (u.mayRaise = false → exec i s = .next u) ∧ (u.mayRaise = true → Answers i s fun t => u.PoweredUp t o) := by
  refine ⟨fun hm => ?_, fun hm => ⟨_, h, State.tryPowerUp_raises hm o⟩⟩
  rw [h, State.tryPowerUp_idle hm]

/-! ### Power-off -/

variable {s : State} {r : InputReading}

/-- The lowest cause that was detected: the one given, or one below it among those of the same `ACLK` cycle (R49). -/
theorem lowestCause_spec (r : InputReading) (cause : Nat) :
    (lowestCause r cause = cause ∨ 2 ≤ lowestCause r cause ∧ r.also.getLsbD (lowestCause r cause) = true) ∧
    lowestCause r cause ≤ cause ∧ ∀ k, 2 ≤ k → k < lowestCause r cause → r.also.getLsbD k = false := by
  rw [lowestCause, List.head?_filter]
  cases h : (List.range cause).find? (fun k => decide (2 ≤ k) && r.also.getLsbD k) with
  | none =>
    refine ⟨.inl rfl, Nat.le_refl _, fun k hk hlt => ?_⟩
    simpa [hk] using List.find?_eq_none.1 h k (List.mem_range.2 hlt)
  | some n =>
    obtain ⟨hn, hmem, hbelow⟩ := List.find?_range_eq_some.1 h
    simp only [Bool.and_eq_true, decide_eq_true_eq] at hn
    refine ⟨.inr hn, Nat.le_of_lt (List.mem_range.1 hmem), fun k hk hlt => ?_⟩
    simpa [hk] using hbelow k hlt

/-- The module after an emergency power-off from `s` (R46 to R49). -/
def State.Off (s : State) (r : InputReading) (t : State) (cause sensor : Nat) : Prop :=
  let p := t.flash.persist
  t.board.railsUp = false ∧ t.board.pwrGood = false ∧ t.board.poweredOff = true ∧ t.board.holdoff = true ∧
  t.board.alert = true ∧ p.shutdownFrame = s.power.frame ∧
  (p.shutdownCause.toNat = cause ∨ 2 ≤ p.shutdownCause.toNat ∧ r.also.getLsbD p.shutdownCause.toNat = true) ∧
  p.shutdownCause.toNat ≤ cause ∧
  (∀ k, 2 ≤ k → k < p.shutdownCause.toNat → r.also.getLsbD k = false) ∧
  p.shutdownMv = BitVec.ofNat 32 r.mv ∧ p.shutdownMa = BitVec.ofNat 32 r.ma ∧
  p.shutdownSensor = BitVec.ofNat 16 sensor ∧ t.side.queue.getLast? = some (.shutdown p) ∧ t.cells = [] ∧
  t.mem.cells = [] ∧ t.mem.host = s.mem.host ∧ t.disp = resetDisp ∧ t.coll = resetColl ∧ t.fabric = resetFabric ∧
  t.flash.log = s.flash.log ∧ t.fuses = s.fuses ∧ t.power.frame = s.power.frame

theorem State.emergency_idle (hdown : s.board.railsUp = false) (cause sensor : Nat) :
    s.emergency cause r sensor = s := if_pos (by simp [hdown])

theorem State.emergency_off (hup : s.board.railsUp = true) (cause sensor : Nat) (hc : cause < 256) :
    s.Off r (s.emergency cause r sensor) cause sensor := by
  obtain ⟨hcause, hle, hbelow⟩ := lowestCause_spec r cause
  have hn : (BitVec.ofNat 8 (lowestCause r cause)).toNat = lowestCause r cause :=
    Nat.mod_eq_of_lt (Nat.lt_of_le_of_lt hle hc)
  have ht : s.emergency cause r sensor = _ := if_neg (by simp [hup])
  rw [ht]
  refine ⟨rfl, rfl, rfl, rfl, rfl, rfl, ?_, ?_, ?_, rfl, rfl, rfl, Sideband.enqueue_getLast? _ _, rfl, rfl, rfl, rfl, rfl,
    rfl, rfl, rfl, rfl⟩
  · exact hn.symm ▸ hcause
  · exact hn.symm ▸ hle
  · exact hn.symm ▸ hbelow

/-- A command that only takes the rails down. -/
theorem exec_emergency {i : Instr} {cause sensor : Nat} (h : exec i s = .next (s.emergency cause r sensor))
    (hup : s.board.railsUp = true) (hc : cause < 256) : Answers i s fun t => s.Off r t cause sensor :=
  ⟨_, h, State.emergency_off hup cause sensor hc⟩

theorem inputLoss_answers (hup : s.board.railsUp = true) :
    Answers (.inputLoss r) s fun t => s.Off r t 0x02 0xFFFF ∧ t.board.inputOn = false := by
  have h := State.emergency_off (r := r) hup 0x02 noSensor (by decide)
  refine .of_next rfl rfl ?_
  generalize s.emergency 0x02 r noSensor = t at h ⊢
  exact ⟨h, rfl⟩

theorem snufferPowerOff_answers (hup : s.board.railsUp = true) (hcount : s.board.stopCount = true) :
    Answers (.snufferPowerOff r) s fun t => s.Off r t 0x07 0xFFFF :=
  exec_emergency (congrArg _ (if_pos hcount)) hup (by decide)

theorem snufferPowerOff_idle (h : s.board.railsUp = false ∨ s.board.stopCount = false) :
    exec (.snufferPowerOff r) s = .next s := by
  rcases h with hdown | hcount
  · exact congrArg _ ((congrArg (ite _ · s) (State.emergency_idle hdown _ _)).trans (ite_self _))
  · exact congrArg _ (if_neg (by simp [hcount]))

/-- A sensor that is in service and reaches its threshold trips the module (R402). -/
theorem thermalTrip_answers (hup : s.board.railsUp = true) (sensor : Nat) (reading : Int) (hsensor : sensor < 192)
    (hhot : tripAt sensor ≤ reading) (htest : s.thermal.selfTest.getLsbD sensor = false) :
    Answers (.thermalTrip sensor reading r) s fun t =>
      s.Off r t 0x01 sensor ∧ t.board.thermTrip = true ∧ t.board.tripHold = true ∧ t.flash.tripReading = reading := by
  have h := State.emergency_off (r := r) hup 0x01 sensor (by decide)
  refine .of_next rfl (if_pos (by rw [hup, htest]; simp [hsensor, hhot])) ?_
  dsimp only
  generalize s.emergency 0x01 r sensor = t at h ⊢
  exact ⟨h, rfl, rfl, rfl⟩

theorem thermalTrip_idle (sensor : Nat) (reading : Int)
    (h : s.board.railsUp = false ∨ reading < tripAt sensor ∨ s.thermal.selfTest.getLsbD sensor = true) :
    exec (.thermalTrip sensor reading r) s = .next s := by
  refine congrArg _ (if_neg ?_)
  rcases h with h | h | h
  · simp [h]
  · simp [Int.not_le.2 h]
  · simp [h]

theorem State.powerOff_log (s : State) (cause : BitVec 8) : (s.railsDown.recordCause cause).flash.log = s.flash.log := rfl

/-- An orderly power-off commits the log and records cause 0 (R41). -/
theorem pwrEnDeassert_answers (hup : s.board.railsUp = true) :
    Answers .pwrEnDeassert s fun t =>
      t.board.pwrEn = false ∧ t.board.railsUp = false ∧ t.flash.persist.shutdownCause = 0x00 ∧ t.board.alert = true ∧
      t.flash.log = (s.flash.log ++ s.rcv.fresh).drop ((s.flash.log ++ s.rcv.fresh).length - 983040) ∧ t.rcv.fresh = [] ∧
      t.cells = [] ∧ t.side.queue.getLast? = some (.shutdown t.flash.persist) := by
  refine .of_next rfl (if_pos hup) ⟨rfl, rfl, rfl, rfl, ?_, rfl, rfl, Sideband.enqueue_getLast? _ _⟩
  rw [State.powerOff_log, State.commitLog, State.storeCoeffs, logRing]

/-- `COLD_RESET_N` is released at once where no shutdown record is being written. -/
theorem exec_coldResetDeassert (id : BitVec 6) (sel : BitVec 2) (o : PowerUp) (hcold : s.board.coldReset = true)
    (hsb : s.board.vddSb = true) (hbusy : s.board.recordBusy = false) :
    exec (.coldResetDeassert id sel o) s = .next (s.releaseCold id sel o) :=
  congrArg _ ((if_neg (by simp [hcold, hsb])).trans (if_neg (by simp [hbusy])))

/-- A shutdown record is written for which no release waits. -/
theorem exec_flashWriteComplete_none (o : PowerUp) (hbusy : s.board.recordBusy = true) (hrel : s.board.coldRelease = none) :
    exec (.flashWriteComplete o) s = .next { s with board := { s.board with recordBusy := false } } := by
  refine (congrArg _ (if_pos hbusy)).trans ?_
  rw [hrel]

/-- A shutdown record that is written lets a waiting release of `COLD_RESET_N` go on (R43). -/
theorem exec_flashWriteComplete_some (o : PowerUp) (hbusy : s.board.recordBusy = true) {id : BitVec 6} {sel : BitVec 2}
    (hrel : s.board.coldRelease = some (id, sel)) :
    exec (.flashWriteComplete o) s =
      .next (State.releaseCold { s with board := { s.board with recordBusy := false } } id sel o) := by
  refine (congrArg _ (if_pos hbusy)).trans ?_
  rw [hrel]

theorem State.releaseCold_board (s : State) (id : BitVec 6) (sel : BitVec 2) (o : PowerUp) :
    let b := (s.releaseCold id sel o).board
    b.coldReset = false ∧ b.recordBusy = s.board.recordBusy ∧ b.slotId = id ∧ b.bootsel = sel := by
  unfold State.releaseCold
  dsimp only
  split
  · exact State.tryPowerUp_board { s with board := { s.board with
      coldReset := false, slotId := id, bootsel := sel, coldRelease := none, lampReady := true, rearmed := true } } o
  · exact ⟨rfl, rfl, rfl, rfl⟩

/-- Settles O44. Every row that may raise the rails is `tryPowerUp` on a changed board, and every emergency is
`emergency` with its cause. -/
theorem powerUpAndOff : Obligations.PowerUpAndOff := by
  unfold Obligations.PowerUpAndOff
  refine ⟨⟨State.mayRaise_iff, fun s o => ?powerUp, fun s => pwrEnDeassert_answers,
    fun s h => congrArg _ (if_neg (by simp [h]))⟩, fun s r => ⟨fun hup => ?railsUp, fun hdown => ?railsDown,
      fun h => snufferPowerOff_idle (.inr h)⟩⟩
  case powerUp =>
    refine ⟨fun h => exec_powerUp (congrArg _ (if_neg (by simp [h]))), fun h => congrArg _ (if_pos h), exec_powerUp rfl,
      fun hsb hcold hlamp => exec_powerUp (congrArg _ (if_pos (by simp [hsb, hcold, hlamp]))),
      fun h => exec_powerUp (congrArg _ (if_pos h)), fun h => exec_powerUp (congrArg _ (if_pos h)),
      fun hcold hsb hbusy id sel => ?release, fun hcold hsb hbusy id sel => ?releaseWaits,
      fun hbusy hrel => ?recordWritten, fun hbusy id sel hrel => ?releaseGoesOn⟩
    case release =>
      have h := exec_coldResetDeassert id sel o hcold hsb hbusy
      dsimp only
      split
      case isTrue hen => exact exec_powerUp (h.trans (congrArg _ (if_pos hen)))
      case isFalse hen => exact h.trans (congrArg _ (if_neg hen))
    case releaseWaits => exact congrArg _ ((if_neg (by simp [hcold, hsb])).trans (if_pos hbusy))
    case recordWritten => exact exec_flashWriteComplete_none o hbusy hrel
    case releaseGoesOn => exact ⟨_, exec_flashWriteComplete_some o hbusy hrel, State.releaseCold_board _ id sel o⟩
  case railsUp =>
    exact ⟨exec_emergency rfl hup (by decide), exec_emergency rfl hup (by decide), exec_emergency rfl hup (by decide),
      exec_emergency rfl hup (by decide), inputLoss_answers hup, snufferPowerOff_answers hup,
      fun sensor reading hsensor => ⟨thermalTrip_answers hup sensor reading hsensor,
        fun h => thermalTrip_idle sensor reading (.inr h)⟩⟩
  case railsDown =>
    have hidle : ∀ cause sensor, s.emergency cause r sensor = s := State.emergency_idle hdown
    refine ⟨fun i hi => ?_, ?_, fun sensor reading => thermalTrip_idle sensor reading (.inl hdown)⟩
    · simp only [List.mem_cons, List.not_mem_nil, or_false] at hi
      rcases hi with rfl | rfl | rfl | rfl | rfl
      · exact congrArg _ (hidle _ _)
      · exact congrArg _ (hidle _ _)
      · exact congrArg _ (hidle _ _)
      · exact congrArg _ (hidle _ _)
      · exact snufferPowerOff_idle (.inl hdown)
    · exact congrArg (fun t : State => Host.Outcome.next { t with board := { t.board with inputOn := false } }) (hidle _ _)

end Sys2Proof.Machine

/-! ## The reset state (R24) -/

namespace Sys2Proof.Machine

/-- Settles O57: every clause is read off the reset values. -/
theorem resetState : Obligations.ResetState := by
  unfold Obligations.ResetState
  refine ⟨?_, ?_, rfl, rfl, rfl, rfl, rfl, rfl, rfl, rfl, rfl, ?_, ?_⟩
  · decide
  · decide
  · intro k hk
    obtain rfl := List.eq_of_mem_replicate hk
    refine ⟨rfl, rfl, fun c hc => ?_⟩
    obtain rfl := List.eq_of_mem_replicate hc
    exact ⟨rfl, rfl⟩
  · intro k hk
    obtain rfl := List.eq_of_mem_replicate hk
    rfl

end Sys2Proof.Machine
end

section
/-! PROOFS. The hierarchy: fences and lost units, die-to-die edges, parity of shared SRAM, scrubbing, retired pages and
promotion (02_hierarchy). -/

/-! ## What stays when work ends (R61, R257) -/

namespace Sys2Proof.Machine

/-- The module without what work holds: cells, counters, memory, mailbox, pending configuration, partitions, dispatcher,
collectives, messages and free values. Fuses, flash, board, units, fabric, power and the rest remain. -/
def State.still (s : State) : State :=
  { s with cells := [], banks := [], mem := resetMem, mail := resetMail, config := resetConfig, parts := []
           disp := resetDisp, coll := resetColl, out := [], freeCtr := 0 }

theorem State.units_of_still {s t : State} (h : t.still = s.still) : t.units = s.units :=
  show t.still.units = s.still.units from congrArg State.units h

theorem State.flash_of_still {s t : State} (h : t.still = s.still) : t.flash = s.flash :=
  show t.still.flash = s.still.flash from congrArg State.flash h

theorem State.still_of_mem (s : State) (m : Mem) : ({ s with mem := m } : State).still = s.still := rfl

/-! ### Writes to memory -/

@[simp] theorem State.still_recall (s : State) (pa n : Nat) : (s.recall pa n).still = s.still := by
  unfold State.recall
  dsimp only
  split <;> rfl

@[simp] theorem State.still_firstWrite (s : State) (g : Nat) : (s.firstWrite g).still = s.still := by
  unfold State.firstWrite
  split <;> rfl

@[simp] theorem State.still_writeByte (s : State) (t : Tag) (pa : Nat) (b : Byte) :
    (s.writeByte t pa b).still = s.still := by
  unfold State.writeByte
  cases place pa with
  | hbm | ddr => exact (State.still_of_mem ..).trans (s.still_firstWrite _)
  | shared | local_ | host | control | package | hole => rfl

@[simp] theorem State.still_writeBytes (s : State) (t : Tag) (pa : Nat) (l : List Byte) :
    (s.writeBytes t pa l).still = s.still := by
  induction l generalizing s pa with
  | nil => rfl
  | cons b l ih => rw [State.writeBytes, ih, State.still_writeByte]

@[simp] theorem State.still_writePieces (s : State) (t : Tag) (ps : List Piece) (l : List Byte) :
    (s.writePieces t ps l).still = s.still := by
  induction ps generalizing s l with
  | nil => rfl
  | cons p ps ih => rw [State.writePieces, ih, State.still_writeBytes, State.still_recall]

@[simp] theorem State.still_freeFill (s : State) (t : Tag) (ps : List Piece) : (s.freeFill t ps).still = s.still :=
  State.still_writePieces _ _ _ _

@[simp] theorem State.still_cutAsync (s : State) (c : Nat) : (s.cutAsync c).still = s.still :=
  foldl_keeps State.still _ (fun _ _ => State.still_freeFill _ _ _) _ _

@[simp] theorem State.still_cutShort (s : State) (p c : Nat) : (s.cutShort p c).still = s.still := by
  unfold State.cutShort
  rw [foldl_keeps State.still _ (fun _ _ => State.still_freeFill _ _ _),
    foldl_keeps State.still _ (fun _ _ => State.still_cutAsync _ _)]

/-! ### Commands that complete -/

@[simp] theorem State.still_hostWrite (s : State) (a : Nat) (l : List Byte) : (s.hostWrite a l).still = s.still := rfl

@[simp] theorem State.still_complete (s : State) (t : Taken) (r : Report) : (s.complete t r).still = s.still := rfl

@[simp] theorem State.still_completeSlot (s : State) (slot : Nat) (r : Report) :
    (s.completeSlot slot r).still = s.still := by
  unfold State.completeSlot
  split <;> simp

@[simp] theorem State.still_dropSubmit (s : State) (o : Nat) : (s.dropSubmit o).still = s.still := rfl

@[simp] theorem State.still_dropTransfer (s : State) (slot : Nat) : (s.dropTransfer slot).still = s.still := rfl

@[simp] theorem State.still_dropBatch (s : State) (slot : Nat) : (s.dropBatch slot).still = s.still := rfl

@[simp] theorem State.still_dropWaiting (s : State) (slot : Nat) : (s.dropWaiting slot).still = s.still := rfl

@[simp] theorem State.still_setSubmit (s : State) (u : Submit) : (s.setSubmit u).still = s.still := rfl

@[simp] theorem State.still_setCtx (s : State) (p c : Nat) (v : Ctx) : (s.setCtx p c v).still = s.still := rfl

@[simp] theorem State.still_freezeTotals (s : State) (p : Nat) : (s.freezeTotals p).still = s.still := rfl

/-- The failure records of a `SUBMIT` are written where its status asks for them. -/
@[simp] theorem State.still_records (s : State) (status a : Nat) (l : List Byte) :
    (if writesRecords status then s.hostWrite a l else s).still = s.still := by
  split <;> rfl

@[simp] theorem State.still_endStop (s : State) (stop : Option StopReq) (status : Nat) :
    (s.endStop stop status).still = s.still := by
  unfold State.endStop
  split <;> simp

@[simp] theorem State.still_endSubmit (s : State) (u : Submit) (status stopStatus : Nat) :
    (s.endSubmit u status stopStatus).still = s.still := by
  simp [State.endSubmit]

@[simp] theorem State.still_endCommand (s : State) (status : Nat) (t : Taken) :
    (s.endCommand status t).still = s.still := by
  unfold State.endCommand
  split <;> simp

@[simp] theorem State.still_endCommands (s : State) (p c status : Nat) (but : Option Nat) :
    (s.endCommands p c status but).still = s.still :=
  foldl_keeps State.still _ (fun _ _ => State.still_endCommand _ _ _) _ _

/-! ### Contexts that stop -/

@[simp] theorem State.still_freeCells (s : State) (p c : Nat) : (s.freeCells p c).still = s.still := rfl

@[simp] theorem State.still_dropComms (s : State) (p c : Nat) : (s.dropComms p c).still = s.still := rfl

@[simp] theorem State.still_stopContext (s : State) (p c status : Nat) : (s.stopContext p c status).still = s.still := by
  unfold State.stopContext
  dsimp only
  split <;> simp

@[simp] theorem State.still_stopPart (s : State) (p status : Nat) : (s.stopPart p status).still = s.still :=
  foldl_keeps State.still _ (fun _ _ => State.still_stopContext _ _ _ _) _ _

@[simp] theorem State.still_stopOwner (s : State) (g status : Nat) : (s.stopOwner g status).still = s.still := by
  unfold State.stopOwner
  split <;> simp

theorem State.stopOwner_units (s : State) (g status : Nat) : (s.stopOwner g status).units = s.units :=
  State.units_of_still (s.still_stopOwner g status)

/-! ### Items that are lost -/

@[simp] theorem State.still_noteWaiting (s : State) (p c : Nat) : (s.noteWaiting p c).still = s.still := by
  unfold State.noteWaiting
  dsimp only
  split <;> rfl

@[simp] theorem State.still_settleResidency (s : State) (p : Nat) : (s.settleResidency p).still = s.still := by
  unfold State.settleResidency
  split
  · dsimp only
    split <;> simp
  · rfl

@[simp] theorem State.still_keepOrEnd (s : State) (u : Submit) : (s.keepOrEnd u).still = s.still := by
  have hover : (s.endOver u).still = s.still := by
    unfold State.endOver
    split <;> simp
  unfold State.keepOrEnd
  split
  · exact hover
  · rfl

@[simp] theorem State.still_settle (s : State) (u : Submit) : (s.settle u).still = s.still := by
  simp [State.settle]

@[simp] theorem State.still_loseItem (s : State) (c : Nat) (unit : BitVec 32) : (s.loseItem c unit).still = s.still := by
  unfold State.loseItem
  dsimp only
  split
  · split
    · rfl
    · split
      · simp
      · rfl
  · rfl

theorem State.loseItem_units (s : State) (c : Nat) (unit : BitVec 32) : (s.loseItem c unit).units = s.units :=
  State.units_of_still (s.still_loseItem c unit)

@[simp] theorem State.still_elapseCell (s : State) (c : Nat) : (s.elapseCell c).still = s.still := by
  unfold State.elapseCell
  split <;> rfl

end Sys2Proof.Machine

/-! ## Fences and lost units (R59 to R63, R81, R177) -/

namespace Sys2Proof.Machine

/-! ### Masks -/

theorem getLsbD_putBit_true {w : Nat} (m : BitVec w) {i : Nat} (h : i < w) : (putBit m i true).getLsbD i = true := by
  simp [putBit, h]

theorem getLsbD_putBit_false {w : Nat} (m : BitVec w) (i : Nat) : (putBit m i false).getLsbD i = false := by
  by_cases h : i < w <;> simp [putBit, h, BitVec.getLsbD_one]

/-! ### What a fence changes -/

/-- Fences have come on top of those that `s` has noted, and the edges and the fenced cells are the same. -/
structure State.FencesMore (s t : State) : Prop where
  edges : t.units.edges = s.units.edges
  cellFenced : t.units.cellFenced = s.units.cellFenced
  toLog : s.units.toLog <+: t.units.toLog

theorem State.FencesMore.trans {s t u : State} (h : s.FencesMore t) (g : t.FencesMore u) : s.FencesMore u :=
  ⟨g.edges.trans h.edges, g.cellFenced.trans h.cellFenced, h.toLog.trans g.toLog⟩

theorem State.FencesMore.of_units {s t : State} {u : Units} (h : t.units = u) (hedges : u.edges = s.units.edges)
    (hcells : u.cellFenced = s.units.cellFenced) (hlog : s.units.toLog <+: u.toLog) : s.FencesMore t := by
  subst h
  exact ⟨hedges, hcells, hlog⟩

theorem State.FencesMore.refl (s : State) : s.FencesMore s := ⟨rfl, rfl, List.prefix_rfl⟩

/-- Fencing a block notes it and marks it. -/
theorem State.fenceBlock_units (s : State) (b cause : Nat) (h : s.blockPresent b = true) : ∃ p,
    (s.fenceBlock b cause).units =
      { s.units with toLog := s.units.toLog ++ [(unitId 2 b 0 cause, p)], blockFenced := putBit s.units.blockFenced b true } := by
  rw [State.fenceBlock, if_pos h]
  exact ⟨_, State.stopOwner_units _ _ _⟩

/-- Isolating a region notes it, marks it and takes its stacks away. -/
theorem State.isolate_units (s : State) (g cause : Nat) (h : s.regionPresent g = true) : ∃ p,
    (s.isolate g cause).units =
      { s.units with
        toLog := s.units.toLog ++ [(unitId 3 g 0 cause, p)], isolated := putBit s.units.isolated g true
        hbm := s.units.hbm &&& ~~~((0xF : BitVec 32) <<< (4 * g)) } := by
  rw [State.isolate, if_pos h]
  exact ⟨_, State.stopOwner_units _ _ _⟩

/-- Losing a stack notes it and takes it away. -/
theorem State.loseStack_units (s : State) (n : Nat) (h : s.stackPresent n = true) : ∃ p,
    (s.loseStack n).units =
      { s.units with toLog := s.units.toLog ++ [(unitId 4 n 0 0x06, p)], hbm := putBit s.units.hbm n false } := by
  rw [State.loseStack, if_pos h]
  exact ⟨_, State.stopOwner_units _ _ _⟩

/-- Losing a DIMM notes it and takes it away. -/
theorem State.loseDimm_units (s : State) (d : Nat) (h : s.units.dimms.getD d 0 ≠ 0) :
    (s.loseDimm d).units =
      { s.units with toLog := s.units.toLog ++ [(unitId 7 d 0 0x06, 0xFF)], dimms := setAt s.units.dimms d 0
                     dimmsLost := putBit s.units.dimmsLost d true } := by
  rw [State.loseDimm, if_pos h]
  refine State.units_of_still (foldl_keeps State.still _ (fun a p => ?_) _ _)
  split <;> simp

theorem State.fenceBlock_more (s : State) (b cause : Nat) : s.FencesMore (s.fenceBlock b cause) := by
  by_cases h : s.blockPresent b = true
  · obtain ⟨p, hu⟩ := s.fenceBlock_units b cause h
    exact .of_units hu rfl rfl (List.prefix_append _ _)
  · rw [State.fenceBlock, if_neg h]
    exact .refl s

theorem State.isolate_more (s : State) (g cause : Nat) : s.FencesMore (s.isolate g cause) := by
  by_cases h : s.regionPresent g = true
  · obtain ⟨p, hu⟩ := s.isolate_units g cause h
    exact .of_units hu rfl rfl (List.prefix_append _ _)
  · rw [State.isolate, if_neg h]
    exact .refl s

/-- A block that is fenced takes its region with it, or not. -/
theorem State.fenceBlockUp_eq (s : State) (b cause : Nat) :
    s.fenceBlockUp b cause = s.fenceBlock b cause ∨
      s.fenceBlockUp b cause = (s.fenceBlock b cause).isolate (b / 16) 0x05 := by
  unfold State.fenceBlockUp
  dsimp only
  split
  · exact .inr rfl
  · exact .inl rfl

theorem State.blockFenced_isolate (s : State) (g cause : Nat) :
    (s.isolate g cause).units.blockFenced = s.units.blockFenced := by
  by_cases h : s.regionPresent g = true
  · obtain ⟨p, hu⟩ := s.isolate_units g cause h
    rw [hu]
  · rw [State.isolate, if_neg h]

theorem State.fenceBlockUp_more (s : State) (b cause : Nat) : s.FencesMore (s.fenceBlockUp b cause) := by
  have hblock := s.fenceBlock_more b cause
  rcases s.fenceBlockUp_eq b cause with h | h
  · exact h ▸ hblock
  · exact h ▸ hblock.trans (State.isolate_more _ _ _)

/-- A block that is fenced is marked and noted, whether or not its region goes with it. -/
theorem State.fenceBlockUp_spec (s : State) (b cause : Nat) (h : s.blockPresent b = true) :
    (s.fenceBlockUp b cause).units.blockFenced = putBit s.units.blockFenced b true ∧
      ∃ p, (unitId 2 b 0 cause, p) ∈ (s.fenceBlockUp b cause).units.toLog := by
  obtain ⟨p, hu⟩ := s.fenceBlock_units b cause h
  have hmark : (s.fenceBlock b cause).units.blockFenced = putBit s.units.blockFenced b true := by rw [hu]
  have hmem : (unitId 2 b 0 cause, p) ∈ (s.fenceBlock b cause).units.toLog := by simp [hu]
  rcases s.fenceBlockUp_eq b cause with he | he
  · exact he ▸ ⟨hmark, p, hmem⟩
  · obtain ⟨-, -, hlog⟩ := (s.fenceBlock b cause).isolate_more (b / 16) 0x05
    exact he ▸ ⟨(State.blockFenced_isolate _ _ _).trans hmark, p, hlog.subset hmem⟩

theorem State.noteFence_units (s : State) (u : BitVec 32) (g : Option Nat) : ∃ p,
    (s.noteFence u g).units = { s.units with toLog := s.units.toLog ++ [(u, p)] } := ⟨_, rfl⟩

/-- A cell that is fenced is noted and marked; its block may follow. -/
theorem State.dropCell_units (s : State) (c cause : Nat) (h : s.cellPresent c = true) : ∃ (p : Nat) (t : State),
    t.units = { s.units with
      toLog := s.units.toLog ++ [(unitId 1 (c / 16) (c % 16) cause, p)]
      cellFenced := modifyAt s.units.cellFenced (c / 16) fun m => putBit m (c % 16) true } ∧
    t.FencesMore (s.dropCell c cause) := by
  obtain ⟨p, hp⟩ := (s.elapseCell c).noteFence_units (unitId 1 (c / 16) (c % 16) cause) (some (c / 256))
  rw [State.units_of_still (s.still_elapseCell c)] at hp
  rw [State.dropCell, if_pos h]
  dsimp only
  split
  · exact ⟨p, _, by rw [State.setCell_units, State.loseItem_units, hp], State.fenceBlockUp_more _ _ _⟩
  · exact ⟨p, _, by rw [State.setCell_units, State.loseItem_units, hp], .refl _⟩

/-! ### Units that are present no longer -/

theorem State.cellPresent_fenced {s : State} {c : Nat} (h : (s.units.cellFenced.getD (c / 16) 0).getLsbD (c % 16) = true) :
    s.cellPresent c = false := by
  simp only [State.cellPresent, h, Bool.not_true, Bool.and_false]

theorem State.blockPresent_fenced {s : State} {b : Nat} (h : s.units.blockFenced.getLsbD b = true) :
    s.blockPresent b = false := by
  simp only [State.blockPresent, h, Bool.not_true, Bool.and_false]

theorem State.regionPresent_isolated {s : State} {g : Nat} (h : s.units.isolated.getLsbD g = true) :
    s.regionPresent g = false := by
  simp only [State.regionPresent, h, Bool.not_true, Bool.and_false]

theorem State.stackPresent_lost {s : State} {n : Nat} (h : s.units.hbm.getLsbD n = false) : s.stackPresent n = false := by
  simp only [State.stackPresent, h, Bool.and_false]

theorem State.lt_of_regionPresent {s : State} {g : Nat} (h : s.regionPresent g = true) : g < 8 := by
  simp only [State.regionPresent, Bool.and_eq_true, decide_eq_true_eq] at h
  obtain ⟨hg, -⟩ := h
  exact hg

theorem State.lt_of_blockPresent {s : State} {b : Nat} (h : s.blockPresent b = true) : b < 128 := by
  simp only [State.blockPresent, Bool.and_eq_true, decide_eq_true_eq] at h
  obtain ⟨⟨hb, -⟩, -⟩ := h
  exact hb

theorem State.blockPresent_of_cellPresent {s : State} {c : Nat} (h : s.cellPresent c = true) :
    s.blockPresent (c / 16) = true := by
  simp only [State.cellPresent, Bool.and_eq_true] at h
  obtain ⟨⟨⟨hb, -⟩, -⟩, -⟩ := h
  exact hb

/-- The four stacks of a region are those that its isolation takes away (R59). -/
theorem getLsbD_stacksGone (m : BitVec 32) (g : Nat) {i : Nat} (hi : i < 4) :
    (m &&& ~~~((0xF : BitVec 32) <<< (4 * g))).getLsbD (4 * g + i) = false := by
  have hmask : ∀ j, j < 4 → (15#32).getLsbD j = true := by decide
  simp [hmask i hi]

variable {s : State}

theorem cellWatchdogMiss_answers {c : Nat} (hlen : s.units.cellFenced.length = 128) (h : s.cellPresent c = true)
    (hclk : s.clocksRun = true) :
    Answers (.cellWatchdogMiss c) s fun t => t.cellPresent c = false ∧
      ∃ p, (unitId 1 (c / 16) (c % 16) 0x02, p) ∈ t.units.toLog := by
  obtain ⟨p, t, hu, hmore⟩ := s.dropCell_units c 0x02 h
  have hb := State.lt_of_blockPresent (State.blockPresent_of_cellPresent h)
  refine .of_next rfl (if_pos hclk) ⟨State.cellPresent_fenced ?_, p, hmore.toLog.subset (by simp [hu])⟩
  rw [hmore.cellFenced, hu]
  have hbit := getLsbD_putBit_true (s.units.cellFenced[c / 16]'(by omega)) (Nat.mod_lt c (by decide : 0 < 16))
  simpa [modifyAt, List.getD_eq_getElem?_getD, List.getElem?_eq_getElem, hlen, hb] using hbit

theorem blockFence_answers {b : Nat} (why : BlockCause) (h : s.blockPresent b = true) (hclk : s.clocksRun = true) :
    Answers (.blockFence b why) s fun t => t.blockPresent b = false ∧
      ∃ p, (unitId 2 b 0 (blockCauseCode why), p) ∈ t.units.toLog := by
  obtain ⟨hmark, hmem⟩ := s.fenceBlockUp_spec b (blockCauseCode why) h
  refine .of_next rfl (if_pos hclk) ⟨State.blockPresent_fenced ?_, hmem⟩
  rw [hmark]
  exact getLsbD_putBit_true _ (State.lt_of_blockPresent h)

theorem regionControllerFault_answers {g : Nat} (h : s.regionPresent g = true) (hclk : s.clocksRun = true) :
    Answers (.regionControllerFault g) s fun t => t.regionPresent g = false ∧
      (∀ i, i < 4 → t.stackPresent (4 * g + i) = false) ∧ ∃ p, (unitId 3 g 0 0x08, p) ∈ t.units.toLog := by
  obtain ⟨p, hu⟩ := s.isolate_units g 0x08 h
  refine .of_next rfl (if_pos hclk)
    ⟨State.regionPresent_isolated ?_, fun i hi => State.stackPresent_lost ?_, p, by simp [hu]⟩
  · rw [hu]
    exact getLsbD_putBit_true _ (State.lt_of_regionPresent h)
  · rw [hu]
    exact getLsbD_stacksGone _ g hi

theorem stackLost_answers {n : Nat} (h : s.stackPresent n = true) (hclk : s.clocksRun = true) :
    Answers (.stackLost n) s fun t => t.stackPresent n = false ∧ ∃ p, (unitId 4 n 0 0x06, p) ∈ t.units.toLog := by
  obtain ⟨p, hu⟩ := s.loseStack_units n h
  refine .of_next rfl (if_pos hclk) ⟨State.stackPresent_lost ?_, p, by simp [hu]⟩
  rw [hu]
  exact getLsbD_putBit_false _ n

theorem dimmLost_answers {d : Nat} (why : DimmLoss) (hlen : s.units.dimms.length = 12) (hd : d < 12)
    (h : s.units.dimms.getD d 0 ≠ 0) :
    Answers (.dimmLost d why) s fun t =>
      t.units.dimms.getD d 0 = 0 ∧ (unitId 7 d 0 0x06, 0xFF) ∈ t.units.toLog := by
  have hlost : (s.loseDimm d).units.dimms.getD d 0 = 0 ∧ (unitId 7 d 0 0x06, 0xFF) ∈ (s.loseDimm d).units.toLog := by
    rw [s.loseDimm_units d h]
    exact ⟨by simp [setAt, hlen, hd], by simp⟩
  cases why with
  | clampOpen => exact .of_next rfl rfl hlost
  | pmicFault => exact .of_next rfl rfl hlost

/-! ## Die-to-die edges (R69 to R72) -/

theorem State.edge_setEdge {e : Nat} (v : Edge) (h : e < s.units.edges.length) : (s.setEdge e v).edge e = v := by
  simp [State.edge, State.setEdge, setAt, h]

theorem State.edge_setEdge_other {e f : Nat} (v : Edge) (h : f ≠ e) : (s.setEdge e v).edge f = s.edge f := by
  simp [State.edge, State.setEdge, setAt, Ne.symm h]

theorem State.FencesMore.edge {t : State} (h : s.FencesMore t) (e : Nat) : t.edge e = s.edge e := by
  rw [State.edge, h.edges, State.edge]

theorem State.FencesMore.foldl {α : Type} (f : State → α → State) (hf : ∀ (a : State) x, a.FencesMore (f a x)) (l : List α)
    (s : State) : s.FencesMore (l.foldl f s) := by
  induction l generalizing s with
  | nil => exact .refl s
  | cons x l ih => exact (hf s x).trans (ih _)

/-- What is present of I/O dies and of compute service is no fence. -/
theorem State.FencesMore.of_service (s : State) (iods : BitVec 4) (noCompute : Bool) :
    s.FencesMore { s with units := { s.units with iods, noCompute } } := ⟨rfl, rfl, List.prefix_rfl⟩

theorem State.leaveService_units (s : State) : s.leaveService.units = { s.units with noCompute := true } := by
  have hstop := State.units_of_still (foldl_keeps State.still (fun a p => a.stopPart p stUnitFailed)
    (fun _ _ => State.still_stopPart _ _ _) (List.range 8) s)
  have hend : ∀ (l : List Taken) (a : State), (l.foldl (fun a t => a.endCommand stUnitFailed t) a).units = a.units :=
    fun l a => State.units_of_still (foldl_keeps State.still _ (fun _ _ => State.still_endCommand _ _ _) l a)
  unfold State.leaveService
  dsimp only
  rw [hend, hstop]

theorem State.leaveService_more (s : State) : s.FencesMore s.leaveService :=
  .of_units s.leaveService_units rfl rfl List.prefix_rfl

/-- What follows from an open edge fences more units and changes no edge. -/
theorem State.splitRing_more (s : State) : s.FencesMore s.splitRing := by
  have hiso := State.FencesMore.foldl (fun a (x : Nat × Nat) => a.isolate x.2 0x09) (fun a x => a.isolate_more x.2 0x09)
  unfold State.splitRing
  dsimp only
  split
  · exact hiso _ s
  · split
    · exact (hiso _ s).trans (.of_service _ _ _)
    · exact ((hiso _ s).trans (.of_service _ _ _)).trans (State.leaveService_more _)

/-- An edge that opens, and its note for the log (R59, R71). -/
def State.openEdge (s : State) (e : Nat) : State :=
  (s.setEdge e { s.edge e with up := false, retraining := false, failures := 0 }).noteFence (unitId 5 e 0 0x07) none

theorem State.openEdge_edge {e : Nat} (h : e < s.units.edges.length) : ((s.openEdge e).edge e).up = false :=
  congrArg Edge.up (State.edge_setEdge _ h)

theorem State.openEdge_toLog (s : State) (e : Nat) : (unitId 5 e 0 0x07, 0xFF) ∈ (s.openEdge e).units.toLog :=
  List.mem_append_right _ List.mem_cons_self

theorem exec_edgeReplay {e : Nat} (n : Nat) (hup : (s.edge e).up = true) (hre : (s.edge e).retraining = false) :
    exec (.edgeReplay e n) s = .next (s.setEdge e { s.edge e with
      frameReplays := (s.edge e).frameReplays + 1
      retraining := decide (8 ≤ n ∨ 1000 < (s.edge e).frameReplays + 1) }) :=
  congrArg _ (if_pos (by simp [hup, hre]))

section
variable {e : Nat} (hup : (s.edge e).up = true) (hre : (s.edge e).retraining = true)
include hup hre

/-- An edge that retrains acts on the end of its retraining. -/
theorem edgeRetrains : ¬(!((s.edge e).up && (s.edge e).retraining)) = true := by
  simp [hup, hre]

theorem exec_edgeRetrainComplete_true : exec (.edgeRetrainComplete e true) s =
    .next (s.setEdge e { s.edge e with retraining := false, failures := 0 }) :=
  congrArg _ (if_neg (edgeRetrains hup hre))

theorem exec_edgeRetrainComplete_false (hf : (s.edge e).failures < 2) : exec (.edgeRetrainComplete e false) s =
    .next (s.setEdge e { s.edge e with failures := (s.edge e).failures + 1 }) :=
  congrArg _ ((if_neg (edgeRetrains hup hre)).trans (if_pos hf))

theorem exec_edgeRetrainComplete_open (hf : 2 ≤ (s.edge e).failures) : exec (.edgeRetrainComplete e false) s =
    .next (s.openEdge e).splitRing :=
  congrArg _ ((if_neg (edgeRetrains hup hre)).trans (if_neg (Nat.not_lt.2 hf)))

end

/-- Settles O19, unit by unit. The fences that follow when an edge opens change no edge. -/
theorem unitsAndEdges : Obligations.UnitsAndEdges := by
  unfold Obligations.UnitsAndEdges
  refine ⟨fun s hcells hdimms => ⟨fun c => cellWatchdogMiss_answers hcells, fun b => blockFence_answers,
      fun g => regionControllerFault_answers, fun n => stackLost_answers, fun d why => dimmLost_answers why hdimms,
      fun hclk b why g n => ?held⟩,
    fun s e n he => ⟨fun hup hre => ?replay, fun hup hre => ⟨?retrained, fun hf => ?failed, fun hf => ?opened⟩⟩⟩
  case held =>
    have hc : ¬s.clocksRun = true := by simp [hclk]
    exact ⟨congrArg _ (if_neg hc), congrArg _ (if_neg hc), congrArg _ (if_neg hc)⟩
  case replay =>
    exact ⟨_, exec_edgeReplay n hup hre, State.edge_setEdge _ he, fun _ hf => State.edge_setEdge_other _ hf⟩
  case retrained => exact ⟨_, exec_edgeRetrainComplete_true hup hre, State.edge_setEdge _ he⟩
  case failed => exact ⟨_, exec_edgeRetrainComplete_false hup hre hf, State.edge_setEdge _ he⟩
  case opened =>
    have hmore := (s.openEdge e).splitRing_more
    exact ⟨_, exec_edgeRetrainComplete_open hup hre hf, (hmore.edge e).symm ▸ State.openEdge_edge he,
      hmore.toLog.subset (s.openEdge_toLog e)⟩

end Sys2Proof.Machine
end

section
/-! PROOFS. Upkeep of memory: parity of shared SRAM, scrubbing, retired pages and promotion (R68, R180 to R189). -/

/-! ## Bytes read after a store -/

namespace Sys2Proof

theorem SMap.find_of_above {α : Type} {l : SMap α} {n k : Nat} (h : l.above n) (hk : k < n) : l.find k = none := by
  induction l with
  | nil => rfl
  | cons x l ih =>
    obtain ⟨a, w⟩ := x
    have ha : n ≤ a := h _ List.mem_cons_self
    rw [SMap.find, if_neg (by omega)]
    exact ih fun y hy => h y (List.mem_cons_of_mem _ hy)

theorem SMap.find_del_self {α : Type} {l : SMap α} (k : Nat) (h : SMap.sorted l = true) : (l.del k).find k = none := by
  induction l with
  | nil => rfl
  | cons x l ih =>
    obtain ⟨a, w⟩ := x
    obtain ⟨habove, hl⟩ := (SMap.sorted_cons a w l).1 h
    by_cases hk : a = k
    · rw [SMap.del, if_pos hk]
      exact SMap.find_of_above habove (by omega)
    · rw [SMap.del, if_neg hk, SMap.find, if_neg hk]
      exact ih hl

theorem SMap.find_del_other {α : Type} (l : SMap α) {k j : Nat} (h : j ≠ k) : (l.del k).find j = l.find j := by
  induction l with
  | nil => rfl
  | cons x l ih =>
    obtain ⟨a, w⟩ := x
    by_cases hk : a = k
    · rw [SMap.del, if_pos hk, SMap.find, if_neg (by omega)]
    · rw [SMap.del, if_neg hk, SMap.find, SMap.find, ih]

end Sys2Proof

namespace Sys2Proof.Machine

theorem Cells.get_set_self {l : List Host.Cell} (a : Nat) (b : Byte) (h : Memory.wf l = true) :
    Cells.get (Cells.set l a b) a = b := by
  by_cases hb : b = 0
  · obtain ⟨hsorted, -⟩ := (Memory.wf_iff l).1 h
    rw [Cells.set, if_pos hb, Cells.get, SMap.find_del_self a hsorted, hb]
    rfl
  · rw [Cells.set, if_neg hb, Cells.get, SMap.find_put_self]
    rfl

theorem Cells.get_set_other (l : List Host.Cell) {a j : Nat} (b : Byte) (h : j ≠ a) :
    Cells.get (Cells.set l a b) j = Cells.get l j := by
  by_cases hb : b = 0
  · rw [Cells.set, if_pos hb, Cells.get, SMap.find_del_other l h, Cells.get]
  · rw [Cells.set, if_neg hb, Cells.get, SMap.find_put_other l a j b h, Cells.get]

theorem Cells.get_setAll_below (l : List Host.Cell) {a j : Nat} (bs : List Byte) (h : j < a) :
    Cells.get (Cells.setAll l a bs) j = Cells.get l j := by
  induction bs generalizing l a with
  | nil => rfl
  | cons b bs ih => rw [Cells.setAll, ih _ (by omega), Cells.get_set_other l b (by omega)]

theorem Cells.get_setAll {l : List Host.Cell} (a : Nat) (bs : List Byte) (h : Memory.wf l = true) {i : Nat}
    (hi : i < bs.length) : Cells.get (Cells.setAll l a bs) (a + i) = bs.getD i 0 := by
  induction bs generalizing l a i with
  | nil => exact absurd hi (Nat.not_lt_zero i)
  | cons b bs ih =>
    rw [Cells.setAll]
    cases i with
    | zero => exact (Cells.get_setAll_below _ bs (Nat.lt_succ_self a)).trans (Cells.get_set_self a b h)
    | succ i =>
      rw [show a + (i + 1) = a + 1 + i by omega]
      exact ih (a + 1) (Memory.wf_set l a b h) (Nat.lt_of_succ_lt_succ hi)

/-! ## Parity of shared SRAM (R68) -/

theorem place_sharedBase {b o : Nat} (hb : b < 128) (ho : o < 2 ^ 24) : place (sharedBase b + o) = .shared b o := by
  have hdiv : (sharedBase b + o - sramBase) / 2 ^ 26 = b := by
    unfold sharedBase sramBase; omega
  have hmod : (sharedBase b + o - sramBase) % 2 ^ 26 = o := by
    unfold sharedBase sramBase; omega
  rw [place, if_neg (by unfold sharedBase sramBase; omega), if_neg (by unfold sharedBase sramBase ddrBase; omega),
    if_pos (by unfold sharedBase sramBase; omega)]
  dsimp only
  rw [hdiv, hmod, if_pos ho]

/-- The bytes of a line of shared SRAM by the line's number. -/
theorem sharedBase_line (b line i : Nat) : (sharedBase b / 256 + line) * 256 + i = sharedBase b + (line * 256 + i) := by
  unfold sharedBase sramBase
  omega

theorem State.length_readBytes (s : State) (t : Tag) (pa n : Nat) : (s.readBytes t pa n).length = n := by
  simp [State.readBytes]

theorem State.count_mem (s : State) (b mk cl priv cls : Nat) (es : List Ev) : (s.count b mk cl priv cls es).mem = s.mem := by
  refine foldl_keeps State.mem _ (fun t e => ?_) es s
  unfold State.countOne
  split <;> rfl

variable {s : State}

/-- A clean line that is fetched again takes the bytes of its source, and its tag stays. -/
theorem sramLineRefetch_mem {b line src : Nat} {t : Tag} (hb : s.blockPresent b = true) (hline : line < 65536)
    (hclean : s.mem.cleanLines.find (sharedBase b / 256 + line) = some src)
    (htag : s.mem.tags.find (sharedBase b / 256 + line) = some t) :
    Answers (.sramLineRefetch b line true) s fun u => u.mem.tags = s.mem.tags ∧
      u.mem.cells = Cells.setAll s.mem.cells ((sharedBase b / 256 + line) * 256) (s.readBytes t src 256) := by
  rw [Answers, show exec (.sramLineRefetch b line true) s = execSramLineRefetch b line true s from rfl,
    execSramLineRefetch, if_pos (by simp [hb, hline])]
  dsimp only
  rw [hclean, htag]
  exact ⟨_, rfl, by simp only [if_true, State.count_mem], by simp only [if_true, State.count_mem]⟩

theorem sramLineRefetch_answers {b line src : Nat} {t : Tag} (hb : s.blockPresent b = true) (hline : line < 65536)
    (hwf : s.memoryWf) (hclean : s.mem.cleanLines.find (sharedBase b / 256 + line) = some src)
    (htag : s.mem.tags.find (sharedBase b / 256 + line) = some t) :
    Answers (.sramLineRefetch b line true) s fun u => ∀ i, i < 256 →
      u.readByte t ((sharedBase b / 256 + line) * 256 + i) = (s.readBytes t src 256).getD i 0 := by
  obtain ⟨u, hu, htags, hcells⟩ := sramLineRefetch_mem hb hline hclean htag
  obtain ⟨hcanon, -⟩ := hwf
  refine ⟨u, hu, fun i hi => ?_⟩
  have hplace : place ((sharedBase b / 256 + line) * 256 + i) = .shared b (line * 256 + i) :=
    (congrArg place (sharedBase_line b line i)).trans (place_sharedBase (State.lt_of_blockPresent hb) (by omega))
  have hnumber : ((sharedBase b / 256 + line) * 256 + i) / 256 = sharedBase b / 256 + line := by omega
  rw [State.readByte, hplace]
  dsimp only
  rw [hnumber, htags, if_pos htag, hcells]
  exact Cells.get_setAll _ _ hcanon (hi.trans_eq (s.length_readBytes t src 256).symm)

/-! ## Scrubbing (R185, R189) -/

theorem State.granule_setGranule (s : State) (g : Nat) (v : Granule) (h : v ≠ ⟨.free, .pending⟩) :
    (s.setGranule g v).granule g = v := by
  simp [State.granule, State.setGranule, h, SMap.find_put_self]

theorem granuleZeroed_answers {g : Nat} (hp : s.present (g * granuleSize) = true)
    (hd : s.inDump (g * granuleSize) = false) (hs : (s.granule g).scrub = .pending) :
    Answers (.granuleZeroed g) s fun t => t.granule g = { s.granule g with scrub := .zeroed } ∧
      t.mem.cells = s.mem.cells :=
  .of_next rfl (if_pos (by simp [hp, hd, hs])) ⟨s.granule_setGranule g _ (by simp), rfl⟩

/-! ## Retired pages (R183, R184) -/

theorem mem_putPage (l : List RetiredPage) (r : RetiredPage) : r ∈ putPage l r := by
  induction l with
  | nil => exact List.mem_cons_self
  | cons x l ih =>
    rw [putPage]
    split
    · exact List.mem_cons_self
    · split
      · exact List.mem_cons_self
      · exact List.mem_cons_of_mem _ ih

theorem State.stopOwner_flash (s : State) (g status : Nat) : (s.stopOwner g status).flash = s.flash :=
  State.flash_of_still (s.still_stopOwner g status)

theorem State.loseStack_flash (s : State) (n : Nat) : (s.loseStack n).flash = s.flash := by
  unfold State.loseStack
  split
  · exact State.stopOwner_flash _ _ _
  · rfl

theorem State.loseDimm_flash (s : State) (d : Nat) : (s.loseDimm d).flash = s.flash := by
  unfold State.loseDimm
  split
  · refine foldl_keeps State.flash _ (fun a p => ?_) _ _
    split
    · exact State.flash_of_still (State.still_stopPart _ _ _)
    · rfl
  · rfl

/-- Units that are lost with too many errors leave the retired pages. -/
theorem State.memoryLimits_flash (s : State) (pa : Nat) : (s.memoryLimits pa).flash = s.flash := by
  unfold State.memoryLimits
  split
  · split
    · exact State.loseStack_flash _ _
    · rfl
  · split
    · exact State.loseDimm_flash _ _
    · rfl
  · rfl

theorem State.log_retired (s : State) (e : BitVec 16) (src : BitVec 8) (o a : BitVec 32) :
    (s.log e src o a).flash.retired = s.flash.retired := by
  unfold State.log
  dsimp only
  split
  · rfl
  · split <;> rfl

/-- A page that retires is retired, whether or not it was. -/
theorem State.retirePage_retired (s : State) (page : Nat) (cause : BitVec 2) :
    (s.retirePage page cause).flash.retired.any (fun r => r.retired && r.page == page) = true := by
  unfold State.retirePage
  split
  case isTrue h => exact h
  case isFalse =>
    rw [State.memoryLimits_flash, State.log_retired]
    exact List.any_eq_true.2 ⟨_, mem_putPage _ _, by simp⟩

/-- An uncorrectable error retires its page at once (R183). -/
theorem State.uncorrectable_retired (s : State) {pa : Nat} (cause : BitVec 2)
    (h : (∃ n o, place pa = .hbm n o) ∨ ∃ n o, place pa = .ddr n o) :
    (s.uncorrectable pa cause).flash.retired.any (fun r => r.retired && r.page == pa / 4096) = true := by
  have heq : s.uncorrectable pa cause =
      ((s.countUncorr pa).retirePage (pa / 4096) cause).memoryLimits pa := by
    unfold State.uncorrectable
    rcases h with ⟨n, o, h⟩ | ⟨n, o, h⟩ <;> rw [h]
  rw [heq, State.memoryLimits_flash]
  exact State.retirePage_retired _ _ _

/-- With two corrected errors in the last 24 h, a third puts the page on the list of pages to retire (R184). -/
theorem State.correctedError_listed (s : State) (page : Nat)
    (h : 2 ≤ (((s.mem.corrected.find page).getD []).filter fun x => s.power.frame.toNat < x + dayFrames).length) :
    (s.correctedError page).flash.retired.any (fun r => r.page == page) = true := by
  unfold State.correctedError
  dsimp only
  split
  case isTrue => exact List.any_eq_true.2 ⟨_, mem_putPage _ _, by simp⟩
  case isFalse hc => simpa [Nat.succ_le_succ h] using hc

/-- What follows from what the patrol scrub finds in a line (R183 to R185). -/
def State.scrubFound (s : State) (pa : Nat) : ScrubFinding → State
  | .clean => s
  | .corrected => s.correctedError (pa / 4096)
  | .uncorrectable => (s.stopGranule (pa / granuleSize)).uncorrectable pa 3

/-- The patrol scrub reads present external memory (R185). -/
theorem exec_patrolScrub {pa : Nat} (found : ScrubFinding) (hp : s.present pa = true)
    (h : (∃ n o, place pa = .hbm n o) ∨ ∃ n o, place pa = .ddr n o) :
    exec (.patrolScrub pa found) s = .next (s.scrubFound pa found) := by
  have hp' : ¬(!s.present pa) = true := by simp [hp]
  rw [show exec (.patrolScrub pa found) s = execPatrolScrub pa found s from rfl]
  unfold execPatrolScrub
  rcases h with ⟨n, o, h⟩ | ⟨n, o, h⟩ <;> (rw [h]; exact congrArg _ (if_neg hp'))

/-! ## Promotion (R179 to R181) -/

/-- An agent that meets no error goes on with its work. -/
theorem State.readMeets_none (s : State) (b mk priv p c : Nat) (ps : List Piece) (go : State → State) :
    s.readMeets b mk priv p c ps .none_ go = go s := rfl

theorem exec_tierPromotion {g : Nat} {h : Hint} {l : List Hint} (hhints : s.mem.hints.find g = some (h :: l))
    (hp : s.regionPresent g = true) (hclk : s.clocksRun = true) :
    exec (.tierPromotion g .none_) s =
      .next (({ s with mem := { s.mem with hints := s.mem.hints.put g l } } : State).takeHint g h) := by
  rw [← State.readMeets_none _ _ _ _ _ _ _ fun t => t.takeHint g h,
    show exec (.tierPromotion g .none_) s = execTierPromotion g .none_ s from rfl]
  unfold execTierPromotion
  rw [hhints]
  exact if_neg (by simp [hp, hclk])

/-- A pool with an entry and a done ring with room (R180 step 1). -/
theorem noRoom_eq_false {d : List Byte} (hpool : gatherDesc d 0x0C 4 ≠ gatherDesc d 0x10 4)
    (hring : (gatherDesc d 0x28 4 + 2 ^ 32 - gatherDesc d 0x24 4) % 2 ^ 32 < gatherDesc d 0x20 4) :
    noRoom d = false := by
  rw [noRoom, beq_eq_false_iff_ne.2 hpool, decide_eq_false (Nat.not_le.2 hring)]
  rfl

/-- A hint whose reads and whose advance of the pool meet no fault is promoted to the page that the pool names
(R180 steps 1 and 2). The proof hides what a read does, so that checking it runs none. -/
theorem State.takeHint_eq_promote {s r q w : State} {g : Nat} {h : Hint} {d pe : List Byte}
    (hr : s.tierRead g h (s.ctx h.part h.ctx).tierCb.toNat 0x40 = (r, some d)) (hroom : noRoom d = false)
    (hq : r.tierRead g h (gatherDesc d 0x00 8 + 8 * (gatherDesc d 0x0C 4 % gatherDesc d 0x08 4)) 8 = (q, some pe))
    (hw : q.tierWrite g h ((s.ctx h.part h.ctx).tierCb.toNat + 0x0C) (leBytes 4 (gatherDesc d 0x0C 4 + 1)) = (w, true)) :
    s.takeHint g h = w.promote g h (leNat pe) := by
  rw [← poolEntry] at hq
  rw [State.takeHint]
  generalize State.tierRead = read at hr hq ⊢
  simp only [hr, hroom, hq, hw, Bool.false_eq_true, if_false, if_true]

/-- The page of a hint is copied to the pages that its pool names (R180 step 3). -/
def State.copyPage (s : State) (g : Nat) (h : Hint) (src dst : List Piece) : State :=
  ((s.vsnoop h.part h.ctx (h.value.toNat / 4096 * 4096) (2 ^ h.pgsz)).movePieces (s.tagOf h.part h.ctx) src src dst).count
    (s.moverBlock g) mkTier 0 (if h.sup then privSup else privUser) clsMemory
    (moverEvents (s.moverBlock g) false src ++ moverEvents (s.moverBlock g) true dst)

/-- A promotion that meets no fault swaps the entry and ends with a done record for the old page (R180 steps 3 to 5). -/
theorem State.promote_eq_end {s r w : State} {g pool : Nat} {h : Hint} {src dst : List Piece} {l : List Byte}
    (hsrc : s.vpieces h.part h.ctx .load (h.value.toNat / 4096 * 4096) (2 ^ h.pgsz) = (src, none))
    (hdst : s.vpieces h.part h.ctx .store pool (2 ^ h.pgsz) = (dst, none)) (halign : pool % 2 ^ h.pgsz = 0)
    (howned : s.ownedHbm h.part h.ctx dst = true)
    (hr : (s.copyPage g h src dst).tierRead g h h.entry.toNat 8 = (r, some l)) (hl : leNat l = h.value.toNat)
    (hw : r.tierWrite g h h.entry.toNat (leBytes 8 (pool + 1)) = (w, true)) :
    s.promote g h pool = w.endPromotion g h (h.value.toNat / 4096 * 4096 + 1) := by
  have hgo : (pool % 2 ^ h.pgsz != 0 || !s.ownedHbm h.part h.ctx dst) = false := by simp [halign, howned]
  unfold State.copyPage at hr
  simp only [State.promote, hsrc, hdst, hgo, hr, hl, hw, Bool.false_eq_true, if_false, if_true]

/-! ### The accesses of the tier mover -/

theorem State.mem_cells_of_alike {t u : State} (h : t.Alike u) : t.mem.cells = u.mem.cells :=
  show t.rest.mem.cells = u.rest.mem.cells from congrArg (fun a : State => a.mem.cells) h.2

theorem State.vsnoop_alike (s : State) (p c va n : Nat) : (s.vsnoop p c va n).Alike s :=
  (State.recallPieces_alike _ _).trans (State.recallEntries_alike _ _)

theorem State.tierRead_cells (s : State) (g : Nat) (h : Hint) (va n : Nat) :
    (s.tierRead g h va n).1.mem.cells = s.mem.cells :=
  State.mem_cells_of_alike ((State.count_alike ..).trans (s.vsnoop_alike ..))

theorem State.tierWrite_some {s u : State} {h : Hint} {va : Nat} {l : List Byte} (g : Nat)
    (hu : s.vwrite h.part h.ctx va l = some u) :
    (s.tierWrite g h va l).2 = true ∧ (s.tierWrite g h va l).1.mem = u.mem := by
  unfold State.tierWrite
  dsimp only
  rw [hu]
  exact ⟨rfl, State.count_mem ..⟩

theorem State.tierWrite_none {h : Hint} {va : Nat} {l : List Byte} (g : Nat) (hn : s.vwrite h.part h.ctx va l = none) :
    s.tierWrite g h va l = (s, false) := by
  unfold State.tierWrite
  dsimp only
  rw [hn]

/-- A pair whose second part is known. -/
theorem eq_mk_of_snd {α β : Type} {x : α × β} {b : β} (h : x.2 = b) : x = (x.1, b) := Prod.ext rfl h

/-- Settles O20: each row of upkeep by its own lemma, and a promotion in two halves, up to the page that the pool names and
from there. -/
theorem memoryUpkeep : Obligations.MemoryUpkeep := by
  unfold Obligations.MemoryUpkeep
  refine ⟨fun s => ⟨fun b line src t hb hline hwf => sramLineRefetch_answers hb hline hwf,
    fun g => granuleZeroed_answers, fun pa hp hplace => ?scrub⟩, fun s g h l hhints hp hclk => ?promotion,
    fun s g h va n l => ⟨s.tierRead_cells g h va n, rfl, fun u => State.tierWrite_some g, State.tierWrite_none g⟩⟩
  case scrub =>
    have hext : (∃ n o, place pa = .hbm n o) ∨ ∃ n o, place pa = .ddr n o := by
      simpa only [exists_or] using hplace
    exact ⟨exec_patrolScrub .clean hp hext,
      ⟨_, exec_patrolScrub .uncorrectable hp hext, State.uncorrectable_retired _ 3 hext⟩,
      fun h2 => ⟨_, exec_patrolScrub .corrected hp hext, s.correctedError_listed _ h2⟩⟩
  case promotion =>
    refine ⟨exec_tierPromotion hhints hp hclk, ?_⟩
    intro d pe src dst hd fld hpool hring r1 w1 s1 pool old hpe hw1 hsrc hdst halign howned b moved r2 w2 hentry hw2
    -- From here the states are known by equations alone, so that checking the proof runs no access.
    clear_value (ew2 : w2 = _) (er2 : r2 = _) (emoved : moved = s1.copyPage g h src dst) (es1 : s1 = _) (ew1 : w1 = _)
      (er1 : r1 = _)
    obtain ⟨e, he, hval⟩ := Option.map_eq_some_iff.1 hentry
    have htake := State.takeHint_eq_promote (eq_mk_of_snd hd) (noRoom_eq_false hpool hring)
      (er1.symm.trans (eq_mk_of_snd hpe)) (ew1.symm.trans (eq_mk_of_snd hw1))
    have hend := State.promote_eq_end hsrc hdst halign howned
      (emoved ▸ er2.symm.trans (eq_mk_of_snd he)) hval (ew2.symm.trans (eq_mk_of_snd hw2))
    rw [← es1] at htake
    exact htake.trans hend

end Sys2Proof.Machine
end

section

/-! PROOFS. The words of the cell instructions (R95 to R98, R107). -/

namespace Sys2Proof
open BitVec

/-! ## Formats (R95, R96, R107) -/

theorem getLsbD_append_high {n m i : Nat} {x : BitVec n} {y : BitVec m} (h : m ≤ i) :
    (x ++ y).getLsbD i = x.getLsbD (i - m) := getLsbD_append.trans (if_neg (Nat.not_lt.2 h))

theorem getLsbD_append_low {n m i : Nat} {x : BitVec n} {y : BitVec m} (h : i < m) :
    (x ++ y).getLsbD i = y.getLsbD i := getLsbD_append.trans (if_pos h)

theorem extractLsb'_setWidth_low {n m : Nat} {x : BitVec n} (h : n ≤ m) : (x.setWidth m).extractLsb' 0 n = x := by
  ext i hi
  have hm : i < m := by omega
  simp [hi, hm]

/-- The words of a form: the opcode and the operands can be read from them. -/
def Spells {α : Type} (enc : BitVec 8 → α → BitVec 64) (dec : BitVec 64 → α) : Prop :=
  ∀ op o, (enc op o).extractLsb' 56 8 = op ∧ dec (enc op o) = o

theorem spells_fmtS : Spells fmtS asS := fun op o => by
  simp (disch := omega) only [fmtS, asS, extractLsb'_append_eq_of_le, extractLsb'_append_eq_of_add_le]
  simp

theorem spells_fmtI : Spells fmtI asI := fun op o => by
  simp (disch := omega) only [fmtI, asI, extractLsb'_append_eq_of_le, extractLsb'_append_eq_of_add_le]
  simp

theorem spells_fmtB : Spells fmtB asB := fun op o => by
  simp (disch := omega) only [fmtB, asB, extractLsb'_append_eq_of_le, extractLsb'_append_eq_of_add_le]
  simp

theorem spells_fmtV : Spells fmtV asV := fun op o => by
  simp (disch := omega) only [fmtV, asV, extractLsb'_append_eq_of_le, extractLsb'_append_eq_of_add_le,
    getLsbD_append_high, getLsbD_append_low]
  simp

theorem spells_fmtM : Spells fmtM asM := fun op o => by
  simp (disch := omega) only [fmtM, asM, extractLsb'_append_eq_of_le, extractLsb'_append_eq_of_add_le,
    getLsbD_append_high, getLsbD_append_low]
  simp

section
variable (op : BitVec 8) (pg : BitVec 4) (pn : Bool)

/-- The fields of format C above `AUX`. -/
theorem fields_fmtC (a b c : BitVec 5) (aux : BitVec 36) :
    let w := fmtC op pg pn a b c aux
    w.extractLsb' 56 8 = op ∧ w.extractLsb' 52 4 = pg ∧ w.getLsbD 51 = pn ∧ w.extractLsb' 46 5 = a ∧
      w.extractLsb' 41 5 = b ∧ w.extractLsb' 36 5 = c := by
  simp (disch := omega) only [fmtC, extractLsb'_append_eq_of_le, extractLsb'_append_eq_of_add_le,
    getLsbD_append_high, getLsbD_append_low]
  simp

theorem aux_fmtC (a b c : BitVec 5) (aux : BitVec 36) {i n : Nat} (h : i + n ≤ 36) :
    (fmtC op pg pn a b c aux).extractLsb' i n = aux.extractLsb' i n :=
  extractLsb'_append_eq_of_add_le h

theorem auxBit_fmtC (a b c : BitVec 5) (aux : BitVec 36) {i : Nat} (h : i < 36) :
    (fmtC op pg pn a b c aux).getLsbD i = aux.getLsbD i :=
  getLsbD_append_low h

/-- The fields of format T above the operands. -/
theorem fields_fmtT (td : BitVec 3) (x : BitVec 48) :
    let w := fmtT op pg pn td x
    w.extractLsb' 56 8 = op ∧ w.extractLsb' 52 4 = pg ∧ w.getLsbD 51 = pn ∧ w.extractLsb' 48 3 = td := by
  simp (disch := omega) only [fmtT, extractLsb'_append_eq_of_le, extractLsb'_append_eq_of_add_le,
    getLsbD_append_high, getLsbD_append_low]
  simp

theorem operands_fmtT (td : BitVec 3) (x : BitVec 48) {i n : Nat} (h : i + n ≤ 48) :
    (fmtT op pg pn td x).extractLsb' i n = x.extractLsb' i n :=
  extractLsb'_append_eq_of_add_le h

theorem operandBit_fmtT (td : BitVec 3) (x : BitVec 48) {i : Nat} (h : i < 48) :
    (fmtT op pg pn td x).getLsbD i = x.getLsbD i :=
  getLsbD_append_low h

end

/-! ## Operands of single instructions -/

def asPredicate (w : BitVec 64) : BPOp := ⟨w.extractLsb' 46 4, w.extractLsb' 0 41⟩

/-- A CSR access whose scalar register stands at bit `i`. -/
def asCsr (i : Nat) (w : BitVec 64) : CsrOp := ⟨w.extractLsb' i 5, w.extractLsb' 0 12⟩

def asTmma (w : BitVec 64) : TmmaOp :=
  ⟨w.extractLsb' 52 4, w.getLsbD 51, w.extractLsb' 48 3, w.extractLsb' 43 5, w.extractLsb' 38 5, w.extractLsb' 34 4,
   w.extractLsb' 30 4, w.extractLsb' 26 4, w.extractLsb' 22 4, w.getLsbD 21⟩

def asTwin (w : BitVec 64) : TwinOp :=
  ⟨w.extractLsb' 48 3, w.extractLsb' 43 5, w.extractLsb' 41 2, w.getLsbD 40, w.getLsbD 39, w.extractLsb' 23 16⟩

def asXtalT (w : BitVec 64) : XtalTOp :=
  ⟨w.extractLsb' 48 3, w.extractLsb' 43 5, w.extractLsb' 34 4, w.extractLsb' 29 5, w.extractLsb' 25 4, w.getLsbD 24,
   w.getLsbD 23⟩

def asTMov (w : BitVec 64) : TMovOp := ⟨w.extractLsb' 48 3, w.extractLsb' 43 5, w.extractLsb' 33 5⟩

def asGatherp (w : BitVec 64) : GatherpOp :=
  ⟨w.extractLsb' 52 4, w.getLsbD 51, w.extractLsb' 46 5, w.extractLsb' 41 5, w.extractLsb' 36 5, w.extractLsb' 0 4⟩

def asMcopy (w : BitVec 64) : McopyOp :=
  ⟨w.extractLsb' 46 5, w.extractLsb' 41 5, w.extractLsb' 36 5, w.extractLsb' 31 5, w.extractLsb' 25 6, w.getLsbD 24⟩

def asWaitsig (w : BitVec 64) : WaitsigOp :=
  ⟨w.extractLsb' 46 5, w.extractLsb' 41 5, w.extractLsb' 36 5, w.getLsbD 0, w.getLsbD 1, w.extractLsb' 2 5,
   w.extractLsb' 7 4⟩

def asFence (w : BitVec 64) : FenceOp :=
  ⟨w.extractLsb' 0 2, w.getLsbD 2, w.getLsbD 3, w.getLsbD 4, w.getLsbD 5, w.getLsbD 6⟩

theorem spells_predicate : Spells (fun op (q : BPOp) => fmtB op ⟨(0 : BitVec 1) ++ q.p, 0, q.off⟩)
    asPredicate := fun op o => by
  simp (disch := omega) only [fmtB, asPredicate, extractLsb'_append_eq_of_le, extractLsb'_append_eq_of_add_le]
  simp

theorem spells_csrDest : Spells (fun op (o : CsrOp) => fmtC op 0 false o.r 0 0 (o.csr.setWidth 36))
    (asCsr 46) := fun op o => by
  simp (disch := omega) only [asCsr, fields_fmtC, aux_fmtC, extractLsb'_setWidth_low]
  simp

theorem spells_csrSource : Spells (fun op (o : CsrOp) => fmtC op 0 false 0 o.r 0 (o.csr.setWidth 36))
    (asCsr 41) := fun op o => by
  simp (disch := omega) only [asCsr, fields_fmtC, aux_fmtC, extractLsb'_setWidth_low]
  simp

theorem spells_none : Spells (fun op (_ : Unit) => fmtC op 0 false 0 0 0 0) fun _ => () := fun op _ => by
  simp [fields_fmtC]

theorem spells_register : Spells (fun op (b : BitVec 5) => fmtC op 0 false 0 b 0 0)
    fun w => w.extractLsb' 41 5 := fun op b => by
  simp [fields_fmtC]

theorem spells_mmuinv : Spells (fun op (o : BitVec 5 × Bool) => fmtC op 0 false 0 o.1 0 ((ofBool o.2).setWidth 36))
    fun w => (w.extractLsb' 41 5, w.getLsbD 0) := fun op o => by
  simp (disch := omega) only [fields_fmtC, auxBit_fmtC]
  simp

theorem spells_tmma : Spells (fun op (o : TmmaOp) => fmtT op o.pg o.pn o.td
    (o.va ++ o.vb ++ o.fa ++ o.fb ++ o.qa ++ o.qb ++ ofBool o.scl ++ (0 : BitVec 21))) asTmma := fun op o => by
  simp (disch := omega) only [asTmma, fields_fmtT, operands_fmtT, operandBit_fmtT, extractLsb'_append_eq_of_le,
    extractLsb'_append_eq_of_add_le, getLsbD_append_high, getLsbD_append_low]
  simp

theorem spells_twin : Spells (fun op (o : TwinOp) => fmtT op 0 false o.td
    (o.ss ++ o.mode ++ ofBool o.auto ++ ofBool o.immw ++ o.win ++ (0 : BitVec 23))) asTwin := fun op o => by
  simp (disch := omega) only [asTwin, fields_fmtT, operands_fmtT, operandBit_fmtT, extractLsb'_append_eq_of_le,
    extractLsb'_append_eq_of_add_le, getLsbD_append_high, getLsbD_append_low]
  simp

theorem spells_tile : Spells (fun op (t : BitVec 3) => fmtT op 0 false t 0)
    fun w => w.extractLsb' 48 3 := fun op t => by
  simp [fields_fmtT]

theorem spells_xtalT : Spells (fun op (o : XtalTOp) => fmtT op 0 false o.td
    (o.vd ++ (0 : BitVec 5) ++ o.tet ++ o.rg ++ o.qd ++ ofBool o.scl ++ ofBool o.sat ++ (0 : BitVec 23)))
    asXtalT := fun op o => by
  simp (disch := omega) only [asXtalT, fields_fmtT, operands_fmtT, operandBit_fmtT, extractLsb'_append_eq_of_le,
    extractLsb'_append_eq_of_add_le, getLsbD_append_high, getLsbD_append_low]
  simp

theorem spells_tmov : Spells (fun op (o : TMovOp) => fmtT op 0 false o.td
    (o.v ++ (0 : BitVec 5) ++ o.rp ++ (0 : BitVec 33))) asTMov := fun op o => by
  simp (disch := omega) only [asTMov, fields_fmtT, operands_fmtT, extractLsb'_append_eq_of_le,
    extractLsb'_append_eq_of_add_le]
  simp

theorem spells_gatherp : Spells (fun op (o : GatherpOp) => fmtC op o.pg o.pn o.a o.b o.c (o.pd.setWidth 36))
    asGatherp := fun op o => by
  simp (disch := omega) only [asGatherp, fields_fmtC, aux_fmtC, extractLsb'_setWidth_low]
  simp

theorem spells_mcopy : Spells (fun op (o : McopyOp) => fmtC op 0 false o.a o.b o.c
    (o.sw ++ o.bit ++ ofBool o.sig ++ (0 : BitVec 24))) asMcopy := fun op o => by
  simp (disch := omega) only [asMcopy, fields_fmtC, aux_fmtC, auxBit_fmtC, extractLsb'_append_eq_of_le,
    extractLsb'_append_eq_of_add_le, getLsbD_append_high, getLsbD_append_low]
  simp

theorem spells_waitsig : Spells (fun op (o : WaitsigOp) => fmtC op 0 false o.a o.b o.c
    ((0 : BitVec 25) ++ o.pd ++ o.tmo ++ ofBool o.clr ++ ofBool o.any)) asWaitsig := fun op o => by
  simp (disch := omega) only [asWaitsig, fields_fmtC, aux_fmtC, auxBit_fmtC, extractLsb'_append_eq_of_le,
    extractLsb'_append_eq_of_add_le, getLsbD_append_high, getLsbD_append_low]
  simp

theorem spells_fence : Spells (fun op (o : FenceOp) => fmtC op 0 false 0 0 0
    ((0 : BitVec 29) ++ ofBool o.async ++ ofBool o.sw ++ ofBool o.sr ++ ofBool o.pw ++ ofBool o.pr ++ o.scope))
    asFence := fun op o => by
  simp (disch := omega) only [asFence, fields_fmtC, aux_fmtC, auxBit_fmtC, extractLsb'_append_eq_of_add_le,
    getLsbD_append_high, getLsbD_append_low]
  simp

/-! ## Round trips (R98, R99) -/

/-- An opcode selects the instruction that takes its operands from the word by `f`. -/
def Selects (c : Nat) (op : BitVec 8) (f : BitVec 64 → Instr) : Prop :=
  ∀ w : BitVec 64, w.extractLsb' 56 8 = op → fieldsOf c w = some (f w)

/-- An instruction comes back from its word where its opcode selects it and its form spells its operands. -/
theorem Spells.roundTrip {α : Type} {enc : BitVec 8 → α → BitVec 64} {dec : BitVec 64 → α} (h : Spells enc dec)
    {c : Nat} {op : BitVec 8} {o : α} (f : α → Instr) (hs : Selects c op fun w => f (dec w))
    (he : encodeCell (f o) = some (enc op o)) : (encodeCell (f o)).bind (decodeCell c) = some (f o) := by
  obtain ⟨hop, hdec⟩ := h op o
  have hf : fieldsOf c (enc op o) = some (f o) := (hs _ hop).trans (congrArg (fun x => some (f x)) hdec)
  rw [he, Option.bind_some, decodeCell, hf]
  exact if_pos he

/-- A word that decodes is the word of what it spells. -/
theorem encodeCell_of_decodeCell {c : Nat} {w : BitVec 64} {i : Instr} (h : decodeCell c w = some i) :
    encodeCell i = some w := by
  unfold decodeCell at h
  split at h
  case h_1 j hj =>
    split at h
    case isTrue he => exact Option.some.inj h ▸ he
    case isFalse => exact nomatch h
  case h_2 => exact nomatch h

/-- Settles O58: every opcode selects its instruction, and every form spells its operands. -/
theorem decodeEncode : Obligations.DecodeEncode := by
  unfold Obligations.DecodeEncode
  refine ⟨fun c i j b q r x y => ?scalar, fun c v m a w z x r g y u f => ?vector,
    fun c w i => encodeCell_of_decodeCell⟩
  case scalar =>
    simp only [List.forall_mem_cons, List.not_mem_nil, false_imp_iff, implies_true, and_true]
    refine ⟨spells_fmtS.roundTrip (.add c · .none_) ?_ rfl, spells_fmtS.roundTrip (.sub c · .none_) ?_ rfl,
      spells_fmtS.roundTrip (.and c · .none_) ?_ rfl, spells_fmtS.roundTrip (.or c · .none_) ?_ rfl,
      spells_fmtS.roundTrip (.xor c · .none_) ?_ rfl, spells_fmtS.roundTrip (.sll c · .none_) ?_ rfl,
      spells_fmtS.roundTrip (.srl c · .none_) ?_ rfl, spells_fmtS.roundTrip (.sra c · .none_) ?_ rfl,
      spells_fmtS.roundTrip (.slt c · .none_) ?_ rfl, spells_fmtS.roundTrip (.sltu c · .none_) ?_ rfl,
      spells_fmtS.roundTrip (.mul c · .none_) ?_ rfl, spells_fmtS.roundTrip (.mulh c · .none_) ?_ rfl,
      spells_fmtS.roundTrip (.mulhu c · .none_) ?_ rfl, spells_fmtS.roundTrip (.div c · .none_) ?_ rfl,
      spells_fmtS.roundTrip (.divu c · .none_) ?_ rfl, spells_fmtS.roundTrip (.rem c · .none_) ?_ rfl,
      spells_fmtS.roundTrip (.remu c · .none_) ?_ rfl, spells_fmtS.roundTrip (.min c · .none_) ?_ rfl,
      spells_fmtS.roundTrip (.max c · .none_) ?_ rfl, spells_fmtI.roundTrip (.addi c · .none_) ?_ rfl,
      spells_fmtI.roundTrip (.andi c · .none_) ?_ rfl, spells_fmtI.roundTrip (.ori c · .none_) ?_ rfl,
      spells_fmtI.roundTrip (.xori c · .none_) ?_ rfl, spells_fmtI.roundTrip (.slli c · .none_) ?_ rfl,
      spells_fmtI.roundTrip (.srli c · .none_) ?_ rfl, spells_fmtI.roundTrip (.srai c · .none_) ?_ rfl,
      spells_fmtI.roundTrip (.lui c · .none_) ?_ rfl, spells_fmtI.roundTrip (.jal c · .none_) ?_ rfl,
      spells_fmtI.roundTrip (.jalr c · .none_) ?_ rfl, spells_fmtB.roundTrip (.beq c · .none_) ?_ rfl,
      spells_fmtB.roundTrip (.bne c · .none_) ?_ rfl, spells_fmtB.roundTrip (.blt c · .none_) ?_ rfl,
      spells_fmtB.roundTrip (.bge c · .none_) ?_ rfl, spells_fmtB.roundTrip (.bltu c · .none_) ?_ rfl,
      spells_fmtB.roundTrip (.bgeu c · .none_) ?_ rfl, spells_predicate.roundTrip (.bpany c · .none_) ?_ rfl,
      spells_predicate.roundTrip (.bpnone c · .none_) ?_ rfl, spells_csrDest.roundTrip (.csrr c · .none_) ?_ rfl,
      spells_csrSource.roundTrip (.csrw c · .none_) ?_ rfl, spells_csrSource.roundTrip (.csrs c · .none_) ?_ rfl,
      spells_csrSource.roundTrip (.csrc c · .none_) ?_ rfl,
      spells_none.roundTrip (o := ()) (fun _ => .scall c .none_) ?_ rfl,
      spells_none.roundTrip (o := ()) (fun _ => .sret c .none_) ?_ rfl,
      spells_none.roundTrip (o := ()) (fun _ => .brk c .none_) ?_ rfl,
      spells_none.roundTrip (o := ()) (fun _ => .ifence c .none_) ?_ rfl,
      spells_none.roundTrip (o := ()) (fun _ => .nop c .none_) ?_ rfl,
      spells_register.roundTrip (.sexit c · .none_) ?_ rfl, spells_register.roundTrip (.iend c · .none_) ?_ rfl,
      spells_mmuinv.roundTrip (o := (x, y)) (fun o => .mmuinv c o.1 o.2 .none_) ?_ rfl⟩
    all_goals intro w hop; rw [fieldsOf, hop]; rfl
  case vector =>
    simp only [List.forall_mem_cons, List.not_mem_nil, false_imp_iff, implies_true, and_true]
    refine ⟨spells_fmtV.roundTrip (.vadd c · .none_) ?_ rfl, spells_fmtV.roundTrip (.vsub c · .none_) ?_ rfl,
      spells_fmtV.roundTrip (.vmul c · .none_) ?_ rfl, spells_fmtV.roundTrip (.vfma c · .none_) ?_ rfl,
      spells_fmtV.roundTrip (.vfnma c · .none_) ?_ rfl, spells_fmtV.roundTrip (.vmin c · .none_) ?_ rfl,
      spells_fmtV.roundTrip (.vmax c · .none_) ?_ rfl, spells_fmtV.roundTrip (.vand c · .none_) ?_ rfl,
      spells_fmtV.roundTrip (.vor c · .none_) ?_ rfl, spells_fmtV.roundTrip (.vxor c · .none_) ?_ rfl,
      spells_fmtV.roundTrip (.vsll c · .none_) ?_ rfl, spells_fmtV.roundTrip (.vsrl c · .none_) ?_ rfl,
      spells_fmtV.roundTrip (.vsra c · .none_) ?_ rfl, spells_fmtV.roundTrip (.vcmp c · .none_) ?_ rfl,
      spells_fmtV.roundTrip (.vsel c · .none_) ?_ rfl, spells_fmtV.roundTrip (.vcvt c · .none_) ?_ rfl,
      spells_fmtV.roundTrip (.vperm c · .none_) ?_ rfl, spells_fmtV.roundTrip (.vreduce c · .none_) ?_ rfl,
      spells_fmtV.roundTrip (.vrcp c · .none_) ?_ rfl, spells_fmtV.roundTrip (.vrsqrt c · .none_) ?_ rfl,
      spells_fmtV.roundTrip (.vexp2 c · .none_) ?_ rfl, spells_fmtV.roundTrip (.vlog2 c · .none_) ?_ rfl,
      spells_fmtV.roundTrip (.vext c · .none_) ?_ rfl, spells_fmtV.roundTrip (.vins c · .none_) ?_ rfl,
      spells_fmtV.roundTrip (.vtob c · .none_) ?_ rfl, spells_fmtV.roundTrip (.vbadd c · .none_) ?_ rfl,
      spells_fmtV.roundTrip (.xtalV c · .none_) ?_ rfl, spells_fmtV.roundTrip (.vtopk c · .none_) ?_ rfl,
      spells_fmtV.roundTrip (.viota c · .none_) ?_ rfl, spells_tmma.roundTrip (.tmma c · .none_) ?_ rfl,
      spells_twin.roundTrip (.twin c · .none_) ?_ rfl, spells_tile.roundTrip (.tzero c · .none_) ?_ rfl,
      spells_xtalT.roundTrip (.xtalT c · .none_) ?_ rfl, spells_tmov.roundTrip (.tmovv c · .none_) ?_ rfl,
      spells_tmov.roundTrip (.vmovt c · .none_) ?_ rfl, spells_fmtM.roundTrip (.ld c · .none_) ?_ rfl,
      spells_fmtM.roundTrip (.ldu c · .none_) ?_ rfl, spells_fmtM.roundTrip (.st c · .none_) ?_ rfl,
      spells_fmtM.roundTrip (.amoadd c · .none_) ?_ rfl, spells_fmtM.roundTrip (.amoswap c · .none_) ?_ rfl,
      spells_fmtM.roundTrip (.amocas c · .none_) ?_ rfl, spells_fmtM.roundTrip (.amomin c · .none_) ?_ rfl,
      spells_fmtM.roundTrip (.amomax c · .none_) ?_ rfl, spells_fmtM.roundTrip (.amoand c · .none_) ?_ rfl,
      spells_fmtM.roundTrip (.amoor c · .none_) ?_ rfl, spells_fmtM.roundTrip (.vld c · .none_) ?_ rfl,
      spells_fmtM.roundTrip (.vst c · .none_) ?_ rfl, spells_fmtM.roundTrip (.vldw c · .none_) ?_ rfl,
      spells_fmtM.roundTrip (.vgather c · .none_) ?_ rfl, spells_fmtM.roundTrip (.vscatter c · .none_) ?_ rfl,
      spells_fmtM.roundTrip (.vldx c · .none_) ?_ rfl, spells_fmtM.roundTrip (.vstx c · .none_) ?_ rfl,
      spells_gatherp.roundTrip (.vgatherp c · .none_) ?_ rfl, spells_mcopy.roundTrip (.mcopy c · .none_) ?_ rfl,
      spells_waitsig.roundTrip (.waitsig c · .none_) ?_ rfl, spells_fence.roundTrip (.fence c · .none_) ?_ rfl⟩
    all_goals intro w hop; rw [fieldsOf, hop]; rfl

/-- Settles O59: each word is decoded. -/
theorem decodedWords : Obligations.DecodedWords := by
  unfold Obligations.DecodedWords
  intro c
  exact ⟨rfl, rfl, rfl, rfl, rfl, rfl, rfl, rfl, rfl, rfl, rfl, rfl⟩

end Sys2Proof

end

section

/-! PROOFS. The issue of an instruction; scalar instructions, branches and jumps (R96, R98, R100). -/

namespace Sys2Proof.Machine

/-! ## The issue of one instruction -/

section
variable {s : State} {c : Nat} {u : Upset} {κ : Kind} {f : State → Cell → Eff} {i : Instr}
  {r : Host.Outcome State Fault Refusal} {e : Eff}

/-- The instruction's answer is the issue of the effect `e`. -/
def Issues (i : Instr) (s : State) (c : Nat) (u : Upset) (e : Eff) : Prop :=
  ∃ κ idle f, exec i s = s.issueAs c u κ idle f ∧ f s (s.cell c) = e

theorem Issues.of_issue (hi : exec i s = r) (hr : r = s.issue c u κ f) : Issues i s c u (f s (s.cell c)) :=
  ⟨κ, _, f, hi.trans hr, rfl⟩

/-- An instruction that reads predicates which no gather has still to write. -/
theorem Issues.of_issueP {ps : List (BitVec 4)} (hp : (s.cell c).predBusy ps = false) (hi : exec i s = r)
    (hr : r = s.issueP c u κ ps f) : Issues i s c u (f s (s.cell c)) := by
  rw [State.issueP, hp] at hr
  exact .of_issue hi hr

theorem Issues.of_issueG {pg : BitVec 4} {pn : Bool} {ps : List (BitVec 4)}
    (hp : (s.cell c).predBusy (pg :: ps) = false) (hi : exec i s = r) (hr : r = s.issueG c u κ pg pn ps f) :
    Issues i s c u (f s (s.cell c)) := by
  rw [State.issueG, hp, if_neg Bool.false_ne_true] at hr
  exact ⟨κ, _, f, hi.trans hr, rfl⟩

/-- An instruction whose effect is a next state answers a state that holds the same. -/
theorem Answers.of_next_effect {t : State} {evs : List Ev} {rs ws : List Piece} {p : State → Prop}
    (hi : Issues i s c u e) (h : s.Ready c) (hu : Unhurt u) (he : e = .next t evs rs ws)
    (hp : ∀ t', t'.Alike t → p t') : Answers i s p := by
  obtain ⟨κ, idle, f, hi, hf⟩ := hi
  obtain ⟨t', ht', ha⟩ := State.issueAs_next (κ := κ) (idle := idle) h hu (hf.trans he)
  exact ⟨t', hi.trans ht', hp t' ha⟩

theorem Runs.of_put {k : Cell} {evs : List Ev} (hi : Issues i s c u e) (h : s.Ready c) (hu : Unhurt u)
    (he : e = .put s c k evs) : Runs i s c k :=
  Answers.of_next_effect hi h hu he fun _ ha => (CellOnly.setCell s c k).alike ha

theorem Runs.of_cell {k : Cell} {evs : List Ev} (hi : Issues i s c u e) (h : s.Ready c) (hu : Unhurt u)
    (he : e = .cell s c k evs) : Runs i s c k.adv :=
  Runs.of_put hi h hu he

theorem Raises.of_exc {cause : BitVec 8} {addr : Word} (hi : Issues i s c u e) (h : s.Ready c) (hu : Unhurt u)
    (he : e = .exc cause addr) : Raises i s c cause addr := by
  obtain ⟨κ, idle, f, hi, hf⟩ := hi
  obtain ⟨t, ht, ha⟩ := State.issueAs_exc (κ := κ) (idle := idle) h hu (hf.trans he)
  exact ⟨t, hi.trans ht, ha⟩

end

theorem Eff.legal_of {b : Bool} {e : Eff} (h : b = true) : Eff.legal b e = e := if_pos h

theorem Eff.legal_of_not {b : Bool} {e : Eff} (h : b = false) : Eff.legal b e = .exc cIllegal 0 :=
  if_neg (Bool.eq_false_iff.1 h)

/-! ## Scalar arithmetic (R98, R100) -/

section
variable {s : State} {c : Nat} {u : Upset} {i : Instr}

theorem Runs.of_scalarS {o : SOp} (f : Word → Word → Word) (h : s.Ready c) (hu : Unhurt u)
    (hi : exec i s = scalarS f c o u s) {w : Word} (hw : f ((s.cell c).rs o.sa) ((s.cell c).rs o.sb) = w) :
    Runs i s c ((s.cell c).ws o.sd w).adv := by
  subst hw
  exact .of_cell (.of_issue hi rfl) h hu rfl

theorem Runs.of_scalarI {o : IOp} (f : Word → Word → Word) (h : s.Ready c) (hu : Unhurt u)
    (hi : exec i s = scalarI f c o u s) {w : Word} (hw : f ((s.cell c).rs o.sa) (immValue o) = w) :
    Runs i s c ((s.cell c).ws o.sd w).adv := by
  subst hw
  exact .of_cell (.of_issue hi rfl) h hu rfl

theorem sshiftRight_eq (a : Word) (n : Nat) : a.sshiftRight n = BitVec.ofInt 64 (a.toInt / 2 ^ n) := by
  rw [BitVec.sshiftRight, Int.shiftRight_eq_div_pow]
  norm_cast

theorem boolWord_slt (a b : Word) : boolWord (a.slt b) = if a.toInt < b.toInt then 1 else 0 := by
  simp [boolWord, BitVec.slt]

theorem boolWord_ult (a b : Word) : boolWord (a.ult b) = if a.toNat < b.toNat then 1 else 0 := by
  simp [boolWord, BitVec.ult]

theorem divUnsigned_eq (a b : Word) :
    divUnsigned a b = if b = 0 then BitVec.allOnes 64 else BitVec.ofNat 64 (a.toNat / b.toNat) := by
  have h : a / b = BitVec.ofNat 64 (a.toNat / b.toNat) := BitVec.eq_of_toNat_eq (by
    rw [BitVec.toNat_udiv, BitVec.toNat_ofNat, Nat.mod_eq_of_lt (Nat.lt_of_le_of_lt (Nat.div_le_self _ _) a.isLt)])
  rw [divUnsigned, h]

theorem remUnsigned_eq (a b : Word) :
    remUnsigned a b = if b = 0 then a else BitVec.ofNat 64 (a.toNat % b.toNat) := by
  have h : a % b = BitVec.ofNat 64 (a.toNat % b.toNat) := BitVec.eq_of_toNat_eq (by
    rw [BitVec.toNat_umod, BitVec.toNat_ofNat, Nat.mod_eq_of_lt (Nat.lt_of_le_of_lt (Nat.mod_le _ _) a.isLt)])
  rw [remUnsigned, h]

theorem minSigned_eq (a b : Word) : (if a.sle b then a else b) = if a.toInt ≤ b.toInt then a else b := by
  simp [BitVec.sle]

theorem maxSigned_eq (a b : Word) : (if b.sle a then a else b) = if b.toInt ≤ a.toInt then a else b := by
  simp [BitVec.sle]

theorem upperImm_eq (x : BitVec 41) : x ++ (0 : BitVec 23) = BitVec.ofInt 64 (x.toInt * 2 ^ 23) := by
  apply BitVec.eq_of_toNat_eq
  have hx := x.isLt
  have happ : (x ++ (0 : BitVec 23)).toNat = x.toNat * 2 ^ 23 := by
    rw [BitVec.toNat_append, Nat.shiftLeft_eq]
    exact Nat.or_zero _
  rw [happ, BitVec.toNat_ofInt, BitVec.toInt_eq_toNat_cond]
  split <;> omega

theorem div_corner {a b : Word} (ha : a = BitVec.intMin 64) (hb : b = BitVec.allOnes 64) :
    divSigned a b = a ∧ remSigned a b = 0 := by
  subst ha hb
  decide

end

/-- Settles O2. -/
theorem scalarResults : Obligations.ScalarResults := by
  unfold Obligations.ScalarResults
  refine ⟨⟨fun s c u o h hu => ?register, fun s c u o h hu => ?division, fun s c u o h hu => ?immediate⟩,
    fun k => ⟨⟨k.rs_zero, k.rp_zero, k.ws_zero, k.wp_zero⟩,
      fun r w hr => ⟨k.rs_ws_self r w hr, fun q => k.rs_ws_other r q w⟩,
      fun r w hr => ⟨k.rp_wp_self r w hr, fun q => k.rp_wp_other r q w⟩⟩⟩
  case register =>
    exact ⟨.of_scalarS (· + ·) h hu rfl rfl, .of_scalarS (· - ·) h hu rfl rfl, .of_scalarS (· &&& ·) h hu rfl rfl,
      .of_scalarS (· ||| ·) h hu rfl rfl, .of_scalarS (· ^^^ ·) h hu rfl rfl,
      .of_scalarS (· <<< shiftAmount ·) h hu rfl rfl, .of_scalarS (· >>> shiftAmount ·) h hu rfl rfl,
      .of_scalarS (·.sshiftRight <| shiftAmount ·) h hu rfl (sshiftRight_eq _ _),
      .of_scalarS (boolWord <| ·.slt ·) h hu rfl (boolWord_slt _ _),
      .of_scalarS (boolWord <| ·.ult ·) h hu rfl (boolWord_ult _ _), .of_scalarS (· * ·) h hu rfl rfl,
      .of_scalarS mulHighSigned h hu rfl rfl, .of_scalarS mulHighUnsigned h hu rfl rfl,
      .of_scalarS (fun a b => if a.sle b then a else b) h hu rfl (minSigned_eq _ _),
      .of_scalarS (fun a b => if b.sle a then a else b) h hu rfl (maxSigned_eq _ _)⟩
  case division =>
    refine ⟨.of_scalarS divSigned h hu rfl rfl, .of_scalarS divUnsigned h hu rfl (divUnsigned_eq _ _),
      .of_scalarS remSigned h hu rfl rfl, .of_scalarS remUnsigned h hu rfl (remUnsigned_eq _ _), fun ha hb => ?_⟩
    obtain ⟨hdiv, hrem⟩ := div_corner ha hb
    exact ⟨.of_scalarS divSigned h hu rfl hdiv, .of_scalarS remSigned h hu rfl hrem⟩
  case immediate =>
    exact ⟨.of_scalarI (· + ·) h hu rfl rfl, .of_scalarI (· &&& ·) h hu rfl rfl, .of_scalarI (· ||| ·) h hu rfl rfl,
      .of_scalarI (· ^^^ ·) h hu rfl rfl, .of_scalarI (· <<< shiftAmount ·) h hu rfl rfl,
      .of_scalarI (· >>> shiftAmount ·) h hu rfl rfl,
      .of_scalarI (·.sshiftRight <| shiftAmount ·) h hu rfl (sshiftRight_eq _ _),
      fun hz => upperImm_eq o.imm ▸
        .of_cell (.of_issue (r := execLui c o u s) rfl rfl) h hu (Eff.legal_of (beq_iff_eq.2 hz)),
      fun hz => .of_exc (.of_issue (r := execLui c o u s) rfl rfl) h hu (Eff.legal_of_not (beq_eq_false_iff_ne.2 hz))⟩

/-! ## Branches and jumps (R98, R100) -/

section
variable {s : State} {c : Nat} {u : Upset} {i : Instr}

theorem offset_eq (off : BitVec 41) : 8 * off.signExtend 64 = BitVec.ofInt 64 (8 * off.toInt) := by
  rw [BitVec.ofInt_mul]
  rfl

/-- The cell after a branch. -/
def Cell.branched (k : Cell) (taken : Bool) (off : Int) : Cell :=
  { k with pc := if taken then k.pc + BitVec.ofInt 64 (8 * off) else k.pc + 8 }

theorem branchTo_eq (s : State) (c : Nat) (k : Cell) (taken : Bool) (off : BitVec 41) :
    ∃ evs, branchTo s c k taken off = .put s c (k.branched taken off.toInt) evs := by
  cases taken with
  | true => exact ⟨_, congrArg (fun x => Eff.put s c { k with pc := k.pc + x } _) (offset_eq off)⟩
  | false => exact ⟨_, rfl⟩

theorem Runs.of_branchTo {taken taken' : Bool} {off : BitVec 41}
    (hi : Issues i s c u (branchTo s c (s.cell c) taken off)) (h : s.Ready c) (hu : Unhurt u) (ht : taken = taken') :
    Runs i s c ((s.cell c).branched taken' off.toInt) := by
  subst ht
  obtain ⟨evs, he⟩ := branchTo_eq s c (s.cell c) taken off
  exact .of_put hi h hu he

theorem Runs.of_branchB {o : BOp} (f : Word → Word → Bool) (h : s.Ready c) (hu : Unhurt u)
    (hi : exec i s = branchB f c o u s) {taken : Bool} (ht : f ((s.cell c).rs o.sa) ((s.cell c).rs o.sb) = taken) :
    Runs i s c ((s.cell c).branched taken o.off.toInt) :=
  .of_branchTo (.of_issue hi rfl) h hu ht

theorem low3_eq_zero (w : Word) : w.extractLsb' 0 3 = 0 ↔ w.toNat % 8 = 0 := by
  rw [← BitVec.toNat_inj, BitVec.extractLsb'_toNat]
  simp

end

/-- Settles O3. -/
theorem branchesAndJumps : Obligations.BranchesAndJumps := by
  unfold Obligations.BranchesAndJumps
  intro s c u h hu
  refine ⟨fun o => ?branch, fun o hp => ?predicate, fun o => ⟨fun hz => ?jal, fun ha => ?jalr, fun ha => ?misaligned⟩⟩
  case branch =>
    refine ⟨.of_branchB (· == ·) h hu rfl rfl, .of_branchB (· != ·) h hu rfl ?_, .of_branchB BitVec.slt h hu rfl rfl,
      .of_branchB (!BitVec.slt · ·) h hu rfl ?_, .of_branchB BitVec.ult h hu rfl rfl,
      .of_branchB (!BitVec.ult · ·) h hu rfl ?_⟩
    · simp [bne, beq_eq_decide]
    · exact (decide_not).symm.trans (decide_eq_decide.2 Int.not_lt)
    · exact (decide_not).symm.trans (decide_eq_decide.2 Nat.not_lt)
  case predicate =>
    exact ⟨.of_branchTo (.of_issueP (r := execBpany c o u s) hp rfl rfl) h hu (by simp [bne, beq_eq_decide]),
      .of_branchTo (.of_issueP (r := execBpnone c o u s) hp rfl rfl) h hu rfl⟩
  case jal =>
    rw [← offset_eq]
    exact .of_put (.of_issue (r := execJal c o u s) rfl rfl) h hu (Eff.legal_of (beq_iff_eq.2 hz))
  case jalr => exact .of_put (.of_issue (r := execJalr c o u s) rfl rfl) h hu (if_pos ((low3_eq_zero _).2 ha))
  case misaligned =>
    exact .of_exc (.of_issue (r := execJalr c o u s) rfl rfl) h hu (if_neg ((low3_eq_zero _).not.2 ha))

end Sys2Proof.Machine

end

section

/-! PROOFS. Exceptions, system instructions and what a boundary delivers (R136 to R140). -/

namespace Sys2Proof.Machine

/-! ## Cells and states up to what retirement changes -/

section
variable {s t u : State} {c : Nat} {k j : Cell} {i : Instr}

theorem Cell.ws_arch (h : k.arch = j.arch) (r : BitVec 5) (w : Word) : (k.ws r w).arch = (j.ws r w).arch := by
  have hw (k : Cell) : (k.ws r w).arch = (k.arch.ws r w).arch := by
    unfold Cell.ws
    split <;> rfl
  rw [hw k, hw j, h]

theorem Cell.enter_arch (h : k.arch = j.arch) (cause : BitVec 8) (addr : Word) :
    (k.enter cause addr).arch = (j.enter cause addr).arch :=
  congrArg (fun a : Cell => a.enter cause addr) h

theorem Cell.adv_arch (h : k.arch = j.arch) : k.adv.arch = j.adv.arch := congrArg Cell.adv h

theorem CellOnly.congr (h : CellOnly s t c k) (e : k.arch = j.arch) : CellOnly s t c j :=
  ⟨h.1.trans e, h.2⟩

/-- A change of one cell after a change that leaves states alike. -/
theorem CellOnly.after_alike (h : CellOnly s t c k) (g : s.Alike u) : CellOnly u t c k :=
  ⟨h.1, fun d hd => (h.2.1 d hd).trans (g.1 d), h.2.2.trans g.2⟩

theorem CellOnly.trans {k' : Cell} (h : CellOnly s t c k) (g : CellOnly t u c k') : CellOnly s u c k' :=
  ⟨g.1, fun d hd => (g.2.1 d hd).trans (h.2.1 d hd), g.2.2.trans h.2.2⟩

theorem Runs.congr (h : Runs i s c k) (e : k.arch = j.arch) : Runs i s c j :=
  let ⟨t, ht, g⟩ := h
  ⟨t, ht, g.congr e⟩

/-! ## Exceptions (R138) -/

theorem State.putEnd_cellOnly (s : State) (c : Nat) (k : Cell) : CellOnly s (s.putEnd c k) c k := by
  unfold State.putEnd
  dsimp only
  split
  · exact (CellOnly.setCell s c k).alike (State.count_alike ..)
  · exact .setCell s c k

theorem Cell.handles_iff : k.handles = true ↔ k.sup = false ∧ k.svec ≠ 0 := by simp [Cell.handles]

theorem State.raise_enters (h : (s.cell c).handles = true) (cause : BitVec 8) (addr : Word) :
    CellOnly s (s.raise c cause addr) c ((s.cell c).enter cause addr) := by
  rw [State.raise, if_pos h]
  have ha := s.count_alike (c / 16) mkCell c (if (s.cell c).sup then privSup else privUser) clsControl [ev 0x59 1]
  exact ((CellOnly.setCell _ c _).after_alike ha).congr (Cell.enter_arch (ha.1 c) ..)

theorem State.raise_ends (h : (s.cell c).handles = false) (cause : BitVec 8) (addr : Word) :
    CellOnly s (s.raise c cause addr) c ((s.cell c).finish { kind := .failedException, value := 0, cause }) := by
  rw [State.raise, if_neg (Bool.eq_false_iff.1 h)]
  exact s.putEnd_cellOnly c _

theorem Raises.runs {cause : BitVec 8} {addr : Word} (h : Raises i s c cause addr) (hh : (s.cell c).handles = true) :
    Runs i s c ((s.cell c).enter cause addr) :=
  let ⟨t, ht, ha⟩ := h
  ⟨t, ht, (State.raise_enters hh cause addr).alike ha⟩

/-- A cell after the entry of an exception in user mode. -/
def Cell.entered (k : Cell) (cause : BitVec 8) (addr : Word) : Cell :=
  { k with epc := k.pc, ecause := cause, eaddr := addr, ppriv := false, sup := true, pc := k.svec }

theorem Cell.enter_user (h : k.sup = false) (cause : BitVec 8) (addr : Word) :
    (k.enter cause addr).arch = (k.entered cause addr).arch := by
  rw [Cell.enter, h]
  rfl

/-- A cell whose item has ended, or will end once nothing is outstanding. -/
def Cell.finished (k : Cell) (e : Ending) : Cell :=
  if k.async = [] then { k with ended := some e, faults := [] } else { k with ending := some e, faults := [] }

theorem Cell.finish_arch (k : Cell) (e : Ending) : (k.finish e).arch = (k.finished e).arch := by
  unfold Cell.finish Cell.finished
  split <;> rfl

end

/-- Settles O5. -/
theorem exceptionEntry : Obligations.ExceptionEntry := by
  unfold Obligations.ExceptionEntry
  refine fun s c cause addr => ⟨fun hsup hvec => ?handled, fun h => ?failed⟩
  case handled =>
    exact (State.raise_enters (Cell.handles_iff.2 ⟨hsup, hvec⟩) cause addr).congr (Cell.enter_user hsup cause addr)
  case failed =>
    have hh : (s.cell c).handles = false := by
      rcases h with h | h <;> simp [Cell.handles, h]
    exact (State.raise_ends hh cause addr).congr (Cell.finish_arch ..)

/-! ## What a boundary delivers (R139) and the forced stop (R140) -/

section
variable {s : State} {c : Nat} {k : Cell}

theorem State.canIssue_iff : s.canIssue c = true ↔ s.cellPresent c = true ∧ s.clocksRun = true ∧
    (s.cell c).run.isSome = true ∧ (s.cell c).ended = none ∧ (s.cell c).ending = none ∧ (s.cell c).stopped = false := by
  simp [State.canIssue, and_assoc]

/-- What stands before a delivery: the cell issues in user mode. -/
theorem State.deliver_user (h : s.canIssue c = true) (hsup : (s.cell c).sup = false) :
    ((s.cell c).sup || (s.cell c).ended.isSome || (s.cell c).ending.isSome || (s.cell c).stopped) = false := by
  obtain ⟨_, _, _, hended, hending, hstop⟩ := State.canIssue_iff.1 h
  simp [hsup, hended, hending, hstop]

/-- An exception on a cell that has changed in other registers before. -/
theorem CellOnly.raise_after {t : State} {cause : BitVec 8} {addr : Word} (h : CellOnly s t c k)
    (hsup : k.sup = false) (hvec : k.svec ≠ 0) : CellOnly s (t.raise c cause addr) c (k.entered cause addr) := by
  have hsup' : (t.cell c).sup = false := (congrArg Cell.sup h.1).trans hsup
  have hvec' : (t.cell c).svec ≠ 0 := fun e => hvec ((congrArg Cell.svec h.1).symm.trans e)
  refine (h.trans (State.raise_enters (Cell.handles_iff.2 ⟨hsup', hvec'⟩) cause addr)).congr ?_
  exact (Cell.enter_arch h.1 ..).trans (Cell.enter_user hsup ..)

/-- A cell that changes after an event of it has been counted. -/
theorem CellOnly.setCell_countCell (s : State) (c cls : Nat) (es : List Ev) (f : Cell → Cell)
    (hf : ∀ k j : Cell, k.arch = j.arch → (f k).arch = (f j).arch) :
    CellOnly s ((s.countCell c cls es).setCell c (f ((s.countCell c cls es).cell c))) c (f (s.cell c)) :=
  have ha := s.count_alike (c / 16) mkCell c (if (s.cell c).sup then privSup else privUser) cls es
  ((CellOnly.setCell _ c _).after_alike ha).congr (hf _ _ (ha.1 c))

theorem State.deliver_fault {f : PendFault} {l : List PendFault} (h : s.canIssue c = true)
    (hsup : (s.cell c).sup = false) (hvec : (s.cell c).svec ≠ 0) (hf : (s.cell c).faults = f :: l) :
    CellOnly s (s.deliver c) c
      ({ s.cell c with faults := l, asub := f.cause, aop := f.gather }.entered cAsyncFault f.addr) := by
  have hd : s.deliver c =
      (s.setCell c { s.cell c with faults := l, asub := f.cause, aop := f.gather }).raise c cAsyncFault f.addr := by
    simp only [State.deliver, State.deliver_user h hsup, hf]
    rfl
  rw [hd]
  exact (CellOnly.setCell s c _).raise_after hsup hvec

theorem State.deliver_cancel (h : s.canIssue c = true) (hsup : (s.cell c).sup = false) (hvec : (s.cell c).svec ≠ 0)
    (hf : (s.cell c).faults = []) (hc : (s.cell c).cancel = true) :
    CellOnly s (s.deliver c) c ({ s.cell c with cancel := false }.entered cCancel 0) := by
  let s1 := s.countCell c clsControl [ev 0x5F 1]
  have hd : s.deliver c = (s1.setCell c { s1.cell c with cancel := false }).raise c cCancel 0 := by
    simp only [State.deliver, State.deliver_user h hsup, hf, hc]
    rfl
  rw [hd]
  refine CellOnly.raise_after ?_ hsup hvec
  exact .setCell_countCell s c clsControl [ev 0x5F 1] (fun k => { k with cancel := false })
    fun _ _ e => congrArg (fun a : Cell => { a with cancel := false }) e

theorem State.deliver_preempt (h : s.canIssue c = true) (hsup : (s.cell c).sup = false) (hvec : (s.cell c).svec ≠ 0)
    (hf : (s.cell c).faults = []) (hc : (s.cell c).cancel = false) (hp : (s.cell c).preempt = true) :
    CellOnly s (s.deliver c) c ({ s.cell c with preempt := false }.entered cPreempt 0) := by
  let s1 := s.countCell c clsControl [ev 0x5F 1]
  have hd : s.deliver c = (s1.setCell c { s1.cell c with preempt := false }).raise c cPreempt 0 := by
    simp only [State.deliver, State.deliver_user h hsup, hf, hc, hp]
    rfl
  rw [hd]
  refine CellOnly.raise_after ?_ hsup hvec
  exact .setCell_countCell s c clsControl [ev 0x5F 1] (fun k => { k with preempt := false })
    fun _ _ e => congrArg (fun a : Cell => { a with preempt := false }) e

/-- Nothing is delivered in supervisor mode, or where nothing is pending. -/
theorem State.deliver_none
    (h : (s.cell c).sup = true ∨ ((s.cell c).faults = [] ∧ (s.cell c).cancel = false ∧ (s.cell c).preempt = false)) :
    s.deliver c = s := by
  rcases h with hsup | ⟨hf, hc, hp⟩
  · simp [State.deliver, hsup]
  · simp [State.deliver, hf, hc, hp]

theorem State.dropXlat_alike (s : State) (p q : Nat) (cells : Nat → Bool) (f : Xent → Bool) :
    (s.dropXlat p q cells f).Alike s := by
  refine ⟨fun d => s.arch_map (fun i k => if cells i then
    { k with tlb := k.tlb.filter fun y => !(y.tag.part == p && y.tag.ctx == q && f y) } else k) (fun i k => ?_) d, rfl⟩
  split <;> rfl

theorem State.canIssue_of_over {t : State} (h : (t.cell c).ended.isSome = true ∨ (t.cell c).ending.isSome = true) :
    t.canIssue c = false := by
  rcases h with h | h <;> simp [State.canIssue, Option.isNone_eq_false_iff.2 h]

theorem Cell.finished_over (k : Cell) (e : Ending) :
    (k.finished e).ended.isSome = true ∨ (k.finished e).ending.isSome = true := by
  unfold Cell.finished
  split
  · exact .inl rfl
  · exact .inr rfl

end

/-! ## System instructions (R90, R91, R131, R134) -/

section
variable {s : State} {c : Nat} {u : Upset}

theorem Runs.of_endItem {i : Instr} {e : Ending} (hi : Issues i s c u (endItem s c (s.cell c) e)) (h : s.Ready c)
    (hu : Unhurt u) (ha : (s.cell c).async = []) : Runs i s c { s.cell c with ended := some e } :=
  Runs.of_put hi h hu (if_pos ha)

theorem runs_sret (h : s.Ready c) (hu : Unhurt u) (hsup : (s.cell c).sup = true) (hd : (s.cell c).ppriv = true ∨
    ((s.cell c).faults = [] ∧ (s.cell c).cancel = false ∧ (s.cell c).preempt = false)) :
    Runs (.sret c u) s c { s.cell c with pc := (s.cell c).epc, sup := (s.cell c).ppriv } := by
  have hi := Issues.of_issue (i := .sret c u) (s := s) (r := execSret c u s) rfl rfl
  have hs : (s.setCell c { s.cell c with pc := (s.cell c).epc, sup := (s.cell c).ppriv }).deliver c = _ :=
    State.deliver_none (by rw [State.cell_setCell]; exact hd)
  simp only [hsup, Bool.not_true, Bool.false_eq_true, if_false, hs] at hi
  exact Runs.of_put hi h hu rfl

theorem runs_mmuinv {b : BitVec 5} {all : Bool} (h : s.Ready c) (hu : Unhurt u) (hsup : (s.cell c).sup = true)
    (hb : all = true → b = 0) : Runs (.mmuinv c b all u) s c (s.cell c).adv := by
  have hi := Issues.of_issue (i := .mmuinv c b all u) (s := s) (r := execMmuinv c b all u s) rfl rfl
  have hl : (!all || b == 0) = true := by
    cases all with
    | false => rfl
    | true => exact beq_iff_eq.2 (hb rfl)
  simp only [hl, Eff.legal_true, hsup, Bool.not_true, Bool.false_eq_true, if_false] at hi
  refine Answers.of_next_effect hi h hu rfl fun t ha => ?_
  have hd := s.dropXlat_alike (s.cellTag (s.cell c)).part (s.cellTag (s.cell c)).ctx (fun d => d / 16 == c / 16)
    fun x => all || x.base == ((s.cell c).rs b).toNat / x.size * x.size
  exact (((CellOnly.setCell _ c _).after_alike hd).congr (Cell.adv_arch (hd.1 c))).alike ha

end

/-- Settles O6. -/
theorem systemAndBoundary : Obligations.SystemAndBoundary := by
  unfold Obligations.SystemAndBoundary
  refine ⟨fun s c u h hu => ⟨fun hsup hvec => ?enter, fun hsup hd => runs_sret h hu hsup hd, fun b ha => ?iend,
      fun b hsup ha => ?sexit, fun b all hsup hb => runs_mmuinv h hu hsup hb, fun b hsup => ?privileged, ?ifence, ?nop⟩,
    fun s c h hsup hvec => ⟨fun f l hf => ?fault, fun hf hc => ?cancel, fun hf hc hp => ?preempt⟩,
    fun s c => ⟨fun hp hclk hrun hreq hended hending hstop => ?forced, fun hno => ?unforced,
      fun o w h hw ht => ?timeout⟩⟩
  case enter =>
    have hh := Cell.handles_iff.2 ⟨hsup, hvec⟩
    have enters {i : Instr} {cause : BitVec 8} (hr : Raises i s c cause 0) : Runs i s c ((s.cell c).entered cause 0) :=
      (hr.runs hh).congr (Cell.enter_user hsup cause 0)
    refine ⟨enters ?_, enters ?_, fun w hw => enters ?_⟩
    · exact .of_next_effect (.of_issue (r := execScall c u s) rfl rfl) h hu rfl fun _ ha => ha
    · exact .of_exc (.of_issue (r := execBrk c u s) rfl rfl) h hu rfl
    · exact .of_exc (.of_issue (r := execIllegalOpcode c w u s) rfl rfl) h hu (by simp only [hw]; rfl)
  case iend =>
    exact .congr (.of_endItem (.of_issue (r := execIend c b u s) rfl rfl) h hu ha) (by simp [endingOf])
  case sexit =>
    have hi := Issues.of_issue (i := .sexit c b u) (s := s) (r := execSexit c b u s) rfl rfl
    simp only [hsup, Bool.not_true, Bool.false_eq_true, if_false] at hi
    exact .congr (.of_endItem hi h hu ha) (by simp [endingOf])
  case privileged =>
    refine ⟨.of_exc (.of_issue (r := execSret c u s) rfl rfl) h hu ?_,
      .of_exc (.of_issue (r := execSexit c b u s) rfl rfl) h hu ?_,
      .of_exc (.of_issue (r := execMmuinv c b false u s) rfl rfl) h hu ?_⟩
    all_goals simp [hsup]
  case ifence => exact .of_cell (.of_issue (r := execIfence c u s) rfl rfl) h hu rfl
  case nop => exact .of_cell (.of_issue (r := execNop c u s) rfl rfl) h hu rfl
  case fault =>
    have hi : exec (.asyncFault c) s = execAsyncFault c s := rfl
    refine ⟨_, hi.trans (congrArg Host.Outcome.next (if_pos ?_)), State.deliver_fault h hsup hvec hf⟩
    simp [h, hf]
  case cancel =>
    have hi : exec (.cancelRequest c) s = execCancelRequest c s := rfl
    refine ⟨_, hi.trans (congrArg Host.Outcome.next (if_pos ?_)), State.deliver_cancel h hsup hvec hf hc⟩
    simp [h, hc]
  case preempt =>
    have hi : exec (.preemptRequest c) s = execPreemptRequest c s := rfl
    refine ⟨_, hi.trans (congrArg Host.Outcome.next (if_pos ?_)), State.deliver_preempt h hsup hvec hf hc hp⟩
    simp [h, hp]
  case forced =>
    have hi : exec (.forcedStop c) s = execForcedStop c s := rfl
    have ht := (s.putEnd_cellOnly c ((s.cell c).finish { kind := .forced, value := 0, cause := 0 })).congr
      (Cell.finish_arch ..)
    refine ⟨_, hi.trans (congrArg Host.Outcome.next (if_pos ?_)), ht, State.canIssue_of_over ?_⟩
    · simp [hp, hclk, hrun, hreq, hended, hending, hstop]
    · have hsame := ht.1
      exact (Cell.finished_over (s.cell c) _).imp (fun e => (congrArg (·.ended.isSome) hsame).trans e)
        fun e => (congrArg (·.ending.isSome) hsame).trans e
  case unforced =>
    have hi : exec (.forcedStop c) s = execForcedStop c s := rfl
    refine hi.trans (congrArg Host.Outcome.next (if_neg ?_))
    rcases hno with hno | hno
    · simp [hno]
    · simp [Option.isNone_eq_false_iff.2 hno]
  case timeout =>
    have hi : exec (.waitsigTimeout c) s = execWaitsigTimeout c s := rfl
    simp only [execWaitsigTimeout, hw, h, bne_iff_ne.2 ht, Bool.and_self, if_true] at hi
    exact ⟨_, hi, (CellOnly.setCell s c _).alike (State.finish_next_alike ..)⟩

end Sys2Proof.Machine

end

section

/-! PROOFS. Control and status registers (R86 to R91). -/

namespace Sys2Proof.Machine

/-! ## Counters that go on with the clock (R337, R341) -/

section
variable {s : State} {c : Nat} {u : Upset}

theorem Cell.timePmc_arch (k : Cell) (c : Nat) (n f : Nat → Nat) (j : Nat) : (k.timePmc c n f j).arch = k.arch := by
  induction j with
  | zero => rfl
  | succ j ih => exact ih

theorem State.elapseCell_alike (s : State) (c : Nat) : (s.elapseCell c).Alike s := by
  unfold State.elapseCell
  split
  · exact .refl s
  · exact ⟨fun d => State.arch_setCell _ c d _ (Cell.timePmc_arch ..), rfl⟩

theorem State.elapseBank_alike (s : State) (b : Nat) : (s.elapseBank b).Alike s := by
  unfold State.elapseBank
  split
  · exact .refl s
  · exact ⟨fun _ => rfl, rfl⟩

theorem State.elapse_alike (s : State) (c n : Nat) : (s.elapse c n).Alike s := by
  unfold State.elapse
  split
  · exact .refl s
  · split
    · exact s.elapseCell_alike c
    · exact s.elapseBank_alike _

/-! ## Reading and writing a control register (R87, R137, R342) -/

theorem runs_csrr {o : CsrOp} (h : s.Ready c) (hu : Unhurt u)
    (hf : (s.cell c).csrReadFault c o.csr.toNat = none) :
    Runs (.csrr c o u) s c
      ((s.cell c).ws o.r ((s.elapse c o.csr.toNat).csrGet c ((s.elapse c o.csr.toNat).cell c) o.csr.toNat)).adv := by
  have hi := Issues.of_issue (i := .csrr c o u) (s := s) (r := execCsrr c o u s) rfl rfl
  simp only [hf] at hi
  have ha := s.elapse_alike c o.csr.toNat
  exact Answers.of_next_effect hi h hu rfl fun t' ht =>
    (((CellOnly.setCell _ c _).after_alike ha).congr (Cell.adv_arch (Cell.ws_arch (ha.1 c) ..))).alike ht

theorem raises_csrr {o : CsrOp} {cause : BitVec 8} (h : s.Ready c) (hu : Unhurt u)
    (hf : (s.cell c).csrReadFault c o.csr.toNat = some cause) : Raises (.csrr c o u) s c cause 0 := by
  have hi := Issues.of_issue (i := .csrr c o u) (s := s) (r := execCsrr c o u s) rfl rfl
  simp only [hf] at hi
  exact .of_exc hi h hu rfl

/-- A write of a control register that is refused, whether or not the value is one that it takes. -/
theorem Raises.of_csrWrite {i : Instr} {f : Word → Word → Word} {clears : Bool} {o : CsrOp} {cause : BitVec 8}
    (hi : exec i s = csrWrite f clears c o u s) (h : s.Ready c) (hu : Unhurt u)
    (hf : (s.cell c).csrWriteFault o.csr.toNat = some cause)
    (hv : cause = cIllegal ∨ ¬ (0x110 ≤ o.csr.toNat ∧ o.csr.toNat ≤ 0x117)) : Raises i s c cause 0 := by
  refine .of_exc (.of_issue hi rfl) h hu ?_
  dsimp only
  split
  next hill =>
    rcases hv with hv | hv
    · rw [hv]
    · simp [csrIllegal, hv] at hill
  next => rw [hf]

/-- A write of a value that the register does not take (R342). -/
theorem Raises.of_csrIllegal {i : Instr} {f : Word → Word → Word} {clears : Bool} {o : CsrOp}
    (hi : exec i s = csrWrite f clears c o u s) (h : s.Ready c) (hu : Unhurt u)
    (hv : csrIllegal o.csr.toNat (f ((s.elapse c o.csr.toNat).csrGet c ((s.elapse c o.csr.toNat).cell c) o.csr.toNat)
      ((s.cell c).rs o.r)) = true) : Raises i s c cIllegal 0 :=
  .of_exc (.of_issue hi rfl) h hu (if_pos hv)

/-- A write of a control register that is allowed. -/
theorem exec_csrWrite {i : Instr} {f : Word → Word → Word} {clears : Bool} {o : CsrOp} {v : Word}
    (hi : exec i s = csrWrite f clears c o u s) (h : s.Ready c) (hu : Unhurt u)
    (hf : (s.cell c).csrWriteFault o.csr.toNat = none)
    (hv : f ((s.elapse c o.csr.toNat).csrGet c ((s.elapse c o.csr.toNat).cell c) o.csr.toNat) ((s.cell c).rs o.r) = v)
    (hl : csrIllegal o.csr.toNat v = false) :
    exec i s = .next ((s.finish c kControl false (u.parity != 0)
      (.next ((s.elapse c o.csr.toNat).csrPut c ((s.elapse c o.csr.toNat).cell c).adv o.csr.toNat v
        (if clears then (s.cell c).rs o.r else 0)) [] [] [])).replay c u kControl (s.cell c).priv) := by
  have hr : csrWrite f clears c o u s = s.issue c u kControl _ := rfl
  rw [hi, hr, State.issue, State.issueAs_ready s c u kControl _ _ h hu]
  subst hv
  simp only [hl, hf, Bool.false_eq_true, if_false]

/-- All three writes of a control register are refused. -/
theorem csrWrites_refused {o : CsrOp} {cause : BitVec 8} (h : s.Ready c) (hu : Unhurt u)
    (hf : (s.cell c).csrWriteFault o.csr.toNat = some cause)
    (hv : cause = cIllegal ∨ ¬ (0x110 ≤ o.csr.toNat ∧ o.csr.toNat ≤ 0x117)) :
    Raises (.csrw c o u) s c cause 0 ∧ Raises (.csrs c o u) s c cause 0 ∧ Raises (.csrc c o u) s c cause 0 :=
  ⟨.of_csrWrite (f := fun _ b => b) (clears := true) rfl h hu hf hv,
    .of_csrWrite (f := fun a b => a ||| b) (clears := false) rfl h hu hf hv,
    .of_csrWrite (f := fun a b => a &&& ~~~b) (clears := true) rfl h hu hf hv⟩

end

/-! ## Rights (R87) -/

section
variable {n : Nat}

theorem csrRights_supervisor (h : 0x040 ≤ n) (h' : n ≤ 0x046) :
    ∃ r, csrRights n = some (.none_, r) ∧ (n = 0x042 ∨ n = 0x043 ∨ n = 0x046 → r = .readOnly) := by
  by_cases hn : n = 0x042 ∨ n = 0x043 ∨ n = 0x046
  · exact ⟨.readOnly, by rcases hn with rfl | rfl | rfl <;> rfl, fun _ => rfl⟩
  · refine ⟨.readWrite, ?_, fun h => absurd h hn⟩
    have hne : n = 0x040 ∨ n = 0x041 ∨ n = 0x044 ∨ n = 0x045 := by omega
    rcases hne with rfl | rfl | rfl | rfl <;> rfl

theorem csrRights_readOnly (h : 0x010 ≤ n) (h' : n ≤ 0x012) : csrRights n = some (.readOnly, .readOnly) := by
  have hn : n = 0x010 ∨ n = 0x011 ∨ n = 0x012 := by omega
  rcases hn with rfl | rfl | rfl <;> rfl

end

/-- Settles O4. -/
theorem csrInstructions : Obligations.CsrInstructions := by
  unfold Obligations.CsrInstructions
  refine ⟨fun s c u o h hu => ⟨fun hf => runs_csrr h hu hf, fun hn => if_pos hn, ?values⟩,
    fun s c u o h hu => ⟨fun hr => ?reserved, fun h1 h2 hsup => ?privileged, fun hn hsup => ?readOnlySup,
      fun h1 h2 => ?readOnly, fun hn hsup => ?uctl, fun h1 h2 hres => ?pmsel⟩,
    fun s c u o h hu => ⟨fun hf => ⟨?csrw, ?csrs, ?csrc⟩, fun v ones t j => ?puts⟩⟩
  case values =>
    refine ⟨rfl, rfl, rfl, ?_, rfl, rfl, rfl, rfl, rfl, rfl, rfl⟩
    cases hrun : (s.cell c).run <;> simp [State.csrGet, hrun]
  case reserved =>
    exact ⟨raises_csrr h hu (by simp [Cell.csrReadFault, hr]),
      csrWrites_refused h hu (by simp [Cell.csrWriteFault, hr]) (.inl rfl)⟩
  case privileged =>
    obtain ⟨r, hr, _⟩ := csrRights_supervisor h1 h2
    exact ⟨raises_csrr h hu (by simp [Cell.csrReadFault, hr, hsup]),
      csrWrites_refused h hu (by simp [Cell.csrWriteFault, hr, hsup]) (.inr (by omega))⟩
  case readOnlySup =>
    obtain ⟨r, hr, hro⟩ := csrRights_supervisor (n := o.csr.toNat) (by omega) (by omega)
    exact csrWrites_refused h hu (by simp [Cell.csrWriteFault, hr, hsup, hro hn]) (.inl rfl)
  case readOnly =>
    exact csrWrites_refused h hu (by simp [Cell.csrWriteFault, csrRights_readOnly h1 h2]) (.inl rfl)
  case uctl =>
    exact csrWrites_refused h hu (by simp [Cell.csrWriteFault, hn, csrRights, hsup]) (.inr (by omega))
  case pmsel =>
    exact .of_csrIllegal (f := fun _ b => b) (clears := true) rfl h hu (by simp [csrIllegal, h1, h2, hres])
  case csrw => exact fun hl => exec_csrWrite (f := fun _ b => b) (clears := true) rfl h hu hf rfl hl
  case csrs => exact fun hl => exec_csrWrite (f := fun a b => a ||| b) (clears := false) rfl h hu hf rfl hl
  case csrc => exact fun hl => exec_csrWrite (f := fun a b => a &&& ~~~b) (clears := true) rfl h hu hf rfl hl
  case puts => exact ⟨rfl, rfl, rfl, rfl, rfl, rfl⟩

end Sys2Proof.Machine

end

section

/-! PROOFS. Illegal vector forms, and rows of tiles (R99, R113). -/

namespace Sys2Proof.Machine

/-! ## Which shared form an instruction has -/

section
variable (s : State) (c : Nat) (o : VOp) (u : Upset)

theorem exec_vadd : exec (.vadd c o u) s = vecBinary etArith elemAdd c o u s := rfl
theorem exec_vsub : exec (.vsub c o u) s = vecBinary etArith elemSub c o u s := rfl
theorem exec_vmul : exec (.vmul c o u) s = vecBinary etArith elemMul c o u s := rfl
theorem exec_vmin : exec (.vmin c o u) s = vecBinary etArith elemMin c o u s := rfl
theorem exec_vmax : exec (.vmax c o u) s = vecBinary etArith elemMax c o u s := rfl
theorem exec_vand : exec (.vand c o u) s = vecBinary etArith (fun _ x y => (x &&& y, 0)) c o u s := rfl
theorem exec_vor : exec (.vor c o u) s = vecBinary etArith (fun _ x y => (x ||| y, 0)) c o u s := rfl
theorem exec_vxor : exec (.vxor c o u) s = vecBinary etArith (fun _ x y => (x ^^^ y, 0)) c o u s := rfl
theorem exec_vsll : exec (.vsll c o u) s = vecBinary etInt (elemShift fun _ x n => x <<< n) c o u s := rfl
theorem exec_vsrl : exec (.vsrl c o u) s = vecBinary etInt (elemShift fun _ x n => x >>> n) c o u s := rfl
theorem exec_vsra : exec (.vsra c o u) s =
    vecBinary etInt (elemShift fun b x n => wrap b (signed b x / (2 ^ n : Nat))) c o u s := rfl
theorem exec_vfma : exec (.vfma c o u) s = vecFma false c o u s := rfl
theorem exec_vfnma : exec (.vfnma c o u) s = vecFma true c o u s := rfl
theorem exec_vrcp : exec (.vrcp c o u) s = vecFun .rcp c o u s := rfl
theorem exec_vrsqrt : exec (.vrsqrt c o u) s = vecFun .rsqrt c o u s := rfl
theorem exec_vexp2 : exec (.vexp2 c o u) s = vecFun .exp2 c o u s := rfl
theorem exec_vlog2 : exec (.vlog2 c o u) s = vecFun .log2 c o u s := rfl

end

/-! ## Illegal forms (R99, R496, R497) -/

section
variable {s : State} {c : Nat} {u : Upset} {i : Instr} {o : VOp}

theorem Raises.of_illegal {b : Bool} {e : Eff} (hi : Issues i s c u (Eff.legal b e)) (h : s.Ready c) (hu : Unhurt u)
    (hb : b = false) : Raises i s c cIllegal 0 :=
  .of_exc hi h hu (Eff.legal_of_not hb)

theorem Raises.of_vecBinary {okType : Nat → Bool} {f : Nat → Nat → Nat → Nat × BitVec 7} (h : s.Ready c)
    (hu : Unhurt u) (hp : (s.cell c).predBusy [o.pg] = false) (hi : exec i s = vecBinary okType f c o u s)
    (hb : okType o.et.toNat = false ∨ (o.vc == 0) = false) : Raises i s c cIllegal 0 := by
  refine .of_illegal (.of_issueG hp hi rfl) h hu ?_
  rcases hb with hb | hb <;> simp only [hb, Bool.false_and, Bool.and_false]

theorem Raises.of_vecFma {neg : Bool} (h : s.Ready c) (hu : Unhurt u) (hp : (s.cell c).predBusy [o.pg] = false)
    (hi : exec i s = vecFma neg c o u s) (hb : etArith o.et.toNat = false) : Raises i s c cIllegal 0 :=
  .of_illegal (.of_issueG hp hi rfl) h hu (by simp [hb])

theorem Raises.of_vecFun {f : Fun1} (h : s.Ready c) (hu : Unhurt u) (hp : (s.cell c).predBusy [o.pg] = false)
    (hi : exec i s = vecFun f c o u s) (hb : etFloat o.et.toNat = false) : Raises i s c cIllegal 0 := by
  refine .of_exc (.of_issueG hp hi rfl) h hu ?_
  dsimp only
  split
  · exact Eff.legal_of_not (by simp [hb])
  · rfl

end

/-- Settles O10. -/
theorem illegalVectorForms : Obligations.IllegalVectorForms := by
  unfold Obligations.IllegalVectorForms
  intro s c u o h hu hp
  refine ⟨fun he => ?arith, fun he => ?int, fun he => ?float, fun he => ?cvt, fun he => ?brine, fun he => ?vtob,
    fun he => ?viota, fun hv => ?vc, fun hm => ?mz⟩
  case arith =>
    exact ⟨.of_vecBinary h hu hp (exec_vadd ..) (.inl he), .of_vecBinary h hu hp (exec_vsub ..) (.inl he),
      .of_vecBinary h hu hp (exec_vmul ..) (.inl he), .of_vecFma h hu hp (exec_vfma ..) he,
      .of_vecFma h hu hp (exec_vfnma ..) he, .of_vecBinary h hu hp (exec_vmin ..) (.inl he),
      .of_vecBinary h hu hp (exec_vmax ..) (.inl he), .of_vecBinary h hu hp (exec_vand ..) (.inl he),
      .of_vecBinary h hu hp (exec_vor ..) (.inl he), .of_vecBinary h hu hp (exec_vxor ..) (.inl he),
      .of_illegal (.of_issueG (r := execVsel c o u s) hp rfl rfl) h hu (by simp [he]),
      .of_illegal (.of_issueG (r := execVreduce c o u s) hp rfl rfl) h hu (by simp [he]),
      .of_illegal (.of_issueG (r := execVext c o u s) hp rfl rfl) h hu (by simp [laneOk, he]),
      .of_illegal (.of_issueG (r := execVins c o u s) hp rfl rfl) h hu (by simp [laneOk, he])⟩
  case int =>
    exact ⟨.of_vecBinary h hu hp (exec_vsll ..) (.inl he), .of_vecBinary h hu hp (exec_vsrl ..) (.inl he),
      .of_vecBinary h hu hp (exec_vsra ..) (.inl he)⟩
  case float =>
    exact ⟨.of_vecFun h hu hp (exec_vrcp ..) he, .of_vecFun h hu hp (exec_vrsqrt ..) he,
      .of_vecFun h hu hp (exec_vexp2 ..) he, .of_vecFun h hu hp (exec_vlog2 ..) he⟩
  case cvt =>
    exact .of_illegal (.of_issueG (r := execVcvt c o u s) hp rfl rfl) h hu (by simp [cvtType, Nat.not_lt.2 he])
  case brine =>
    refine ⟨.of_illegal (.of_issueG (r := execVbadd c o u s) hp rfl rfl) h hu (by simp [etBrine, he]),
      .of_exc (.of_issueG (r := execXtalV c o u s) hp rfl rfl) h hu ?_⟩
    dsimp only
    split
    · exact Eff.legal_of_not (by simp [etBrine, he])
    · rfl
  case vtob => exact .of_illegal (.of_issueG (r := execVtob c o u s) hp rfl rfl) h hu (by simp [etFP32, he])
  case viota => exact .of_illegal (.of_issueG (r := execViota c o u s) hp rfl rfl) h hu (by simp [etINT32, he])
  case vc =>
    have hv : (o.vc == 0) = false := beq_eq_false_iff_ne.2 hv
    exact ⟨.of_vecBinary h hu hp (exec_vadd ..) (.inr hv),
      .of_illegal (.of_issueG (r := execVperm c o u s) hp rfl rfl) h hu
        (by simp only [hv, Bool.false_and, Bool.and_false]),
      .of_illegal (.of_issueG (r := execVtopk c o u s) hp rfl rfl) h hu
        (by simp only [hv, Bool.false_and, Bool.and_false])⟩
  case mz =>
    exact ⟨.of_illegal (.of_issueG (r := execVreduce c o u s) hp rfl rfl) h hu (by simp [hm]),
      .of_illegal (.of_issueG (r := execVtopk c o u s) hp rfl rfl) h hu (by simp [hm]),
      fun hp' => .of_illegal (.of_issueG (r := execVcmp c o u s) hp' rfl rfl) h hu (by simp [hm])⟩

/-! ## Rows of tiles (R113) -/

section
variable {s : State} {c : Nat} {u : Upset} {i : Instr}

@[simp] theorem vecElem_mod (b : Nat) (v : VReg) (i : Nat) : vecElem b v i % 2 ^ b = vecElem b v i := Nat.mod_mod _ _

@[simp] theorem tileElem_mod (t : Tile) (i : Nat) : tileElem t i % 2 ^ 64 = tileElem t i := Nat.mod_mod _ _

/-- An element of a tile written element by element. -/
theorem tileElem_tileOf (f : Nat → Nat) {i : Nat} (h : i < 4096) : tileElem (tileOf f) i = f i % 2 ^ 64 := by
  rw [tileElem, tileOf, BitVec.toNat_ofNat, Nat.mod_eq_of_lt (packElems_lt 64 f 4096), elemOf_packElems _ _ _ _ h]

/-- An instruction that writes one vector register. -/
theorem Runs.answers_wv {v : BitVec 5} {w : VReg} (h : Runs i s c ((s.cell c).wv v w).adv) :
    Answers i s fun t => CellOnly s t c ((s.cell c).wv v ((t.cell c).rv v)).adv ∧ (t.cell c).rv v = w := by
  obtain ⟨t, ht, g⟩ := h
  have hw : (t.cell c).rv v = w := (congrArg (·.rv v) g.1).trans (Cell.rv_wv_self _ v w)
  rw [← hw] at g
  exact ⟨t, ht, g, hw⟩

/-- An instruction that writes one tile. -/
theorem Runs.answers_wtile {d : BitVec 3} {w : Tile} (h : Runs i s c ((s.cell c).wtile d w).adv) :
    Answers i s fun t => CellOnly s t c ((s.cell c).wtile d ((t.cell c).tile d)).adv ∧ (t.cell c).tile d = w := by
  obtain ⟨t, ht, g⟩ := h
  have hw : (t.cell c).tile d = w := (congrArg (·.tile d) g.1).trans (Cell.tile_wtile_self _ d w)
  rw [← hw] at g
  exact ⟨t, ht, g, hw⟩

end

/-- Settles O12. -/
theorem tileRowMoves : Obligations.TileRowMoves := by
  unfold Obligations.TileRowMoves
  refine fun s c u o h hu => ⟨?tmovv, ?vmovt⟩
  case tmovv =>
    have hr := Runs.of_cell (.of_issue (i := .tmovv c o u) (r := execTmovv c o u s) rfl rfl) h hu rfl
    obtain ⟨t, ht, g, hv⟩ := hr.answers_wv
    refine ⟨t, ht, g, fun r x hlr hlx => ?_⟩
    rw [hv, vecElem_vecOf 64 _ _ (by decide) (by omega), tileElem_mod]
    congr 1
    omega
  case vmovt =>
    have hr := Runs.of_cell (.of_issue (i := .vmovt c o u) (r := execVmovt c o u s) rfl rfl) h hu rfl
    obtain ⟨t, ht, g, hv⟩ := hr.answers_wtile
    refine ⟨t, ht, g, fun r x hlr hlx => ?_⟩
    rw [hv, tileElem_tileOf _ (by omega)]
    have hrow : o.rp.toNat * 128 ≤ 64 * r + x ∧ 64 * r + x < o.rp.toNat * 128 + 128 ↔ r / 2 = o.rp.toNat := by omega
    by_cases hr : r / 2 = o.rp.toNat
    · have hn : 64 * r + x - o.rp.toNat * 128 = 64 * (r % 2) + x := by omega
      rw [if_pos (hrow.2 hr), if_pos hr, vecElem_mod, hn]
    · rw [if_neg (hrow.not.2 hr), if_neg hr, tileElem_mod]

end Sys2Proof.Machine

end

section

/-! PROOFS. Vector arithmetic, logic and shifts (R101, R102, R496). -/

namespace Sys2Proof.Machine

/-! ## Integer elements (R496) -/

section
variable {b x y z : Nat}

theorem signed_modEq (b x : Nat) : signed b x ≡ x [ZMOD (2 ^ b : Nat)] := by
  have hx : ((x % 2 ^ b : Nat) : Int) ≡ x [ZMOD (2 ^ b : Nat)] := by
    rw [Int.natCast_mod]
    exact Int.mod_modEq _ _
  unfold signed
  split
  · exact hx
  · exact (Int.modEq_sub_modulus_iff.2 hx.symm).symm

theorem wrap_of_modEq {z : Int} {n : Nat} (h : z ≡ n [ZMOD (2 ^ b : Nat)]) : wrap b z = n % 2 ^ b := by
  rw [wrap, h, ← Int.natCast_mod, Int.toNat_natCast]

theorem natCast_sub_modEq {n : Nat} (h : x ≤ n) : ((n - x : Nat) : Int) ≡ -x [ZMOD n] := by
  rw [Nat.cast_sub h]
  exact (Int.modEq_iff_dvd.2 ⟨-1, by ring⟩)

theorem wrap_add (b x y : Nat) : wrap b (signed b x + signed b y) = (x + y) % 2 ^ b :=
  wrap_of_modEq (by push_cast; exact (signed_modEq b x).add (signed_modEq b y))

theorem wrap_mul (b x y : Nat) : wrap b (signed b x * signed b y) = x * y % 2 ^ b :=
  wrap_of_modEq (by push_cast; exact (signed_modEq b x).mul (signed_modEq b y))

theorem wrap_sub (x : Nat) (h : y < 2 ^ b) : wrap b (signed b x - signed b y) = (x + (2 ^ b - y)) % 2 ^ b := by
  refine wrap_of_modEq ?_
  rw [Nat.cast_add, sub_eq_add_neg]
  exact (signed_modEq b x).add ((signed_modEq b y).neg.trans (natCast_sub_modEq h.le).symm)

theorem wrap_fma (b x y z : Nat) : wrap b (signed b z + signed b x * signed b y) = (x * y + z) % 2 ^ b := by
  rw [add_comm]
  exact wrap_of_modEq (by push_cast; exact ((signed_modEq b x).mul (signed_modEq b y)).add (signed_modEq b z))

theorem wrap_fnma (b x y z : Nat) :
    wrap b (signed b z + -(signed b x * signed b y)) = (z + (2 ^ b - x * y % 2 ^ b)) % 2 ^ b := by
  have hm : ((x * y % 2 ^ b : Nat) : Int) ≡ (x : Int) * y [ZMOD (2 ^ b : Nat)] := by
    rw [Int.natCast_mod, Nat.cast_mul]
    exact Int.mod_modEq _ _
  have hp := ((signed_modEq b x).mul (signed_modEq b y)).trans hm.symm
  have hle : x * y % 2 ^ b ≤ 2 ^ b := (Nat.mod_lt _ (Nat.two_pow_pos b)).le
  refine wrap_of_modEq ?_
  rw [Nat.cast_add]
  exact (signed_modEq b z).add (hp.neg.trans (natCast_sub_modEq hle).symm)

/-- The integer element types of R496 have no floating-point format. -/
theorem etFormat_of_int {et : Nat} (h : et = 0x8 ∨ et = 0xA ∨ et = 0xB ∨ et = 0xC) : etFormat et = none := by
  rcases h with rfl | rfl | rfl | rfl <;> rfl

theorem arithOp_int {et : Nat} {fl : FFmt → Nat → Nat → Nat × BitVec 7} {int : Nat → Nat → Nat → Nat}
    (h : etFormat et = none) : arithOp fl int et x y = (int (etWidth et) x y, 0) := by
  rw [arithOp, h]

theorem elemFma_int {et : Nat} (neg : Bool) (h : etFormat et = none) :
    elemFma neg et x y z = (wrap (etWidth et) (signed (etWidth et) z +
      if neg then -(signed (etWidth et) x * signed (etWidth et) y)
      else signed (etWidth et) x * signed (etWidth et) y), 0) := by
  rw [elemFma, h]

end

/-! ## Floating-point elements (R101) -/

section
variable {f : FFmt} {et x y z : Nat}

theorem arithOp_float {fl : FFmt → Nat → Nat → Nat × BitVec 7} {int : Nat → Nat → Nat → Nat}
    (h : etFormat et = some f) : arithOp fl int et x y = fl f x y := by
  rw [arithOp, h]

theorem elemFma_float (neg : Bool) (h : etFormat et = some f) : elemFma neg et x y z = f.fma neg x y z := by
  rw [elemFma, h]

theorem FVal.add_nan (v w : FVal) (h : v = .nan ∨ w = .nan) : v.add w = .nan := by
  rcases h with rfl | rfl
  · rfl
  · cases v <;> rfl

theorem FVal.mul_nan (v w : FVal) (h : v = .nan ∨ w = .nan) : v.mul w = .nan := by
  rcases h with rfl | rfl
  · rfl
  · cases v <;> rfl

theorem FFmt.add_nan (h : f.decode x = .nan ∨ f.decode y = .nan) : (f.add x y).1 = f.nan := by
  simp only [FFmt.add, FVal.add_nan _ _ h, FFmt.arith]

theorem FFmt.mul_nan (h : f.decode x = .nan ∨ f.decode y = .nan) : (f.mul x y).1 = f.nan := by
  simp only [FFmt.mul, FVal.mul_nan _ _ h, FFmt.arith]

theorem FFmt.fma_nan (neg : Bool) (h : f.decode x = .nan ∨ f.decode y = .nan) : (f.fma neg x y z).1 = f.nan := by
  cases neg <;> simp only [FFmt.fma, FVal.mul_nan _ _ h, FVal.neg, FVal.add, FFmt.arith, Bool.false_eq_true, if_true,
    if_false]

theorem FVal.isNan_iff {v : FVal} : v.isNan = true ↔ v = .nan := by
  cases v <;> simp [FVal.isNan]

theorem FFmt.minMax_nan_left (mx : Bool) (hx : f.decode x = .nan) (hy : f.decode y ≠ .nan) :
    (f.minMax mx x y).1 = y := by
  have hy' : (f.decode y).isNan = false := Bool.eq_false_iff.2 (FVal.isNan_iff.not.2 hy)
  simp [FFmt.minMax, FVal.isNan_iff.2 hx, hy']

theorem FFmt.minMax_nan_right (mx : Bool) (hx : f.decode x = .nan) (hy : f.decode y ≠ .nan) :
    (f.minMax mx y x).1 = y := by
  have hy' : (f.decode y).isNan = false := Bool.eq_false_iff.2 (FVal.isNan_iff.not.2 hy)
  simp [FFmt.minMax, FVal.isNan_iff.2 hx, hy']

/-- An exact sum of opposite numbers is +0. -/
theorem FVal.add_opposite (n : Bool) (m : Nat) (e : Int) : (FVal.fin n m e).add (.fin (!n) m e) = .fin false 0 0 := by
  cases n <;> simp [FVal.add, FVal.ofInt, signedOf]

end

/-! ## Writes under a guard (R85, R95, R96, R102) -/

section
variable {s : State} {c : Nat} {u : Upset} {i : Instr} {o : VOp}

theorem VectorRuns.of_legal {b : Bool} {w lo n : Nat} {res res' : Nat → Nat × BitVec 7}
    (hi : Issues i s c u (Eff.legal b (vecResult s c (s.cell c) o w lo n res id))) (h : s.Ready c) (hu : Unhurt u)
    (hb : b = true) (hres : ∀ j, res j = res' j) : VectorRuns i s c o w lo n res' := by
  obtain rfl : res = res' := funext hres
  exact Runs.of_cell hi h hu (Eff.legal_of hb)

theorem VectorRuns.of_vecBinary {okType : Nat → Bool} {f : Nat → Nat → Nat → Nat × BitVec 7}
    {res : Nat → Nat × BitVec 7} (hi : exec i s = vecBinary okType f c o u s) (h : s.Ready c) (hu : Unhurt u)
    (hp : (s.cell c).predBusy [o.pg] = false) (ht : okType o.et.toNat = true) (hv : o.vc = 0) (hb : o.bOk = true)
    (ha : o.aux = 0)
    (hres : ∀ j, f o.et.toNat (vecElem (etWidth o.et.toNat) ((s.cell c).rv o.va) j)
      ((s.cell c).operandB o (etWidth o.et.toNat) j) = res j) :
    VectorRuns i s c o (etWidth o.et.toNat) 0 (8192 / etWidth o.et.toNat) res :=
  .of_legal (.of_issueG hp hi rfl) h hu (by simp [ht, hv, hb, ha, VOp.auxIn]) hres

theorem VectorRuns.of_vecFma {neg : Bool} (hi : exec i s = vecFma neg c o u s) (h : s.Ready c) (hu : Unhurt u)
    (hp : (s.cell c).predBusy [o.pg] = false) (ht : etArith o.et.toNat = true) (hb : o.bOk = true) (ha : o.aux = 0) :
    VectorRuns i s c o (etWidth o.et.toNat) 0 (8192 / etWidth o.et.toNat) fun j =>
      elemFma neg o.et.toNat (vecElem (etWidth o.et.toNat) ((s.cell c).rv o.va) j)
        ((s.cell c).operandB o (etWidth o.et.toNat) j) (vecElem (etWidth o.et.toNat) ((s.cell c).rv o.vc) j) :=
  .of_legal (.of_issueG hp hi rfl) h hu (by simp [ht, hb, ha, VOp.auxIn]) fun _ => rfl

theorem etInt_of_arith {et : Nat} (h : etArith et = true) (h3 : 3 ≤ et) : etInt et = true := by
  simp [etInt, etFloat, h, Nat.lt_of_succ_le h3]

end

/-- Settles O7. -/
theorem vectorArithmeticResults : Obligations.VectorArithmeticResults := by
  unfold Obligations.VectorArithmeticResults
  refine ⟨fun s c u o h hu hp ht hb ha => ⟨.of_vecFma (exec_vfma ..) h hu hp ht hb ha,
      .of_vecFma (exec_vfnma ..) h hu hp ht hb ha, fun hv => ?binary⟩,
    fun et lo n g mz old res i het hi => ?guarded,
    fun et x y z het => ?integers, fun et f hf => ?floats⟩
  case binary =>
    refine ⟨.of_vecBinary (exec_vadd ..) h hu hp ht hv hb ha fun _ => rfl,
      .of_vecBinary (exec_vsub ..) h hu hp ht hv hb ha fun _ => rfl,
      .of_vecBinary (exec_vmul ..) h hu hp ht hv hb ha fun _ => rfl,
      .of_vecBinary (exec_vmin ..) h hu hp ht hv hb ha fun _ => rfl,
      .of_vecBinary (exec_vmax ..) h hu hp ht hv hb ha fun _ => rfl,
      .of_vecBinary (exec_vand ..) h hu hp ht hv hb ha fun _ => rfl,
      .of_vecBinary (exec_vor ..) h hu hp ht hv hb ha fun _ => rfl,
      .of_vecBinary (exec_vxor ..) h hu hp ht hv hb ha fun _ => rfl, fun h3 => ?_⟩
    have hti := etInt_of_arith ht h3
    exact ⟨.of_vecBinary (exec_vsll ..) h hu hp hti hv hb ha fun _ => by rw [elemShift, Nat.shiftLeft_eq],
      .of_vecBinary (exec_vsrl ..) h hu hp hti hv hb ha fun _ => by rw [elemShift, Nat.shiftRight_eq_div_pow],
      .of_vecBinary (exec_vsra ..) h hu hp hti hv hb ha fun _ => by rw [elemShift]; push_cast; rfl⟩
  case guarded =>
    have he := vecElem_vecWrite (etWidth et) lo n g mz old res i (Nat.mul_div_le ..) hi
    rw [guardOn] at he
    refine ⟨fun h1 h2 hg => ?_, fun h1 h2 hg => ?_, fun hout => ?_⟩
    · rw [he, if_pos ⟨h1, h2⟩, if_pos hg]
    · rw [he, if_pos ⟨h1, h2⟩, if_neg (Bool.eq_false_iff.1 hg)]
      cases mz
      · exact vecElem_mod ..
      · exact Nat.zero_mod _
    · rw [he, if_neg (by omega), vecElem_mod]
  case integers =>
    intro b hx hy hz
    have hn := etFormat_of_int het
    refine ⟨?_, ?_, ?_, ?_, ?_, arithOp_int hn, arithOp_int hn⟩
    · rw [elemAdd, arithOp_int hn, intOp, wrap_add]
    · rw [elemSub, arithOp_int hn, intOp, wrap_sub x hy]
    · rw [elemMul, arithOp_int hn, intOp, wrap_mul]
    · rw [elemFma_int false hn, if_neg Bool.false_ne_true, wrap_fma]
    · rw [elemFma_int true hn, if_pos rfl, wrap_fnma]
  case floats =>
    have hf' : etFormat et = some f := by rcases hf with ⟨rfl, rfl⟩ | ⟨rfl, rfl⟩ | ⟨rfl, rfl⟩ <;> rfl
    refine ⟨by rcases hf with ⟨rfl, rfl⟩ | ⟨rfl, rfl⟩ | ⟨rfl, rfl⟩ <;> rfl, fun x y hnan => ⟨?_, ?_, fun z => ⟨?_, ?_⟩⟩,
      fun x y hx hy => ⟨?_, ?_, ?_, ?_⟩, ?_⟩
    · rw [elemAdd, arithOp_float hf', FFmt.add_nan hnan]
    · rw [elemMul, arithOp_float hf', FFmt.mul_nan hnan]
    · rw [elemFma_float false hf', FFmt.fma_nan false hnan]
    · rw [elemFma_float true hf', FFmt.fma_nan true hnan]
    · rw [elemMin, arithOp_float hf', FFmt.minMax_nan_left false hx hy]
    · rw [elemMin, arithOp_float hf', FFmt.minMax_nan_right false hx hy]
    · rw [elemMax, arithOp_float hf', FFmt.minMax_nan_left true hx hy]
    · rw [elemMax, arithOp_float hf', FFmt.minMax_nan_right true hx hy]
    · rcases hf with ⟨rfl, rfl⟩ | ⟨rfl, rfl⟩ | ⟨rfl, rfl⟩ <;>
        exact ⟨rfl, rfl, rfl, rfl, rfl, rfl, fun n m e _ => FVal.add_opposite n m e⟩

end Sys2Proof.Machine

end

section

/-! PROOFS. Vector selection, conversion, permutation, reduction and functions (R102 to R105, R498). -/

namespace Sys2Proof.Machine

/-! ## Conversions (R158, R498) -/

theorem wrap_modulus_sub (w : Nat) (hw : 0 < w) :
    wrap w (-((2 ^ (w - 1) : Nat) : Int)) = 2 ^ (w - 1) ∧
      wrap w (((2 ^ (w - 1) : Nat) : Int) - 1) = 2 ^ (w - 1) - 1 := by
  have hp : 2 ^ w = 2 ^ (w - 1) + 2 ^ (w - 1) := by
    obtain ⟨v, rfl⟩ : ∃ v, w = v + 1 := ⟨w - 1, by omega⟩
    rw [Nat.add_sub_cancel, Nat.pow_succ]
    omega
  have h1 := Nat.two_pow_pos (w - 1)
  constructor
  · rw [wrap_of_modEq (n := 2 ^ (w - 1)) (Int.modEq_iff_dvd.2 ⟨1, by rw [hp]; push_cast; ring⟩),
      Nat.mod_eq_of_lt (by omega)]
  · rw [← Nat.cast_pred h1, wrap_of_modEq rfl, Nat.mod_eq_of_lt (by omega)]

theorem intToInt_eq (w : Nat) (hw : 0 < w) (sat : Bool) (v : Int) :
    intToInt w sat v =
      if sat = true ∧ v < -2 ^ (w - 1) then (2 ^ (w - 1), flagXSAT)
      else if sat = true ∧ 2 ^ (w - 1) ≤ v then (2 ^ (w - 1) - 1, flagXSAT)
      else (wrap w v, 0) := by
  obtain ⟨hlo, hhi⟩ := wrap_modulus_sub w hw
  have hlt : ((2 ^ (w - 1) : Nat) : Int) - 1 < v ↔ 2 ^ (w - 1) ≤ v := by
    rw [Int.sub_one_lt_iff]
    push_cast
    rfl
  simp only [intToInt, hlo, hhi, hlt, Bool.and_eq_true, decide_eq_true_eq]
  push_cast
  rfl

theorem elemCvt_int {et tet : Nat} (sat : Bool) (x : Nat) (h : etFormat et = none) (h' : etFormat tet = none) :
    elemCvt sat et tet x = intToInt (etWidth tet) sat (signed (etWidth et) x) := by
  simp only [elemCvt, h, h']

/-- The integer element types of R97. -/
theorem etFormat_of_anyInt {et : Nat} (h : et = 0x8 ∨ et = 0x9 ∨ et = 0xA ∨ et = 0xB ∨ et = 0xC) :
    etFormat et = none ∧ 0 < etWidth et := by
  rcases h with rfl | rfl | rfl | rfl | rfl <;> exact ⟨rfl, by decide⟩

/-! ## Selection, conversion, permutation, reduction and functions (R102 to R105) -/

section
variable {s : State} {c : Nat} {u : Upset} {i : Instr} {o : VOp}

theorem runs_vcmp (h : s.Ready c) (hu : Unhurt u)
    (hp : (s.cell c).predBusy [o.pg, BitVec.ofNat 4 o.auxHi] = false)
    (ht : o.et.toNat = 0 ∨ o.et.toNat = 0xB ∨ o.et.toNat = 0xC) (hop : o.op3 ≠ 7) (hd : o.vd = 0) (hv : o.vc = 0)
    (hm : o.mz = false) (hb : o.bOk = true) (ha : o.auxIn 0xF0E00 = true) :
    Runs (.vcmp c o u) s c (((s.cell c).wp (BitVec.ofNat 4 o.auxHi)
      (cmpMask (etWidth o.et.toNat) ((s.cell c).guard o.pg o.pn) fun j => (elemCmp o.op3 o.et.toNat
        (vecElem (etWidth o.et.toNat) ((s.cell c).rv o.va) j)
        ((s.cell c).operandB o (etWidth o.et.toNat) j)).1)).flag
      (vecFlags (etWidth o.et.toNat) 0 (8192 / etWidth o.et.toNat) ((s.cell c).guard o.pg o.pn) fun j =>
        (elemCmp o.op3 o.et.toNat (vecElem (etWidth o.et.toNat) ((s.cell c).rv o.va) j)
          ((s.cell c).operandB o (etWidth o.et.toNat) j)).2)).adv := by
  refine .of_cell (.of_issueG (r := execVcmp c o u s) hp rfl rfl) h hu (Eff.legal_of ?_)
  simp only [etFP32, etINT32, etINT64, hd, hv, hm, hb, ha, bne_iff_ne.2 hop]
  rcases ht with ht | ht | ht <;> rw [ht] <;> rfl

theorem runs_vsel (h : s.Ready c) (hu : Unhurt u) (hp : (s.cell c).predBusy [o.pg] = false)
    (ht : etArith o.et.toNat = true) (hv : o.vc = 0) (hb : o.bOk = true) (ha : o.aux = 0) :
    Runs (.vsel c o u) s c ((s.cell c).wv o.vd (vecOf (etWidth o.et.toNat) fun j =>
      if guardOn ((s.cell c).guard o.pg o.pn) (etWidth o.et.toNat) j then
        vecElem (etWidth o.et.toNat) ((s.cell c).rv o.va) j
      else (s.cell c).operandB o (etWidth o.et.toNat) j)).adv :=
  .of_cell (.of_issueG (r := execVsel c o u s) hp rfl rfl) h hu
    (Eff.legal_of (by simp [ht, hv, hb, ha, VOp.auxIn]))

theorem runs_vcvt (h : s.Ready c) (hu : Unhurt u) (hp : (s.cell c).predBusy [o.pg] = false)
    (ht : o.et.toNat < 0xD) (ht' : o.auxHi < 0xD)
    (hpart : o.part < partCount (etWidth o.et.toNat) (etWidth o.auxHi)) (hv : o.vc = 0) (hb : o.noB = true)
    (hs : o.ss = 0) (ha : o.auxIn 0xFF000 = true) :
    VectorRuns (.vcvt c o u) s c o (etWidth o.auxHi)
      (if etWidth o.auxHi < etWidth o.et.toNat then
        o.part * min (8192 / etWidth o.et.toNat) (8192 / etWidth o.auxHi) else 0)
      (min (8192 / etWidth o.et.toNat) (8192 / etWidth o.auxHi))
      fun j => elemCvt o.satBit o.et.toNat o.auxHi (vecElem (etWidth o.et.toNat) ((s.cell c).rv o.va)
        ((if etWidth o.et.toNat < etWidth o.auxHi then
          o.part * min (8192 / etWidth o.et.toNat) (8192 / etWidth o.auxHi) else 0) + j)) :=
  .of_legal (.of_issueG (r := execVcvt c o u s) hp rfl rfl) h hu
    (by simpa [cvtType, ht, ht', hpart, hv, hb, hs] using ha) fun _ => rfl

theorem runs_vperm (h : s.Ready c) (hu : Unhurt u) (hp : (s.cell c).predBusy [o.pg] = false)
    (ht : o.et.toNat = 0 ∨ o.et.toNat = 0xB) (hv : o.vc = 0) (hb : o.bOk = true) (ha : o.aux = 0) :
    VectorRuns (.vperm c o u) s c o 32 0 256
      fun j => (vecElem 32 ((s.cell c).rv o.va) ((s.cell c).operandB o 32 j % 256), 0) :=
  .of_legal (.of_issueG (r := execVperm c o u s) hp rfl rfl) h hu
    (by rcases ht with ht | ht <;> simp [ht, hv, hb, ha, VOp.auxIn, etFP32, etINT32]) fun _ => rfl

theorem runs_vreduce (h : s.Ready c) (hu : Unhurt u) (hp : (s.cell c).predBusy [o.pg] = false)
    (ht : etArith o.et.toNat = true) (hop : o.op3 ≤ 2) (hm : o.mz = false) (hv : o.vc = 0) (hb : o.noB = true)
    (hs : o.ss = 0) (ha : o.auxIn 0xE00 = true) {r : Nat × BitVec 7}
    (hr : reduceTree (reduceOp o.op3 o.et.toNat) (Nat.log2 (8192 / etWidth o.et.toNat))
      ((List.range (8192 / etWidth o.et.toNat)).map fun j =>
        if guardOn ((s.cell c).guard o.pg o.pn) (etWidth o.et.toNat) j then
          vecElem (etWidth o.et.toNat) ((s.cell c).rv o.va) j
        else reduceIdentity o.op3 o.et.toNat) 0 = r) :
    Runs (.vreduce c o u) s c
      (((s.cell c).wv o.vd (BitVec.ofNat 8192 (r.1 % 2 ^ etWidth o.et.toNat))).flag r.2).adv := by
  subst hr
  exact .of_cell (.of_issueG (r := execVreduce c o u s) hp rfl rfl) h hu
    (Eff.legal_of (by simpa [ht, hop, hm, hv, hb, hs] using ha))

theorem VectorRuns.of_vecFun {f : Fun1} {fmt : FFmt} (hi : exec i s = vecFun f c o u s) (h : s.Ready c)
    (hu : Unhurt u) (hp : (s.cell c).predBusy [o.pg] = false) (hf : etFormat o.et.toNat = some fmt)
    (ht : etFloat o.et.toNat = true) (hv : o.vc = 0) (hb : o.noB = true) (hs : o.ss = 0) (ha : o.aux = 0) :
    VectorRuns i s c o (etWidth o.et.toNat) 0 (8192 / etWidth o.et.toNat)
      fun j => funElem fmt f (vecElem (etWidth o.et.toNat) ((s.cell c).rv o.va) j) := by
  have hi := Issues.of_issueG hp hi rfl
  simp only [hf] at hi
  exact .of_legal hi h hu (by simp [ht, hv, hb, hs, ha, VOp.auxIn]) fun _ => rfl

end

/-- Settles O8. -/
theorem vectorSelectionAndConversion : Obligations.VectorSelectionAndConversion := by
  unfold Obligations.VectorSelectionAndConversion
  refine ⟨fun s c u o h hu hv => ⟨fun hp ht hop hd hm hb ha => runs_vcmp h hu hp ht hop hd hv hm hb ha,
      fun hp => ⟨fun ht hb ha => runs_vsel h hu hp ht hv hb ha,
        fun ht ht' hpart hb hs ha => runs_vcvt h hu hp ht ht' hpart hv hb hs ha,
        fun ht hb ha => runs_vperm h hu hp ht hv hb ha,
        fun ht hop hm hb hs ha => runs_vreduce h hu hp ht hop hm hv hb hs ha rfl,
        fun f hf ht hb hs ha => ⟨.of_vecFun (exec_vrcp ..) h hu hp hf ht hv hb hs ha,
          .of_vecFun (exec_vrsqrt ..) h hu hp hf ht hv hb hs ha, .of_vecFun (exec_vexp2 ..) h hu hp hf ht hv hb hs ha,
          .of_vecFun (exec_vlog2 ..) h hu hp hf ht hv hb hs ha⟩⟩⟩,
    fun sat et tet x het htet => ?integers, fun sat w => ⟨rfl, rfl, rfl⟩,
    fun sat => ⟨rfl, rfl, rfl, rfl, rfl, rfl, rfl, rfl⟩, ⟨rfl, rfl, rfl, rfl, rfl, rfl⟩, ⟨rfl, rfl⟩⟩
  case integers =>
    obtain ⟨hn, -⟩ := etFormat_of_anyInt het
    obtain ⟨hn', hw⟩ := etFormat_of_anyInt htet
    exact (elemCvt_int sat x hn hn').trans (intToInt_eq _ hw sat _)

end Sys2Proof.Machine

end

section

/-! PROOFS. Matrix instructions (R108 to R112). -/

namespace Sys2Proof.Machine

/-! ## Tiles (R108 to R112, R151, R155 to R160) -/

section
variable {s : State} {c : Nat} {u : Upset}

/-- Some count is not zero exactly where the sum of the counts is not. -/
theorem foldl_count_pos (f : Nat → Nat) (l : List Nat) (a : Nat) :
    decide (0 < l.foldl (fun a n => a + f n) a) = (decide (0 < a) || l.any fun n => f n != 0) := by
  induction l generalizing a with
  | nil => rw [List.foldl_nil, List.any_nil, Bool.or_false]
  | cons n l ih =>
    rw [List.foldl_cons, ih, List.any_cons, ← Bool.or_assoc]
    congr 1
    by_cases hn : f n = 0
    · simp [hn]
    · simp [hn, Nat.pos_of_ne_zero hn]

theorem runs_twin {o : TwinOp} (h : s.Ready c) (hu : Unhurt u) (hm : o.mode ≠ 3) (ha : o.auto = true → o.mode = 1)
    (hw : if o.immw then o.ss = 0 else o.win = 0) :
    Runs (.twin c o u) s c (((s.cell c).wtile o.td 0).wstat o.td
      { win := if o.immw then o.win else ((s.cell c).rs o.ss).setWidth 16, mode := o.mode, auto := o.auto,
        ovf := false, pend := o.auto }).adv := by
  refine .of_cell (.of_issue (r := execTwin c o u s) rfl rfl) h hu (Eff.legal_of ?_)
  have ha' : (!o.auto || o.mode == 1) = true := by
    cases hauto : o.auto with
    | false => rfl
    | true => exact beq_iff_eq.2 (ha hauto)
  have hw' : (if o.immw then o.ss == 0 else o.win == 0) = true := by
    split at hw
    · next hi => rw [if_pos hi]; exact beq_iff_eq.2 hw
    · next hi => rw [if_neg hi]; exact beq_iff_eq.2 hw
  rw [bne_iff_ne.2 hm, ha', hw']
  rfl

theorem runs_tzero {t : BitVec 3} (h : s.Ready c) (hu : Unhurt u) (ho : ((s.cell c).stat t).isOpen = true) :
    Runs (.tzero c t u) s c (((s.cell c).wtile t 0).wstat t
      { (s.cell c).stat t with ovf := false, pend := ((s.cell c).stat t).auto || ((s.cell c).stat t).pend }).adv :=
  .of_cell (.of_issue (r := execTzero c t u s) rfl rfl) h hu (if_neg (by simp [ho]))

/-- The states in which a `TMMA` raises `TILE_STATE` (R110, R111). -/
def tmmaBad (k : Cell) (o : TmmaOp) : Prop :=
  (k.stat o.td).isOpen = false ∨ (o.fa.toNat = 8 ∧ (k.stat o.td).mode = 2) ∨
    ((k.stat o.td).pend = true ∧ o.scl = false)

theorem tmmaBad_iff (k : Cell) (o : TmmaOp) :
    (!(k.stat o.td).isOpen || (o.fa.toNat == etINT8 && (k.stat o.td).mode == 2) ||
        ((k.stat o.td).pend && !o.scl)) = true ↔ tmmaBad k o := by
  simp [tmmaBad, etINT8, or_assoc]

/-- The scales that R108 allows. -/
def tmmaScales (o : TmmaOp) : Prop :=
  if o.scl then o.fa.toNat ≠ 0 ∧ o.fa.toNat ≠ 1 ∧ o.fa.toNat ≠ 2 else o.qa = 0 ∧ o.qb = 0

theorem issues_tmma {o : TmmaOp} {kk : Nat} (hp : (s.cell c).predBusy [o.pg] = false)
    (hk : tmmaK o.fa.toNat o.fb.toNat = some kk) (hq : tmmaScales o) :
    Issues (.tmma c o u) s c u (if (!((s.cell c).stat o.td).isOpen ||
        (o.fa.toNat == etINT8 && ((s.cell c).stat o.td).mode == 2) || (((s.cell c).stat o.td).pend && !o.scl)) = true
      then .exc cTileState 0 else tmmaRun s c (s.cell c) o kk) := by
  have hi := Issues.of_issueG (i := .tmma c o u) (u := u) (r := execTmma c o u s) hp rfl rfl
  have hl : (!(o.scl && (o.fa.toNat == etFP32 || o.fa.toNat == etBF16 || o.fa.toNat == etFP16))
      && (o.scl || (o.qa == 0 && o.qb == 0))) = true := by
    unfold tmmaScales at hq
    cases hs : o.scl <;> simp only [hs, Bool.false_eq_true, if_true, if_false] at hq
    · simp [hq]
    · simp [etFP32, etBF16, etFP16, hq]
  simp only [tmmaEff, hk, hl, Eff.legal_true] at hi
  exact hi

/-- The tile and its status after a `TMMA` (R108 to R110). -/
def tmmaAfter (k : Cell) (o : TmmaOp) (kk : Nat) : Cell :=
  let st := k.stat o.td
  let g := k.guard o.pg o.pn
  let win := if st.pend then BitVec.ofInt 16 (autoWindow k o g) else st.win
  let el := fun n => if g.getLsbD (n / 64) && g.getLsbD (64 + n % 64) then tmmaElem k o kk win (n / 64) (n % 64)
    else (tileElem (k.tile o.td) n, 0)
  (k.wtile o.td (tileOf fun n => (el n).1)).wstat o.td
    { st with win, pend := false, ovf := st.ovf || ((List.range 4096).any fun n => (el n).2 != 0) }

theorem tmmaRun_eq (s : State) (c : Nat) (k : Cell) (o : TmmaOp) (kk : Nat) :
    ∃ evs, tmmaRun s c k o kk = .cell s c (tmmaAfter k o kk) evs := by
  unfold tmmaRun tmmaAfter
  simp only [foldl_count_pos, lt_self_iff_false, decide_false, Bool.false_or]
  exact ⟨_, rfl⟩

theorem runs_tmma {o : TmmaOp} {kk : Nat} (h : s.Ready c) (hu : Unhurt u) (hp : (s.cell c).predBusy [o.pg] = false)
    (hk : tmmaK o.fa.toNat o.fb.toNat = some kk) (hq : tmmaScales o) (hb : ¬ tmmaBad (s.cell c) o) :
    Runs (.tmma c o u) s c (tmmaAfter (s.cell c) o kk).adv := by
  obtain ⟨evs, he⟩ := tmmaRun_eq s c (s.cell c) o kk
  exact .of_cell (issues_tmma hp hk hq) h hu ((if_neg ((tmmaBad_iff ..).not.2 hb)).trans he)

theorem raises_tmma {o : TmmaOp} {kk : Nat} (h : s.Ready c) (hu : Unhurt u) (hp : (s.cell c).predBusy [o.pg] = false)
    (hk : tmmaK o.fa.toNat o.fb.toNat = some kk) (hq : tmmaScales o) (hb : tmmaBad (s.cell c) o) :
    Raises (.tmma c o u) s c cTileState 0 :=
  .of_exc (issues_tmma hp hk hq) h hu (if_pos ((tmmaBad_iff ..).2 hb))

theorem issues_xtalT {o : XtalTOp} {rows : Nat} {f : FFmt} (hr : xtalRows o.tet.toNat o.scl = some rows)
    (hf : etFormat o.tet.toNat = some f) (hg : o.rg.toNat < 64 / rows) (hq : o.scl = false → o.qd = 0) :
    Issues (.xtalT c o u) s c u
      (if !((s.cell c).stat o.td).isOpen || ((s.cell c).stat o.td).pend then .exc cTileState 0
        else if o.scl then xtalMx s c (s.cell c) o f rows else xtalPlain s c (s.cell c) o f rows) := by
  have hi := Issues.of_issue (i := .xtalT c o u) (s := s) (r := execXtalT c o u s) rfl rfl
  have hl : (decide (o.rg.toNat < 64 / rows) && (o.scl || o.qd == 0)) = true := by
    cases hs : o.scl with
    | true => simp [hg]
    | false => simp [hg, hq hs]
  simp only [hr, hf, hl, Eff.legal_true] at hi
  exact hi

/-- The MX blocks of a row group, element by element (R160). -/
theorem blocks_getD (blk : Nat → Nat × List Nat × BitVec 7) (m n : Nat) :
    ((List.range m).map blk).getD n (0, [], 0) = if n < m then blk n else (0, [], 0) := by
  by_cases h : n < m <;> simp [h]

theorem runs_xtalT_plain {o : XtalTOp} {rows : Nat} {f : FFmt} (h : s.Ready c) (hu : Unhurt u)
    (hr : xtalRows o.tet.toNat o.scl = some rows) (hf : etFormat o.tet.toNat = some f) (hg : o.rg.toNat < 64 / rows)
    (hq : o.scl = false → o.qd = 0) (ho : ((s.cell c).stat o.td).isOpen = true)
    (hpend : ((s.cell c).stat o.td).pend = false) (hs : o.scl = false) :
    Runs (.xtalT c o u) s c (((s.cell c).wv o.vd (vecOf (etWidth o.tet.toNat) fun n =>
        (f.round o.sat (tileVal (s.cell c) o.td (rows * o.rg.toNat * 64 + n))).1)).flag
      ((List.range (rows * 64)).foldl (fun a n =>
        a ||| (f.round o.sat (tileVal (s.cell c) o.td (rows * o.rg.toNat * 64 + n))).2) 0)).adv :=
  .of_cell (issues_xtalT hr hf hg hq) h hu
    ((if_neg (by simp [ho, hpend])).trans (if_neg (Bool.eq_false_iff.1 hs)))

/-- Register, scales and flags after an `XTAL.T` in MX blocks (R112, R160). -/
def xtalScaled (k : Cell) (o : XtalTOp) (f : FFmt) (rows : Nat) : Cell :=
  let block := fun n => xtalBlock k o f rows (n / 2) (n % 2)
  ((k.wv o.vd (vecOf (etWidth o.tet.toNat) fun n =>
      if n < 64 * rows then (block (n / 32)).2.1.getD (n % 32) 0 else 0)).wq o.qd
    (BitVec.ofNat 512 (packElems 8 (fun n =>
      if n < 2 * rows then (block n).1 else elemOf 8 (k.rq o.qd).toNat n) 64))).flag
    ((List.range (2 * rows)).foldl (fun a n => a ||| (block n).2.2) 0)

theorem xtalMx_eq (s : State) (c : Nat) (k : Cell) (o : XtalTOp) (f : FFmt) (rows : Nat) :
    ∃ evs, xtalMx s c k o f rows = .cell s c (xtalScaled k o f rows) evs := by
  have hel (blk : Nat → Nat × List Nat × BitVec 7) (n : Nat) :
      (if n / 32 < 2 * rows then blk (n / 32) else (0, [], 0)).2.1.getD (n % 32) 0 =
        if n < 64 * rows then (blk (n / 32)).2.1.getD (n % 32) 0 else 0 := by
    have hn : n / 32 < 2 * rows ↔ n < 64 * rows := by omega
    simp only [hn]
    split <;> rfl
  have hsc (blk : Nat → Nat × List Nat × BitVec 7) (x n : Nat) :
      (if n < 2 * rows then (if n < 2 * rows then blk n else (0, [], 0)).1 else x) =
        if n < 2 * rows then (blk n).1 else x := by
    split <;> rfl
  unfold xtalMx xtalScaled
  simp only [blocks_getD, List.foldl_map, hel fun n => xtalBlock k o f rows (n / 2) (n % 2),
    hsc fun n => xtalBlock k o f rows (n / 2) (n % 2)]
  exact ⟨_, rfl⟩

theorem runs_xtalT_scaled {o : XtalTOp} {rows : Nat} {f : FFmt} (h : s.Ready c) (hu : Unhurt u)
    (hr : xtalRows o.tet.toNat o.scl = some rows) (hf : etFormat o.tet.toNat = some f) (hg : o.rg.toNat < 64 / rows)
    (hq : o.scl = false → o.qd = 0) (ho : ((s.cell c).stat o.td).isOpen = true)
    (hpend : ((s.cell c).stat o.td).pend = false) (hs : o.scl = true) :
    Runs (.xtalT c o u) s c (xtalScaled (s.cell c) o f rows).adv := by
  obtain ⟨evs, he⟩ := xtalMx_eq s c (s.cell c) o f rows
  exact .of_cell (issues_xtalT hr hf hg hq) h hu ((if_neg (by simp [ho, hpend])).trans ((if_pos hs).trans he))

end

/-- Settles O11. -/
theorem matrixResults : Obligations.MatrixResults := by
  unfold Obligations.MatrixResults
  intro s c u h hu
  refine ⟨fun o hm ha hw => runs_twin h hu hm ha hw, fun o hbad => ?twin,
    fun t => ⟨fun ho => runs_tzero h hu ho, fun ho => ?tzero⟩, fun o kk hp hk hq => ?tmma,
    fun o rows f hr hf hg hq => ⟨fun hbad => ?xtal, fun ho hpend hs => runs_xtalT_plain h hu hr hf hg hq ho hpend hs,
      fun ho hpend hs => runs_xtalT_scaled h hu hr hf hg hq ho hpend hs⟩⟩
  case twin =>
    refine .of_illegal (.of_issue (r := execTwin c o u s) rfl rfl) h hu ?_
    rcases hbad with hm | ⟨ha, hm⟩
    · rw [hm]
      rfl
    · rw [ha, beq_eq_false_iff_ne.2 hm, Bool.not_true, Bool.or_self, Bool.and_false, Bool.false_and]
  case tzero => exact .of_exc (.of_issue (r := execTzero c t u s) rfl rfl) h hu (if_pos (by simp [ho]))
  case tmma =>
    refine ⟨fun hb => runs_tmma h hu hp hk hq hb, fun hb hsup hvec => ?_⟩
    exact ((raises_tmma h hu hp hk hq hb).runs (Cell.handles_iff.2 ⟨hsup, hvec⟩)).congr (Cell.enter_user hsup ..)
  case xtal =>
    refine .of_exc (issues_xtalT hr hf hg hq) h hu (if_pos ?_)
    rcases hbad with hb | hb <;> simp [hb]

end Sys2Proof.Machine

end

section

/-! PROOFS. Vector and matrix instructions complete (R101 to R114). -/

namespace Sys2Proof.Machine

/-! ## Instructions that complete -/

section
variable {s : State} {c : Nat} {u : Upset} {i : Instr} {o : VOp} {k : Cell}

/-- The item of a cell that stands at the instruction after `k`'s goes on as `k`'s does. -/
def GoesOn (j k : Cell) : Prop := j.pc = k.pc + 8 ∧ j.sup = k.sup ∧ j.run = k.run ∧ j.ended = k.ended

/-- The instruction answers a next state in which its cell goes on and nothing outside the cell has changed. -/
def Completes (i : Instr) (s : State) (c : Nat) : Prop :=
  Answers i s fun t =>
    (t.cell c).pc = (s.cell c).pc + 8 ∧ (t.cell c).sup = (s.cell c).sup ∧ (t.cell c).run = (s.cell c).run ∧
    (t.cell c).ended = none ∧ (∀ d, d ≠ c → (t.cell d).arch = (s.cell d).arch) ∧ t.rest = s.rest

theorem Runs.completes (hr : Runs i s c k) (h : s.Ready c) (hk : GoesOn k (s.cell c)) : Completes i s c := by
  obtain ⟨t, ht, ⟨harch, hother, hrest⟩⟩ := hr
  obtain ⟨hpc, hsup, hrun, hended⟩ := hk
  obtain ⟨-, -, -, hnone, -, -⟩ := State.canIssue_iff.1 h.1
  exact ⟨t, ht, (congrArg Cell.pc harch).trans hpc, (congrArg Cell.sup harch).trans hsup,
    (congrArg Cell.run harch).trans hrun, ((congrArg Cell.ended harch).trans hended).trans hnone, hother, hrest⟩

theorem VectorRuns.completes {b lo n : Nat} {res : Nat → Nat × BitVec 7} (hr : VectorRuns i s c o b lo n res)
    (h : s.Ready c) : Completes i s c :=
  Runs.completes hr h ⟨rfl, rfl, rfl, rfl⟩

/-- An effect that writes vector registers and flags. -/
theorem Completes.of_legal {b : Bool} {e : Eff} {evs : List Ev} (hi : Issues i s c u (Eff.legal b e)) (h : s.Ready c)
    (hu : Unhurt u) (hb : b = true) (he : e = .cell s c k evs) (hk : GoesOn k.adv (s.cell c)) : Completes i s c :=
  (Runs.of_cell hi h hu ((Eff.legal_of hb).trans he)).completes h hk

theorem GoesOn.ws (k : Cell) (r : BitVec 5) (w : Word) : GoesOn (k.ws r w).adv k :=
  ⟨congrArg (· + 8) (k.ws_pc r w), k.ws_sup r w, k.ws_run r w, k.ws_ended r w⟩

theorem GoesOn.wp_flag (k : Cell) (r : BitVec 4) (w : PReg) (f : BitVec 7) : GoesOn ((k.wp r w).flag f).adv k :=
  ⟨congrArg (· + 8) (k.wp_pc r w), k.wp_sup r w, k.wp_run r w, k.wp_ended r w⟩

theorem etFormat_of_float {et : Nat} (h : etFloat et = true) : ∃ f, etFormat et = some f := by
  have h2 : et ≤ 2 := of_decide_eq_true h
  interval_cases et <;> exact ⟨_, rfl⟩

theorem etFormat_of_xtalTarget {et : Nat} (h : et ≤ 4) : ∃ f, etFormat et = some f := by
  interval_cases et <;> exact ⟨_, rfl⟩

theorem etFormat_of_xtalRows {et rows : Nat} {scl : Bool} (h : xtalRows et scl = some rows) :
    ∃ f, etFormat et = some f := by
  have het : et = etFP32 ∨ et = etBF16 ∨ et = etFP16 ∨ et = etE4M3 ∨ et = etE5M2 ∨ et = etE2M1 := by
    unfold xtalRows at h
    split_ifs at h <;> tauto
  rcases het with rfl | rfl | rfl | rfl | rfl | rfl <;> exact ⟨_, rfl⟩

theorem laneOk_of {o : VOp} (ht : etArith o.et.toNat = true) (hl : o.lane < if o.et.toNat = 0xC then 128 else 256) :
    laneOk o = true := by
  unfold laneOk laneWidth etINT64
  split at hl
  · next h => rw [ht, if_pos h]; exact decide_eq_true hl
  · next h => rw [ht, if_neg h]; exact decide_eq_true hl

theorem completes_vext (h : s.Ready c) (hu : Unhurt u) (hp : (s.cell c).predBusy [o.pg] = false)
    (hl : laneOk o = true) (hv : o.vc = 0) (hb : o.noB = true) (hs : o.ss = 0) (ha : o.auxIn 0xFF = true) :
    Completes (.vext c o u) s c := by
  refine .of_legal (.of_issueG (r := execVext c o u s) hp rfl rfl) h hu (by simpa [hl, hv, hb, hs] using ha) rfl ?_
  split
  · exact .ws ..
  · exact ⟨rfl, rfl, rfl, rfl⟩

theorem completes_vins (h : s.Ready c) (hu : Unhurt u) (hp : (s.cell c).predBusy [o.pg] = false)
    (hl : laneOk o = true) (hva : o.va = 0) (hv : o.vc = 0) (hb : o.noB = true) (ha : o.auxIn 0xFF = true) :
    Completes (.vins c o u) s c := by
  refine .of_legal (.of_issueG (r := execVins c o u s) hp rfl rfl) h hu (by simpa [hl, hva, hv, hb] using ha) rfl ?_
  split <;> exact ⟨rfl, rfl, rfl, rfl⟩

theorem completes_xtalV (h : s.Ready c) (hu : Unhurt u) (hp : (s.cell c).predBusy [o.pg] = false) (hv : o.vc = 0)
    (ht : o.et.toNat = 0xD) (ht' : o.auxHi ≤ 4) (hpart : o.part < 64 / etWidth o.auxHi) (hb : o.noB = true)
    (ha : o.auxIn 0xFF000 = true) : Completes (.xtalV c o u) s c := by
  obtain ⟨f, hf⟩ := etFormat_of_xtalTarget ht'
  have hi := Issues.of_issueG (i := .xtalV c o u) (s := s) (u := u) (r := execXtalV c o u s) hp rfl rfl
  simp only [hf] at hi
  exact .of_legal hi h hu (by simpa [etBrine, xtalTarget, ht, ht', hpart, hv, hb] using ha) rfl ⟨rfl, rfl, rfl, rfl⟩

theorem completes_vtopk (h : s.Ready c) (hu : Unhurt u) (hp : (s.cell c).predBusy [o.pg] = false) (hv : o.vc = 0)
    (ht : o.et.toNat = 0 ∨ o.et.toNat = 0xB) (ha : o.auxIn 0xFFE00 = true) (hd : o.vd.getLsbD 0 = false)
    (hm : o.mz = false) (hseg : 3 ≤ o.aux.toNat / 2 ^ 11 % 8)
    (hk : o.aux.toNat / 2 ^ 14 + 1 ≤ 2 ^ (o.aux.toNat / 2 ^ 11 % 8))
    (hb : (if o.aux.getLsbD 9 then o.bOk else o.noB) = true) : Completes (.vtopk c o u) s c := by
  refine .of_legal (.of_issueG (r := execVtopk c o u s) hp rfl rfl) h hu ?_ rfl ⟨rfl, rfl, rfl, rfl⟩
  have ht' : (o.et.toNat == etFP32 || o.et.toNat == etINT32) = true := by
    rcases ht with ht | ht <;> rw [ht] <;> rfl
  rw [ht', decide_eq_true hseg, decide_eq_true hk, hd, hv, hm, hb, ha]
  rfl

end

/-- Settles O60. -/
theorem vectorAndMatrixCompletion : Obligations.VectorAndMatrixCompletion := by
  unfold Obligations.VectorAndMatrixCompletion
  intro s c u h hu
  refine ⟨fun o hp hv => ⟨fun hp' ht hop hd hm hb ha => ?vcmp, fun ht hb ha => ?vsel,
      fun ht ht' hpart hb hs ha => (runs_vcvt h hu hp ht ht' hpart hv hb hs ha).completes h,
      fun ht hb ha => (runs_vperm h hu hp ht hv hb ha).completes h, fun ht hop hm hb hs ha => ?vreduce,
      fun ht hb hs ha => ?functions, fun ht hl hb ha => ?lanes, fun ht hva hb ha => ?viota, fun ht hpart hb ha => ?vtob,
      fun ht hb ha => ?vbadd, fun ht ht' hpart hb ha => completes_xtalV h hu hp hv ht ht' hpart hb ha,
      fun ht ha hd hm hseg hk hb => completes_vtopk h hu hp hv ht ha hd hm hseg hk hb⟩,
    fun o hm ha hw => (runs_twin h hu hm ha hw).completes h ⟨rfl, rfl, rfl, rfl⟩,
    fun t ho => (runs_tzero h hu ho).completes h ⟨rfl, rfl, rfl, rfl⟩,
    fun o hp hk hq ho hmode hpend => ?tmma, fun o rows hr hg hq ho hpend => ?xtalT⟩
  case vcmp => exact (runs_vcmp h hu hp' ht hop.ne hd hv hm hb ha).completes h (.wp_flag ..)
  case vsel => exact (runs_vsel h hu hp ht hv hb ha).completes h ⟨rfl, rfl, rfl, rfl⟩
  case vreduce => exact (runs_vreduce h hu hp ht hop hm hv hb hs ha rfl).completes h ⟨rfl, rfl, rfl, rfl⟩
  case functions =>
    obtain ⟨f, hf⟩ := etFormat_of_float ht
    exact ⟨(VectorRuns.of_vecFun (exec_vrcp ..) h hu hp hf ht hv hb hs ha).completes h,
      (VectorRuns.of_vecFun (exec_vrsqrt ..) h hu hp hf ht hv hb hs ha).completes h,
      (VectorRuns.of_vecFun (exec_vexp2 ..) h hu hp hf ht hv hb hs ha).completes h,
      (VectorRuns.of_vecFun (exec_vlog2 ..) h hu hp hf ht hv hb hs ha).completes h⟩
  case lanes =>
    have hlane := laneOk_of ht hl
    exact ⟨fun hs => completes_vext h hu hp hlane hv hb hs ha, fun hva => completes_vins h hu hp hlane hva hv hb ha⟩
  case viota =>
    refine Completes.of_legal (.of_issueG (r := execViota c o u s) hp rfl rfl) h hu ?_ rfl ⟨rfl, rfl, rfl, rfl⟩
    simp [etINT32, ht, hva, hv, hb, ha, VOp.auxIn]
  case vtob =>
    refine Completes.of_legal (.of_issueG (r := execVtob c o u s) hp rfl rfl) h hu ?_ rfl ⟨rfl, rfl, rfl, rfl⟩
    simpa [etFP32, ht, hpart, hv, hb] using ha
  case vbadd =>
    refine Completes.of_legal (.of_issueG (r := execVbadd c o u s) hp rfl rfl) h hu ?_ rfl ⟨rfl, rfl, rfl, rfl⟩
    cases hbs : o.bs with
    | false => simp [etBrine, ht, hv, ha, VOp.auxIn]
    | true => simp [etBrine, ht, hv, hb hbs, ha, VOp.auxIn]
  case tmma =>
    obtain ⟨kk, hk⟩ := Option.isSome_iff_exists.1 hk
    have hscale : tmmaScales o := by
      unfold tmmaScales
      split at hq
      · next hs => rw [if_pos hs]; omega
      · next hs => rw [if_neg hs]; exact hq
    have hgood : ¬ tmmaBad (s.cell c) o := by
      rintro (hc | ⟨hfa, hm⟩ | ⟨hpe, hs⟩)
      · exact absurd ho (Bool.eq_false_iff.1 hc)
      · exact hmode hfa hm
      · exact absurd (hpend hpe) (Bool.eq_false_iff.1 hs)
    exact (runs_tmma h hu hp hk hscale hgood).completes h ⟨rfl, rfl, rfl, rfl⟩
  case xtalT =>
    obtain ⟨f, hf⟩ := etFormat_of_xtalRows hr
    cases hs : o.scl with
    | false => exact (runs_xtalT_plain h hu hr hf hg hq ho hpend hs).completes h ⟨rfl, rfl, rfl, rfl⟩
    | true => exact (runs_xtalT_scaled h hu hr hf hg hq ho hpend hs).completes h ⟨rfl, rfl, rfl, rfl⟩

end Sys2Proof.Machine

end

section

/-! PROOFS. Loads (R115, R116, R133, R137). -/

namespace Sys2Proof.Machine

/-! ## Loads (R115, R116, R133, R137) -/

section
variable {s : State} {c : Nat} {u : Upset} {i : Instr} {e : Eff} {k : Cell} {o : MOp}

theorem Runs.of_load {ps : List Piece} {evs : List Ev} (hi : Issues i s c u e) (h : s.Ready c) (hu : Unhurt u)
    (he : e = .load s c k ps evs) : Runs i s c k.adv := by
  have hs : ({ s with freeCtr := s.freeCtr + 1 } : State).Alike s := ⟨fun _ => rfl, rfl⟩
  refine .of_next_effect hi h hu he fun t ha => ?_
  exact ((CellOnly.setCell _ c k.adv).after_alike ((State.recallPieces_alike _ ps).trans hs)).alike ha

theorem aligned_of {va : Word} {n : Nat} (h : va.toNat % n = 0) : aligned va n e = e := if_pos h

theorem withPieces_ok {r : MemRes} {ps : List Piece} {f : List Piece → Eff} (h : r = .ok ps) :
    withPieces s r f = f ps := by
  rw [h]
  rfl

theorem plainFields_of {guarded atomic cas : Bool} {o : MOp}
    (h : PlainForm o (guarded = true) (atomic = true) (cas = true)) : plainFields guarded atomic cas o = true := by
  obtain ⟨ham, hsc, hpg, hxi, hrel⟩ := h
  simpa [plainFields, ham.symm, hsc, or_assoc, and_assoc] using ⟨hpg, ham, hxi, hrel⟩

theorem plainFields_plain (h : PlainForm o False False False) : plainFields false false false o = true :=
  plainFields_of (by simpa using h)

section
variable (sgn : Bool)

/-- A scalar load whose type and fields are allowed. -/
theorem loadEff_eq {n : Nat} (hf : PlainForm o False False False) (hn : scalarSize o.et = some n) :
    loadEff sgn s c o k = aligned (k.address o) n (withPieces s (s.memRange k .load (k.address o).toNat n) fun ps =>
      .load s c (k.ws o.d (if sgn then BitVec.ofInt 64 (signed (8 * n) (leNat (s.readPieces (s.cellTag k) ps)))
        else BitVec.ofNat 64 (leNat (s.readPieces (s.cellTag k) ps)))) ps (s.accessEvents c false ps)) := by
  rw [loadEff, hn]
  exact Eff.legal_of (plainFields_plain hf)

theorem loadEff_ok {n : Nat} {ps : List Piece} (hf : PlainForm o False False False) (hn : scalarSize o.et = some n)
    (ha : (k.address o).toNat % n = 0) (hr : s.memRange k .load (k.address o).toNat n = .ok ps) :
    loadEff sgn s c o k = .load s c
      (k.ws o.d (if sgn then BitVec.ofInt 64 (signed (8 * n) (leNat (s.readPieces (s.cellTag k) ps)))
        else BitVec.ofNat 64 (leNat (s.readPieces (s.cellTag k) ps)))) ps (s.accessEvents c false ps) := by
  rw [loadEff_eq sgn hf hn, aligned_of ha, withPieces_ok hr]

end

theorem narrowType_of {et : BitVec 4} (h : et = 0x5 ∨ et = 0x6 ∨ et = 0x9) :
    (et.toNat == etINT4 || et.toNat == etE2M3 || et.toNat == etE3M2) = true ∧
      (if et.toNat = etINT4 then 512 else 768) = if et = 0x9 then 512 else 768 := by
  rcases h with rfl | rfl | rfl <;> exact ⟨rfl, rfl⟩

end

/-- Settles O14. -/
theorem loadResults : Obligations.LoadResults := by
  unfold Obligations.LoadResults
  intro s c u o h hu hf
  have hplain := plainFields_plain hf
  refine ⟨fun n ps hn ha hr => ⟨?ld, ?ldu⟩, fun n hn ha => ?misaligned, fun n cause fa hn ha hr => ?fault,
    fun ha => ⟨fun ps ht hr => ?vld, fun ps ht hd hr => ?vldx, fun ps ht hr => ?vldw⟩⟩
  case ld => exact .of_load (.of_issue (r := execLd c o u s) rfl rfl) h hu (loadEff_ok true hf hn ha hr)
  case ldu => exact .of_load (.of_issue (r := execLdu c o u s) rfl rfl) h hu (loadEff_ok false hf hn ha hr)
  case misaligned =>
    exact .of_exc (.of_issue (r := execLdu c o u s) rfl rfl) h hu ((loadEff_eq false hf hn).trans (if_neg ha))
  case fault =>
    refine .of_exc (.of_issue (r := execLdu c o u s) rfl rfl) h hu ?_
    rw [loadEff_eq false hf hn, aligned_of ha, hr]
    rfl
  case vld =>
    exact .of_load (.of_issue (r := execVld c o u s) rfl rfl) h hu
      ((Eff.legal_of (by rw [ht, hplain]; rfl)).trans ((aligned_of ha).trans (withPieces_ok hr)))
  case vldx =>
    exact .of_load (.of_issue (r := execVldx c o u s) rfl rfl) h hu
      ((Eff.legal_of (by rw [ht, decide_eq_true hd, hplain]; rfl)).trans ((aligned_of ha).trans (withPieces_ok hr)))
  case vldw =>
    obtain ⟨htype, hsize⟩ := narrowType_of ht
    have hr' : s.memRange (s.cell c) .load ((s.cell c).address o).toNat
      (if o.et.toNat = etINT4 then 512 else 768) = .ok ps := hsize ▸ hr
    exact .of_load (.of_issue (r := execVldw c o u s) rfl rfl) h hu
      ((Eff.legal_of (by rw [htype, hplain]; rfl)).trans ((aligned_of ha).trans (withPieces_ok hr')))

end Sys2Proof.Machine

end

section

/-! PROOFS. Stores, and what is read after them (R115, R188, R429). -/

namespace Sys2Proof.Machine

/-! ## What a store leaves of the cells -/

section
variable {s : State} {c : Nat} {u : Upset} {i : Instr} {e : Eff} {k : Cell} {o : MOp}

theorem State.recall_cells (s : State) (pa n : Nat) : (s.recall pa n).cells = s.cells := by
  unfold State.recall
  dsimp only
  split <;> rfl

theorem State.firstWrite_cells (s : State) (g : Nat) : (s.firstWrite g).cells = s.cells := by
  unfold State.firstWrite
  split <;> rfl

theorem State.writeByte_cells (s : State) (t : Tag) (pa : Nat) (b : Byte) : (s.writeByte t pa b).cells = s.cells := by
  unfold State.writeByte
  cases place pa with
  | hbm | ddr => exact s.firstWrite_cells _
  | shared | local_ | host | control | package | hole => rfl

theorem State.writeBytes_cells (s : State) (t : Tag) (pa : Nat) (l : List Byte) :
    (s.writeBytes t pa l).cells = s.cells := by
  induction l generalizing s pa with
  | nil => rfl
  | cons b l ih => rw [State.writeBytes, ih, State.writeByte_cells]

theorem State.writePieces_cells (s : State) (t : Tag) (ps : List Piece) (l : List Byte) :
    (s.writePieces t ps l).cells = s.cells := by
  induction ps generalizing s l with
  | nil => rfl
  | cons p ps ih => rw [State.writePieces, ih, State.writeBytes_cells, State.recall_cells]

theorem State.cell_congr {s t : State} (h : t.cells = s.cells) (d : Nat) : t.cell d = s.cell d := by
  rw [State.cell, State.cell, h]

/-- An instruction whose effect is a state `v` that leaves the cells of `s`, and its cell as `k`. -/
theorem Stores.of_next {v : State} {evs : List Ev} {rs ws : List Piece} (hi : Issues i s c u e) (h : s.Ready c)
    (hu : Unhurt u) (he : e = .next (v.setCell c k) evs rs ws) (hv : ∀ d, (v.cell d).arch = (s.cell d).arch) :
    Stores i s v c k := by
  refine .of_next_effect hi h hu he fun t ha => ?_
  obtain ⟨hc, hother, hrest⟩ := (CellOnly.setCell v c k).alike ha
  exact ⟨hc, fun d hd => (hother d hd).trans (hv d), hrest⟩

theorem Stores.of_store {ps : List Piece} {l : List Byte} {evs : List Ev} (hi : Issues i s c u e) (h : s.Ready c)
    (hu : Unhurt u) (he : e = .store s c (s.cell c) ps l evs) :
    Stores i s (s.writePieces (s.cellTag (s.cell c)) ps l) c (s.cell c).adv :=
  .of_next hi h hu he fun d => congrArg Cell.arch (State.cell_congr (s.writePieces_cells _ ps l) d)

/-! ## Stores of scalars and registers (R115) -/

theorem runs_st {n : Nat} {ps : List Piece} (h : s.Ready c) (hu : Unhurt u) (hf : PlainForm o False False False)
    (hn : scalarSize o.et = some n) (ha : ((s.cell c).address o).toNat % n = 0)
    (hr : s.memRange (s.cell c) .store ((s.cell c).address o).toNat n = .ok ps) :
    Stores (.st c o u) s (s.writePieces (s.cellTag (s.cell c)) ps (leBytes n ((s.cell c).rs o.d).toNat)) c
      (s.cell c).adv := by
  have hi := Issues.of_issue (i := .st c o u) (s := s) (r := execSt c o u s) rfl rfl
  simp only [hn] at hi
  exact .of_store hi h hu ((Eff.legal_of (plainFields_plain hf)).trans ((aligned_of ha).trans (withPieces_ok hr)))

theorem runs_vstx {ps : List Piece} (h : s.Ready c) (hu : Unhurt u) (hf : PlainForm o False False False)
    (ht : etReserved o.et.toNat = false) (hd : o.d.toNat < 16) (ha : ((s.cell c).address o).toNat % 64 = 0)
    (hr : s.memRange (s.cell c) .store ((s.cell c).address o).toNat 64 = .ok ps) :
    Stores (.vstx c o u) s
      (s.writePieces (s.cellTag (s.cell c)) ps (leBytes 64 ((s.cell c).rq (o.d.setWidth 4)).toNat)) c
      (s.cell c).adv :=
  .of_store (.of_issue (r := execVstx c o u s) rfl rfl) h hu
    ((Eff.legal_of (by rw [ht, decide_eq_true hd, plainFields_plain hf]; rfl)).trans
      ((aligned_of ha).trans (withPieces_ok hr)))

theorem plainFields_guarded (h : PlainForm o True False False) : plainFields true false false o = true :=
  plainFields_of (by simpa using h)

/-- The bit of a guard that governs an element of `w` bytes. -/
theorem guardedElems_eq (g : PReg) (w n : Nat) :
    guardedElems g w n = (List.range n).filter fun j => g.getLsbD (w * j / 4) := by
  have hw (j : Nat) : 8 * w * j / 32 = w * j / 4 := by
    rw [Nat.mul_assoc, show 32 = 8 * 4 from rfl, Nat.mul_div_mul_left _ _ (by decide)]
  simp only [guardedElems, guardOn, hw]

theorem runs_vst {ps : List Piece} {w : Nat} {js : List Nat} (h : s.Ready c) (hu : Unhurt u)
    (hf : PlainForm o True False False) (hp : (s.cell c).predBusy [o.pg] = false)
    (ht : etReserved o.et.toNat = false) (ha : ((s.cell c).address o).toNat % 64 = 0)
    (hw : (if o.et = 0xC ∨ o.et = 0xD then 8 else 4) = w)
    (hj : ((List.range (1024 / w)).filter fun j => ((s.cell c).guard o.pg o.pn).getLsbD (w * j / 4)) = js)
    (hr : s.memParts (s.cell c) .store (js.map fun j => (((s.cell c).address o).toNat + w * j, w)) = .ok ps) :
    Stores (.vst c o u) s (s.writePieces (s.cellTag (s.cell c)) ps
      (js.flatMap fun j => leBytes w (vecElem (8 * w) ((s.cell c).rv o.d) j))) c (s.cell c).adv := by
  have hwide : (if o.et.toNat = etINT64 ∨ o.et.toNat = etBrine then 8 else 4) = w := by
    rw [← hw]
    simp only [← BitVec.toNat_inj]
    rfl
  have hi := Issues.of_issueG (i := .vst c o u) (u := u) (r := execVst c o u s) hp rfl rfl
  simp only [vstEff, hwide, guardedElems_eq, hj] at hi
  exact .of_store hi h hu ((Eff.legal_of (by rw [ht, plainFields_guarded hf]; rfl)).trans
    ((aligned_of ha).trans (withPieces_ok hr)))

end

/-! ## What is read after a store (R115, R188, R429) -/

/-- External memory, whose bytes a granule that is not clean hides (R188). -/
def Place.isExternal : Place → Bool
  | .hbm _ _ | .ddr _ _ => true
  | _ => false

/-- On-chip memory, whose lines have an owner (R429). -/
def Place.isOnChip : Place → Bool
  | .shared _ _ | .local_ _ _ _ => true
  | _ => false

section
variable {s : State} {t v : Tag} {a pa : Nat} {b : Byte}

theorem place_external (h : (place a).isExternal = true) :
    a < 2 ^ 41 ∨ (ddrBase ≤ a ∧ a < ddrBase + 12 * 2 ^ 38) := by
  unfold place at h
  split_ifs at h with h1 h2 h3 h4 h5
  · exact .inl h1
  · exact .inr h2
  · dsimp only at h
    split_ifs at h <;> cases h
  all_goals cases h

theorem place_onChip (h : (place a).isOnChip = true) : sramBase ≤ a ∧ a < sramBase + 2 ^ 33 := by
  unfold place at h
  split_ifs at h with h1 h2 h3 h4 h5
  · cases h
  · cases h
  · exact h3
  all_goals cases h

/-- External and on-chip memory share no granule. -/
theorem granule_ne (ha : (place a).isExternal = true) (hp : (place pa).isOnChip = true) :
    a / granuleSize ≠ pa / granuleSize := by
  have h1 := place_external ha
  have h2 := place_onChip hp
  unfold ddrBase sramBase at *
  unfold granuleSize
  omega

theorem line_ne (ha : (place a).isExternal = true) (hp : (place pa).isOnChip = true) : a / 256 ≠ pa / 256 := by
  have h1 := place_external ha
  have h2 := place_onChip hp
  unfold ddrBase sramBase at *
  omega

theorem State.readByte_external (s : State) (t : Tag) (h : (place a).isExternal = true) :
    s.readByte t a = if (s.granule (a / granuleSize)).scrub = .clean then Cells.get s.mem.cells a else 0 := by
  unfold State.readByte
  cases hp : place a <;> simp_all [Place.isExternal]

theorem State.readByte_onChip (s : State) (t : Tag) (h : (place a).isOnChip = true) :
    s.readByte t a = if s.mem.tags.find (a / 256) = some t then Cells.get s.mem.cells a else 0 := by
  unfold State.readByte
  cases hp : place a <;> simp_all [Place.isOnChip]

/-- The bytes outside external and on-chip memory are read from host memory or not at all. -/
theorem State.readByte_elsewhere {s u : State} (v : Tag) (h : (place a).isExternal = false)
    (h' : (place a).isOnChip = false) (hhost : ∀ x, place a = .host x → SMap.find u.mem.host x = SMap.find s.mem.host x)
    (hfree : u.freeCtr = s.freeCtr) : u.readByte v a = s.readByte v a := by
  unfold State.readByte
  cases hp : place a with
  | hbm | ddr =>
    rw [hp] at h
    cases h
  | shared | local_ =>
    rw [hp] at h'
    cases h'
  | host x => simp only [hhost x hp, hfree]
  | control | package | hole => rfl

theorem Cells.get_zero (l : List Host.Cell) (x n j : Nat) :
    Cells.get (Cells.zero l x n) j = if x ≤ j ∧ j < x + n then 0 else Cells.get l j := by
  induction l with
  | nil => simp [Cells.zero, Cells.get, SMap.find]
  | cons y l ih =>
    obtain ⟨key, w⟩ := y
    simp only [Cells.zero, Cells.get] at ih ⊢
    rw [List.filter_cons]
    by_cases hin : x ≤ key ∧ key < x + n
    · rw [if_neg (by simp [hin]), ih]
      by_cases hk : key = j
      · subst hk
        simp [hin]
      · simp [SMap.find, hk]
    · rw [if_pos (by simp only [← Bool.decide_and, decide_eq_false hin, Bool.not_false])]
      by_cases hk : key = j
      · subst hk
        simp [SMap.find, hin]
      · simp only [SMap.find, if_neg hk, ih]

/-! ### A first write to a granule (R188) -/

theorem State.granule_firstWrite_self (s : State) (g : Nat) : ((s.firstWrite g).granule g).scrub = .clean := by
  unfold State.firstWrite
  split
  next h => exact h
  next => exact congrArg Granule.scrub (s.granule_setGranule g _ (by simp))

theorem State.granule_setGranule_other (s : State) {g h : Nat} (v : Granule) (hn : h ≠ g) :
    (s.setGranule g v).granule h = s.granule h := by
  unfold State.granule State.setGranule
  dsimp only
  split
  · rw [SMap.find_del_other _ hn]
  · rw [SMap.find_put_other _ _ _ _ hn]

theorem State.granule_firstWrite_other (s : State) {g h : Nat} (hn : h ≠ g) :
    (s.firstWrite g).granule h = s.granule h := by
  unfold State.firstWrite
  split
  · rfl
  · exact s.granule_setGranule_other _ hn

theorem State.get_firstWrite (s : State) (g j : Nat) :
    Cells.get (s.firstWrite g).mem.cells j =
      if (s.granule g).scrub = .clean ∨ j / granuleSize ≠ g then Cells.get s.mem.cells j else 0 := by
  have hin : g * granuleSize ≤ j ∧ j < g * granuleSize + granuleSize ↔ ¬ j / granuleSize ≠ g := by
    unfold granuleSize
    omega
  unfold State.firstWrite
  split
  next h => rw [if_pos (.inl h)]
  next h =>
    rw [Cells.get_zero]
    simp only [hin, h, false_or]
    split <;> simp_all [State.setGranule]

theorem State.firstWrite_frame (s : State) (g : Nat) : (s.firstWrite g).mem.tags = s.mem.tags ∧
    (s.firstWrite g).mem.host = s.mem.host ∧ (s.firstWrite g).freeCtr = s.freeCtr := by
  unfold State.firstWrite
  split <;> exact ⟨rfl, rfl, rfl⟩

theorem State.writeByte_external (s : State) (t : Tag) (b : Byte) (h : (place pa).isExternal = true) :
    (s.writeByte t pa b).mem.cells = Cells.set (s.firstWrite (pa / granuleSize)).mem.cells pa b ∧
      (s.writeByte t pa b).mem.tags = s.mem.tags ∧
      ∀ g, (s.writeByte t pa b).granule g = (s.firstWrite (pa / granuleSize)).granule g := by
  obtain ⟨htags, -, -⟩ := s.firstWrite_frame (pa / granuleSize)
  unfold State.writeByte
  cases hp : place pa with
  | hbm | ddr => exact ⟨rfl, htags, fun _ => rfl⟩
  | shared | local_ | host | control | package | hole =>
    rw [hp] at h
    cases h

theorem State.writeByte_onChip (s : State) (t : Tag) (b : Byte) (h : (place pa).isOnChip = true) :
    (s.writeByte t pa b).mem.cells = Cells.set (s.takeLine t (pa / 256)).mem.cells pa b ∧
      (s.writeByte t pa b).mem.tags = (s.takeLine t (pa / 256)).mem.tags ∧
      ∀ g, (s.writeByte t pa b).granule g = s.granule g := by
  unfold State.writeByte
  cases hp : place pa with
  | shared | local_ => exact ⟨rfl, rfl, fun _ => rfl⟩
  | hbm | ddr | host | control | package | hole =>
    rw [hp] at h
    cases h

theorem State.writeByte_elsewhere (s : State) (t : Tag) (b : Byte) (h : (place pa).isExternal = false)
    (h' : (place pa).isOnChip = false) : (s.writeByte t pa b).mem.cells = s.mem.cells ∧
      (s.writeByte t pa b).mem.tags = s.mem.tags ∧ ∀ g, (s.writeByte t pa b).granule g = s.granule g := by
  unfold State.writeByte
  cases hp : place pa with
  | hbm | ddr =>
    rw [hp] at h
    cases h
  | shared | local_ =>
    rw [hp] at h'
    cases h'
  | host | control | package | hole => exact ⟨rfl, rfl, fun _ => rfl⟩

theorem State.host_writeByte (s : State) (t : Tag) (b : Byte) {x : Nat} (h : place pa ≠ .host x) :
    SMap.find (s.writeByte t pa b).mem.host x = SMap.find s.mem.host x := by
  obtain ⟨-, hhost, -⟩ := s.firstWrite_frame (pa / granuleSize)
  unfold State.writeByte
  cases hp : place pa with
  | hbm | ddr => exact congrArg (SMap.find · x) hhost
  | host y => exact SMap.find_put_other _ _ _ _ fun e => h (by rw [hp, e])
  | shared | local_ | control | package | hole => rfl

theorem State.freeCtr_writeByte (s : State) (t : Tag) (pa : Nat) (b : Byte) :
    (s.writeByte t pa b).freeCtr = s.freeCtr := by
  obtain ⟨-, -, hfree⟩ := s.firstWrite_frame (pa / granuleSize)
  unfold State.writeByte
  cases place pa with
  | hbm | ddr => exact hfree
  | shared | local_ | host | control | package | hole => rfl

theorem State.get_takeLine (s : State) (t : Tag) (line j : Nat) :
    Cells.get (s.takeLine t line).mem.cells j =
      if s.mem.tags.find line = some t ∨ j / 256 ≠ line then Cells.get s.mem.cells j else 0 := by
  have hin : line * 256 ≤ j ∧ j < line * 256 + 256 ↔ ¬ j / 256 ≠ line := by omega
  unfold State.takeLine
  dsimp only
  split
  next h => rw [if_pos (.inl h)]
  next h =>
    rw [Cells.get_zero]
    simp only [hin, h, false_or]
    split <;> simp_all

theorem State.tags_takeLine (s : State) (t : Tag) (line j : Nat) :
    (s.takeLine t line).mem.tags.find j = if j = line then some t else s.mem.tags.find j := by
  unfold State.takeLine
  dsimp only
  split
  next h => rw [h, SMap.find_put_self]
  next h => rw [SMap.find_put_other _ _ _ _ h]

theorem State.wf_firstWrite (g : Nat) (h : Memory.wf s.mem.cells = true) :
    Memory.wf (s.firstWrite g).mem.cells = true := by
  unfold State.firstWrite
  split
  · exact h
  · exact Memory.wf_zero _ _ _ h

theorem State.wf_takeLine (t : Tag) (line : Nat) (h : Memory.wf s.mem.cells = true) :
    Memory.wf (s.takeLine t line).mem.cells = true := by
  unfold State.takeLine
  dsimp only
  split
  · exact h
  · exact Memory.wf_zero _ _ _ h

/-! ### One byte -/

/-- Memory that holds what is written to it. -/
def Place.stores (p : Place) : Prop := p ≠ .hole ∧ p ≠ .package ∧ ∀ b, p ≠ .control b

theorem Place.host_of_stores {p : Place} (h : p.stores) (he : p.isExternal = false) (hc : p.isOnChip = false) :
    ∃ x, p = .host x := by
  obtain ⟨hhole, hpackage, hcontrol⟩ := h
  cases p with
  | hbm | ddr => cases he
  | shared | local_ => cases hc
  | host x => exact ⟨x, rfl⟩
  | control b => exact absurd rfl (hcontrol b)
  | package => exact absurd rfl hpackage
  | hole => exact absurd rfl hhole

theorem State.wf_writeByte (s : State) (t : Tag) (pa : Nat) (b : Byte) (h : Memory.wf s.mem.cells = true) :
    Memory.wf (s.writeByte t pa b).mem.cells = true := by
  unfold State.writeByte
  cases place pa with
  | hbm | ddr => exact Memory.wf_set _ _ _ (State.wf_firstWrite _ h)
  | shared | local_ => exact Memory.wf_set _ _ _ (State.wf_takeLine t _ h)
  | host | control | package | hole => exact h

/-- A byte that is written is read. -/
theorem State.readByte_writeByte_self (t : Tag) (b : Byte) (h : Memory.wf s.mem.cells = true)
    (hp : (place pa).stores) : (s.writeByte t pa b).readByte t pa = b := by
  by_cases he : (place pa).isExternal = true
  · obtain ⟨hcells, -, hgranule⟩ := s.writeByte_external t b he
    rw [State.readByte_external _ _ he, hcells, hgranule, if_pos (s.granule_firstWrite_self _),
      Cells.get_set_self pa b (State.wf_firstWrite _ h)]
  · by_cases hc : (place pa).isOnChip = true
    · obtain ⟨hcells, htags, -⟩ := s.writeByte_onChip t b hc
      rw [State.readByte_onChip _ _ hc, hcells, htags, State.tags_takeLine, if_pos rfl, if_pos rfl,
        Cells.get_set_self pa b (State.wf_takeLine t _ h)]
    · obtain ⟨x, hx⟩ := Place.host_of_stores hp (Bool.eq_false_iff.2 he) (Bool.eq_false_iff.2 hc)
      simp [State.readByte, State.writeByte, hx, SMap.find_put_self]

/-- What an agent reads in external memory after a write elsewhere. -/
theorem State.readByte_writeByte_external (s : State) (t v : Tag) (b : Byte) (hne : a ≠ pa)
    (ha : (place a).isExternal = true) : (s.writeByte t pa b).readByte v a = s.readByte v a := by
  rw [State.readByte_external _ _ ha, State.readByte_external _ _ ha]
  by_cases he : (place pa).isExternal = true
  · obtain ⟨hcells, -, hgranule⟩ := s.writeByte_external t b he
    rw [hcells, hgranule, Cells.get_set_other _ _ hne, State.get_firstWrite]
    by_cases hg : a / granuleSize = pa / granuleSize
    · rw [hg, if_pos (s.granule_firstWrite_self _)]
      simp
    · rw [s.granule_firstWrite_other hg, if_pos (Or.inr hg : _ ∨ a / granuleSize ≠ pa / granuleSize)]
  · by_cases hc : (place pa).isOnChip = true
    · obtain ⟨hcells, -, hgranule⟩ := s.writeByte_onChip t b hc
      rw [hcells, hgranule, Cells.get_set_other _ _ hne, State.get_takeLine,
        if_pos (Or.inr (line_ne ha hc) : _ ∨ a / 256 ≠ pa / 256)]
    · obtain ⟨hcells, -, hgranule⟩ := s.writeByte_elsewhere t b (Bool.eq_false_iff.2 he) (Bool.eq_false_iff.2 hc)
      rw [hcells, hgranule]

/-- What an agent reads on chip after a write elsewhere; another agent, in a line that the write takes over, may lose
what it had. -/
theorem State.readByte_writeByte_onChip (s : State) (t v : Tag) (b : Byte) (hne : a ≠ pa)
    (ha : (place a).isOnChip = true) (hv : v = t ∨ a / 256 ≠ pa / 256) :
    (s.writeByte t pa b).readByte v a = s.readByte v a := by
  rw [State.readByte_onChip _ _ ha, State.readByte_onChip _ _ ha]
  by_cases hc : (place pa).isOnChip = true
  · obtain ⟨hcells, htags, -⟩ := s.writeByte_onChip t b hc
    rw [hcells, htags, State.tags_takeLine, Cells.get_set_other _ _ hne, State.get_takeLine]
    by_cases hl : a / 256 = pa / 256
    · obtain rfl : v = t := hv.resolve_right (not_not.2 hl)
      rw [hl, if_pos rfl, if_pos rfl]
      simp
    · rw [if_neg hl, if_pos (Or.inr hl : _ ∨ a / 256 ≠ pa / 256)]
  · by_cases he : (place pa).isExternal = true
    · obtain ⟨hcells, htags, -⟩ := s.writeByte_external t b he
      rw [hcells, htags, Cells.get_set_other _ _ hne, State.get_firstWrite,
        if_pos (Or.inr (granule_ne he ha).symm : _ ∨ a / granuleSize ≠ pa / granuleSize)]
    · obtain ⟨hcells, htags, -⟩ := s.writeByte_elsewhere t b (Bool.eq_false_iff.2 he) (Bool.eq_false_iff.2 hc)
      rw [hcells, htags]

theorem place_host {x : Nat} (h : place a = .host x) : a = hostBase + x := by
  unfold place at h
  split_ifs at h with h1 h2 h3 h4 h5
  · dsimp only at h
    split_ifs at h
  · rw [← Place.host.inj h, Nat.add_sub_cancel' h5.1]

theorem State.readByte_writeByte_other (s : State) (t v : Tag) (b : Byte) (hne : a ≠ pa)
    (hv : v = t ∨ a / 256 ≠ pa / 256 ∨ (place a).isOnChip = false) :
    (s.writeByte t pa b).readByte v a = s.readByte v a := by
  by_cases he : (place a).isExternal = true
  · exact s.readByte_writeByte_external t v b hne he
  · by_cases hc : (place a).isOnChip = true
    · exact s.readByte_writeByte_onChip t v b hne hc
        (hv.imp_right fun h => h.resolve_right (Bool.not_eq_false _ ▸ hc))
    · refine State.readByte_elsewhere v (Bool.eq_false_iff.2 he) (Bool.eq_false_iff.2 hc) (fun x hx => ?_)
        (s.freeCtr_writeByte t pa b)
      exact s.host_writeByte t b fun h => hne ((place_host hx).trans (place_host h).symm)

/-! ### A run of bytes -/

theorem State.readByte_writeBytes_other (s : State) (t v : Tag) (pa : Nat) (l : List Byte)
    (hne : a < pa ∨ pa + l.length ≤ a)
    (hv : v = t ∨ (∀ x, pa ≤ x → x < pa + l.length → a / 256 ≠ x / 256) ∨ (place a).isOnChip = false) :
    (s.writeBytes t pa l).readByte v a = s.readByte v a := by
  induction l generalizing s pa with
  | nil => rfl
  | cons b l ih =>
    rw [List.length_cons] at hne hv
    rw [State.writeBytes, ih _ _ (by omega), State.readByte_writeByte_other _ _ _ _ (by omega)]
    · exact hv.imp_right (Or.imp_left fun h => h pa (by omega) (by omega))
    · exact hv.imp_right (Or.imp_left fun h x h1 h2 => h x (by omega) (by omega))

theorem State.readByte_writeBytes (s : State) (t : Tag) (pa : Nat) (l : List Byte)
    (h : Memory.wf s.mem.cells = true) (hp : ∀ x, pa ≤ x → x < pa + l.length → (place x).stores) {i : Nat}
    (hi : i < l.length) : (s.writeBytes t pa l).readByte t (pa + i) = l.getD i 0 := by
  induction l generalizing s pa i with
  | nil => exact absurd hi (Nat.not_lt_zero i)
  | cons b l ih =>
    rw [List.length_cons] at hp hi
    rw [State.writeBytes]
    cases i with
    | zero =>
      rw [State.readByte_writeBytes_other _ _ _ _ _ (by omega) (.inl rfl)]
      exact State.readByte_writeByte_self t b h (hp _ (by omega) (by omega))
    | succ i =>
      rw [show pa + (i + 1) = pa + 1 + i by omega, ih _ _ (s.wf_writeByte t pa b h)
        (fun x h1 h2 => hp x (by omega) (by omega)) (by omega)]
      rfl

theorem State.recall_frame (s : State) (pa n : Nat) : (s.recall pa n).mem.cells = s.mem.cells ∧
    (s.recall pa n).mem.tags = s.mem.tags ∧ (s.recall pa n).mem.granules = s.mem.granules ∧
    (s.recall pa n).mem.host = s.mem.host ∧ (s.recall pa n).freeCtr = s.freeCtr := by
  unfold State.recall
  dsimp only
  split <;> exact ⟨rfl, rfl, rfl, rfl, rfl⟩

/-- Snoops change no byte of device memory. -/
theorem State.readByte_recall (s : State) (v : Tag) (pa n a : Nat) : (s.recall pa n).readByte v a = s.readByte v a := by
  obtain ⟨hcells, htags, hgranules, hhost, hfree⟩ := s.recall_frame pa n
  simp only [State.readByte, State.granule, hcells, htags, hgranules, hhost, hfree]
  rfl

theorem isOnChip_outside (h : a < sramBase ∨ packageBase ≤ a) : (place a).isOnChip = false := by
  refine Bool.eq_false_iff.2 fun hc => ?_
  have h2 := place_onChip hc
  unfold sramBase packageBase at *
  omega

end

/-- Settles O15. -/
theorem storeResults : Obligations.StoreResults := by
  unfold Obligations.StoreResults
  refine ⟨fun s c u o h hu => ⟨fun hf => ⟨fun n ps hn ha hr => runs_st h hu hf hn ha hr,
      fun ps ht hd ha hr => runs_vstx h hu hf ht hd ha hr⟩,
      fun hf hp ht ha ps hr => runs_vst h hu hf hp ht ha rfl rfl hr⟩,
    fun s t p l hwf hlen hplace => ?bytes⟩
  obtain ⟨hcanon, -⟩ := hwf
  have hu : s.writePieces t [p] l = (s.recall p.pa p.len).writeBytes t p.pa l := by
    rw [State.writePieces, State.writePieces, List.take_of_length_le hlen.le]
  obtain ⟨hcells, -⟩ := s.recall_frame p.pa l.length
  rw [← hlen] at hplace
  dsimp only
  rw [hu, ← hlen]
  refine ⟨fun i hi => ?_, fun a ha => ?_, fun v a ha hv => ?_⟩
  · exact State.readByte_writeBytes _ t p.pa l (hcells ▸ hcanon) hplace hi
  · rw [State.readByte_writeBytes_other _ _ _ _ _ ha (.inl rfl), State.readByte_recall]
  · rw [State.readByte_writeBytes_other _ _ _ _ _ ha (.inr (hv.imp_right isOnChip_outside)), State.readByte_recall]

end Sys2Proof.Machine

end

section

/-! PROOFS. Atomics, gathers and scatters (R117, R118). -/

namespace Sys2Proof.Machine

/-! ## Atomics (R118) -/

section
variable {s : State} {c : Nat} {u : Upset} {i : Instr} {o : MOp} {n : Nat} {p : Piece} {ps : List Piece}
  {cas : Bool} {f : Nat → Nat → Nat → Nat → Option Nat}

/-- The effect of an atomic whose operand is translated. -/
def atomicEff (f : Nat → Nat → Nat → Nat → Option Nat) (n : Nat) (o : MOp) (s : State) (c : Nat) (k : Cell) (p : Piece)
    (ps : List Piece) : Eff :=
  match place p.pa with
  | .host _ => .exc cRefused (k.address o)
  | _ =>
    if s.feedPending p || (o.rel && k.async.any fun a => a.gather) then .stall s
    else
      let old := leNat (s.readPieces (s.cellTag k) (p :: ps))
      let m := 2 ^ (8 * n)
      let new := f n old ((k.rs o.d).toNat % m) ((k.rs o.xi).toNat % m)
      let s1 := match new with
        | some v => s.writePieces (s.cellTag k) (p :: ps) (leBytes n v)
        | none => s.recallPieces (p :: ps)
      .next (s1.setCell c (k.ws o.d (BitVec.ofInt 64 (signed (8 * n) old))).adv)
        (ev 0x46 1 :: s.accessEvents c true (p :: ps)) (p :: ps) (p :: ps)

theorem issues_atomic (hi : exec i s = atomic cas f c o u s) (hn : scalarSize o.et = some n) (h4 : 4 ≤ n)
    (hf : plainFields false true cas o = true) (ha : ((s.cell c).address o).toNat % n = 0)
    (hr : s.memRange (s.cell c) .store ((s.cell c).address o).toNat n = .ok (p :: ps)) :
    Issues i s c u (atomicEff f n o s c (s.cell c) p ps) := by
  have hi := Issues.of_issue hi rfl
  simp only [hn, hf, decide_eq_true h4, Bool.and_self, Eff.legal_true, aligned_of ha, withPieces_ok hr] at hi
  exact hi

theorem atomicEff_host (h : ∃ x, place p.pa = .host x) {k : Cell} :
    atomicEff f n o s c k p ps = .exc cRefused (k.address o) := by
  obtain ⟨x, hx⟩ := h
  rw [atomicEff, hx]

theorem atomicEff_device {k : Cell} (hp : ∀ x, place p.pa ≠ .host x) (hfeed : s.feedPending p = false)
    (hrel : o.rel = true → ∀ a ∈ k.async, a.gather = false) {old : Nat}
    (hold : leNat (s.readPieces (s.cellTag k) (p :: ps)) = old) :
    atomicEff f n o s c k p ps = .next
      ((match f n old ((k.rs o.d).toNat % 2 ^ (8 * n)) ((k.rs o.xi).toNat % 2 ^ (8 * n)) with
        | some v => s.writePieces (s.cellTag k) (p :: ps) (leBytes n v)
        | none => s.recallPieces (p :: ps)).setCell c (k.ws o.d (BitVec.ofInt 64 (signed (8 * n) old))).adv)
      (ev 0x46 1 :: s.accessEvents c true (p :: ps)) (p :: ps) (p :: ps) := by
  have hwait : (s.feedPending p || (o.rel && k.async.any fun a => a.gather)) = false := by
    rw [hfeed, Bool.false_or, Bool.and_eq_false_imp, List.any_eq_false]
    exact fun hr a ha => by simp [hrel hr a ha]
  subst hold
  unfold atomicEff
  cases hx : place p.pa with
  | host x => exact absurd hx (hp x)
  | hbm | ddr | shared | control | local_ | package | hole => simp only [hwait, Bool.false_eq_true, if_false]

theorem Stores.of_atomic (hi : Issues i s c u (atomicEff f n o s c (s.cell c) p ps)) (h : s.Ready c) (hu : Unhurt u)
    (hp : ∀ x, place p.pa ≠ .host x) (hfeed : s.feedPending p = false)
    (hrel : o.rel = true → ∀ a ∈ (s.cell c).async, a.gather = false) {old v : Nat}
    (hold : leNat (s.readPieces (s.cellTag (s.cell c)) (p :: ps)) = old)
    (hv : f n old (((s.cell c).rs o.d).toNat % 2 ^ (8 * n)) (((s.cell c).rs o.xi).toNat % 2 ^ (8 * n)) = some v) :
    Stores i s (s.writePieces (s.cellTag (s.cell c)) (p :: ps) (leBytes n v)) c
      ((s.cell c).ws o.d (BitVec.ofInt 64 (signed (8 * n) old))).adv := by
  have he := atomicEff_device (c := c) (f := f) (n := n) hp hfeed hrel hold
  rw [hv] at he
  exact .of_next hi h hu he fun d => congrArg Cell.arch (State.cell_congr (s.writePieces_cells _ _ _) d)

/-- An atomic that stores nothing. -/
theorem Stores.of_atomic_none (hi : Issues i s c u (atomicEff f n o s c (s.cell c) p ps)) (h : s.Ready c)
    (hu : Unhurt u) (hp : ∀ x, place p.pa ≠ .host x) (hfeed : s.feedPending p = false)
    (hrel : o.rel = true → ∀ a ∈ (s.cell c).async, a.gather = false) {old : Nat}
    (hold : leNat (s.readPieces (s.cellTag (s.cell c)) (p :: ps)) = old)
    (hv : f n old (((s.cell c).rs o.d).toNat % 2 ^ (8 * n)) (((s.cell c).rs o.xi).toNat % 2 ^ (8 * n)) = none) :
    Stores i s s c ((s.cell c).ws o.d (BitVec.ofInt 64 (signed (8 * n) old))).adv := by
  have he := atomicEff_device (c := c) (f := f) (n := n) hp hfeed hrel hold
  rw [hv] at he
  have ha := s.recallPieces_alike (p :: ps)
  obtain ⟨t, ht, hc, hother, hrest⟩ := Stores.of_next hi h hu he ha.1
  exact ⟨t, ht, hc, hother, hrest.trans ha.2⟩

end

/-- Settles O16. -/
theorem atomicResults : Obligations.AtomicResults := by
  unfold Obligations.AtomicResults
  intro s c u o n p ps h hu k va hn h4 ha hr old a m x k' stores
  refine ⟨fun hf hp hfeed hrel => ?device, fun hf hp hfeed hrel => ⟨fun heq => ?equal, fun hne => ?unequal⟩,
    fun hf hp => ⟨?amoadd, ?amoswap⟩⟩
  case device =>
    have hplain : plainFields false true false o = true := plainFields_of (by simpa using hf)
    have device {i : Instr} {f : Nat → Nat → Nat → Nat → Option Nat} {v : Nat}
        (hi : exec i s = atomic false f c o u s) (hv : f n old m x = some v) : stores i v :=
      .of_atomic (issues_atomic hi hn h4 hplain ha hr) h hu hp hfeed hrel rfl hv
    exact ⟨device (f := fun n a b _ => some ((a + b) % 2 ^ (8 * n))) rfl rfl,
      device (f := fun _ _ b _ => some b) rfl rfl,
      device (f := fun n a b _ => some (if signed (8 * n) a ≤ signed (8 * n) b then a else b)) rfl rfl,
      device (f := fun n a b _ => some (if signed (8 * n) b ≤ signed (8 * n) a then a else b)) rfl rfl,
      device (f := fun _ a b _ => some (a &&& b)) rfl rfl, device (f := fun _ a b _ => some (a ||| b)) rfl rfl⟩
  case equal =>
    have hplain : plainFields false true true o = true := plainFields_of (by simpa using hf)
    exact .of_atomic (issues_atomic (f := fun _ a b x => if a = b then some x else none) rfl hn h4 hplain ha hr) h hu hp
      hfeed hrel rfl (if_pos heq)
  case unequal =>
    have hplain : plainFields false true true o = true := plainFields_of (by simpa using hf)
    exact .of_atomic_none (issues_atomic (f := fun _ a b x => if a = b then some x else none) rfl hn h4 hplain ha hr) h
      hu hp hfeed hrel rfl (if_neg hne)
  case amoadd =>
    have hplain : plainFields false true false o = true := plainFields_of (by simpa using hf)
    exact .of_exc (issues_atomic (f := fun n a b _ => some ((a + b) % 2 ^ (8 * n))) rfl hn h4 hplain ha hr) h hu
      (atomicEff_host hp)
  case amoswap =>
    have hplain : plainFields false true false o = true := plainFields_of (by simpa using hf)
    exact .of_exc (issues_atomic (f := fun _ _ b _ => some b) rfl hn h4 hplain ha hr) h hu (atomicEff_host hp)

/-! ## Gathers and scatters (R117) -/

section
variable {s : State} {c : Nat} {u : Upset} {o : MOp} {w : Nat} {ps : List Piece} {k : Cell}

theorem gatherFields_of (hm : o.am = 2) (hoff : o.off = 0) (hrel : o.rel = false) (hacq : o.acq = false) :
    gatherFields o = true := by
  simp [gatherFields, hm, hoff, hrel, hacq]

/-- Where every element is aligned, all of them are translated. -/
theorem State.gatherParts_aligned {acc : Acc} {as : List Nat} (h : ∀ a ∈ as, a % w = 0)
    (hr : s.memParts k acc (as.map fun a => (a, w)) = .ok ps) : s.gatherParts k acc w as = .ok ps := by
  have hall : ∀ a ∈ as, (a % w == 0) = true := fun a ha => beq_iff_eq.2 (h a ha)
  rw [State.gatherParts, List.takeWhile_eq_self_iff.2 hall, hr, List.dropWhile_eq_nil_iff.2 hall]

theorem packElems_congr (b : Nat) {f g : Nat → Nat} (n : Nat) (h : ∀ i, i < n → f i % 2 ^ b = g i % 2 ^ b) :
    packElems b f n = packElems b g n := by
  induction n with
  | zero => rfl
  | succ n ih => rw [packElems, packElems, ih fun i hi => h i (by omega), h n (by omega)]

theorem vecOf_congr (b : Nat) {f g : Nat → Nat} (h : ∀ i, i < 8192 / b → f i = g i) : vecOf b f = vecOf b g := by
  rw [vecOf, vecOf, packElems_congr b _ fun i hi => by rw [h i hi]]

/-- In a rising list, what is paired with a member stands as far on as the list holds smaller ones. -/
theorem zip_find_rising {α β : Type} {js : List Nat} (ps : List α) (f : α → β) (z : β) (h : js.Pairwise (· < ·))
    {j : Nat} (hj : j ∈ js) :
    ((js.zip ps).find? fun x => x.1 == j).elim z (fun x => f x.2) =
      (ps.map f).getD (js.takeWhile fun i => decide (i < j)).length z := by
  induction js generalizing ps with
  | nil => cases hj
  | cons x js ih =>
    obtain ⟨hx, hjs⟩ := List.pairwise_cons.1 h
    cases ps with
    | nil => simp
    | cons p ps =>
      by_cases hxj : x = j
      · subst hxj
        simp
      · have hmem : j ∈ js := (List.mem_cons.1 hj).resolve_left fun e => hxj e.symm
        have hlt : x < j := hx j hmem
        simpa [hlt, hxj] using ih ps hjs hmem

theorem runs_vgather {js : List Nat} {v : VReg} (h : s.Ready c) (hu : Unhurt u)
    (hp : (s.cell c).predBusy [o.pg] = false) (hw : gatherSize o.et = some w) (hf : gatherFields o = true)
    (hjs : guardedElems ((s.cell c).guard o.pg o.pn) w (1024 / w) = js)
    (hr : s.gatherParts (s.cell c) .load w (js.map ((s.cell c).gatherAddr o)) = .ok ps)
    (hv : vecWrite (8 * w) 0 (1024 / w) ((s.cell c).guard o.pg o.pn) false ((s.cell c).rv o.d)
      (fun j => (ps.map fun p => leNat (s.readBytes (s.cellTag (s.cell c)) p.pa p.len)).getD
        (js.takeWhile fun i => decide (i < j)).length 0) = v) :
    Runs (.vgather c o u) s c ((s.cell c).wv o.d v).adv := by
  subst hjs hv
  have hi := Issues.of_issueG (i := .vgather c o u) (u := u) (r := execVgather c o u s) hp rfl rfl
  simp only [hw, hf, Eff.legal_true] at hi
  exact .of_load hi h hu (withPieces_ok hr)

theorem runs_vscatter {js : List Nat} (h : s.Ready c) (hu : Unhurt u) (hp : (s.cell c).predBusy [o.pg] = false)
    (hw : gatherSize o.et = some w) (hf : gatherFields o = true)
    (hjs : guardedElems ((s.cell c).guard o.pg o.pn) w (1024 / w) = js)
    (hr : s.gatherParts (s.cell c) .store w (js.map ((s.cell c).gatherAddr o)) = .ok ps) :
    Stores (.vscatter c o u) s (s.writePieces (s.cellTag (s.cell c)) ps
      (js.flatMap fun j => leBytes w (vecElem (8 * w) ((s.cell c).rv o.d) j))) c (s.cell c).adv := by
  subst hjs
  have hi := Issues.of_issueG (i := .vscatter c o u) (u := u) (r := execVscatter c o u s) hp rfl rfl
  simp only [hw, hf, Eff.legal_true] at hi
  exact .of_store hi h hu (withPieces_ok hr)

/-- A whole register written under a guard. -/
theorem vecWrite_guarded (w : Nat) (g : PReg) (old : VReg) {val val' : Nat → Nat}
    (h : ∀ j, j < 1024 / w → g.getLsbD (w * j / 4) = true → val j = val' j) :
    vecWrite (8 * w) 0 (1024 / w) g false old val =
      vecOf (8 * w) fun j => if g.getLsbD (w * j / 4) then val' j else vecElem (8 * w) old j := by
  have hn : 8192 / (8 * w) = 1024 / w := by rw [← Nat.div_div_eq_div_mul]
  have hg (j : Nat) : guardOn g (8 * w) j = g.getLsbD (w * j / 4) := by
    rw [guardOn, Nat.mul_assoc, show 32 = 8 * 4 from rfl, Nat.mul_div_mul_left _ _ (by decide)]
  refine vecOf_congr _ fun j hj => ?_
  rw [if_pos ⟨Nat.zero_le j, by omega⟩, hg]
  split
  next hon => exact h j (by omega) hon
  next => rfl

end

/-- Settles O17. -/
theorem gatherAndScatter : Obligations.GatherAndScatter := by
  unfold Obligations.GatherAndScatter
  intro s c u o w ps h hu hp hw hm hoff hrel hacq k g js addr hal
  have hfields := gatherFields_of hm hoff hrel hacq
  have hjs : guardedElems g w (1024 / w) = js := guardedElems_eq g w _
  have parts {acc : Acc} (hr : s.memParts k acc (js.map fun j => (addr j, w)) = .ok ps) :
      s.gatherParts k acc w (js.map (k.gatherAddr o)) = .ok ps := by
    refine State.gatherParts_aligned (fun a ha => ?_) (by rw [List.map_map]; exact hr)
    obtain ⟨j, hj, rfl⟩ := List.mem_map.1 ha
    exact hal j hj
  refine ⟨fun hr => runs_vgather h hu hp hw hfields hjs (parts hr) ?_,
    fun hr => runs_vscatter h hu hp hw hfields hjs (parts hr)⟩
  refine vecWrite_guarded w g _ fun j hj hon => ?_
  have hmem : j ∈ js := List.mem_filter.2 ⟨List.mem_range.2 hj, hon⟩
  exact (zip_find_rising ps (fun p => leNat (s.readBytes (s.cellTag k) p.pa p.len)) 0
    (List.pairwise_lt_range.filter _) hmem).symm

end Sys2Proof.Machine

end

section

/-! PROOFS. Issue of asynchronous work, waits and fences (R119, R124 to R131). -/

namespace Sys2Proof.Machine

/-! ## Issue of asynchronous work, waits and fences (R119, R124 to R131) -/

section
variable {s : State} {c : Nat} {u : Upset} {i : Instr} {e : Eff}

/-- A cell with one operation more outstanding. -/
def Cell.starts (k : Cell) (a : Async) : Cell := { k with asyncNext := k.asyncNext + 1, async := k.async ++ [a] }

/-- The operation that a `VGATHERP` starts with the descriptor `l` (R119). -/
def gatherpAsync (k : Cell) (o : GatherpOp) (l : List Byte) : Async :=
  { id := k.asyncNext, gather := true, dst := k.rs o.a, src := k.rs o.c
    len := gatherDesc l 0x14 2 * gatherDesc l 0x0A 2, sig := none,
    l1 := BitVec.ofNat 64 (gatherDesc l 0 8), pgsz := gatherDesc l 0x08 1,
    panel := gatherDesc l 0x09 1, row := gatherDesc l 0x0A 2,
    stride := gatherDesc l 0x0C 4, offset := gatherDesc l 0x10 4, lanes := gatherDesc l 0x14 2,
    tier := gatherDesc l 0x16 1 == 1, idx := k.rv o.b,
    guardMask := k.guard o.pg o.pn, pd := o.pd, sup := k.sup }

theorem withPieces_fault {r : MemRes} {cause : BitVec 8} {va : Nat} {f : List Piece → Eff} (h : r = .fault cause va) :
    withPieces s r f = .exc cause (BitVec.ofNat 64 va) := by
  rw [h]
  rfl

theorem runs_vgatherp {o : GatherpOp} {dp wp : List Piece} (h : s.Ready c) (hu : Unhurt u)
    (hp : (s.cell c).predBusy [o.pg, o.pd] = false) (hn : (s.cell c).inFlight true < 4)
    (hal : ((s.cell c).rs o.c).toNat % 8 = 0)
    (hd : s.memRange (s.cell c) .load ((s.cell c).rs o.c).toNat 64 = .ok dp) {l : List Byte}
    (hl : s.readPieces (s.cellTag (s.cell c)) dp = l) (hok : gatherDescOk l = true)
    (hown : s.ownLocal c (s.cell c)
      (pageParts ((s.cell c).rs o.a).toNat (gatherDesc l 0x14 2 * gatherDesc l 0x0A 2)) = true)
    (hw : s.memParts (s.cell c) .store
      (pageParts ((s.cell c).rs o.a).toNat (gatherDesc l 0x14 2 * gatherDesc l 0x0A 2)) = .ok wp) :
    Runs (.vgatherp c o u) s c ((s.cell c).starts (gatherpAsync (s.cell c) o l)).adv := by
  subst hl
  have hi := Issues.of_issueG (i := .vgatherp c o u) (u := u) (r := execVgatherp c o u s) hp rfl rfl
  simp only [if_neg (Nat.not_le.2 hn), withPieces_ok hd, hal, hok, hown, withPieces_ok hw, ne_eq, not_true_eq_false,
    decide_false, Bool.not_true, Bool.or_self, Bool.false_eq_true, if_false] at hi
  have hs : ({ s with freeCtr := s.freeCtr + 1 } : State).Alike s := ⟨fun _ => rfl, rfl⟩
  exact Answers.of_next_effect hi h hu rfl fun t ha =>
    ((CellOnly.setCell _ c _).after_alike ((State.recallPieces_alike _ dp).trans hs)).alike ha

theorem raises_vgatherp_descriptor {o : GatherpOp} (h : s.Ready c) (hu : Unhurt u)
    (hp : (s.cell c).predBusy [o.pg, o.pd] = false) (hn : (s.cell c).inFlight true < 4) {cause : BitVec 8} {va : Nat}
    (hd : s.memRange (s.cell c) .load ((s.cell c).rs o.c).toNat 64 = .fault cause va) :
    Raises (.vgatherp c o u) s c cause (BitVec.ofNat 64 va) :=
  .of_exc (.of_issueG (r := execVgatherp c o u s) hp rfl rfl) h hu
    ((if_neg (Nat.not_le.2 hn)).trans (withPieces_fault hd))

theorem raises_vgatherp_alignment {o : GatherpOp} (h : s.Ready c) (hu : Unhurt u)
    (hp : (s.cell c).predBusy [o.pg, o.pd] = false) (hn : (s.cell c).inFlight true < 4) {dp : List Piece}
    (hd : s.memRange (s.cell c) .load ((s.cell c).rs o.c).toNat 64 = .ok dp)
    (hal : ((s.cell c).rs o.c).toNat % 8 ≠ 0) : Raises (.vgatherp c o u) s c cBadOperand ((s.cell c).rs o.c) :=
  .of_exc (.of_issueG (r := execVgatherp c o u s) hp rfl rfl) h hu
    ((if_neg (Nat.not_le.2 hn)).trans ((withPieces_ok hd).trans (if_pos (by simp [hal]))))

/-- The fields of `MCOPY` without a signal (R125). -/
theorem mcopyFields_of {o : McopyOp} (h : o.sig = false → o.sw = 0 ∧ o.bit = 0) :
    (o.sig || (o.sw == 0 && o.bit == 0)) = true := by
  cases hs : o.sig with
  | true => rfl
  | false => simp [h hs]

/-- The operation that an `MCOPY` starts (R125). -/
def mcopyAsync (s : State) (c : Nat) (k : Cell) (o : McopyOp) : Async :=
  { id := k.asyncNext, gather := false, dst := k.rs o.a, src := k.rs o.b, len := (k.rs o.c).toNat,
    sig := if o.sig then (s.signalWord c k .store (k.rs o.sw)).map fun pa => (pa, o.bit.toNat) else none,
    l1 := 0, pgsz := 0, panel := 0, row := 0, stride := 0, offset := 0, lanes := 0,
    tier := false, idx := 0, guardMask := 0, pd := 0, sup := k.sup }

theorem runs_mcopy {o : McopyOp} (h : s.Ready c) (hu : Unhurt u) (hf : o.sig = false → o.sw = 0 ∧ o.bit = 0)
    (hmax : ((s.cell c).rs o.c).toNat ≤ 2 ^ 30) (hne : ((s.cell c).rs o.c).toNat ≠ 0)
    (ha : ((s.cell c).rs o.a).toNat % 4 = 0) (hb : ((s.cell c).rs o.b).toNat % 4 = 0)
    (hl : ((s.cell c).rs o.c).toNat % 4 = 0) (hn : (s.cell c).inFlight false < 8)
    (hw : o.sig = true → (s.signalWord c (s.cell c) .store ((s.cell c).rs o.sw)).isSome = true) :
    Runs (.mcopy c o u) s c ((s.cell c).starts (mcopyAsync s c (s.cell c) o)).adv := by
  have hword : ¬ (o.sig && (s.signalWord c (s.cell c) .store ((s.cell c).rs o.sw)).isNone) = true := by
    rw [Bool.and_eq_true, Option.isNone_iff_eq_none, ← Option.not_isSome_iff_eq_none]
    exact fun hx => hx.2 (hw hx.1)
  have hi := Issues.of_issue (i := .mcopy c o u) (s := s) (r := execMcopy c o u s) rfl rfl
  simp only [mcopyFields_of hf, Eff.legal_true, if_neg (Nat.not_lt.2 hmax), if_neg hword, ha, hb, hl, ne_eq,
    not_true_eq_false, or_self, if_false, if_neg (Nat.not_le.2 hn), if_neg hne] at hi
  exact .of_cell hi h hu rfl

theorem raises_mcopy_length {o : McopyOp} (h : s.Ready c) (hu : Unhurt u) (hf : o.sig = false → o.sw = 0 ∧ o.bit = 0)
    (hmax : 2 ^ 30 < ((s.cell c).rs o.c).toNat) : Raises (.mcopy c o u) s c cBadOperand 0 :=
  .of_exc (.of_issue (r := execMcopy c o u s) rfl rfl) h hu ((Eff.legal_of (mcopyFields_of hf)).trans (if_pos hmax))

theorem stores_waitsig {o : WaitsigOp} {pa : Nat} (h : s.Ready c) (hu : Unhurt u)
    (hp : (s.cell c).predBusy [o.pd] = false) (hw : s.waitWord c (s.cell c) o = some pa) {mask w : Nat}
    (hmask : ((s.cell c).rs o.c).toNat = mask) (hword : s.readNat (s.cellTag (s.cell c)) pa 8 = w) (hne : mask ≠ 0)
    (hdone : if o.any then w &&& mask ≠ 0 else w &&& mask = mask) :
    Stores (.waitsig c o u) s
      (if o.clr then s.writeBytes (s.cellTag (s.cell c)) pa (leBytes 8 (w &&& (2 ^ 64 - 1 - mask))) else s) c
      (((s.cell c).ws o.a (BitVec.ofNat 64 w)).wp o.pd (BitVec.allOnes 256)).adv := by
  have hok : waitDone o.any mask w = true := by
    unfold waitDone
    split at hdone
    next ha => rw [if_pos ha, bne_iff_ne]; exact hdone
    next ha => rw [if_neg ha, beq_iff_eq]; exact hdone
  have hi := Issues.of_issueP (i := .waitsig c o u) (u := u) (r := execWaitsig c o u s) hp rfl rfl
  simp only [hw, hmask, if_neg hne, hword, hok, if_true] at hi
  refine .of_next hi h hu rfl fun d => ?_
  split
  · exact congrArg Cell.arch (State.cell_congr (s.writeBytes_cells ..) d)
  · rfl

theorem runs_fence {o : FenceOp} (h : s.Ready c) (hu : Unhurt u) (hpred : o.pr = true ∨ o.pw = true)
    (hsucc : o.sr = true ∨ o.sw = true) (hall : o.async = true → (s.cell c).async = [])
    (hreads : o.pr = true → ∀ a ∈ (s.cell c).async, a.gather = false) : Runs (.fence c o u) s c (s.cell c).adv := by
  have hf : ((o.pr || o.pw) && (o.sr || o.sw)) = true := by simp [hpred, hsucc]
  have hfree : ((s.cell c).async.any fun a => o.async || (o.pr && a.gather)) = false := by
    rw [List.any_eq_false]
    intro a ha hx
    rcases Bool.or_eq_true_iff.1 hx with hasync | hpr
    · rw [hall hasync] at ha
      cases ha
    · obtain ⟨hpr, hg⟩ := Bool.and_eq_true_iff.1 hpr
      rw [hreads hpr a ha] at hg
      cases hg
  exact .of_cell (.of_issue (r := execFence c o u s) rfl rfl) h hu
    ((Eff.legal_of hf).trans (if_neg (Bool.eq_false_iff.1 hfree)))

end

end Sys2Proof.Machine

end

section

/-! PROOFS. What a gather finds, and work that leaves the cells (R120 to R125). -/

namespace Sys2Proof.Machine

/-! ## Work that leaves the cells (R120 to R125, R193) -/

section
variable {s : State} {c : Nat} {k : Cell}

theorem State.recallPieces_cells (s : State) (ps : List Piece) : (s.recallPieces ps).cells = s.cells :=
  foldl_keeps State.cells (fun t (p : Piece) => t.recall p.pa p.len) (fun _ _ => State.recall_cells ..) ps s

theorem State.recallEntries_cells (s : State) (l : List Nat) : (s.recallEntries l).cells = s.cells :=
  foldl_keeps State.cells _ (fun t x => t.recall_cells x 8) l s

theorem State.asyncSnoop_cells (s : State) (c : Nat) (ps : List Piece) : (s.asyncSnoop c ps).cells = s.cells := by
  rw [State.asyncSnoop, State.recallPieces_cells, State.recallEntries_cells]

theorem State.gatherStore_cells (s : State) (k : Cell) (a : Async) (i : Nat) (row : List Byte) :
    (s.gatherStore k a i row).cells = s.cells :=
  foldl_keeps State.cells _ (fun t _ => t.writePieces_cells _ _ _) _ s

theorem State.vsnoop_cells (s : State) (p q va n : Nat) : (s.vsnoop p q va n).cells = s.cells := by
  rw [State.vsnoop, State.recallPieces_cells, State.recallEntries_cells]

theorem State.vwrite_cells {s t : State} {p q va : Nat} {l : List Byte} (h : s.vwrite p q va l = some t) :
    t.cells = s.cells := by
  unfold State.vwrite at h
  split at h
  · rw [← Option.some.inj h, State.writePieces_cells, State.vsnoop_cells]
  · cases h

theorem State.cells_getD {t : State} {o : Option State} (ht : t.cells = s.cells)
    (ho : ∀ u, o = some u → u.cells = t.cells) : (o.getD t).cells = s.cells := by
  cases o with
  | none => exact ht
  | some u => exact (ho u rfl).trans ht

theorem State.dropHint_cells (s : State) (p q : Nat) : (s.dropHint p q).cells = s.cells := by
  rw [State.dropHint]
  have h1 := s.vsnoop_cells p q ((s.ctx p q).tierCb.toNat + 0x2C) 4
  generalize (s.ctx p q).tierCb.toNat + 0x2C = va at h1 ⊢
  generalize s.vsnoop p q va 4 = s1 at h1 ⊢
  cases s1.vread p q va 4 with
  | none => exact h1
  | some l => exact State.cells_getD h1 fun _ => State.vwrite_cells

theorem State.postHint_cells (s : State) (g : Nat) (h : Hint) : (s.postHint g h).cells = s.cells := by
  unfold State.postHint
  split
  · rfl
  · dsimp only
    split
    · exact s.dropHint_cells ..
    · rfl

/-! ### Operations that are outstanding no longer (R131, R138) -/

theorem Cell.dropAsync_async (k : Cell) (id : Nat) : (k.dropAsync id).async = k.async.filter fun a => a.id != id := by
  unfold Cell.dropAsync
  dsimp only
  split
  next h _ => exact h.symm
  next => rfl

theorem Cell.dropAsync_keeps (k : Cell) (id : Nat) : (k.dropAsync id).x = k.x ∧ (k.dropAsync id).v = k.v ∧
    (k.dropAsync id).p = k.p ∧ (k.dropAsync id).pc = k.pc := by
  unfold Cell.dropAsync
  dsimp only
  split <;> exact ⟨rfl, rfl, rfl, rfl⟩

theorem Cell.dropAsync_faults (id : Nat) (h : k.ending = none) : (k.dropAsync id).faults = k.faults := by
  unfold Cell.dropAsync
  rw [h]
  cases k.async.filter fun a => a.id != id <;> rfl

theorem Cell.pushFault_faults (gather : Bool) (cause : BitVec 8) (va : Nat) (h : k.ending = none) :
    (k.pushFault gather cause va).faults = k.faults ++ [{ gather, cause, addr := BitVec.ofNat 64 va }] := by
  rw [Cell.pushFault, h]
  rfl

theorem Cell.pushFault_keeps (k : Cell) (gather : Bool) (cause : BitVec 8) (va : Nat) :
    (k.pushFault gather cause va).x = k.x ∧ (k.pushFault gather cause va).v = k.v ∧
    (k.pushFault gather cause va).p = k.p ∧ (k.pushFault gather cause va).pc = k.pc ∧
    (k.pushFault gather cause va).async = k.async ∧ (k.pushFault gather cause va).ending = k.ending := by
  unfold Cell.pushFault
  split <;> exact ⟨rfl, rfl, rfl, rfl, rfl, rfl⟩

theorem Cell.p_wp {r : BitVec 4} (k : Cell) (w : PReg) (h : r ≠ 0) : (k.wp r w).p[r.toNat] = w := by
  have hr := k.rp_wp_self r w h
  rwa [Cell.rp, if_neg h] at hr

theorem State.asyncOf_some {id : Nat} {gather : Bool} {a : Async} (h : s.asyncOf c id gather = some a) :
    a.id = id ∧ a.gather = gather := by
  unfold State.asyncOf at h
  dsimp only at h
  split at h
  · simpa using List.find?_some h
  · cases h

/-- The registers of a cell after an operation of it is done and what follows is counted. -/
theorem State.putEnd_count_arch (s : State) (c : Nat) (k : Cell) (b mk cl priv cls : Nat) (es : List Ev) :
    (((s.putEnd c k).count b mk cl priv cls es).cell c).arch = k.arch :=
  ((State.count_alike _ b mk cl priv cls es).1 c).trans (s.putEnd_cellOnly c k).1

end

/-! ## Completion of a gather (R120 to R124) -/

section
variable {s : State} {c id : Nat} {a : Async} {k : Cell}

def LaneRes.isFault : LaneRes → Bool
  | .fault _ _ => true
  | _ => false

/-- What the 256 lanes of a gather find. -/
def State.gatherLanes (s : State) (k : Cell) (a : Async) : List LaneRes := (List.range 256).map (s.gatherLane k a)

/-- A gather that no wait holds back. -/
def State.gatherFree (s : State) (k : Cell) (a : Async) : Prop :=
  (s.gatherReads k a).any s.feedPending = false ∧
    s.gatherHolds k (fun b => decide (b.id < a.id)) false (s.gatherReads k a) = false

theorem exec_vgatherpComplete_waits (ha : s.asyncOf c id true = some a) (h : ¬ s.gatherFree (s.cell c) a) :
    exec (.vgatherpComplete c id .none_) s = .next s := by
  have hi : exec (.vgatherpComplete c id .none_) s = execVgatherpComplete c id .none_ s := rfl
  have hw : ((s.gatherReads (s.cell c) a).any s.feedPending ||
      s.gatherHolds (s.cell c) (fun b => decide (b.id < a.id)) false (s.gatherReads (s.cell c) a)) = true := by
    rw [← Bool.not_eq_false, Bool.or_eq_false_iff]
    exact h
  rw [hi]
  simp only [execVgatherpComplete, ReadErr.none_, State.meets, ha, hw, if_true]

theorem exec_vgatherpComplete_free (ha : s.asyncOf c id true = some a) (h : s.gatherFree (s.cell c) a) :
    exec (.vgatherpComplete c id .none_) s = .next
      (match (s.gatherLanes (s.cell c) a).find? LaneRes.isFault with
        | some (.fault cause va) => (s.asyncSnoop c (s.gatherReads (s.cell c) a)).gatherFault c a cause va
        | _ => (s.asyncSnoop c (s.gatherReads (s.cell c) a)).gatherDone c a (s.gatherLanes (s.cell c) a)) := by
  have hi : exec (.vgatherpComplete c id .none_) s = execVgatherpComplete c id .none_ s := rfl
  obtain ⟨hfeed, hhold⟩ := h
  rw [hi]
  simp only [execVgatherpComplete, ReadErr.none_, State.meets, ha, hfeed, hhold, Bool.or_self, Bool.false_eq_true,
    if_false, hitPiece, State.readCorrected]
  rfl

theorem gatherLane_guarded {i : Nat} (h : s.gatherLane k a i ≠ .skip) :
    i < a.lanes ∧ a.guardMask.getLsbD i = true := by
  by_contra hn
  refine h ?_
  unfold State.gatherLane State.laneRead
  dsimp only
  rw [if_pos]
  by_cases hl : i < a.lanes
  · exact .inr (.inl (by simpa using fun hg => hn ⟨hl, hg⟩))
  · exact .inl (Nat.not_lt.1 hl)

theorem getLsbD_foldl_putBit (l : List Nat) (m : PReg) {i : Nat} (h : i < 256) :
    (l.foldl (fun m i => putBit m i true) m).getLsbD i = (m.getLsbD i || decide (i ∈ l)) := by
  induction l generalizing m with
  | nil => simp
  | cons j l ih =>
    have hj : (putBit m j true).getLsbD i = (m.getLsbD i || decide (i = j)) := by
      by_cases e : i = j
      · subst e
        simp [putBit, h]
      · simp [putBit, h, e]
        omega
    rw [List.foldl_cons, ih, hj, Bool.or_assoc, ← Bool.decide_or]
    simp only [List.mem_cons]

/-- The predicate that a gather writes (R122). -/
def gatherMask (rs : List LaneRes) : PReg :=
  ((List.range rs.length).filter fun i => rs.getD i .skip != .skip).foldl (fun m i => putBit m i true) 0

theorem getLsbD_gatherMask (s : State) (k : Cell) (a : Async) {i : Nat} (h : i < 256) :
    (gatherMask (s.gatherLanes k a)).getLsbD i = true ↔ s.gatherLane k a i ≠ .skip := by
  have hget : (s.gatherLanes k a).getD i .skip = s.gatherLane k a i := by
    simp [State.gatherLanes, h]
  have hlen : (s.gatherLanes k a).length = 256 := by simp [State.gatherLanes]
  have hzero : (0 : PReg).getLsbD i = false := BitVec.getLsbD_zero
  rw [gatherMask, getLsbD_foldl_putBit _ _ h, hzero, Bool.false_or, decide_eq_true_iff, List.mem_filter,
    hget, List.mem_range, hlen, bne_iff_ne]
  exact and_iff_right h

theorem State.gatherDone_arch (s : State) (c : Nat) (a : Async) (rs : List LaneRes) :
    ((s.gatherDone c a rs).cell c).arch = (((s.cell c).wp a.pd (gatherMask rs)).dropAsync a.id).arch := by
  unfold State.gatherDone
  dsimp only
  rw [State.putEnd_count_arch]
  refine congrArg (fun k : Cell => ((k.wp a.pd (gatherMask rs)).dropAsync a.id).arch) (State.cell_congr ?_ c)
  refine (foldl_keeps State.cells _ (fun t h => t.postHint_cells ..) _ _).trans
    (foldl_keeps State.cells _ (fun t i => ?_) _ _)
  split
  · exact t.gatherStore_cells ..
  · rfl

theorem State.gatherFault_arch (s : State) (c : Nat) (a : Async) (cause : BitVec 8) (va : Nat) :
    ((s.gatherFault c a cause va).cell c).arch =
      ((((s.cell c).wp a.pd 0).pushFault true cause va).dropAsync a.id).arch :=
  (State.putEnd_cellOnly _ c _).1

end

end Sys2Proof.Machine

end

section

/-! PROOFS. Completion of a gather, and translated ranges (R120 to R125). -/

namespace Sys2Proof.Machine

section
variable {s : State} {c id : Nat} {a : Async} {k : Cell}

theorem LaneRes.isFault_iff {r : LaneRes} : r.isFault = true ↔ ∃ cause va, r = .fault cause va := by
  cases r <;> simp [LaneRes.isFault]

theorem gatherLanes_no_fault (h : ∀ i, i < 256 → ∀ cause va, s.gatherLane k a i ≠ .fault cause va) :
    (s.gatherLanes k a).find? LaneRes.isFault = none := by
  rw [List.find?_eq_none]
  intro r hr hf
  obtain ⟨i, hi, rfl⟩ := List.mem_map.1 hr
  obtain ⟨cause, va, he⟩ := LaneRes.isFault_iff.1 hf
  exact h i (List.mem_range.1 hi) cause va he

theorem gatherLanes_first_fault {i : Nat} {cause : BitVec 8} {va : Nat} (hi : i < 256)
    (h : s.gatherLane k a i = .fault cause va) (hfirst : ∀ j, j < i → ∀ x y, s.gatherLane k a j ≠ .fault x y) :
    (s.gatherLanes k a).find? LaneRes.isFault = some (.fault cause va) := by
  have hr : (List.range 256).find? (LaneRes.isFault ∘ s.gatherLane k a) = some i := by
    rw [List.find?_range_eq_some]
    refine ⟨LaneRes.isFault_iff.2 ⟨cause, va, h⟩, List.mem_range.2 hi, fun j hj => ?_⟩
    rw [Bool.not_eq_true', ← Bool.not_eq_true]
    rintro hf
    obtain ⟨x, y, he⟩ := LaneRes.isFault_iff.1 hf
    exact hfirst j hj x y he
  rw [State.gatherLanes, List.find?_map, hr, Option.map_some, h]

theorem gather_completes (ha : s.asyncOf c id true = some a) (hfree : s.gatherFree (s.cell c) a)
    (hlanes : ∀ i, i < 256 → ∀ cause va, s.gatherLane (s.cell c) a i ≠ .fault cause va) :
    Answers (.vgatherpComplete c id .none_) s fun t =>
      (∀ i, i < 256 → a.pd ≠ 0 → ((t.cell c).p[a.pd.toNat].getLsbD i = true ↔
        ∃ ps e v, s.gatherLane (s.cell c) a i = .row ps e v)) ∧
      (t.cell c).async = (s.cell c).async.filter (fun b => b.id != id) ∧ (t.cell c).x = (s.cell c).x ∧
      (t.cell c).v = (s.cell c).v ∧ (t.cell c).pc = (s.cell c).pc := by
  have hi : exec (.vgatherpComplete c id .none_) s = .next
      ((s.asyncSnoop c (s.gatherReads (s.cell c) a)).gatherDone c a (s.gatherLanes (s.cell c) a)) := by
    rw [exec_vgatherpComplete_free ha hfree, gatherLanes_no_fault hlanes]
  have harch := (s.asyncSnoop c (s.gatherReads (s.cell c) a)).gatherDone_arch c a (s.gatherLanes (s.cell c) a)
  rw [State.cell_congr (s.asyncSnoop_cells ..)] at harch
  obtain ⟨hid, -⟩ := State.asyncOf_some ha
  generalize (s.asyncSnoop c (s.gatherReads (s.cell c) a)).gatherDone c a (s.gatherLanes (s.cell c) a) = t at hi harch
  generalize hm : gatherMask (s.gatherLanes (s.cell c) a) = m at harch
  obtain ⟨hx, hv, hp, hpc⟩ := Cell.dropAsync_keeps ((s.cell c).wp a.pd m) a.id
  rw [Cell.wp_x] at hx
  rw [Cell.wp_v] at hv
  rw [Cell.wp_pc] at hpc
  refine ⟨_, hi, fun i hi256 hpd => ?_, ?_, (congrArg Cell.x harch).trans hx, (congrArg Cell.v harch).trans hv,
    (congrArg Cell.pc harch).trans hpc⟩
  · have hpreg := (congrArg (fun j : Cell => j.p[a.pd.toNat]) harch).trans
      ((congrArg (·[a.pd.toNat]) hp).trans ((s.cell c).p_wp m hpd))
    rw [← hm] at hpreg
    refine (iff_of_eq (congrArg (·.getLsbD i = true) hpreg)).trans ((getLsbD_gatherMask s _ a hi256).trans ?_)
    cases hl : s.gatherLane (s.cell c) a i with
    | skip => simp
    | row ps e v => simp
    | fault cause va => exact absurd hl (hlanes i hi256 cause va)
  · exact (congrArg Cell.async harch).trans ((Cell.dropAsync_async ..).trans (by rw [Cell.wp_async, hid]))

theorem gather_faults (ha : s.asyncOf c id true = some a) (hfree : s.gatherFree (s.cell c) a) {i : Nat}
    {cause : BitVec 8} {va : Nat} (hi : i < 256) (hl : s.gatherLane (s.cell c) a i = .fault cause va)
    (hfirst : ∀ j, j < i → ∀ x y, s.gatherLane (s.cell c) a j ≠ .fault x y) (he : (s.cell c).ending = none) :
    Answers (.vgatherpComplete c id .none_) s fun t =>
      (a.pd ≠ 0 → (t.cell c).p[a.pd.toNat] = 0) ∧
      (t.cell c).faults = (s.cell c).faults ++ [{ gather := true, cause, addr := BitVec.ofNat 64 va }] ∧
      (t.cell c).async = (s.cell c).async.filter (fun b => b.id != id) := by
  have hi : exec (.vgatherpComplete c id .none_) s = .next
      ((s.asyncSnoop c (s.gatherReads (s.cell c) a)).gatherFault c a cause va) := by
    rw [exec_vgatherpComplete_free ha hfree, gatherLanes_first_fault hi hl hfirst]
  have harch := (s.asyncSnoop c (s.gatherReads (s.cell c) a)).gatherFault_arch c a cause va
  rw [State.cell_congr (s.asyncSnoop_cells ..)] at harch
  obtain ⟨hid, -⟩ := State.asyncOf_some ha
  generalize (s.asyncSnoop c (s.gatherReads (s.cell c) a)).gatherFault c a cause va = t at hi harch
  have he' : ((s.cell c).wp a.pd 0).ending = none := (Cell.wp_ending ..).trans he
  obtain ⟨-, -, hp', -, hasync, hending⟩ := ((s.cell c).wp a.pd 0).pushFault_keeps true cause va
  obtain ⟨-, -, hp, -⟩ := (((s.cell c).wp a.pd 0).pushFault true cause va).dropAsync_keeps a.id
  refine ⟨_, hi, fun hpd => ?_,
    (congrArg Cell.faults harch).trans ((Cell.dropAsync_faults _ (hending.trans he')).trans ?_),
    (congrArg Cell.async harch).trans ((Cell.dropAsync_async ..).trans ?_)⟩
  · exact (congrArg (fun j : Cell => j.p[a.pd.toNat]) harch).trans
      ((congrArg (·[a.pd.toNat]) (hp.trans hp')).trans ((s.cell c).p_wp _ hpd))
  · rw [Cell.pushFault_faults _ _ _ he', Cell.wp_faults]
  · rw [hasync, Cell.wp_async, hid]

end

/-! ## Translated ranges -/

section
variable {s : State} {t : Tag} {sp : Space} {acc : Acc} {user : Bool}

/-- The bytes of a range that lie below a page boundary. -/
theorem pageParts_prefix (va n m : Nat) :
    (((List.range m).map fun k => min (va + n) ((va / 4096 + k + 1) * 4096) - max va ((va / 4096 + k) * 4096))).sum =
      min (va + n) ((va / 4096 + m) * 4096) - va := by
  induction m with
  | zero =>
    simp only [List.range_zero, List.map_nil, List.sum_nil]
    omega
  | succ m ih =>
    rw [List.range_succ, List.map_append, List.sum_append, ih, List.map_singleton, List.sum_singleton]
    omega

theorem pageParts_sum (va n : Nat) : ((pageParts va n).map (·.2)).sum = n := by
  rw [pageParts, List.map_map]
  refine (pageParts_prefix va n _).trans ?_
  omega

theorem State.translateParts_le (s : State) (t : Tag) (sp : Space) (acc : Acc) (user : Bool) (l : List (Nat × Nat)) :
    okBytes (s.translateParts t sp acc user l).1 ≤ (l.map (·.2)).sum := by
  induction l with
  | nil => exact Nat.le_refl _
  | cons x l ih =>
    rw [State.translateParts]
    split
    · exact Nat.zero_le _
    · exact Nat.add_le_add_left ih x.2

theorem State.translateParts_all {l : List (Nat × Nat)} (h : (s.translateParts t sp acc user l).2 = none) :
    okBytes (s.translateParts t sp acc user l).1 = (l.map (·.2)).sum := by
  induction l with
  | nil => rfl
  | cons x l ih =>
    rw [State.translateParts] at h ⊢
    split at h
    · cases h
    · exact congrArg (x.2 + ·) (ih h)

theorem State.okBytes_le (s : State) (t : Tag) (sp : Space) (acc : Acc) (user : Bool) (va n : Nat) :
    okBytes (s.translateRange t sp acc user va n).1 ≤ n :=
  (s.translateParts_le t sp acc user _).trans_eq (pageParts_sum va n)

theorem State.okBytes_all {va n : Nat} (h : (s.translateRange t sp acc user va n).2 = none) :
    okBytes (s.translateRange t sp acc user va n).1 = n :=
  (State.translateParts_all h).trans (pageParts_sum va n)

end

end Sys2Proof.Machine

end

section

/-! PROOFS. What is read after a write, and signal words (R126, R127, R188). -/

namespace Sys2Proof.Machine

/-! ## What is read where memory is the same -/

section
variable {s u : State} {t : Tag} {pa : Nat}

theorem State.readByte_congr (hm : u.mem = s.mem) (hf : u.freeCtr = s.freeCtr) (v : Tag) (a : Nat) :
    u.readByte v a = s.readByte v a := by
  simp only [State.readByte, State.granule, hm, hf]
  rfl

theorem State.readBytes_congr (h : ∀ a, u.readByte t a = s.readByte t a) (pa n : Nat) :
    u.readBytes t pa n = s.readBytes t pa n :=
  List.map_congr_left fun i _ => h (pa + i)

theorem State.count_freeCtr (s : State) (b mk cl priv cls : Nat) (es : List Ev) :
    (s.count b mk cl priv cls es).freeCtr = s.freeCtr := by
  refine foldl_keeps State.freeCtr _ (fun t e => ?_) es s
  unfold State.countOne
  split <;> rfl

theorem State.readByte_count (s : State) (b mk cl priv cls : Nat) (es : List Ev) (v : Tag) (a : Nat) :
    (s.count b mk cl priv cls es).readByte v a = s.readByte v a :=
  State.readByte_congr (s.count_mem ..) (s.count_freeCtr ..) v a

theorem State.readByte_putEnd (s : State) (c : Nat) (k : Cell) (v : Tag) (a : Nat) :
    (s.putEnd c k).readByte v a = s.readByte v a := by
  unfold State.putEnd
  dsimp only
  split
  · exact State.readByte_count ..
  · rfl

/-- What is written is read. -/
theorem State.readBytes_writeBytes (s : State) (t : Tag) (pa : Nat) (l : List Byte)
    (h : Memory.wf s.mem.cells = true) (hp : ∀ x, pa ≤ x → x < pa + l.length → (place x).stores) :
    (s.writeBytes t pa l).readBytes t pa l.length = l := by
  refine List.ext_getElem (State.length_readBytes ..) fun i h1 h2 => ?_
  calc ((s.writeBytes t pa l).readBytes t pa l.length)[i]
    _ = (s.writeBytes t pa l).readByte t (pa + (List.range l.length)[i]'(by simpa using h2)) :=
      List.getElem_map fun i => (s.writeBytes t pa l).readByte t (pa + i)
    _ = l[i] := by
      rw [List.getElem_range, State.readByte_writeBytes s t pa l h hp h2, List.getD_eq_getElem _ _ h2]

theorem State.wf_writeBytes (t : Tag) (pa : Nat) (l : List Byte) (h : Memory.wf s.mem.cells = true) :
    Memory.wf (s.writeBytes t pa l).mem.cells = true := by
  induction l generalizing s pa with
  | nil => exact h
  | cons b l ih => exact ih _ (s.wf_writeByte t pa b h)

theorem State.wf_recall (pa n : Nat) (h : Memory.wf s.mem.cells = true) :
    Memory.wf (s.recall pa n).mem.cells = true := by
  obtain ⟨hcells, -⟩ := s.recall_frame pa n
  rwa [hcells]

theorem State.wf_writePieces (t : Tag) (ps : List Piece) (l : List Byte) (h : Memory.wf s.mem.cells = true) :
    Memory.wf (s.writePieces t ps l).mem.cells = true := by
  induction ps generalizing s l with
  | nil => exact h
  | cons p ps ih => exact ih _ (State.wf_writeBytes t _ _ (State.wf_recall _ _ h))

theorem State.recallPieces_mem (s : State) (ps : List Piece) : (s.recallPieces ps).mem.cells = s.mem.cells :=
  foldl_keeps (fun s : State => s.mem.cells) (fun t (p : Piece) => t.recall p.pa p.len)
    (fun t p => (t.recall_frame p.pa p.len).1) ps s

theorem State.readByte_recallPieces (s : State) (ps : List Piece) (v : Tag) (a : Nat) :
    (s.recallPieces ps).readByte v a = s.readByte v a :=
  foldl_keeps (fun s : State => s.readByte v a) (fun t (p : Piece) => t.recall p.pa p.len)
    (fun t p => t.readByte_recall v p.pa p.len a) ps s

theorem State.asyncSnoop_mem (s : State) (c : Nat) (ps : List Piece) :
    (s.asyncSnoop c ps).mem.cells = s.mem.cells :=
  (State.recallPieces_mem _ ps).trans (foldl_keeps (fun s : State => s.mem.cells) (fun t x => t.recall x 8)
    (fun t x => (t.recall_frame x 8).1) _ s)

theorem State.readByte_asyncSnoop (s : State) (c : Nat) (ps : List Piece) (v : Tag) (a : Nat) :
    (s.asyncSnoop c ps).readByte v a = s.readByte v a :=
  (State.readByte_recallPieces _ ps v a).trans (foldl_keeps (fun s : State => s.readByte v a)
    (fun t x => t.recall x 8) (fun t x => t.readByte_recall v x 8 a) _ s)

/-! ## Signal words (R126, R127) -/

theorem leNat_leBytes (n v : Nat) : leNat (leBytes n v) = v % 256 ^ n := by
  induction n generalizing v with
  | zero => rw [pow_zero, Nat.mod_one]; rfl
  | succ n ih =>
    calc leNat (leBytes (n + 1) v)
      _ = (BitVec.ofNat 8 v).toNat + 256 * leNat (leBytes n (v / 256)) := rfl
      _ = v % 256 + 256 * (v / 256 % 256 ^ n) := by rw [ih, BitVec.toNat_ofNat, show 2 ^ 8 = 256 from rfl]
      _ = v % 256 ^ (n + 1) := by rw [pow_succ', Nat.mod_mul]

theorem length_leBytes (n v : Nat) : (leBytes n v).length = n := by
  induction n generalizing v with
  | zero => rfl
  | succ n ih => rw [leBytes, List.length_cons, ih]

/-- The words of shared SRAM lie in shared SRAM. -/
theorem place_shared_word {b off x : Nat} (h : place pa = .shared b off) (hal : pa % 8 = 0) (h1 : pa ≤ x)
    (h2 : x < pa + 8) : ∃ o, place x = .shared b o := by
  have hc : (place pa).isOnChip = true := by rw [h]; rfl
  have hr := place_onChip hc
  have hoff : (pa - sramBase) % 2 ^ 26 < 2 ^ 24 ∧ (pa - sramBase) / 2 ^ 26 = b := by
    unfold place at h
    rw [if_neg (by unfold sramBase at hr; omega), if_neg (by unfold sramBase at hr; unfold ddrBase; omega),
      if_pos hr] at h
    dsimp only at h
    split_ifs at h with ho
    · exact ⟨ho, (Place.shared.inj h).1⟩
  obtain ⟨d, rfl⟩ : ∃ d, x = sramBase + b * 2 ^ 26 + d := ⟨x - (sramBase + b * 2 ^ 26), by unfold sramBase at *; omega⟩
  exact ⟨d, place_sharedBase (by unfold sramBase at *; omega) (by unfold sramBase at *; omega)⟩

theorem Place.stores_shared (b o : Nat) : (Place.shared b o).stores := ⟨nofun, nofun, nofun⟩

/-- A signal that is set is read. -/
theorem State.readNat_setSignal {b off bit : Nat} (h : Memory.wf s.mem.cells = true) (hp : place pa = .shared b off)
    (hal : pa % 8 = 0) (hbit : bit < 64) : ((s.setSignal t pa bit).readNat t pa 8).testBit bit = true := by
  have hplace : ∀ x, pa ≤ x → x < pa + (leBytes 8 (s.readNat t pa 8 ||| 2 ^ bit)).length → (place x).stores := by
    intro x h1 h2
    rw [length_leBytes] at h2
    obtain ⟨o, ho⟩ := place_shared_word hp hal h1 h2
    exact ho ▸ Place.stores_shared b o
  have hread := s.readBytes_writeBytes t pa _ h hplace
  rw [length_leBytes] at hread
  rw [State.readNat, State.setSignal, hread, leNat_leBytes, show 256 ^ 8 = 2 ^ 64 from rfl, Nat.testBit_mod_two_pow,
    Nat.testBit_or, Nat.testBit_two_pow_self]
  simp [hbit]

end

end Sys2Proof.Machine

end

section

/-! PROOFS. Completion of a copy (R125). -/

namespace Sys2Proof.Machine

/-! ## Completion of a copy (R125) -/

section
variable {s : State} {c id : Nat} {a : Async}

/-- What a copy reads. -/
def State.copyRead (s : State) (k : Cell) (a : Async) : List Piece × Option (BitVec 8 × Nat) :=
  s.translateRange (s.cellTag k) k.space .load (!a.sup) a.src.toNat a.len

/-- What a copy writes. -/
def State.copyWrite (s : State) (k : Cell) (a : Async) : List Piece × Option (BitVec 8 × Nat) :=
  s.translateRange (s.cellTag k) k.space .store (!a.sup) a.dst.toNat a.len

/-- The fault that a copy meets first. -/
def State.copyFault (s : State) (k : Cell) (a : Async) : Option (BitVec 8 × Nat) :=
  if okBytes (s.copyWrite k a).1 < okBytes (s.copyRead k a).1 then (s.copyWrite k a).2 else (s.copyRead k a).2

/-- The first `n` bytes of a copy have moved. -/
def State.copied (s : State) (c : Nat) (a : Async) (n : Nat) : State :=
  ((s.asyncSnoop c (takePieces n (s.copyRead (s.cell c) a).1 ++ takePieces n (s.copyWrite (s.cell c) a).1)).movePieces
    (s.cellTag (s.cell c)) (s.copyRead (s.cell c) a).1 (takePieces n (s.copyRead (s.cell c) a).1)
    (takePieces n (s.copyWrite (s.cell c) a).1)).markClean (s.cellTag (s.cell c)) (s.cell c).space (!a.sup)
    (takePieces n (s.copyRead (s.cell c) a).1) (takePieces n (s.copyWrite (s.cell c) a).1)

/-- A copy that has moved its bytes is done: its signal is set, or its fault is pending. -/
def State.endCopy (s : State) (c : Nat) (a : Async) (t : Tag) (fault : Option (BitVec 8 × Nat)) (priv : Nat) : State :=
  match fault with
  | some (cause, va) => s.putEnd c (((s.cell c).pushFault false cause va).dropAsync a.id)
  | none =>
    match a.sig with
    | some (pa, bit) =>
      let s3 := (s.setSignal t pa bit).count (c / 16) mkMover c priv clsMemory [ev 0x53 1]
      s3.putEnd c ((s3.cell c).dropAsync a.id)
    | none => s.putEnd c ((s.cell c).dropAsync a.id)

theorem mcopyDone_eq (s : State) (c : Nat) (a : Async) : ∃ n es,
    n = min (okBytes (s.copyRead (s.cell c) a).1) (okBytes (s.copyWrite (s.cell c) a).1) ∧
    s.mcopyDone c a = ((s.copied c a n).count (c / 16) mkMover c
      (if a.sup then privSup else privUser) clsMemory es).endCopy c a (s.cellTag (s.cell c))
        (s.copyFault (s.cell c) a) (if a.sup then privSup else privUser) :=
  ⟨_, _, rfl, rfl⟩

theorem exec_mcopyComplete (ha : s.asyncOf c id false = some a) :
    exec (.mcopyComplete c id .none_) s = .next (s.mcopyDone c a) := by
  have hi : exec (.mcopyComplete c id .none_) s = execMcopyComplete c id .none_ s := rfl
  rw [hi]
  simp only [execMcopyComplete, State.readMeets, State.readBad, hitLocal, hitPiece, State.readCorrected, State.meets,
    ReadErr.none_, ha, Option.map_none]

theorem State.copied_cells (s : State) (c : Nat) (a : Async) (n : Nat) : (s.copied c a n).cells = s.cells := by
  refine Eq.trans (State.writePieces_cells ..) ((State.recallPieces_cells _ _).trans ?_)
  exact State.asyncSnoop_cells ..

/-- The registers of the cell of a copy that is done. -/
theorem State.endCopy_arch (s : State) (c : Nat) (a : Async) (t : Tag) (fault : Option (BitVec 8 × Nat)) (priv : Nat) :
    ∃ k : Cell, k.arch = (s.cell c).arch ∧ ((s.endCopy c a t fault priv).cell c).arch =
      (Cell.dropAsync (match fault with | some (cause, va) => k.pushFault false cause va | none => k) a.id).arch := by
  unfold State.endCopy
  cases fault with
  | some f => exact ⟨_, rfl, (s.putEnd_cellOnly c _).1⟩
  | none =>
    cases a.sig with
    | some x =>
      refine ⟨_, ?_, (State.putEnd_cellOnly _ c _).1⟩
      refine ((State.count_alike _ ..).1 c).trans (congrArg Cell.arch (State.cell_congr ?_ c))
      exact State.writeBytes_cells ..
    | none => exact ⟨_, rfl, (s.putEnd_cellOnly c _).1⟩

theorem mcopyDone_arch (s : State) (c : Nat) (a : Async) :
    ∃ k : Cell, k.arch = (s.cell c).arch ∧ ((s.mcopyDone c a).cell c).arch =
      (Cell.dropAsync (match s.copyFault (s.cell c) a with
        | some (cause, va) => k.pushFault false cause va
        | none => k) a.id).arch := by
  obtain ⟨n, es, -, he⟩ := mcopyDone_eq s c a
  obtain ⟨k, hk, harch⟩ := State.endCopy_arch ((s.copied c a n).count (c / 16) mkMover c
    (if a.sup then privSup else privUser) clsMemory es) c a (s.cellTag (s.cell c)) (s.copyFault (s.cell c) a)
    (if a.sup then privSup else privUser)
  rw [← he] at harch
  refine ⟨k, hk.trans (((State.count_alike _ ..).1 c).trans ?_), harch⟩
  exact congrArg Cell.arch (State.cell_congr (s.copied_cells c a n) c)

theorem State.copyFault_none (hr : (s.copyRead (s.cell c) a).2 = none) (hw : (s.copyWrite (s.cell c) a).2 = none) :
    s.copyFault (s.cell c) a = none := by
  rw [State.copyFault, hr, hw, ite_self]

theorem State.copyFault_read {f : BitVec 8 × Nat} (hr : (s.copyRead (s.cell c) a).2 = some f)
    (hw : (s.copyWrite (s.cell c) a).2 = none) : s.copyFault (s.cell c) a = some f := by
  have hall : okBytes (s.copyWrite (s.cell c) a).1 = a.len := State.okBytes_all hw
  have hle : okBytes (s.copyRead (s.cell c) a).1 ≤ a.len := State.okBytes_le ..
  rw [State.copyFault, if_neg (by omega), hr]

/-- What a copy leaves of its cell. -/
theorem mcopy_keeps (ha : s.asyncOf c id false = some a) :
    ((s.mcopyDone c a).cell c).async = (s.cell c).async.filter (fun b => b.id != id) ∧
    ((s.mcopyDone c a).cell c).x = (s.cell c).x ∧ ((s.mcopyDone c a).cell c).v = (s.cell c).v ∧
    ((s.mcopyDone c a).cell c).p = (s.cell c).p ∧ ((s.mcopyDone c a).cell c).pc = (s.cell c).pc := by
  obtain ⟨hid, -⟩ := State.asyncOf_some ha
  obtain ⟨k, hk, harch⟩ := mcopyDone_arch s c a
  generalize hj : (match s.copyFault (s.cell c) a with
    | some (cause, va) => k.pushFault false cause va
    | none => k) = j at harch
  have hkeep : j.x = k.x ∧ j.v = k.v ∧ j.p = k.p ∧ j.pc = k.pc ∧ j.async = k.async := by
    rw [← hj]
    cases s.copyFault (s.cell c) a with
    | none => exact ⟨rfl, rfl, rfl, rfl, rfl⟩
    | some f =>
      obtain ⟨h1, h2, h3, h4, h5, -⟩ := k.pushFault_keeps false f.1 f.2
      exact ⟨h1, h2, h3, h4, h5⟩
  obtain ⟨hx, hv, hp, hpc, hasync⟩ := hkeep
  obtain ⟨hx', hv', hp', hpc'⟩ := j.dropAsync_keeps a.id
  generalize s.mcopyDone c a = t at harch ⊢
  refine ⟨(congrArg Cell.async harch).trans ((Cell.dropAsync_async ..).trans ?_),
    (congrArg Cell.x harch).trans (hx'.trans (hx.trans (congrArg Cell.x hk :))),
    (congrArg Cell.v harch).trans (hv'.trans (hv.trans (congrArg Cell.v hk :))),
    (congrArg Cell.p harch).trans (hp'.trans (hp.trans (congrArg Cell.p hk :))),
    (congrArg Cell.pc harch).trans (hpc'.trans (hpc.trans (congrArg Cell.pc hk :)))⟩
  rw [hasync, hid]
  exact congrArg (List.filter _) (congrArg Cell.async hk :)

theorem mcopy_faults_none (he : (s.cell c).ending = none) (h : s.copyFault (s.cell c) a = none) :
    ((s.mcopyDone c a).cell c).faults = (s.cell c).faults := by
  obtain ⟨k, hk, harch⟩ := mcopyDone_arch s c a
  rw [h] at harch
  generalize s.mcopyDone c a = t at harch ⊢
  have hke : k.ending = none := (congrArg Cell.ending hk :).trans he
  exact (congrArg Cell.faults harch).trans ((Cell.dropAsync_faults _ hke).trans (congrArg Cell.faults hk :))

theorem mcopy_faults_some {cause : BitVec 8} {va : Nat} (he : (s.cell c).ending = none)
    (h : s.copyFault (s.cell c) a = some (cause, va)) : ((s.mcopyDone c a).cell c).faults =
      (s.cell c).faults ++ [{ gather := false, cause, addr := BitVec.ofNat 64 va }] := by
  obtain ⟨k, hk, harch⟩ := mcopyDone_arch s c a
  rw [h] at harch
  generalize s.mcopyDone c a = t at harch ⊢
  have hke : k.ending = none := (congrArg Cell.ending hk :).trans he
  obtain ⟨-, -, -, -, -, hend⟩ := k.pushFault_keeps false cause va
  refine (congrArg Cell.faults harch).trans ((Cell.dropAsync_faults _ (hend.trans hke)).trans ?_)
  rw [Cell.pushFault_faults _ _ _ hke]
  exact congrArg (· ++ _) (congrArg Cell.faults hk :)

/-! ### The bytes that move -/

theorem State.wf_copied (c : Nat) (a : Async) (n : Nat) (h : s.memoryWf) :
    Memory.wf (s.copied c a n).mem.cells = true := by
  refine State.wf_writePieces _ _ _ ?_
  rw [State.recallPieces_mem]
  exact (congrArg Memory.wf (State.asyncSnoop_mem s c _)).trans h.1

theorem mcopy_signals {pa bit b off : Nat} (hf : s.copyFault (s.cell c) a = none) (hwf : s.memoryWf)
    (hs : a.sig = some (pa, bit)) (hbit : bit < 64) (hal : pa % 8 = 0) (hp : place pa = .shared b off) (t : Tag)
    (ht : t = s.cellTag (s.cell c)) : ((s.mcopyDone c a).readNat t pa 8).testBit bit = true := by
  obtain ⟨n, es, -, he⟩ := mcopyDone_eq s c a
  have hw := s.wf_copied c a n hwf
  rw [← State.count_mem _ (c / 16) mkMover c (if a.sup then privSup else privUser) clsMemory es] at hw
  rw [he, hf, ← ht]
  generalize (s.copied c a n).count (c / 16) mkMover c (if a.sup then privSup else privUser) clsMemory es = u at hw ⊢
  rw [State.endCopy, hs]
  refine Eq.trans (congrArg (fun l => (leNat l).testBit bit) (State.readBytes_congr (fun x => ?_) pa 8))
    (State.readNat_setSignal hw hp hal hbit)
  exact (State.readByte_putEnd ..).trans (State.readByte_count ..)

theorem takePieces_one (p : Piece) (n : Nat) (h : p.len = n) (hn : n ≠ 0) : takePieces n [p] = [p] := by
  subst h
  rw [takePieces, if_neg hn, Nat.min_self]
  rfl

theorem pieceAddrs_one (p : Piece) : pieceAddrs [p] = (List.range p.len).map (p.pa + ·) :=
  List.append_nil _

/-- The bytes of a copy between ranges that share none. -/
theorem State.movedBytes_one (s : State) (t : Tag) (r w : Piece) (hlen : r.len = w.len)
    (hd : r.pa + r.len ≤ w.pa ∨ w.pa + w.len ≤ r.pa) :
    (List.range ((s.readPieces t [r]).zip (pieceAddrs [w])).length).map (fun i =>
      if inPieces [r] (((s.readPieces t [r]).zip (pieceAddrs [w])).getD i (0, 0)).2 = true then
        BitVec.ofNat 8 (Config.freeNat (s.freeCtr + i))
      else (((s.readPieces t [r]).zip (pieceAddrs [w])).getD i (0, 0)).1) = s.readBytes t r.pa r.len := by
  have hbytes : (s.readPieces t [r]).zip (pieceAddrs [w]) =
      (List.range w.len).map fun i => (s.readByte t (r.pa + i), w.pa + i) := by
    rw [State.readPieces, pieceAddrs_one, List.flatMap_singleton, hlen]
    exact List.zip_map'
  rw [hbytes, List.length_map, List.length_range, hlen]
  refine List.map_congr_left fun i hi => ?_
  have hi' := List.mem_range.1 hi
  have hget : ((List.range w.len).map fun i => (s.readByte t (r.pa + i), w.pa + i)).getD i (0, 0) =
      (s.readByte t (r.pa + i), w.pa + i) := by simp [hi']
  rw [hget]
  refine if_neg ?_
  simp only [inPieces, List.any_cons, List.any_nil, Bool.or_false, decide_eq_true_eq]
  omega

theorem State.readBytes_movePieces_one (s : State) (t : Tag) (r w : Piece) (hwf : Memory.wf s.mem.cells = true)
    (hlen : r.len = w.len) (hd : r.pa + r.len ≤ w.pa ∨ w.pa + w.len ≤ r.pa)
    (hp : ∀ x, w.pa ≤ x → x < w.pa + w.len → (place x).stores) :
    (s.movePieces t [r] [r] [w]).readBytes t w.pa w.len = s.readBytes t r.pa r.len := by
  have hl := s.movedBytes_one t r w hlen hd
  unfold State.movePieces
  dsimp only
  rw [hl]
  generalize hs : State.recallPieces _ [r] = u
  have hu : Memory.wf u.mem.cells = true := by
    rw [← hs, State.recallPieces_mem]
    exact hwf
  have hn : (s.readBytes t r.pa r.len).length = w.len := (State.length_readBytes ..).trans hlen
  rw [State.writePieces, State.writePieces, List.take_of_length_le hn.le]
  have hread := (u.recall w.pa w.len).readBytes_writeBytes t w.pa (s.readBytes t r.pa r.len) (State.wf_recall _ _ hu)
    (by rwa [hn])
  rwa [hn] at hread

theorem mcopy_bytes {r w : Piece} (hr : (s.copyRead (s.cell c) a).2 = none) (hw : (s.copyWrite (s.cell c) a).2 = none)
    (hwf : s.memoryWf) (hrs : (s.copyRead (s.cell c) a).1 = [r]) (hws : (s.copyWrite (s.cell c) a).1 = [w])
    (hs : a.sig = none) (hd : r.pa + r.len ≤ w.pa ∨ w.pa + w.len ≤ r.pa)
    (hp : ∀ x, w.pa ≤ x → x < w.pa + w.len → (place x).stores) (t : Tag) (ht : t = s.cellTag (s.cell c)) :
    (s.mcopyDone c a).readBytes t w.pa w.len = s.readBytes t r.pa r.len := by
  have hrl : r.len = a.len := (congrArg okBytes hrs).symm.trans (State.okBytes_all hr)
  have hwl : w.len = a.len := (congrArg okBytes hws).symm.trans (State.okBytes_all hw)
  by_cases h0 : a.len = 0
  · rw [hrl, hwl, h0]
    rfl
  obtain ⟨n, es, hn, he⟩ := mcopyDone_eq s c a
  have hna : n = a.len := by
    rw [hn, hrs, hws]
    exact (congrArg₂ min hrl hwl).trans (Nat.min_self _)
  rw [he, State.copyFault_none hr hw, State.endCopy, hs]
  calc (State.putEnd _ c _).readBytes t w.pa w.len
    _ = (s.copied c a n).readBytes t w.pa w.len := State.readBytes_congr (fun x =>
      (State.readByte_putEnd ..).trans (State.readByte_count ..)) _ _
    _ = ((s.asyncSnoop c [r, w]).movePieces t [r] [r] [w]).readBytes t w.pa w.len := by
      rw [State.copied, hrs, hws, takePieces_one r n (hrl.trans hna.symm) (hna ▸ h0),
        takePieces_one w n (hwl.trans hna.symm) (hna ▸ h0), ← ht]
      rfl
    _ = (s.asyncSnoop c [r, w]).readBytes t r.pa r.len := by
      refine State.readBytes_movePieces_one _ t r w ?_ (hrl.trans hwl.symm) hd hp
      rw [State.asyncSnoop_mem]
      exact hwf.1
    _ = s.readBytes t r.pa r.len := State.readBytes_congr (fun x => State.readByte_asyncSnoop ..) _ _

end

/-- Settles O18: what each instruction issues, then what the two completions do. -/
theorem asynchronousWork : Obligations.AsynchronousWork := by
  unfold Obligations.AsynchronousWork
  refine ⟨fun s c u h hu => ⟨?_, ?_, ?_, ?_, ?_, ?_⟩, ?_, ?_⟩
  · intro o dp wp hp hn hal hd l len hok hown hwp
    obtain ⟨t, ht, hcell⟩ := runs_vgatherp h hu hp hn hal hd rfl hok hown hwp
    exact ⟨t, ht, gatherpAsync (s.cell c) o l, hcell, rfl, rfl, rfl, rfl, rfl, rfl, rfl, rfl, rfl, rfl⟩
  · exact fun o hp hn => ⟨fun cause va hd => raises_vgatherp_descriptor h hu hp hn hd,
      fun dp hd hal => raises_vgatherp_alignment h hu hp hn hd hal⟩
  · intro o hf hmax hne ha hb hl hn hw
    obtain ⟨t, ht, hcell⟩ := runs_mcopy h hu hf hmax hne ha hb hl hn hw
    exact ⟨t, ht, mcopyAsync s c (s.cell c) o, hcell, rfl, rfl, rfl, rfl, rfl, rfl, rfl⟩
  · exact fun o hf hmax => raises_mcopy_length h hu hf hmax
  · exact fun o pa hp hw hne hdone => stores_waitsig h hu hp hw rfl rfl hne hdone
  · exact fun o hpred hsucc hall hreads => runs_fence h hu hpred hsucc hall hreads
  · exact fun s c id a ha => ⟨fun hfree hlanes => gather_completes ha hfree hlanes,
      fun i hl => gatherLane_guarded hl, fun hfree => exec_vgatherpComplete_waits ha hfree,
      fun i cause va hfree hi hl hfirst he => gather_faults ha hfree hi hl hfirst he⟩
  · intro s c id a ha he hwf
    obtain ⟨hasync, hx, hv, hp, hpc⟩ := mcopy_keeps ha
    refine ⟨_, exec_mcopyComplete ha, hasync, hx, hv, hp, hpc, fun hr hw => ⟨?_, ?_, ?_⟩, fun cause va hr hw => ?_⟩
    · exact mcopy_faults_none he (State.copyFault_none hr hw)
    · exact fun pa bit b off hs hbit hal hpl =>
        mcopy_signals (State.copyFault_none hr hw) hwf hs hbit hal hpl _ rfl
    · exact fun r w hrs hws hs hd hpl => mcopy_bytes hr hw hwf hrs hws hs hd hpl _ rfl
    · exact mcopy_faults_some he (State.copyFault_read hr hw)

end Sys2Proof.Machine

end

section

/-! PROOFS. The start and ending of items and grids (R89, R91, R244 to R249). -/

namespace Sys2Proof.Machine

/-! ## The charge of an item and its start state (R89, R91, R248, R249) -/

section
variable {s : State} {p c d : Nat} {u : Submit}

theorem Part.admits_iff (k : Part) (e : Nat) : k.admits e = true ↔
    0 < k.grant ∧ ((e : Int) ≤ k.balance ∨ (2 * k.grant < e ∧ k.balance = 2 * (k.grant : Int))) := by
  simp only [Part.admits, Bool.and_eq_true, Bool.or_eq_true, decide_eq_true_eq, beq_iff_eq]

theorem State.part_setPart (v : Part) (h : p < s.parts.length) : (s.setPart p v).part p = v := by
  simp [State.part, State.setPart, setAt, h]

/-- The scalar registers at the start of an item. -/
theorem Cell.start_rs (k : Cell) (x : Ctx) (u : Submit) (run : Run) (restart : Bool) :
    (k.start x u run restart).rs 1 = BitVec.ofNat 64 run.item ∧
    (k.start x u run restart).rs 2 = (if restart then 0 else u.args) ∧
    (k.start x u run restart).rs 3 = (if restart then 0 else BitVec.ofNat 64 u.items) ∧
    ∀ r : BitVec 5, 4 ≤ r.toNat → (k.start x u run restart).rs r = 0 := by
  have hx (r : BitVec 5) (h : r ≠ 0) : (k.start x u run restart).rs r = (k.start x u run restart).x[r.toNat] := if_neg h
  have hne (r : BitVec 5) (h : 4 ≤ r.toNat) : r ≠ 0 := by
    rintro rfl
    exact absurd h (by decide)
  refine ⟨(hx 1 (by decide)).trans ?_, (hx 2 (by decide)).trans ?_, (hx 3 (by decide)).trans ?_,
    fun r h => (hx r (hne r h)).trans ?_⟩
  · cases restart <;> simp [Cell.start]
  · cases restart <;> simp [Cell.start]
  · cases restart <;> simp [Cell.start]
  · have h1 : 1 ≠ r.toNat := by omega
    have h2 : 2 ≠ r.toNat := by omega
    have h3 : 3 ≠ r.toNat := by omega
    cases restart <;> simp [Cell.start, h1, h2, h3]

theorem State.startItem_arch (s : State) (u : Submit) (d : Nat) : ((s.startItem u d).cell d).arch =
    ((s.cell d).start (s.ctx u.part u.ctx) u
      { part := u.part, ctx := u.ctx, order := u.order, item := u.nextItem.1 } u.nextItem.2).arch := by
  refine ((State.count_alike _ ..).1 d).trans (congrArg Cell.arch ?_)
  exact State.cell_setCell _ d _

theorem State.startItem_mem (s : State) (u : Submit) (d : Nat) : (s.startItem u d).mem = s.mem :=
  State.count_mem ..

theorem State.startItem_balance (s : State) (u : Submit) (d : Nat) (h : u.part < s.parts.length) :
    ((s.startItem u d).part u.part).balance = (s.part u.part).balance - (u.charge : Int) := by
  have hrest : (s.startItem u d).parts = (s.setPart u.part { s.part u.part with
      balance := (s.part u.part).balance - (u.charge : Int), lastRegion := d / 256 }).parts :=
    (congrArg State.parts (State.count_alike _ ..).2 :)
  exact congrArg Part.balance ((congrArg (fun l => l.getD u.part Part.reset) hrest).trans (State.part_setPart _ h))

theorem exec_itemAdmit (hr : s.resident p = some c) (hh : s.headSubmit p c = some u) (hp : s.placeItem p = some d)
    (hc : s.clocksRun = true) (hl : (s.ctx p c).leaving = none) (hn : s.itemCount < 4096)
    (ha : (s.part p).admits u.charge = true) : exec (.itemAdmit p) s = .next (s.startItem u d) := by
  have hi : exec (.itemAdmit p) s = execItemAdmit p s := rfl
  rw [hi]
  simp only [execItemAdmit, hr, hh, hp]
  rw [if_pos ⟨hc, hl, hn, ha⟩]

end

/-! ## The ending of an item (R91, R248) -/

section
variable {s : State} {c : Nat} {u : Submit} {e : Ending}

theorem exec_itemEnding {r : Run} (hr : (s.cell c).run = some r) (he : (s.cell c).ended = some e)
    (hs : (s.cell c).stopped = false) (hu : s.submitBy r.order = some u) :
    exec (.itemEnding c) s = .next ((s.setCell c (s.cell c).release).settle (u.itemEnds r.item e)) := by
  have hi : exec (.itemEnding c) s = execItemEnding c s := rfl
  have hu' : (s.setCell c (s.cell c).release).submitBy r.order = some u := hu
  rw [hi]
  simp only [execItemEnding, hr, he, hs, hu', Bool.false_eq_true, if_false]

theorem mem_insertNat (l : List Nat) (i : Nat) : i ∈ insertNat l i := by
  induction l with
  | nil => exact List.mem_singleton.2 rfl
  | cons b l ih =>
    rw [insertNat]
    split_ifs with h1 h2
    · exact List.mem_cons_self ..
    · exact h2 ▸ List.mem_cons_self ..
    · exact List.mem_cons_of_mem _ ih

theorem itemEnds_complete (u : Submit) (i : Nat) (h : e.kind = .complete) :
    (u.itemEnds i e).complete = u.complete + 1 ∧ (u.itemEnds i e).failed = u.failed := by
  rw [Submit.itemEnds, h]
  exact ⟨rfl, rfl⟩

theorem itemEnds_saved (u : Submit) (i : Nat) (h : e.kind = .saved) :
    i ∈ (u.itemEnds i e).saved ∧ (u.itemEnds i e).complete = u.complete := by
  rw [Submit.itemEnds, h]
  dsimp only
  split <;> exact ⟨mem_insertNat _ i, rfl⟩

theorem itemEnds_failedValue (u : Submit) (i : Nat) (h : e.kind = .failedValue) :
    (u.itemEnds i e).failed = u.failed + 1 ∧ (u.itemEnds i e).records =
      u.records ++ [{ item := i, kind := 0x01, cause := 0, value := e.value }] := by
  rw [Submit.itemEnds, h]
  exact ⟨rfl, rfl⟩

theorem itemEnds_failedException (u : Submit) (i : Nat) (h : e.kind = .failedException) :
    (u.itemEnds i e).failed = u.failed + 1 ∧ (u.itemEnds i e).records =
      u.records ++ [{ item := i, kind := 0x02, cause := e.cause, value := 0 }] := by
  rw [Submit.itemEnds, h]
  exact ⟨rfl, rfl⟩

theorem itemEnds_forced (u : Submit) (i : Nat) (h : e.kind = .forced) (hs : cancelled u.stop = false) :
    (u.restart = true → i ∈ (u.itemEnds i e).requeued ∧ (u.itemEnds i e).failed = u.failed) ∧
    (u.restart = false → (u.itemEnds i e).failed = u.failed + 1) := by
  rw [Submit.itemEnds, h]
  dsimp only
  rw [hs]
  refine ⟨fun hr => ?_, fun hr => ?_⟩
  · rw [if_neg Bool.false_ne_true, if_pos hr]
    split <;> exact ⟨mem_insertNat _ i, rfl⟩
  · rw [if_neg Bool.false_ne_true, if_neg (Bool.eq_false_iff.1 hr)]
    rfl

end

/-! ## A grid whose last item has ended (R244) -/

section
variable {s : State} {u : Submit}

theorem State.settleResidency_frame (s : State) (p : Nat) :
    (s.settleResidency p).disp = s.disp ∧ (s.settleResidency p).mail = s.mail := by
  have waits (t : State) (c : Nat) : (t.noteWaiting p c).disp = t.disp ∧ (t.noteWaiting p c).mail = t.mail := by
    unfold State.noteWaiting
    dsimp only
    split <;> exact ⟨rfl, rfl⟩
  unfold State.settleResidency
  split
  · dsimp only
    split
    · exact waits _ _
    · exact ⟨rfl, rfl⟩
  · exact ⟨rfl, rfl⟩

theorem Mail.own_setOwn (m : Mail) (slot : Nat) {b : Byte} (h : b ≠ 0) : (m.setOwn slot b).own slot = b := by
  unfold Mail.own Mail.setOwn
  rw [Cells.set, if_neg h, Cells.get, SMap.find_put_self]
  rfl

/-- The only outstanding command is completed. -/
theorem State.completeSlot_only {t : Taken} (r : Report) (h : s.mail.taken = [t]) :
    (s.completeSlot t.slot r).mail.taken = [] ∧ (s.completeSlot t.slot r).mail.own t.slot = 3 ∧
    (s.completeSlot t.slot r).disp = s.disp := by
  have hf : s.mail.taken.find? (fun x => x.slot == t.slot) = some t := by
    rw [h]
    exact List.find?_cons_of_pos (beq_self_eq_true _)
  have hc : s.completeSlot t.slot r = s.complete t r := by
    rw [State.completeSlot, hf]
  rw [hc]
  refine ⟨?_, Mail.own_setOwn _ t.slot (b := ownReturned) (by decide), rfl⟩
  refine (congrArg (List.filter fun x => x.slot != t.slot) h).trans ?_
  exact List.filter_cons_of_neg (by simp)

theorem State.keepOrEnd_over (ha : u.allEnded = true) (hh : u.held = false) (hs : u.stop = none) (ht : u.tail = [])
    (hd : u.due = []) : s.keepOrEnd u = s.endSubmit u u.finalStatus stWrongState := by
  have ho : (u.over && u.tail == [] && u.due == []) = true := by simp [Submit.over, ha, hh, ht, hd]
  rw [State.keepOrEnd, if_pos ho, State.endOver, hs]
  rfl

theorem State.endSubmit_only {t : Taken} (status stopStatus : Nat) (hu : s.disp.submits = [u]) (hs : u.stop = none)
    (ht : s.mail.taken = [t]) (hslot : t.slot = u.slot) :
    (s.endSubmit u status stopStatus).disp.submits = [] ∧ (s.endSubmit u status stopStatus).mail.taken = [] ∧
    (s.endSubmit u status stopStatus).mail.own u.slot = 3 := by
  unfold State.endSubmit
  dsimp only
  rw [hs]
  generalize h1 : (if writesRecords status = true then s.hostWrite u.buf (u.recordBytes.take u.bufLen) else s) = s1
  have hframe : s1.disp = s.disp ∧ s1.mail.taken = s.mail.taken := by
    rw [← h1]
    split <;> exact ⟨rfl, rfl⟩
  obtain ⟨hdisp, htaken⟩ := hframe
  obtain ⟨hempty, hown, hdisp'⟩ := State.completeSlot_only (s.submitReport u status) (htaken.trans ht)
  rw [hslot] at hempty hown hdisp'
  refine ⟨?_, hempty, hown⟩
  have hsub : (s1.completeSlot u.slot (s.submitReport u status)).disp.submits = [u] :=
    (congrArg Disp.submits (hdisp'.trans hdisp)).trans hu
  refine (congrArg (List.filter fun x => x.order != u.order) hsub).trans ?_
  exact List.filter_cons_of_neg (by simp)

theorem settle_over {t : Taken} (hu : s.disp.submits = [u]) (ha : u.allEnded = true) (hh : u.held = false)
    (hs : u.stop = none) (htail : u.tail = []) (hd : u.due = []) (ht : s.mail.taken = [t]) (hslot : t.slot = u.slot) :
    (s.settle u).disp.submits = [] ∧ (s.settle u).mail.taken = [] ∧ (s.settle u).mail.own u.slot = 3 := by
  obtain ⟨hdisp, hmail⟩ := (s.keepOrEnd u).settleResidency_frame u.part
  rw [State.settle, hdisp, hmail, State.keepOrEnd_over ha hh hs htail hd]
  exact State.endSubmit_only _ _ hu hs ht hslot

theorem Submit.finalStatus_eq (u : Submit) :
    u.finalStatus = if u.lost ≠ 0 then stUnitFailed else if u.rerunDone = [] then stDone else stDegraded := by
  rw [Submit.finalStatus, ite_not (u.rerunDone = [])]

end

/-- Settles O29: the Sluice's test, then the start of an item, its ending, and the end of its grid. -/
theorem itemStartAndEnding : Obligations.ItemStartAndEnding := by
  unfold Obligations.ItemStartAndEnding
  refine ⟨fun k e => ⟨k.admits_iff e, fun u => rfl⟩, ?_, ?_, ?_⟩
  · intro s p c d u hr hh hd hc hl hn ha hup huc hp hsz
    obtain ⟨hparts, -⟩ := hsz
    subst hup huc
    have hb := s.startItem_balance u d (by omega)
    have harch := s.startItem_arch u d
    have hm := s.startItem_mem u d
    refine ⟨_, exec_itemAdmit hr hh hd hc hl hn ha, ?_⟩
    generalize s.startItem u d = t at hb harch hm ⊢
    obtain ⟨h1, h2, h3, h4⟩ := (s.cell d).start_rs (s.ctx u.part u.ctx) u
      { part := u.part, ctx := u.ctx, order := u.order, item := u.nextItem.1 } u.nextItem.2
    have hrs (r : BitVec 5) := congrArg (fun k : Cell => k.rs r) harch
    have hpc : (t.cell d).pc = if u.nextItem.2 then (s.ctx u.part u.ctx).svec else u.kernel := congrArg Cell.pc harch
    have hsup : (t.cell d).sup = u.nextItem.2 := congrArg Cell.sup harch
    have h2' := (hrs 2).trans h2
    have h3' := (hrs 3).trans h3
    refine ⟨hb, congrArg Cell.run harch, congrArg Cell.ended harch, congrArg Cell.v harch, congrArg Cell.q harch,
      congrArg Cell.p harch, congrArg Cell.t harch, fun r => ?_, congrArg Cell.cstat harch, congrArg Cell.ptroot harch,
      congrArg Cell.svec harch, (hrs 1).trans h1, fun r hr => (hrs r).trans (h4 r hr), fun hn => ?_, fun hn => ?_, hm⟩
    · exact (congrArg (fun k : Cell => (k.stat r).mode) harch).trans
        (congrArg Tstat.mode (Vector.getElem_replicate _))
    · rw [hn] at hpc hsup h2' h3'
      exact ⟨hpc, hsup, h2', h3'⟩
    · rw [hn] at hpc hsup h2' h3'
      exact ⟨hpc, hsup, h2', h3', congrArg Cell.ecause harch⟩
  · intro s c r e u hr he hs hu
    exact ⟨exec_itemEnding hr he hs hu, rfl, itemEnds_complete u r.item, itemEnds_saved u r.item,
      itemEnds_failedValue u r.item, itemEnds_failedException u r.item, itemEnds_forced u r.item⟩
  · intro s u k hu ha hh hs ht hd hk hslot
    obtain ⟨h1, h2, h3⟩ := settle_over hu ha hh hs ht hd hk hslot
    exact ⟨h1, h2, h3, u.finalStatus_eq⟩

end Sys2Proof.Machine

end

section

/-! PROOFS. Brine contributions, additions and sums (R146 to R148, R163, R164). -/

namespace Sys2Proof.Machine

/-! ## Contributions (R146) -/

section
variable {E e : Int} {m : Nat}

theorem zpow_le_mul_zpow_iff_log2 (hm : m ≠ 0) :
    (2 : Rat) ^ E ≤ (m : Rat) * (2 : Rat) ^ e ↔ E ≤ (Nat.log2 m : Int) + e := by
  have hlog : Int.log 2 (m : Rat) = (Nat.log2 m : Int) := by rw [Int.log_natCast, Nat.log2_eq_log_two]
  have hpos : (0 : Rat) < m := by exact_mod_cast Nat.pos_of_ne_zero hm
  calc (2 : Rat) ^ E ≤ (m : Rat) * (2 : Rat) ^ e
      ↔ (2 : Rat) ^ (E - e) ≤ m := by
        rw [zpow_sub₀ two_ne_zero, div_le_iff₀ (by positivity)]
    _ ↔ E - e ≤ (Nat.log2 m : Int) := by
        rw [← hlog]
        exact_mod_cast Int.zpow_le_iff_le_log one_lt_two hpos
    _ ↔ E ≤ (Nat.log2 m : Int) + e := sub_le_iff_le_add

/-- The shift of a significand, left for `0 ≤ d` and right otherwise, is the floor of its scaling. -/
theorem floor_mul_zpow_eq_shift (m : Nat) (d : Int) :
    ⌊(m : Rat) * (2 : Rat) ^ d⌋ = ((if 0 ≤ d then m <<< d.toNat else m >>> (-d).toNat : Nat) : Int) := by
  obtain ⟨k, rfl | rfl⟩ := d.eq_nat_or_neg
  case inl =>
    rw [if_pos (Int.natCast_nonneg k), Int.toNat_natCast, Nat.shiftLeft_eq, zpow_natCast]
    exact_mod_cast Int.floor_natCast (R := Rat) (m * 2 ^ k)
  case inr =>
    have hfloor : ⌊(m : Rat) * (2 : Rat) ^ (-(k : Int))⌋ = ((m >>> k : Nat) : Int) := by
      rw [zpow_neg, zpow_natCast, ← div_eq_mul_inv, Nat.shiftRight_eq_div_pow]
      exact_mod_cast Rat.floor_natCast_div_natCast m (2 ^ k)
    rcases Nat.eq_zero_or_pos k with rfl | hk
    · simp
    · rw [if_neg (by omega), neg_neg, Int.toNat_natCast, hfloor]

theorem floor_units_eq_shift (E : Int) (m : Nat) (e : Int) :
    ⌊(m : Rat) * (2 : Rat) ^ e / (2 : Rat) ^ (E - 44)⌋ =
      ((if 0 ≤ e - E + 44 then m <<< (e - E + 44).toNat else m >>> (-(e - E + 44)).toNat : Nat) : Int) := by
  rw [← floor_mul_zpow_eq_shift, mul_div_assoc, ← zpow_sub₀ two_ne_zero, sub_sub_eq_add_sub, add_sub_right_comm]

theorem signedOf_brineMax (n : Bool) : signedOf n brineMax = if n then -(2 ^ 44 - 1) else 2 ^ 44 - 1 := by
  cases n <;> rfl

theorem abs_ite_neg (n : Bool) (k : Int) : |if n then -k else k| = |k| := by
  cases n
  · rfl
  · exact abs_neg k

theorem contribution_inf (E : Int) (n : Bool) :
    contribution E (.inf n) = (if n then -(2 ^ 44 - 1) else 2 ^ 44 - 1, true) := by
  rw [contribution, signedOf_brineMax]

theorem contribution_fin_below (n : Bool) (h : (m : Rat) * (2 : Rat) ^ e < (2 : Rat) ^ E) :
    contribution E (.fin n m e) =
      (if n then -⌊(m : Rat) * (2 : Rat) ^ e / (2 : Rat) ^ (E - 44)⌋
        else ⌊(m : Rat) * (2 : Rat) ^ e / (2 : Rat) ^ (E - 44)⌋, false) := by
  rw [contribution]
  split
  case isTrue hm => simp [hm]
  case isFalse hm =>
    rw [if_neg fun hE => h.not_ge ((zpow_le_mul_zpow_iff_log2 hm).2 hE), floor_units_eq_shift]
    rfl

theorem contribution_fin_above (n : Bool) (h : (2 : Rat) ^ E ≤ (m : Rat) * (2 : Rat) ^ e) :
    contribution E (.fin n m e) = (if n then -(2 ^ 44 - 1) else 2 ^ 44 - 1, true) := by
  have hm : m ≠ 0 := by
    rintro rfl
    rw [Nat.cast_zero, zero_mul] at h
    exact h.not_gt (zpow_pos two_pos E)
  rw [contribution, if_neg hm, if_pos ((zpow_le_mul_zpow_iff_log2 hm).1 h), signedOf_brineMax]

theorem floor_units_lt (h : (m : Rat) * (2 : Rat) ^ e < (2 : Rat) ^ E) :
    ⌊(m : Rat) * (2 : Rat) ^ e / (2 : Rat) ^ (E - 44)⌋ < 2 ^ 44 := by
  have hE : (2 : Rat) ^ E = (2 : Rat) ^ (44 : Int) * (2 : Rat) ^ (E - 44) := by
    rw [← zpow_add₀ two_ne_zero, add_sub_cancel]
  rw [Int.floor_lt, div_lt_iff₀ (by positivity)]
  exact_mod_cast hE ▸ h

/-- The bound of R148. -/
theorem abs_contribution_le (E : Int) (v : FVal) : |(contribution E v).1| ≤ 2 ^ 44 - 1 := by
  have hmax : |(2 ^ 44 - 1 : Int)| = 2 ^ 44 - 1 := abs_of_nonneg (by decide)
  cases v with
  | nan => rw [contribution]; decide
  | inf n => rw [contribution_inf, abs_ite_neg, hmax]
  | fin n m e =>
    rcases lt_or_ge ((m : Rat) * (2 : Rat) ^ e) ((2 : Rat) ^ E) with h | h
    · rw [contribution_fin_below n h, abs_ite_neg, abs_of_nonneg (Int.floor_nonneg.2 (by positivity))]
      exact Int.le_sub_one_of_lt (floor_units_lt h)
    · rw [contribution_fin_above n h, abs_ite_neg, hmax]

end

/-! ## Additions (R147) -/

section
variable {a b : BitVec 64}

theorem toInt_ofInt_64 {z : Int} (hl : -2 ^ 63 ≤ z) (hu : z ≤ 2 ^ 63 - 1) : (BitVec.ofInt 64 z).toInt = z :=
  BitVec.toInt_ofInt_eq_self (by decide) hl (by omega)

theorem brineAdd_within (hl : -2 ^ 63 ≤ a.toInt + b.toInt) (hu : a.toInt + b.toInt ≤ 2 ^ 63 - 1) :
    brineAdd a b = (BitVec.ofInt 64 (a.toInt + b.toInt), false) := by
  rw [brineAdd, if_neg hu.not_gt, if_neg hl.not_gt]

theorem brineAdd_above (h : 2 ^ 63 - 1 < a.toInt + b.toInt) :
    brineAdd a b = (BitVec.ofInt 64 (2 ^ 63 - 1), true) := if_pos h

theorem brineAdd_below (h : a.toInt + b.toInt < -2 ^ 63) : brineAdd a b = (BitVec.ofInt 64 (-2 ^ 63), true) := by
  rw [brineAdd, if_neg (by omega), if_pos h]

theorem toInt_brineAdd_within (hl : -2 ^ 63 ≤ a.toInt + b.toInt) (hu : a.toInt + b.toInt ≤ 2 ^ 63 - 1) :
    (brineAdd a b).1.toInt = a.toInt + b.toInt := by
  rw [brineAdd_within hl hu, toInt_ofInt_64 hl hu]

theorem brineAdd_exact_iff :
    (brineAdd a b).2 = false ↔ -2 ^ 63 ≤ a.toInt + b.toInt ∧ a.toInt + b.toInt ≤ 2 ^ 63 - 1 := by
  constructor
  · intro h
    constructor <;> by_contra hz
    · simp [brineAdd_below (not_le.1 hz)] at h
    · simp [brineAdd_above (not_le.1 hz)] at h
  · rintro ⟨hl, hu⟩
    rw [brineAdd_within hl hu]

theorem toInt_brineAdd_of_exact (h : (brineAdd a b).2 = false) : (brineAdd a b).1.toInt = a.toInt + b.toInt :=
  let ⟨hl, hu⟩ := brineAdd_exact_iff.1 h
  toInt_brineAdd_within hl hu

theorem toInt_contribution (E : Int) (v : FVal) :
    (BitVec.ofInt 64 (contribution E v).1).toInt = (contribution E v).1 := by
  obtain ⟨hl, hu⟩ := abs_le.1 (abs_contribution_le E v)
  exact toInt_ofInt_64 (by omega) (by omega)

end

/-! ## Sums (R148, R163, R164) -/

section
variable {E : Int} {v : FVal} {l l' : List FVal} {acc : BitVec 64}

theorem le_brineSum_overflows (E : Int) (l : List FVal) (acc : BitVec 64) (n : Nat) :
    n ≤ (brineSum E l acc n).2 := by
  induction l generalizing acc n with
  | nil => exact le_rfl
  | cons v l ih => exact le_trans (by omega) (ih _ _)

/-- A sum without an overflow: neither the first contribution, nor its addition, nor the rest of the sum has one. -/
theorem brineSum_cons_exact_iff :
    (brineSum E (v :: l) acc 0).2 = 0 ↔
      (contribution E v).2 = false ∧ (brineAdd acc (BitVec.ofInt 64 (contribution E v).1)).2 = false ∧
      (brineSum E l (brineAdd acc (BitVec.ofInt 64 (contribution E v).1)).1 0).2 = 0 := by
  have hle := le_brineSum_overflows E l (brineAdd acc (BitVec.ofInt 64 (contribution E v).1)).1
  rw [brineSum]
  cases (contribution E v).2 <;> cases (brineAdd acc (BitVec.ofInt 64 (contribution E v).1)).2
  case false.false => simp
  case false.true => simpa using Nat.ne_of_gt (hle 1)
  case true.false => simpa using Nat.ne_of_gt (hle 1)
  case true.true => simpa using Nat.ne_of_gt (one_le_two.trans (hle 2))

theorem brineSum_cons_word (h : (brineSum E (v :: l) acc 0).2 = 0) :
    (brineSum E (v :: l) acc 0).1 =
      (brineSum E l (brineAdd acc (BitVec.ofInt 64 (contribution E v).1)).1 0).1 := by
  obtain ⟨hc, ha, -⟩ := brineSum_cons_exact_iff.1 h
  simp [brineSum, hc, ha]

/-- A sum without an overflow is the exact sum of the contributions on the starting word. -/
theorem toInt_brineSum (h : (brineSum E l acc 0).2 = 0) :
    (brineSum E l acc 0).1.toInt = acc.toInt + (l.map fun v => (contribution E v).1).sum := by
  induction l generalizing acc with
  | nil => simp [brineSum]
  | cons v l ih =>
    obtain ⟨-, ha, hrest⟩ := brineSum_cons_exact_iff.1 h
    rw [brineSum_cons_word h, ih hrest, toInt_brineAdd_of_exact ha, toInt_contribution, List.map_cons, List.sum_cons,
      add_assoc]

/-- R163 for one element: the exact sum does not depend on the order, and a word is determined by its integer. -/
theorem brineSum_perm (hl : l.Perm l') (h : (brineSum E l acc 0).2 = 0) (h' : (brineSum E l' acc 0).2 = 0) :
    (brineSum E l acc 0).1 = (brineSum E l' acc 0).1 := by
  rw [← BitVec.toInt_inj, toInt_brineSum h, toInt_brineSum h', (hl.map _).sum_eq]

/-- No addition saturates while the starting word leaves room for every contribution at its greatest. -/
theorem brineSum_exact_of_room (hl : ∀ v ∈ l, (contribution E v).2 = false)
    (hroom : |acc.toInt| + l.length * (2 ^ 44 - 1) ≤ 2 ^ 63 - 1) : (brineSum E l acc 0).2 = 0 := by
  induction l generalizing acc with
  | nil => rfl
  | cons v l ih =>
    obtain ⟨hv, hl⟩ := List.forall_mem_cons.1 hl
    have hc := abs_contribution_le E v
    have hsum := abs_add_le acc.toInt (contribution E v).1
    rw [List.length_cons, Nat.cast_succ, add_one_mul] at hroom
    have hadd : (brineAdd acc (BitVec.ofInt 64 (contribution E v).1)).2 = false := by
      rw [brineAdd_exact_iff, toInt_contribution]
      have hz := abs_le.1 (hsum.trans (show _ ≤ (2 ^ 63 - 1 : Int) by omega))
      omega
    refine brineSum_cons_exact_iff.2 ⟨hv, hadd, ih hl ?_⟩
    rw [toInt_brineAdd_of_exact hadd, toInt_contribution]
    omega

end

/-- Settles O13: R146 by the floor of a shifted significand, R147 by the three ranges of the exact sum, R163 from the
exact integer of a sum without an overflow, and R164 from the bound of R148. -/
theorem brineArithmetic : Obligations.BrineArithmetic := by
  unfold Obligations.BrineArithmetic
  refine ⟨⟨fun E => ⟨rfl, contribution_inf E, fun n m e => ?_⟩, fun a b => ⟨fun hl hu => ?_, fun h => ?_, fun h => ?_⟩⟩,
    fun E l l' acc hl h h' => ⟨brineSum_perm hl h h', toInt_brineSum h⟩, fun E l hlen hl => ?_⟩
  · exact ⟨contribution_fin_below n, contribution_fin_above n⟩
  · exact ⟨toInt_brineAdd_within hl hu, brineAdd_exact_iff.2 ⟨hl, hu⟩⟩
  · rw [brineAdd_above h]
    exact ⟨toInt_ofInt_64 (by decide) le_rfl, rfl⟩
  · rw [brineAdd_below h]
    exact ⟨toInt_ofInt_64 le_rfl (by decide), rfl⟩
  · have hzero : (0 : BitVec 64).toInt = 0 := rfl
    refine brineSum_exact_of_room hl ?_
    rw [hzero, abs_zero]
    omega

end Sys2Proof.Machine

end

section

/-! PROOFS. The mailbox: slots and completions, information, the configuration sets (06_mailboxes). -/

namespace Sys2Proof.Machine

/-! ## Slots (R208 to R211) -/

theorem Mail.own_setOwn_of_wf (m : Mail) (slot : Nat) (b : Byte) (h : Memory.wf m.bar2 = true) :
    (m.setOwn slot b).own slot = b :=
  Cells.get_set_self _ b h

section
variable {s : State} {slot : Nat}

theorem exec_slotPost_free (hup : s.hostUp = true) (hslot : slot < 1024) (h : s.mail.own slot = 0 ∨ s.mail.own slot = 3) :
    exec (.slotPost slot) s =
      .next { s with mail := { s.mail.setOwn slot ownPosted with posted := s.mail.posted ++ [slot] } } := by
  have hrefused : ¬(!s.hostUp || decide (1024 ≤ slot)) = true := by simp [hup, hslot]
  have hn : s.mail.own slot ≠ ownTaken ∧ s.mail.own slot ≠ ownPosted := by
    rcases h with h | h <;> rw [h] <;> decide
  exact congrArg _ ((if_neg hrefused).trans ((if_neg hn.1).trans (if_neg hn.2)))

theorem exec_slotWithdraw_untaken (hup : s.hostUp = true) (hslot : slot < 1024) (h : s.mail.own slot ≠ 2) :
    exec (.slotWithdraw slot) s = .next { s with mail := { s.mail.setOwn slot ownFree with
      posted := s.mail.posted.filter (· != slot) } } := by
  have hrefused : ¬(!s.hostUp || decide (1024 ≤ slot)) = true := by simp [hup, hslot]
  exact congrArg _ ((if_neg hrefused).trans (if_neg h))

/-- A write of the host to a taken slot is ignored and noted (R209). -/
theorem exec_slot_taken (hup : s.hostUp = true) (hslot : slot < 1024) (h : s.mail.own slot = 2) :
    exec (.slotPost slot) s = .next { s with mail := { s.mail with errTakenWrite := true } } ∧
    exec (.slotWithdraw slot) s = .next { s with mail := { s.mail with errTakenWrite := true } } := by
  have hrefused : ¬(!s.hostUp || decide (1024 ≤ slot)) = true := by simp [hup, hslot]
  exact ⟨congrArg _ ((if_neg hrefused).trans (if_pos h)), congrArg _ ((if_neg hrefused).trans (if_pos h))⟩

/-- One byte of a slot behind its `OWN` byte. -/
theorem exec_slotWrite_byte {off : Nat} (b : Byte) (hup : s.hostUp = true) (hslot : slot < 1024) (h0 : 0 < off)
    (h256 : off < 256) : exec (.slotWrite (slot * 256 + off) [b]) s = .next { s with
      mail := if s.mail.own slot = 2 then { s.mail with errTakenWrite := true }
        else { s.mail with bar2 := Cells.set s.mail.bar2 (slot * 256 + off) b } } := by
  have hdiv : (slot * 256 + off) / 256 = slot := by omega
  have hmod : (slot * 256 + off) % 256 ≠ 0 := by omega
  have hb : s.mail.hostBytes (slot * 256 + off) [b] = if s.mail.own slot = 2 then { s.mail with errTakenWrite := true }
      else { s.mail with bar2 := Cells.set s.mail.bar2 (slot * 256 + off) b } := by
    rw [Mail.hostBytes, if_neg hmod, Mail.hostBytes, Mail.hostByte, hdiv, if_neg (by omega), if_pos hmod]
    rfl
  rw [← hb]
  exact congrArg _ (if_pos hup)

/-- The state in which a slot has been taken. -/
def State.takeSlot (s : State) (slot : Nat) : State :=
  { s with mail := { s.mail.setOwn slot ownTaken with
    posted := s.mail.posted.filter (· != slot), taken := s.mail.taken ++ [s.header slot] } }

theorem exec_slotTake (htakes : s.takes = true) (hslot : slot < 1024) (hown : s.mail.own slot = 1)
    (hnext : s.mail.nextTaken slot = true) : exec (.slotTake slot) s = match s.checkTaken (s.header slot) with
      | some r => .next ((s.takeSlot slot).complete (s.header slot) r)
      | none => .next (s.takeSlot slot) := by
  have hc : (s.takes && decide (slot < 1024) && s.mail.own slot == ownPosted && s.mail.nextTaken slot) = true := by
    simp [htakes, hslot, hown, hnext, ownPosted]
  exact if_pos hc

theorem exec_slotTake_outOfTurn (h : s.mail.nextTaken slot = false) : exec (.slotTake slot) s = .next s :=
  if_neg (by simp [h])

end

/-! ## Completion records (R212, R213) -/

theorem find_putBytes_outside (m : SMap Byte) (a : Nat) (l : List Byte) {j : Nat} (hj : j < a ∨ a + l.length ≤ j) :
    SMap.find (putBytes m a l) j = SMap.find m j := by
  induction l generalizing m a with
  | nil => rfl
  | cons b l ih =>
    rw [List.length_cons] at hj
    exact (ih _ _ (by omega)).trans (SMap.find_put_other _ _ _ _ (by omega))

/-- Bytes written to host memory read back. -/
theorem find_putBytes_inside (m : SMap Byte) (a : Nat) (l : List Byte) {i : Nat} (hi : i < l.length) :
    SMap.find (putBytes m a l) (a + i) = some l[i] := by
  induction l generalizing m a i with
  | nil => exact absurd hi (Nat.not_lt_zero i)
  | cons b l ih =>
    cases i with
    | zero => exact (find_putBytes_outside _ _ l (.inl (Nat.lt_succ_self a))).trans (SMap.find_put_self _ _ _)
    | succ i =>
      rw [show a + (i + 1) = a + 1 + i by omega]
      exact ih (SMap.put m a b) (a + 1) (Nat.lt_of_succ_lt_succ hi)

/-- A field of host memory where bytes have been written is the field of those bytes. -/
theorem leNat_putBytes (m : SMap Byte) (a : Nat) (l : List Byte) {off n : Nat} (h : off + n ≤ l.length) :
    leNat ((List.range n).map fun i => (SMap.find (putBytes m a l) (a + off + i)).getD 0) = gatherDesc l off n := by
  unfold gatherDesc
  congr 1
  refine List.ext_getElem (by simp; omega) fun i hi _ => ?_
  simp only [List.length_map, List.length_range] at hi
  rw [List.getElem_map, List.getElem_range, Nat.add_assoc, find_putBytes_inside m a l (by omega)]
  simp

theorem gatherDesc_leBytes_head (n v : Nat) (l : List Byte) : gatherDesc (leBytes n v ++ l) 0 n = v % 256 ^ n := by
  rw [gatherDesc, List.drop_zero, List.take_left' (length_leBytes n v), leNat_leBytes]

theorem gatherDesc_leBytes_tail (k v : Nat) (l : List Byte) {off : Nat} (n : Nat) (h : k ≤ off) :
    gatherDesc (leBytes k v ++ l) off n = gatherDesc l (off - k) n := by
  rw [gatherDesc, gatherDesc, List.drop_append, List.drop_eq_nil_of_le (by rw [length_leBytes]; exact h), List.nil_append,
    length_leBytes]

theorem length_completionRecord (t : Taken) (r : Report) (frame : BitVec 64) (off : Nat) :
    (completionRecord t r frame off).length = 64 := by
  simp [completionRecord, length_leBytes]

/-- The fields of a completion record at their offsets (R212). -/
theorem completionRecord_fields (t : Taken) (r : Report) (frame : BitVec 64) (off : Nat) :
    let l := completionRecord t r frame off
    gatherDesc l 0 4 = t.seq.toNat ∧ gatherDesc l 4 1 = r.status % 256 ∧ gatherDesc l 5 1 = t.opcode.toNat ∧
    gatherDesc l 8 8 = r.r0 % 2 ^ 64 ∧ gatherDesc l 0x10 8 = r.r1 % 2 ^ 64 ∧ gatherDesc l 0x18 8 = r.r2 % 2 ^ 64 ∧
    gatherDesc l 0x20 8 = r.r3 % 2 ^ 64 ∧ gatherDesc l 0x28 8 = r.energy % 2 ^ 64 ∧
    gatherDesc l 0x30 8 = frame.toNat ∧ gatherDesc l 0x3C 4 = 0 := by
  have hlast : gatherDesc (leBytes 4 0) 0 4 = 0 := rfl
  simpa [completionRecord, gatherDesc_leBytes_head, gatherDesc_leBytes_tail, hlast] using
    ⟨t.seq.isLt, t.opcode.isLt, frame.isLt⟩

section
variable (s : State) (t : Taken) (r : Report)

/-- The record that a completion writes; its cycle in the frame is free. -/
def State.recordOf : List Byte := completionRecord t r s.power.frame (s.free.1 % 4000)

theorem State.complete_host : (s.complete t r).mem.host = if s.free.2.hostFails then s.mem.host
    else putBytes s.mem.host (s.mail.cmplBase.toNat + t.slot * 64) (s.recordOf t r) := rfl

theorem State.complete_own : (s.complete t r).mail.own t.slot = 3 :=
  Mail.own_setOwn s.mail t.slot (b := ownReturned) (by decide)

theorem State.complete_taken : (s.complete t r).mail.taken = s.mail.taken.filter fun x => x.slot != t.slot := rfl

theorem State.complete_frameVecs : (s.complete t r).mail.frameVecs =
    if t.noirq || decide (63 < t.vec.toNat) || s.free.2.hostFails then s.mail.frameVecs
    else putBit s.mail.frameVecs t.vec.toNat true := rfl

theorem State.complete_errCmplFail :
    (s.complete t r).mail.errCmplFail = (s.mail.errCmplFail || s.free.2.hostFails) := rfl

end

/-- Settles O23: the rows of the slots one by one, and the record of a completion by its fields. -/
theorem slotsAndCompletions : Obligations.SlotsAndCompletions := by
  unfold Obligations.SlotsAndCompletions
  refine ⟨fun s slot hup hslot hwf => ?rows, fun s t r _ => ?completion⟩
  case rows =>
    obtain ⟨-, -, hbar, -⟩ := hwf
    refine ⟨fun ho => ?post, fun ho => ?withdraw, fun ho => ?taken, fun off b h0 h256 => ?write,
      fun htakes hown hnext => ?take, exec_slotTake_outOfTurn⟩
    case post =>
      exact ⟨_, exec_slotPost_free hup hslot ho, Mail.own_setOwn_of_wf s.mail slot ownPosted hbar, rfl,
        fun a ha => Cells.get_set_other s.mail.bar2 ownPosted ha, rfl⟩
    case withdraw =>
      exact ⟨_, exec_slotWithdraw_untaken hup hslot ho, Mail.own_setOwn_of_wf s.mail slot ownFree hbar, by simp⟩
    case taken =>
      obtain ⟨hpost, hwithdraw⟩ := exec_slot_taken hup hslot ho
      exact ⟨⟨_, hpost, rfl⟩, ⟨_, hwithdraw, rfl⟩⟩
    case write =>
      refine ⟨_, exec_slotWrite_byte b hup hslot h0 h256, ?_⟩
      split
      · rfl
      · exact ⟨Cells.get_set_self _ b hbar, fun a ha => Cells.get_set_other _ b ha⟩
    case take =>
      have hexec := exec_slotTake htakes hslot hown hnext
      refine ⟨fun r hr => ?_, fun hr => ?_⟩
      · rw [hexec, hr]
        rfl
      · rw [hexec, hr]
        exact ⟨rfl, Mail.own_setOwn_of_wf s.mail slot ownTaken hbar⟩
  case completion =>
    dsimp only
    refine ⟨s.complete_own t r, fun x hx => ?_, fun x hx hne => ?_, fun hok => ?_, fun hf => ?_, fun hno => ?_, rfl, rfl, rfl⟩
    · rw [s.complete_taken, List.mem_filter] at hx
      simpa using hx.2
    · rw [s.complete_taken, List.mem_filter]
      exact ⟨hx, by simpa using hne⟩
    · have hlen : (s.recordOf t r).length = 64 := length_completionRecord ..
      obtain ⟨h0, h4, h5, h8, h10, h18, h20, h28, h30, h3c⟩ := completionRecord_fields t r s.power.frame (s.free.1 % 4000)
      rw [s.complete_host, hok, if_neg Bool.false_ne_true, s.complete_frameVecs, s.complete_errCmplFail, hok]
      have hfield {off n : Nat} (h : off + n ≤ 64) := leNat_putBytes s.mem.host (s.mail.cmplBase.toNat + t.slot * 64)
        (s.recordOf t r) (hlen.symm ▸ h : off + n ≤ (s.recordOf t r).length)
      refine ⟨(hfield (by decide)).trans h0, (hfield (by decide)).trans h4, (hfield (by decide)).trans h5,
        (hfield (by decide)).trans h8, (hfield (by decide)).trans h10, (hfield (by decide)).trans h18,
        (hfield (by decide)).trans h20, (hfield (by decide)).trans h28, (hfield (by decide)).trans h30,
        (hfield (by decide)).trans h3c, fun hirq hvec => ?_, Bool.or_false _, fun a ha => ?_⟩
      · rw [if_neg (by simp [hirq]; omega), getLsbD_putBit_true _ hvec]
      · exact find_putBytes_outside _ _ _ (hlen.symm ▸ ha)
    · rw [s.complete_host, if_pos hf, s.complete_errCmplFail, s.complete_frameVecs, hf]
      exact ⟨rfl, Bool.or_true _, if_pos (by simp)⟩
    · rw [s.complete_frameVecs, hno]
      rfl

end Sys2Proof.Machine

end

section

/-! PROOFS. The mailbox: levels, information, the configuration sets (06_mailboxes). -/

namespace Sys2Proof.Machine

/-! ## Commands that start -/

section
variable {s : State} {slot op : Nat} {t : Taken}

theorem command_of_startable (h : s.startable slot op = some t) (f : Taken → State) : command slot op s f = .next (f t) := by
  rw [command, h]

theorem State.startable_find (h : s.startable slot op = some t) : s.mail.taken.find? (fun x => x.slot == slot) = some t := by
  unfold State.startable at h
  split at h
  case h_1 x hx =>
    split at h
    · exact hx.trans h
    · cases h
  case h_2 => cases h

theorem State.startable_slot (h : s.startable slot op = some t) : t.slot = slot := by
  simpa using List.find?_some (State.startable_find h)

/-- A command that has started is marked in the list of taken commands, and nothing else changes. -/
theorem State.markStarted_started (s : State) (slot : Nat) :
    ∀ x ∈ (s.markStarted slot).mail.taken, x.slot = slot → x.started = true := by
  intro x hx hslot
  obtain ⟨y, -, rfl⟩ := List.mem_map.1 (show x ∈ s.mail.taken.map _ from hx)
  by_cases hy : y.slot = slot
  · rw [if_pos hy]
  · rw [if_neg hy] at hslot
    exact absurd hslot hy

end

/-! ## Bytes of a configuration set (R224) -/

theorem cfg_one (k : ConfigSet) (i : Nat) : cfg k i 1 = (k.extractLsb' (8 * i) 8).toNat := by
  rw [cfg, BitVec.extractLsb'_toNat, Nat.shiftRight_eq_div_pow]

/-- One byte written to a set. -/
theorem cfg_putByte (k : ConfigSet) (b : Byte) {j : Nat} (hj : j < 256) (i : Nat) :
    cfg ((k &&& ~~~((0xFF : ConfigSet) <<< (8 * j))) ||| ((b.setWidth 2048 : ConfigSet) <<< (8 * j))) i 1 =
      if i = j then b.toNat else cfg k i 1 := by
  have hmask (x : Nat) : (0xFF : ConfigSet).getLsbD x = (decide (x < 2048) && decide (x < 8)) := by
    rw [show (0xFF : ConfigSet) = BitVec.ofNat 2048 (2 ^ 8 - 1) from rfl, BitVec.getLsbD_ofNat, Nat.testBit_two_pow_sub_one]
  rw [cfg_one, cfg_one]
  generalize (0xFF : ConfigSet) = m at hmask ⊢
  split
  case isTrue h =>
    subst h
    refine congrArg _ (BitVec.eq_of_getLsbD_eq fun x hx => ?_)
    have hlt : 8 * i + x < 2048 := by omega
    have hx' : x < 2048 := by omega
    simp [hx, hlt, hmask, hx']
  case isFalse h =>
    refine congrArg _ (BitVec.eq_of_getLsbD_eq fun x hx => ?_)
    by_cases hin : 8 * i + x < 2048
    · by_cases hlt : 8 * i + x < 8 * j
      · simp [hlt, hin]
      · have hge : 8 ≤ 8 * i + x - 8 * j := by omega
        have hm : m.getLsbD (8 * i + x - 8 * j) = false := by rw [hmask, decide_eq_false (Nat.not_lt.2 hge), Bool.and_false]
        simp [hm, hin, hge, -BitVec.getLsbD_eq_getElem]
    · simp [hin, BitVec.getLsbD_of_ge k _ (Nat.not_lt.1 hin)]

theorem cfg_cfgPut (k : ConfigSet) (off : Nat) (l : List Byte) (h : off + l.length ≤ 256) (i : Nat) :
    cfg (cfgPut k off l) i 1 =
      if off ≤ i ∧ i < off + l.length then (l.getD (i - off) 0).toNat else cfg k i 1 := by
  unfold cfgPut
  generalize hn : l.length = n at h ⊢
  clear hn
  induction n with
  | zero => rw [if_neg (by omega)]; rfl
  | succ n ih =>
    rw [List.range_succ, List.foldl_append]
    refine (cfg_putByte _ _ (by omega) i).trans ?_
    rw [ih (by omega)]
    by_cases hi : i = off + n
    · rw [if_pos hi, if_pos (by omega), hi, Nat.add_sub_cancel_left]
    · rw [if_neg hi]
      exact if_congr (by omega) rfl rfl

/-- The bytes of a body, one by one. -/
theorem State.bodyBytes_getD (s : State) (slot off : Nat) {n i : Nat} (h : i < n) :
    ((s.bodyBytes slot off n).getD i 0).toNat = s.body slot (off + i) 1 := by
  simp [State.bodyBytes, Mail.bytes, State.body, Mail.field, leNat, h, Nat.add_assoc]

theorem State.length_bodyBytes (s : State) (slot off n : Nat) : (s.bodyBytes slot off n).length = n := by
  simp [State.bodyBytes, Mail.bytes]

/-! ## HELLO, GET_INFO and the configuration sets (R214, R218, R219, R224 to R226) -/

section
variable {s : State} {slot : Nat} {t : Taken}

theorem State.bufOk_iff (s : State) (slot : Nat) : s.bufOk slot = true ↔ s.body slot 8 8 % 64 = 0 ∧ s.body slot 0x10 4 % 64 = 0 := by
  simp [State.bufOk]

theorem exec_hello (h : s.startable slot opHello = some t) : exec (.hello slot) s = .next (
    if !(decide (s.body slot 1 1 ≤ 0x10 ∧ 0x10 ≤ s.body slot 0 1)) then s.complete t (.of stBadLevel)
    else if s.mail.taken.length ≠ 1 then s.complete t (.of stWrongState)
    else { s with mail := { s.mail with negotiated := true, level := 0x10 } }.complete t
      { Report.of stDone with
        r0 := 0x10 + 0x10 * 2 ^ 8 + 1024 * 2 ^ 16
        r1 := providedLevel (s.sec.runningImages.getD 2 none) 0x01 }) :=
  command_of_startable h _

theorem exec_getInfo (h : s.startable slot opGetInfo = some t) (hbuf : s.bufOk slot = true) : exec (.getInfo slot) s =
    .next (if 2 < s.body slot 0 1 then s.complete t (.of stBadField)
      else if s.body slot 0 1 = 0 then s.giveBuf t s.identityPage
      else if s.body slot 0 1 = 1 then s.giveBuf t s.topologyPage
      else s.giveBuf t (s.retiredPages (s.body slot 4 4))) := by
  refine (command_of_startable h _).trans (congrArg _ ?_)
  simp [hbuf]

theorem exec_configRead (h : s.startable slot opConfigRead = some t) (hbuf : s.bufOk slot = true)
    (hset : s.body slot 0 1 ≤ 1) : exec (.configRead slot) s = .next (s.giveBuf t
      (leBytes 256 (if s.body slot 0 1 = 0 then s.config.active else s.config.shadow).toNat)) := by
  refine (command_of_startable h _).trans (congrArg _ (if_neg ?_))
  simp [hbuf, hset]

theorem exec_configWriteShadow (h : s.startable slot opConfigWrite = some t) (h1 : 1 ≤ s.body slot 2 2)
    (h176 : s.body slot 2 2 ≤ 176) (h256 : s.body slot 0 2 + s.body slot 2 2 ≤ 256) : exec (.configWriteShadow slot) s =
    .next (if s.config.swap.isSome then s.complete t (.of stBusy)
      else { s with config := { s.config with
        shadow := cfgPut s.config.shadow (s.body slot 0 2) (s.bodyBytes slot 0x10 (s.body slot 2 2)) } }.complete t
          (.of stDone)) :=
  (command_of_startable h _).trans (congrArg _ (if_neg (by omega)))

theorem exec_configSwap (h : s.startable slot opConfigSwap = some t) (hswap : s.config.swap = none) :
    exec (.configSwap slot) s = .next (match s.cfgBad s.config.shadow with
      | some off => s.complete t { Report.of stBadField with r0 := off }
      | none =>
        if s.config.shadow.getLsbD 33 ∧ !s.floorFits (cfg s.config.shadow 6 2) then s.complete t (.of stRefusedPower)
        else { s.markStarted slot with config := { s.config with swap := some slot } }) :=
  (command_of_startable h _).trans (congrArg _ (if_neg (by simp [hswap])))

end

/-- Settles O24, command by command. -/
theorem informationAndConfiguration : Obligations.InformationAndConfiguration := by
  unfold Obligations.InformationAndConfiguration
  refine ⟨fun s slot t => ⟨fun h hlow hhigh hone => ?hello, fun h hlevel => ?badLevel, fun h haddr hlen => ?pages,
    fun h haddr hlen hset => ?read⟩,
    fun s slot t => ⟨fun h h1 h176 h256 hswap => ?write, fun h hswap h1 h176 h256 => ?busy, fun h hswap => ?swap⟩⟩
  case hello => rw [exec_hello h, if_neg (by simp [hlow, hhigh]), if_neg (by simp [hone])]
  case badLevel => rw [exec_hello h, if_pos (by simp; omega)]
  case pages =>
    have hexec := exec_getInfo h ((s.bufOk_iff slot).2 ⟨haddr, hlen⟩)
    obtain rfl := State.startable_slot h
    refine ⟨fun hp => ?_, fun hp => ?_, fun hp => ?_, fun hp => hexec.trans (congrArg _ (if_pos hp))⟩
    · exact hexec.trans (congrArg _ ((if_neg (by omega)).trans (if_pos hp)))
    · exact hexec.trans (congrArg _ ((if_neg (by omega)).trans ((if_neg (by omega)).trans (if_pos hp))))
    · exact hexec.trans (congrArg _ ((if_neg (by omega)).trans ((if_neg (by omega)).trans (if_neg (by omega)))))
  case read =>
    have hexec := exec_configRead h ((s.bufOk_iff slot).2 ⟨haddr, hlen⟩) hset
    obtain rfl := State.startable_slot h
    exact hexec
  case write =>
    refine .of_next (exec_configWriteShadow h h1 h176 h256) (if_neg (by simp [hswap])) ⟨fun i => ?_, rfl, State.complete_own _ t _⟩
    refine (cfg_cfgPut _ _ _ (by rw [State.length_bodyBytes]; exact h256) i).trans ?_
    rw [State.length_bodyBytes]
    split
    case isTrue hi => exact State.bodyBytes_getD _ _ _ (by omega)
    case isFalse => rfl
  case busy =>
    exact (exec_configWriteShadow h h1 h176 h256).trans (congrArg _ (if_pos (Option.isSome_iff_ne_none.2 hswap)))
  case swap =>
    refine ⟨fun off hbad => ?_, fun hok hfloor => ?_⟩
    · rw [exec_configSwap h hswap, hbad]
    · have hexec := exec_configSwap h hswap
      rw [hok] at hexec
      refine .of_next hexec (if_neg ?_) ⟨rfl, s.markStarted_started slot⟩
      rcases hfloor with hf | hf <;> simp [hf, -BitVec.getLsbD_eq_getElem]

end Sys2Proof.Machine

end

section

/-! PROOFS. The mailbox: the power commands (06_mailboxes, 11_power). -/

namespace Sys2Proof.Machine

/-! ## POWER_CAP and POWER_FIXED (R376, R382) -/

/-- The sixteen frequencies of the V/F table name its points (R367). -/
theorem pointOf_frequency : ∀ k < 16, pointOf (900 + 100 * k) = some k := by decide

section
variable {s : State} {slot : Nat} {t : Taken}

/-- A write that waits is the last of the waiting writes, and neither the active set nor power has changed. -/
theorem State.waitWrite_frame (s : State) (w : ActiveWrite) : (s.waitWrite w).config.writes = s.config.writes ++ [w] ∧
    (s.waitWrite w).config.active = s.config.active ∧ (s.waitWrite w).power = s.power ∧ (s.waitWrite w).parts = s.parts :=
  ⟨rfl, rfl, rfl, rfl⟩

theorem exec_powerCap (h : s.startable slot opPowerCap = some t) : exec (.powerCap slot) s = .next (
    if s.body slot 0 2 < 1500 ∨ 5000 < s.body slot 0 2 ∨ 2 < s.body slot 2 1 then s.complete t (.of stBadField)
    else if s.config.swap.isSome then s.complete t (.of stBusy)
    else s.waitWrite { noWrite slot with
      cap := some (BitVec.ofNat 16 (s.body slot 0 2))
      boost := if s.body slot 2 1 = 0 then none else some (decide (s.body slot 2 1 = 1)) }) :=
  command_of_startable h _

theorem exec_powerFixedEnter {k : Nat} (h : s.startable slot opPowerFixed = some t) (hswap : s.config.swap = none)
    (hop : s.body slot 0 1 = 1) (hk : k < 16) (hmhz : s.body slot 2 2 = 900 + 100 * k) :
    exec (.powerFixedEnter slot) s = .next (
      if s.power.effCap < floorW k then
        s.complete t { Report.of stRefusedPower with r0 := floorW k, r1 := s.power.effCap }
      else s.waitWrite { noWrite slot with fixed := some true, mhz := some (BitVec.ofNat 16 (s.body slot 2 2)) }) := by
  have hpoint : pointOf (s.body slot 2 2) = some k := hmhz ▸ pointOf_frequency k hk
  have hfits : s.floorFits (s.body slot 2 2) = decide (floorW k ≤ s.power.effCap) := by rw [State.floorFits, hpoint]; rfl
  refine ((if_neg (by omega)).trans (command_of_startable h _)).trans (congrArg _ ?_)
  simp [hpoint, hop, hswap, hfits]

theorem exec_powerFixedLeave (h : s.startable slot opPowerFixed = some t) (hswap : s.config.swap = none)
    (hop : s.body slot 0 1 = 0) (hmhz : s.body slot 2 2 = 0) :
    exec (.powerFixedLeave slot) s = .next (s.waitWrite { noWrite slot with fixed := some false }) := by
  refine ((if_neg (not_not.2 hop)).trans (command_of_startable h _)).trans (congrArg _ ?_)
  simp [hmhz, hswap]

/-! ## ENERGY_READ (R383 to R385, R430) -/

theorem exec_energyReadTotals (h : s.startable slot opEnergyRead = some t) (hop : s.body slot 0 1 = 0) :
    exec (.energyReadTotals slot) s = .next (
      let r := s.energyTotals t.part.toNat t.ctx.toNat
      s.complete t { Report.of stDone with
        r0 := r.1.1, r1 := r.1.2.1, r2 := r.1.2.2, r3 := s.power.attributed.toNat
        flags := if r.2 then cflagCoarse else 0 }) :=
  ((if_neg (by omega)).trans (command_of_startable h _)).trans (congrArg _ (if_neg (not_not.2 hop)))

/-- The totals of the module, rounded beside a confidential partition (R430). -/
theorem State.energyTotals_module (s : State) (c : Nat) : s.energyTotals 0xFF c =
    if s.anyConf then
      ((coarseUj s.power.moduleUj, coarseUj s.power.railsUj, coarseUj s.power.unattributedUj), true)
    else ((s.power.moduleUj, s.power.railsUj, s.power.unattributedUj), false) := rfl

theorem State.energyTotals_open {p : Nat} (c : Nat) (hp : p ≠ 0xFF) (hconf : (s.part p).conf = false) :
    s.energyTotals p c = (if c = 0xFF then ((s.part p).totalUj, (s.part p).ioUj, (s.part p).lossUj)
      else ((s.ctx p c).totalUj, (s.ctx p c).runUj, (s.ctx p c).moverUj), false) := by
  rw [State.energyTotals, if_neg hp]
  exact if_neg (by simp [hconf])

/-- The records of a telemetry read go to the host's buffer, and the command completes. -/
theorem energyReadTelemetry_answers (h : s.startable slot opEnergyRead = some t) (hop : s.body slot 0 1 = 1)
    (hbuf : s.energyBufOk t = true) : Answers (.energyReadTelemetry slot) s fun u =>
      u.mail.own t.slot = 3 ∧ u.power = s.power ∧ u.cells = s.cells :=
  .of_next ((if_neg (not_not.2 hop)).trans (command_of_startable h _)) (if_neg (by simp [hbuf]))
    ⟨State.complete_own _ t _, rfl, rfl⟩

theorem exec_energyReadStatus (h : s.startable slot opEnergyRead = some t) (hop : s.body slot 0 1 = 2)
    (hbuf : s.energyBufOk t = true) : exec (.energyReadStatus slot) s = .next (s.giveBuf t s.statusRecord) :=
  ((if_neg (not_not.2 hop)).trans (command_of_startable h _)).trans (congrArg _ (if_neg (by simp [hbuf])))

end

/-- Settles O43, command by command. -/
theorem powerCommands : Obligations.PowerCommands := by
  unfold Obligations.PowerCommands
  rintro s slot t rfl
  refine ⟨fun h => ⟨fun hlow hhigh hboost => ⟨fun hswap => ?cap, fun hswap => ?busy⟩, fun hbad => ?badField⟩,
    fun h hswap => ⟨fun k hop hk hmhz => ⟨fun hfits => ?enter, fun hfloor => ?refused⟩, fun hop hmhz => ?leave⟩,
    fun h => ⟨fun hop hp => ?module, fun hop hp hconf => ?part, fun hop hbuf => ?telemetry, exec_energyReadStatus h⟩⟩
  case cap =>
    exact .of_next (exec_powerCap h) ((if_neg (by omega)).trans (if_neg (by simp [hswap]))) (s.waitWrite_frame _)
  case busy =>
    exact (exec_powerCap h).trans (congrArg _ ((if_neg (by omega)).trans (if_pos (Option.isSome_iff_ne_none.2 hswap))))
  case badField => exact (exec_powerCap h).trans (congrArg _ (if_pos hbad))
  case enter =>
    exact .of_next (exec_powerFixedEnter h hswap hop hk hmhz) (if_neg (Nat.not_lt.2 hfits)) (s.waitWrite_frame _)
  case refused => exact (exec_powerFixedEnter h hswap hop hk hmhz).trans (congrArg _ (if_pos hfloor))
  case leave => exact ⟨_, exec_powerFixedLeave h hswap hop hmhz, s.waitWrite_frame _⟩
  case module =>
    rw [exec_energyReadTotals h hop, hp, s.energyTotals_module]
    cases s.anyConf <;> rfl
  case part => rw [exec_energyReadTotals h hop, State.energyTotals_open _ hp hconf]
  case telemetry => exact energyReadTelemetry_answers h hop hbuf

end Sys2Proof.Machine

end

section

/-! PROOFS. The data object exchange of the mailbox: IDE_KM, TDISP and CDAT requests (06_mailboxes, 13_security). -/

namespace Sys2Proof.Machine

/-! ## Requests over DOE (R195, R422) -/

section
variable {s : State} {cn : Conn}

/-- A request over DOE is answered while the link is up and the command processor runs. -/
theorem receive_doe (r : Request) (htr : cn.tr = .doe) (hup : s.board.cxlUp = true) (hrun : s.cmdPaused = false) :
    receive cn r s = .next (s.atSec cn r) := by
  have hlink : ¬(!s.hostUp) = true := by simp [State.hostUp, hup]
  have hpause : ¬s.cmdPaused = true := Bool.eq_false_iff.1 hrun
  exact congrArg _ ((if_pos htr).trans ((if_neg hlink).trans (if_neg hpause)))

theorem State.doeSecure_inside (f : State) (htr : cn.tr = .doe) (hin : s.inSession cn = true) : s.doeSecure cn f = f :=
  (if_pos htr).trans (if_pos hin)

theorem State.doeSecure_outside (f : State) (htr : cn.tr = .doe) (hin : s.inSession cn = false) :
    s.doeSecure cn f = s.emit (.spdmError .doe .unexpectedRequest []) := by
  have hout : ¬s.inSession cn = true := Bool.eq_false_iff.1 hin
  refine (if_pos htr).trans ((if_neg hout).trans ?_)
  rw [State.refuse, htr]

/-- The device security requests, each with what it does within a secured session. -/
theorem exec_doeRequests (hsec : s.secServes = true) (htr : cn.tr = .doe) (hup : s.board.cxlUp = true)
    (hrun : s.cmdPaused = false) (x : IdeStream) (set sub : Nat) (m : TdispMsg) :
    exec (.ideKmQuery cn x) s = .next (s.onIdeQuery cn x) ∧ exec (.keyProg cn x set sub) s = .next (s.onKeyProg cn x set sub) ∧
    exec (.kSetGo cn x set sub) s = .next (s.onSetGo cn x set sub) ∧
    exec (.kSetStop cn x set sub) s = .next (s.onSetStop cn x set sub) ∧
    exec (.tdispRequest cn m) s = .next (s.onTdisp cn m) :=
  have hserve (r : Request) (f : State) (hr : s.atSec cn r = if s.secServes then f else s.relay cn r) :
      receive cn r s = .next f :=
    (receive_doe r htr hup hrun).trans (congrArg _ (hr.trans (if_pos hsec)))
  ⟨hserve _ _ rfl, hserve _ _ rfl, hserve _ _ rfl, hserve _ _ rfl, hserve _ _ rfl⟩

/-- The CDAT is the command processor's own, and needs no session. -/
theorem exec_cdatTableAccess (entry : Nat) (hup : s.board.cxlUp = true) (hrun : s.cmdPaused = false) :
    exec (.cdatTableAccess entry) s = .next (s.onCdat entry) :=
  receive_doe (cn := { tr := .doe, session := none }) (.cdat entry) rfl hup hrun

end

/-! ## What ends when an admission condition ceases to hold (R424) -/

@[simp] theorem State.still_uncommit (s : State) (f : Window → Bool) : (s.uncommit f).still = s.still := rfl

@[simp] theorem State.still_stopConf (s : State) (all : Bool) : (s.stopConf all).still = s.still := by
  refine foldl_keeps State.still _ (fun a p => foldl_keeps State.still _ (fun b c => ?_) _ _) _ _
  split
  · exact b.still_stopContext p c stKilled
  · rfl

theorem State.settleAdmission_sec (before s : State) : (State.settleAdmission before s).sec = s.sec := by
  have hstill : (State.settleAdmission before s).still = s.still := by
    unfold State.settleAdmission
    dsimp only
    split
    · simp [State.admissionLost]
    · split
      · simp [State.hostAdmissionLost]
      · rfl
  exact (congrArg State.sec hstill :)

theorem State.setTdi_tdi (s : State) (t : TdiState) : (s.setTdi t).sec.tdi = t := by
  rw [State.setTdi, State.settleAdmission_sec]

/-! ## Key sets (R422) -/

section
variable (s : State) (x : IdeStream)

@[simp] theorem State.ide_setIde (v : IdeState) : (s.setIde x v).ide x = v := by cases x <;> rfl

@[simp] theorem State.out_setIde (v : IdeState) : (s.setIde x v).out = s.out := by cases x <;> rfl

@[simp] theorem State.ide_emit (m : OutMsg) : (s.emit m).ide x = s.ide x := by cases x <;> rfl

theorem State.ide_of_sec {s t : State} (h : t.sec = s.sec) (x : IdeStream) : t.ide x = s.ide x := by
  cases x <;> simp [State.ide, h]

end

section
variable {s : State} {cn : Conn} {x : IdeStream} {set sub : Nat}

theorem State.onKeyProg_free (htr : cn.tr = .doe) (hin : s.inSession cn = true) (hset : set < 2)
    (hgo : (set, sub) ∉ (s.ide x).go) : s.onKeyProg cn x set sub = (s.setIde x { s.ide x with
      programmed := (set, sub) :: (s.ide x).programmed.filter (· != (set, sub)) }).ideReply 2 0 :=
  (State.doeSecure_inside _ htr hin).trans (if_neg (by simp [hset, hgo]))

theorem State.onKeyProg_inUse (htr : cn.tr = .doe) (hin : s.inSession cn = true)
    (h : 2 ≤ set ∨ (set, sub) ∈ (s.ide x).go) : s.onKeyProg cn x set sub = s.ideReply 2 1 :=
  (State.doeSecure_inside _ htr hin).trans (if_pos (by simpa using h))

theorem State.onSetGo_programmed (htr : cn.tr = .doe) (hin : s.inSession cn = true)
    (h : (set, sub) ∈ (s.ide x).programmed) : s.onSetGo cn x set sub =
      (s.setIde x { s.ide x with go := (set, sub) :: (s.ide x).go.filter fun y => y.2 != sub }).ideReply 3 0 :=
  (State.doeSecure_inside _ htr hin).trans (if_pos (by simpa using h))

theorem State.onSetGo_unknown (htr : cn.tr = .doe) (hin : s.inSession cn = true)
    (h : (set, sub) ∉ (s.ide x).programmed) : s.onSetGo cn x set sub = s.ideReply 3 1 :=
  (State.doeSecure_inside _ htr hin).trans (if_neg (by simpa using h))

/-- A stopped key set is neither programmed nor in use. -/
theorem State.onSetStop_ide (htr : cn.tr = .doe) (hin : s.inSession cn = true) : (s.onSetStop cn x set sub).ide x =
    { programmed := (s.ide x).programmed.filter (· != (set, sub)), go := (s.ide x).go.filter (· != (set, sub)) } := by
  rw [State.onSetStop, State.doeSecure_inside _ htr hin]
  dsimp only
  rw [State.ideReply, State.ide_emit, State.ide_of_sec (State.settleAdmission_sec _ _), State.ide_setIde]

end

/-- Settles O55: a request outside a session is refused, one within it does what the section of its kind says. -/
theorem deviceSecurity : Obligations.DeviceSecurity := by
  unfold Obligations.DeviceSecurity
  intro s cn x set sub hsec htr hup hrun
  have hexec := exec_doeRequests hsec htr hup hrun x set sub
  dsimp only
  refine ⟨fun hout m i hi => ?outside, fun hin => ?inside, fun entry he => ?cdat, fun entry he => ?noEntry⟩
  case outside =>
    obtain ⟨hquery, hprog, hgo, hstop, htdisp⟩ := hexec m
    have hrefuse (f : State) := State.doeSecure_outside f htr hout
    simp only [List.mem_cons, List.not_mem_nil, or_false] at hi
    rcases hi with rfl | rfl | rfl | rfl | rfl
    · exact hquery.trans (congrArg _ (hrefuse _))
    · exact hprog.trans (congrArg _ (hrefuse _))
    · exact hgo.trans (congrArg _ (hrefuse _))
    · exact hstop.trans (congrArg _ (hrefuse _))
    · exact htdisp.trans (congrArg _ (hrefuse _))
  case inside =>
    obtain ⟨hquery, hprog, hgo, hstop, -⟩ := hexec .getState
    have htdisp (m : TdispMsg) : exec (.tdispRequest cn m) s = .next (s.onTdisp cn m) := by
      obtain ⟨-, -, -, -, h⟩ := hexec m
      exact h
    have hsecure (f : State) := State.doeSecure_inside (s := s) f htr hin
    refine ⟨hquery.trans (congrArg _ (hsecure _)), fun hset hfree => ?prog, fun huse => ?inUse, fun hknown => ?go,
      fun hunknown => ?unknown, ?stop, (htdisp _).trans (congrArg _ (hsecure _)), fun htdi => ?lock, fun htdi => ?notUnlocked,
      fun htdi => ?start, fun htdi => ?notLocked, ?stopInterface⟩
    case prog => exact .of_next hprog (State.onKeyProg_free htr hin hset hfree) (by simp [State.ideReply])
    case inUse => exact hprog.trans (congrArg _ (State.onKeyProg_inUse htr hin huse))
    case go =>
      refine .of_next hgo (State.onSetGo_programmed htr hin hknown) ⟨by simp [State.ideReply], by simp [State.ideReply], ?_⟩
      intro y hy hsub
      simp only [State.ideReply, State.ide_emit, State.ide_setIde, List.mem_cons, List.mem_filter] at hy
      rcases hy with hy | ⟨-, hne⟩
      · exact hy
      · simp [hsub] at hne
    case unknown => exact hgo.trans (congrArg _ (State.onSetGo_unknown htr hin hunknown))
    case stop => exact ⟨_, hstop, by simp [State.onSetStop_ide htr hin]⟩
    case lock =>
      exact .of_next (htdisp .lockInterface) ((hsecure _).trans (if_pos htdi)) (s.setTdi_tdi .configLocked)
    case notUnlocked => exact (htdisp .lockInterface).trans (congrArg _ ((hsecure _).trans (if_neg htdi)))
    case start => exact .of_next (htdisp .startInterface) ((hsecure _).trans (if_pos htdi)) (s.setTdi_tdi .run)
    case notLocked => exact (htdisp .startInterface).trans (congrArg _ ((hsecure _).trans (if_neg htdi)))
    case stopInterface =>
      exact .of_next (htdisp .stopInterface) (hsecure _) (s.setTdi_tdi .configUnlocked)
  case cdat =>
    exact .of_next (exec_cdatTableAccess entry hup hrun) (if_pos he) ⟨_, rfl⟩
  case noEntry =>
    exact (exec_cdatTableAccess entry hup hrun).trans (congrArg _ (if_neg (Nat.not_lt.2 he)))

end Sys2Proof.Machine

end

section

/-! PROOFS. Beacon channels: their assignment, triggers, packets and timeouts (06_mailboxes, 09_collectives). -/

namespace Sys2Proof.Machine

/-! ## What stores and counted events leave -/

/-- From `s` to `t` nothing has changed but memory, cells, counter banks, the messages sent and the index of the next free
value: what stores with their snoops, and counted events, may change. -/
def State.Touches (s t : State) : Prop :=
  ∃ m o c b f, t = { s with mem := m, out := o, cells := c, banks := b, freeCtr := f }

theorem State.Touches.refl (s : State) : s.Touches s := ⟨s.mem, s.out, s.cells, s.banks, s.freeCtr, rfl⟩

theorem State.Touches.trans {s t u : State} (h : s.Touches t) (g : t.Touches u) : s.Touches u := by
  obtain ⟨m, o, c, b, f, rfl⟩ := h
  obtain ⟨m', o', c', b', f', rfl⟩ := g
  exact ⟨m', o', c', b', f', rfl⟩

theorem State.Touches.foldl {α : Type} (f : State → α → State) (hf : ∀ (a : State) x, a.Touches (f a x)) (l : List α)
    (s : State) : s.Touches (l.foldl f s) := by
  induction l generalizing s with
  | nil => exact .refl s
  | cons x l ih => exact (hf s x).trans (ih _)

section
variable {s t : State}

theorem State.Touches.coll (h : s.Touches t) : t.coll = s.coll := by obtain ⟨_, _, _, _, _, rfl⟩ := h; rfl
theorem State.Touches.fabric (h : s.Touches t) : t.fabric = s.fabric := by obtain ⟨_, _, _, _, _, rfl⟩ := h; rfl
theorem State.Touches.parts (h : s.Touches t) : t.parts = s.parts := by obtain ⟨_, _, _, _, _, rfl⟩ := h; rfl
theorem State.Touches.power (h : s.Touches t) : t.power = s.power := by obtain ⟨_, _, _, _, _, rfl⟩ := h; rfl

end

/-! ### Stores -/

section
variable (s : State)

theorem State.touches_recall (pa n : Nat) : s.Touches (s.recall pa n) := by
  unfold State.recall
  dsimp only
  split
  · exact .refl s
  · exact ⟨_, _, _, _, _, rfl⟩

theorem State.touches_recallPieces (ps : List Piece) : s.Touches (s.recallPieces ps) :=
  .foldl _ (fun a _ => a.touches_recall _ _) ps s

theorem State.touches_vsnoop (p c va n : Nat) : s.Touches (s.vsnoop p c va n) :=
  (State.Touches.foldl _ (fun a _ => a.touches_recall _ _) _ s).trans (State.touches_recallPieces _ _)

theorem State.touches_firstWrite (g : Nat) : s.Touches (s.firstWrite g) := by
  unfold State.firstWrite
  split
  · exact .refl s
  · exact ⟨_, _, _, _, _, rfl⟩

theorem State.touches_writeByte (t : Tag) (pa : Nat) (b : Byte) : s.Touches (s.writeByte t pa b) := by
  unfold State.writeByte
  cases place pa with
  | hbm | ddr => exact (s.touches_firstWrite _).trans ⟨_, _, _, _, _, rfl⟩
  | shared | local_ | host => exact ⟨_, _, _, _, _, rfl⟩
  | control | package | hole => exact .refl s

theorem State.touches_writeBytes (t : Tag) (pa : Nat) (l : List Byte) : s.Touches (s.writeBytes t pa l) := by
  induction l generalizing s pa with
  | nil => exact .refl s
  | cons b l ih => exact (s.touches_writeByte t pa b).trans (ih _ _)

theorem State.touches_writePieces (t : Tag) (ps : List Piece) (l : List Byte) : s.Touches (s.writePieces t ps l) := by
  induction ps generalizing s l with
  | nil => exact .refl s
  | cons p ps ih => exact (s.touches_recall _ _).trans ((State.touches_writeBytes _ _ _ _).trans (ih _ _))

/-- A store by translated addresses, or nothing where it does not translate. -/
theorem State.touches_vwrite (p c va : Nat) (l : List Byte) : s.Touches ((s.vwrite p c va l).getD s) := by
  unfold State.vwrite
  split
  · exact (s.touches_vsnoop p c va l.length).trans (State.touches_writePieces _ _ _ _)
  · exact .refl s

end

/-! ### Counted events -/

/-- From `s` to `t` nothing has changed but counters; the translations held for cells are the same. -/
def State.Counts (s t : State) : Prop :=
  ∃ c b, t = { s with cells := c, banks := b } ∧ (c.flatMap fun x => x.2.tlb) = s.cells.flatMap fun x => x.2.tlb

theorem State.Counts.refl (s : State) : s.Counts s := ⟨s.cells, s.banks, rfl, rfl⟩

theorem State.Counts.trans {s t u : State} (h : s.Counts t) (g : t.Counts u) : s.Counts u := by
  obtain ⟨c, b, rfl, hc⟩ := h
  obtain ⟨c', b', rfl, hc'⟩ := g
  exact ⟨c', b', rfl, hc'.trans hc⟩

theorem State.Counts.touches {s t : State} (h : s.Counts t) : s.Touches t := by
  obtain ⟨c, b, rfl, -⟩ := h
  exact ⟨s.mem, s.out, c, b, s.freeCtr, rfl⟩

theorem State.translateParts_congr {s t : State} {g : Tag} {sp : Space} {acc : Acc} {user : Bool}
    (h : ∀ va, t.translate g sp acc user va = s.translate g sp acc user va) (l : List (Nat × Nat)) :
    t.translateParts g sp acc user l = s.translateParts g sp acc user l := by
  induction l with
  | nil => rfl
  | cons x l ih => simp only [State.translateParts, h, ih]

/-- What a context reads does not depend on counters. -/
theorem State.Counts.vread {s t : State} (h : s.Counts t) (p c va n : Nat) : t.vread p c va n = s.vread p c va n := by
  obtain ⟨cs, b, rfl, hc⟩ := h
  have hs : ({ s with cells := cs, banks := b } : State).space p c = s.space p c :=
    congrArg (fun l => ({ root := (s.ctx p c).ptroot, cached := l } : Space)) hc
  have htr (a : Nat) : ({ s with cells := cs, banks := b } : State).translate (s.tagOf p c) (s.space p c) .load false a =
      s.translate (s.tagOf p c) (s.space p c) .load false a := rfl
  have hp : ({ s with cells := cs, banks := b } : State).vpieces p c .load va n = s.vpieces p c .load va n := by
    rw [State.vpieces, hs]
    exact State.translateParts_congr htr (pageParts va n)
  rw [State.vread, hp]
  rfl

theorem Cell.bump_tlb (k : Cell) (mk cl priv cls : Nat) (e : Ev) (n : Nat) : (k.bump mk cl priv cls e n).tlb = k.tlb := by
  induction n with
  | zero => rfl
  | succ n ih => rw [← ih]; rfl

theorem State.counts_count (s : State) (b mk cl priv cls : Nat) (es : List Ev) : s.Counts (s.count b mk cl priv cls es) := by
  have one (s : State) (b mk : Nat) (e : Ev) : s.Counts (s.countOne b mk cl priv cls e) := by
    unfold State.countOne
    split
    · exact ⟨s.cells, _, rfl, rfl⟩
    · refine ⟨_, s.banks, rfl, ?_⟩
      rw [List.flatMap_map]
      refine List.flatMap_congr fun x _ => ?_
      split
      · exact Cell.bump_tlb ..
      · rfl
  unfold State.count
  induction es generalizing s with
  | nil => exact .refl s
  | cons e es ih => exact (one s _ _ e).trans (ih _)

theorem State.counts_countAt (s : State) (pa code : Nat) : s.Counts (s.countAt pa code) := by
  unfold State.countAt
  split
  · exact s.counts_count ..
  · exact .refl s

/-! ## Packets that have arrived -/

/-- Nothing is handed over where no packet has arrived. -/
theorem State.deliverAll_idle {s : State} (h : s.fabric.arrived = []) : s.deliverAll = s := by
  have hdrain (fuel : Nat) : s.drainArrived fuel = s := by
    cases fuel with
    | zero => rfl
    | succ fuel => rw [State.drainArrived, h]
  exact hdrain _

theorem State.Touches.deliverAll {s t : State} (h : s.Touches t) (ha : s.fabric.arrived = []) : t.deliverAll = t :=
  State.deliverAll_idle (h.fabric ▸ ha)

/-- A packet that passes every check is handed over (R280). -/
theorem arrives_of_checks {s : State} {p : Packet} {k : Comm} {j n : Nat} (ha : s.accepts = true) (hd : s.destOk p = true)
    (hw : wellFormed p = true) (hk : s.commOf p = some k) (hj : s.senderOf k p = some j) (ht : p.ptype.toNat = n) :
    arrives n p s = (s.handOver k j p).deliverAll := by
  rw [arrives, if_pos ht, State.ingress]
  simp only [ha, hd, hw, hk, hj, Bool.not_true, Bool.false_eq_true, or_self, if_false]

/-! ## Channels (R328 to R332) -/

section
variable {s : State} {c : Nat} {k : Comm}

theorem State.beacon_setBeacon (b : Beacon) (h : c < s.coll.beacons.length) : (s.setBeacon c b).beacon c = b := by
  simp [State.beacon, State.setBeacon, setAt, h]

@[simp] theorem State.setBeacon_fabric (s : State) (c : Nat) (b : Beacon) : (s.setBeacon c b).fabric = s.fabric := rfl

theorem State.setBeacon_setBeacon (b b' : Beacon) : (s.setBeacon c b).setBeacon c b' = s.setBeacon c b' := by
  simp [State.setBeacon, setAt]

/-- A trigger counts one event at most. -/
theorem State.noteTrigger_eq : s.noteTrigger k c = s ∨ ∃ pa, s.noteTrigger k c = s.countAt pa 0x55 := by
  rw [State.noteTrigger]
  generalize s.vpieces k.part k.ctx .load (k.beaconSlot c) 8 = r
  obtain ⟨_ | ⟨p, ps⟩, _ | e⟩ := r
  · exact .inl rfl
  · exact .inl rfl
  · exact .inr ⟨p.pa, rfl⟩
  · exact .inl rfl

theorem State.counts_noteTrigger : s.Counts (s.noteTrigger k c) := by
  rcases s.noteTrigger_eq (k := k) (c := c) with h | ⟨pa, h⟩ <;> rw [h]
  · exact .refl s
  · exact s.counts_countAt pa 0x55

theorem State.noteTrigger_rest : (s.noteTrigger k c).rest = s.rest := by
  rcases s.noteTrigger_eq (k := k) (c := c) with h | ⟨pa, h⟩ <;> rw [h]
  unfold State.countAt
  split
  · exact (s.count_alike ..).2
  · rfl

/-- A result is stored in the slot of its channel, and counted. -/
theorem State.touches_beaconResult (s : State) (k : Comm) (c : Nat) (bseq : BitVec 32) (status : Nat) (ovf : Bool)
    (data : List Byte) : s.Touches (s.beaconResult k c bseq status ovf data) := by
  rw [State.beaconResult]
  have h1 := s.touches_vwrite k.part k.ctx (k.beaconSlot c + 0x30) data
  generalize (s.vwrite k.part k.ctx (k.beaconSlot c + 0x30) data).getD s = s1 at h1 ⊢
  have h2 := s1.touches_vwrite k.part k.ctx (k.beaconSlot c + 0x50)
    (leBytes 4 bseq.toNat ++ leBytes 1 status ++ leBytes 1 (if ovf then 1 else 0))
  generalize (s1.vwrite k.part k.ctx (k.beaconSlot c + 0x50)
    (leBytes 4 bseq.toNat ++ leBytes 1 status ++ leBytes 1 (if ovf then 1 else 0))).getD s1 = s2 at h2 ⊢
  generalize s2.vpieces k.part k.ctx .store (k.beaconSlot c + 0x58) 8 = r
  refine (h1.trans h2).trans ?_
  obtain ⟨_ | ⟨p, ps⟩, _ | e⟩ := r
  · exact .refl s2
  · exact .refl s2
  · exact (State.touches_writeBytes ..).trans
      ((State.counts_countAt ..).touches.trans (State.counts_countAt ..).touches)
  · exact .refl s2

/-- The 128 bytes of a slot have the form of R329. -/
def BeaconSlotGood (l : List Byte) : Prop :=
  l.length = 128 ∧ (BeaconVal.ofSlot l).ok = true ∧ gatherDesc l 7 1 = 0 ∧ gatherDesc l 0x0A 6 = 0 ∧
    gatherDesc l 0x56 2 = 0 ∧ gatherDesc l 0x60 32 = 0

/-- A channel whose own contribution is not in, or a child's, does not combine yet. -/
theorem State.beaconStep_waits (h : (s.beacon c).own = none ∨
    ¬∀ j ∈ k.children0, (SMap.find (s.beacon c).ups j).isSome = true) : s.beaconStep k c = s := by
  unfold State.beaconStep
  dsimp only
  split
  case h_1 v hv =>
    refine if_neg fun hall => ?_
    rcases h with h | h
    · rw [h] at hv
      cases hv
    · simp at hall
      exact h hall.2
  case h_2 => rfl

/-- The operation of a member without parent and children ends with its own contribution. -/
theorem State.beaconStep_alone {b : Beacon} {v : BeaconVal} {bseq : BitVec 32} {f : Nat} (hc : c < s.coll.beacons.length)
    (hown : b.own = some v) (hbusy : b.busy = some (bseq, f)) (hsent : b.sent = false) (hups : b.ups = [])
    (hch : k.children0 = []) (hpar : k.parent0 = none) (hbad : v.bad = false) (hmis : v.mismatch = false)
    (hovf : v.ovf = false) : (s.setBeacon c b).beaconStep k c =
      (s.setBeacon c { b with busy := none, own := none, ups := [], seq := b.seq + 1 }).beaconResult k c bseq stDone
        false v.payload := by
  have hsum : (s.setBeacon c b).beaconStep k c = (s.setBeacon c { b with sent := true }).beaconDown k c v := by
    simp only [State.beaconStep, State.beacon_setBeacon b hc, hown, hsent, hups, hch, hpar, State.setBeacon_setBeacon]
    rfl
  rw [hsum, State.beaconDown, hch, List.foldl_nil, State.beaconEnd, State.beacon_setBeacon _ hc]
  simp only [hbusy, hbad, hmis, hovf, hsent, State.setBeacon_setBeacon, Bool.false_eq_true, if_false, Bool.false_and, if_true]
  rw [if_neg (by decide)]

/-! ## A trigger (R329, R332) -/

theorem exec_beaconTrigger (bseq : BitVec 32) (hclk : s.clocksRun = true) (hc : c < 16) :
    exec (.beaconTrigger c bseq) s = .next (s.beaconTrigger c bseq).deliverAll :=
  congrArg _ (if_pos ⟨hclk, hc⟩)

theorem State.beaconTrigger_busy (bseq : BitVec 32) (hk : s.beaconComm c = some k) (hb : (s.beacon c).busy ≠ none) :
    s.beaconTrigger c bseq = s := by
  rw [State.beaconTrigger, hk]
  exact if_pos (Option.isSome_iff_ne_none.2 hb)

theorem State.beaconTrigger_failed (bseq : BitVec 32) (hk : s.beaconComm c = some k) (hb : (s.beacon c).busy = none)
    (hf : (s.beacon c).failed = true) :
    s.beaconTrigger c bseq = (s.noteTrigger k c).beaconResult k c bseq stWrongState false [] := by
  rw [State.beaconTrigger, hk]
  exact (if_neg (by simp [hb])).trans (if_pos hf)

/-- A channel that is free reads its slot, and refuses one that does not have the form of R329. -/
theorem State.beaconTrigger_free (bseq : BitVec 32) (hk : s.beaconComm c = some k) (hb : (s.beacon c).busy = none)
    (hf : (s.beacon c).failed = false) :
    let l := (s.vread k.part k.ctx (k.beaconSlot c) 128).getD []
    (¬BeaconSlotGood l →
      s.beaconTrigger c bseq = (s.noteTrigger k c).beaconResult k c bseq stBadField false []) ∧
    (BeaconSlotGood l → s.beaconTrigger c bseq = ((s.noteTrigger k c).setBeacon c { s.beacon c with
      busy := some (bseq, s.power.frame.toNat), own := some (BeaconVal.ofSlot l), comm := k.handle }).beaconStep k c) := by
  have hcount : s.Counts (s.noteTrigger k c) := State.counts_noteTrigger
  have hbusy : ¬(s.beacon c).busy.isSome = true := by simp [hb]
  have hfailed : ¬(s.beacon c).failed = true := Bool.eq_false_iff.1 hf
  unfold State.beaconTrigger BeaconSlotGood
  simp only [hk, if_neg hbusy, if_neg hfailed, hcount.vread, hcount.touches.power]
  refine ⟨fun h => if_pos ?_, fun h => if_neg ?_⟩
  · by_contra hn
    refine h ?_
    simpa [not_or] using hn
  · obtain ⟨hlen, hok, h7, ha, h56, h60⟩ := h
    simp [hlen, hok, h7, ha, h56, h60]

end

/-! ## Packets of a channel, and its timeout (R328, R330, R332) -/

section
variable {s : State} {p : Packet} {k : Comm} {j c : Nat}

/-- A contribution of a child that comes before the member's own is kept, once. -/
theorem State.beaconPacket_up (hc : (s.channelsOf k)[gatherDesc p.payload 6 2]? = some c) (ht : p.ptype = 0x0B)
    (hf : (s.beacon c).failed = false) (hseq : (Obj.of p.obj).seq = (s.beacon c).seq.toNat)
    (hj : k.children0.contains j = true) (hlen : c < s.coll.beacons.length) (hown : (s.beacon c).own = none) :
    s.beaconPacket k j p = if (SMap.find (s.beacon c).ups j).isNone then
      s.setBeacon c { s.beacon c with ups := (s.beacon c).ups.put j (BeaconVal.parse p.payload) } else s := by
  have hlive : ¬((s.beacon c).failed ∨ (Obj.of p.obj).seq ≠ (s.beacon c).seq.toNat) := by simp [hf, hseq]
  have hup : p.ptype.toNat = ptBeaconUp := by rw [ht]; rfl
  rw [State.beaconPacket, hc]
  dsimp only
  rw [if_neg hlive, if_pos hup, hj, Bool.true_and]
  congr 1
  refine State.beaconStep_waits (.inl ?_)
  rw [State.beacon_setBeacon _ hlen]
  exact hown

theorem State.beaconPacket_down (hc : (s.channelsOf k)[gatherDesc p.payload 6 2]? = some c) (ht : p.ptype = 0x0C)
    (hf : (s.beacon c).failed = false) (hseq : (Obj.of p.obj).seq = (s.beacon c).seq.toNat) (hj : k.parent0 = some j)
    (hin : (s.beacon c).own.isSome = true ∨ (s.beacon c).busy = none) :
    s.beaconPacket k j p = s.beaconDown k c (BeaconVal.parse p.payload) := by
  have hlive : ¬((s.beacon c).failed ∨ (Obj.of p.obj).seq ≠ (s.beacon c).seq.toNat) := by simp [hf, hseq]
  have hup : ¬p.ptype.toNat = ptBeaconUp := by rw [ht]; decide
  rw [State.beaconPacket, hc]
  dsimp only
  rw [if_neg hlive, if_neg hup, if_pos (by simpa [hj] using hin)]

theorem State.handOver_beacon (h : p.ptype = 0x0B ∨ p.ptype = 0x0C) : s.handOver k j p = s.beaconPacket k j p :=
  if_pos (by rcases h with h | h <;> rw [h] <;> decide)

theorem beaconTimeout_answers {f : Nat} {bseq : BitVec 32} (hlen : c < s.coll.beacons.length)
    (hb : (s.beacon c).busy = some (bseq, f)) (hk : s.comm (s.beacon c).comm = some k)
    (hlate : f + k.timeoutMs * 50 ≤ s.power.frame.toNat) : Answers (.beaconTimeout c) s fun t =>
      (t.beacon c).failed = true ∧ (t.beacon c).busy = none ∧ (t.beacon c).seq = (s.beacon c).seq := by
  let b : Beacon := { Beacon.reset with failed := true, seq := (s.beacon c).seq, comm := (s.beacon c).comm }
  have hexec : exec (.beaconTimeout c) s = .next ((s.setBeacon c b).beaconResult k c bseq stTimeout false []) := by
    show execBeaconTimeout c s = _
    simp only [execBeaconTimeout, hb, hk, if_pos hlate, b]
  have hbeacon : ((s.setBeacon c b).beaconResult k c bseq stTimeout false []).beacon c = b :=
    (congrArg (fun l : Coll => l.beacons.getD c Beacon.reset) (State.touches_beaconResult ..).coll).trans
      (State.beacon_setBeacon b hlen)
  exact ⟨_, hexec, congrArg Beacon.failed hbeacon, congrArg Beacon.busy hbeacon, (congrArg Beacon.seq hbeacon :)⟩

end

/-! ## BEACON_ASSIGN (R227) -/

theorem exec_beaconAssign {s : State} {slot : Nat} {t : Taken} (h : s.startable slot opBeaconAssign = some t)
    (hchan : s.body slot 0 1 ≤ 15) (hen : s.body slot 1 1 ≤ 1) (hcomm : s.body slot 2 2 ≤ 4095)
    (hok : s.body slot 1 1 = 1 → ∃ k, s.comm (s.body slot 2 2) = some k ∧ k.trees ≠ 0 ∧ k.beaconArea ≠ 0) :
    exec (.beaconAssign slot) s = .next (if (s.beacon (s.body slot 0 1)).busy.isSome then s.complete t (.of stBusy)
      else s.waitWrite { noWrite slot with
        beacon := some (s.body slot 0 1, BitVec.ofNat 32 (s.body slot 2 2 + s.body slot 1 1 * 2 ^ 16)) }) := by
  refine (command_of_startable h _).trans (congrArg _ (if_neg ?_))
  rintro (hbad | hbad | hbad | ⟨hone, hbad⟩)
  · omega
  · omega
  · omega
  · obtain ⟨k, hk, htrees, harea⟩ := hok hone
    rw [hk] at hbad
    simp only [bne_iff_ne.2 htrees, bne_iff_ne.2 harea, Bool.and_self, Bool.not_true, Bool.false_eq_true] at hbad

/-- Settles O36: the assignment, then a trigger by the state of its channel and slot, packets, and the timeout. -/
theorem beaconOperation : Obligations.BeaconOperation := by
  unfold Obligations.BeaconOperation
  refine ⟨fun s slot t h hslot => ?assign, fun s c bseq k hclk hc hlen hk harr => ?trigger,
    fun s p k j c ha hd hw hk hj harr hchan => ?packets, fun s c f bseq k => beaconTimeout_answers⟩
  case assign =>
    intro b hchan hen hcomm hok
    have hexec := exec_beaconAssign h hchan hen hcomm hok
    refine ⟨fun hbusy => ?_, fun hbusy => hexec.trans (congrArg _ (if_pos (Option.isSome_iff_ne_none.2 hbusy)))⟩
    exact .of_next hexec (if_neg (by simp [b, hbusy])) ⟨rfl, _, rfl, rfl, rfl, rfl⟩
  case trigger =>
    have hexec := exec_beaconTrigger (s := s) bseq hclk hc
    have hnote : s.Touches (s.noteTrigger k c) := State.counts_noteTrigger.touches
    have hlen' : c < (s.noteTrigger k c).coll.beacons.length := by rw [hnote.coll]; omega
    have hresult (status : Nat) (data : List Byte) := hnote.trans ((s.noteTrigger k c).touches_beaconResult k c bseq
      status false data)
    have hidle (b : Beacon) : ((s.noteTrigger k c).setBeacon c b).fabric.arrived = [] := by
      rw [State.setBeacon_fabric, hnote.fabric, harr]
    intro b l good
    refine ⟨fun hb => ?busy, State.noteTrigger_rest, fun hb hf => ?failed, fun hb hf hbad => ?bad,
      fun hb hf hgood hch => ?waits, fun hb hf hgood hsent hups hch hpar => ?alone⟩
    case busy => rw [hexec, State.beaconTrigger_busy bseq hk hb, State.deliverAll_idle harr]
    case failed => rw [hexec, State.beaconTrigger_failed bseq hk hb hf, (hresult _ _).deliverAll harr]
    case bad =>
      obtain ⟨hrefused, -⟩ := State.beaconTrigger_free bseq hk hb hf
      rw [hexec, hrefused hbad, (hresult _ _).deliverAll harr]
    case waits =>
      obtain ⟨-, hfree⟩ := State.beaconTrigger_free bseq hk hb hf
      have hwaits : ¬∀ i ∈ k.children0, (SMap.find b.ups i).isSome = true := hch
      rw [hexec, hfree hgood, State.beaconStep_waits (.inr (by rw [State.beacon_setBeacon _ hlen']; exact hwaits)),
        State.deliverAll_idle (hidle _)]
    case alone =>
      obtain ⟨-, hfree⟩ := State.beaconTrigger_free bseq hk hb hf
      have halone := State.beaconStep_alone (s := s.noteTrigger k c) (c := c) (k := k) (bseq := bseq) (v := BeaconVal.ofSlot l)
        (b := { b with busy := some (bseq, s.power.frame.toNat), own := some (BeaconVal.ofSlot l), comm := k.handle })
        hlen' rfl rfl hsent hups hch hpar rfl rfl rfl
      rw [hexec, hfree hgood]
      refine congrArg _ ((congrArg State.deliverAll halone).trans ?_)
      exact (State.touches_beaconResult ..).deliverAll (hidle _)
  case packets =>
    have hover (h : p.ptype = 0x0B ∨ p.ptype = 0x0C) {n : Nat} (ht : p.ptype.toNat = n) :=
      (arrives_of_checks ha hd hw hk hj ht).trans (congrArg State.deliverAll (State.handOver_beacon h))
    refine ⟨fun ht hf hseq hchild hlen hown => ?up, fun ht hf hseq hpar hin => ?down⟩
    case up =>
      refine congrArg Host.Outcome.next ((hover (.inl ht) (n := ptBeaconUp) (by rw [ht]; rfl)).trans ?_)
      rw [State.beaconPacket_up hchan ht hf hseq hchild hlen hown]
      split
      · exact State.deliverAll_idle harr
      · exact State.deliverAll_idle harr
    case down =>
      refine congrArg Host.Outcome.next ((hover (.inr ht) (n := ptBeaconDn) (by rw [ht]; rfl)).trans ?_)
      rw [State.beaconPacket_down hchan ht hf hseq hpar hin]

end Sys2Proof.Machine

end

section

/-! PROOFS. Collective operations: their course, their packets and pan slots (06_mailboxes, 09_collectives). -/

namespace Sys2Proof.Machine

/-! ## Communicators and batches -/

/-- A list in which each element of one name is replaced holds the new element under that name. -/
theorem find?_map_replace {α : Type} (name : α → Nat) (l : List α) {x y : α}
    (h : l.find? (fun z => name z == name y) = some x) :
    (l.map fun z => if name z = name y then y else z).find? (fun z => name z == name y) = some y := by
  have hname : ((fun z => name z == name y) ∘ fun z => if name z = name y then y else z) = fun z => name z == name y := by
    funext z
    by_cases hz : name z = name y <;> simp [hz]
  rw [List.find?_map, hname, h, Option.map_some]
  exact congrArg some (if_pos (by simpa using List.find?_some h))

section
variable {s : State} {k k' : Comm} {o o' : CollOp} {h : Nat}

theorem State.comm_handle (hk : s.comm h = some k) : k.handle = h := by
  simpa using List.find?_some hk

theorem State.comm_setComm (hk : s.comm k'.handle = some k) : (s.setComm k').comm k'.handle = some k' :=
  find?_map_replace Comm.handle s.coll.comms hk

theorem State.comm_setOp (hk : s.comm k.handle = some k') : (s.setOp k o).comm k.handle = some { k with op := some o } :=
  State.comm_setComm (k' := { k with op := some o }) hk

theorem State.setComm_setComm (hh : k.handle = k'.handle) : (s.setComm k).setComm k' = s.setComm k' := by
  have hl : (s.coll.comms.map fun x => if x.handle = k.handle then k else x).map
      (fun x => if x.handle = k'.handle then k' else x) = s.coll.comms.map fun x => if x.handle = k'.handle then k' else x := by
    rw [List.map_map]
    refine List.map_congr_left fun x _ => ?_
    by_cases hx : x.handle = k'.handle <;> simp [hh, hx]
  exact congrArg (fun l => ({ s with coll := { s.coll with comms := l } } : State)) hl

theorem State.withOp_some (f : Comm → CollOp → State) (hk : s.comm h = some k) (ho : k.op = some o) : s.withOp h f = f k o := by
  rw [State.withOp, hk]
  dsimp only
  rw [ho]

theorem State.batchOf_setBatch {b b' : Batch} (hb : s.batchOf b'.handle = some b) :
    (s.setBatch b').batchOf b'.handle = some b' :=
  find?_map_replace Batch.handle s.coll.batches hb

end

/-! ## The end of an operation (R295, R298, R322, R333) -/

/-- Communicators and the fabric: what the end of an operation leaves of the engines besides its communicator. -/
def State.engines (s : State) : List Comm × Fabric := (s.coll.comms, s.fabric)

section
variable (s : State)

theorem State.Touches.engines {s t : State} (h : s.Touches t) : t.engines = s.engines := by
  rw [State.engines, State.engines, h.coll, h.fabric]

@[simp] theorem State.engines_completeSlot (slot : Nat) (r : Report) : (s.completeSlot slot r).engines = s.engines := by
  unfold State.completeSlot
  split <;> rfl

@[simp] theorem State.engines_endStop (stop : Option StopReq) (status : Nat) :
    (s.endStop stop status).engines = s.engines := by
  unfold State.endStop
  split <;> simp

@[simp] theorem State.engines_settleResidency (p : Nat) : (s.settleResidency p).engines = s.engines := by
  have hnote (t : State) (c : Nat) : (t.noteWaiting p c).engines = t.engines := by
    unfold State.noteWaiting
    dsimp only
    split <;> rfl
  unfold State.settleResidency
  split
  · dsimp only
    split
    · exact hnote _ _
    · rfl
  · rfl

@[simp] theorem State.engines_setBatch (b : Batch) : (s.setBatch b).engines = s.engines := rfl

@[simp] theorem State.engines_dropBatch (slot : Nat) : (s.dropBatch slot).engines = s.engines := rfl

@[simp] theorem State.engines_holdBatch (b : Batch) : (s.holdBatch b).engines = s.engines := by
  simp [State.holdBatch]

@[simp] theorem State.engines_endBatch (b : Batch) (status idx stopStatus : Nat) :
    (s.endBatch b status idx stopStatus).engines = s.engines := by
  simp [State.endBatch]

@[simp] theorem State.engines_batchAfter (b : Batch) (status : Nat) (ovf fell : Bool) :
    (s.batchAfter b status ovf fell).engines = s.engines := by
  unfold State.batchAfter
  dsimp only
  split
  · split <;> simp
  · split <;> simp

@[simp] theorem State.engines_log (e : BitVec 16) (src : BitVec 8) (o a : BitVec 32) :
    (s.log e src o a).engines = s.engines := by
  unfold State.log
  dsimp only
  split
  · rfl
  · split <;> rfl

theorem State.comm_of_engines {s t : State} (h : t.engines = s.engines) (n : Nat) : t.comm n = s.comm n := by
  have hcomms : t.coll.comms = s.coll.comms := congrArg Prod.fst h
  rw [State.comm, hcomms]
  rfl

theorem State.arrived_of_engines {s t : State} (h : t.engines = s.engines) : t.fabric.arrived = s.fabric.arrived :=
  congrArg (fun x : List Comm × Fabric => x.2.arrived) h

end

section
variable {s : State} {k : Comm} {o : CollOp} {h : Nat}

/-- An operation that ends leaves its communicator without one, and Ready only for the statuses that keep it so. -/
theorem State.endOp_engines (status : Nat) (hk : s.comm h = some k) (ho : k.op = some o) : (s.endOp h status).engines =
    (s.setComm { k with op := none, broken := k.broken || !keepsReady status }).engines := by
  rw [State.endOp, State.withOp_some _ hk ho]
  dsimp only
  generalize { k with op := none, broken := k.broken || !keepsReady status } = k'
  have heng : (State.setComm { s with coll := (s.coll.freePans o.pans).unqueue h, mem := s.mem.dropFeed h } k').engines =
      (s.setComm k').engines := rfl
  rw [← heng]
  generalize State.setComm { s with coll := (s.coll.freePans o.pans).unqueue h, mem := s.mem.dropFeed h } k' = s1
  cases s1.batchOf h with
  | none => rfl
  | some b => exact (State.engines_batchAfter ..).trans (s1.touches_vwrite ..).engines

theorem State.endOp_arrived (status : Nat) (hk : s.comm h = some k) (ho : k.op = some o) :
    (s.endOp h status).fabric.arrived = s.fabric.arrived :=
  congrArg (fun x : List Comm × Fabric => x.2.arrived) (State.endOp_engines status hk ho)

theorem State.endOp_comm (status : Nat) (hk : s.comm h = some k) (ho : k.op = some o) : (s.endOp h status).comm h =
    some { k with op := none, broken := k.broken || !keepsReady status } := by
  obtain rfl := State.comm_handle hk
  exact (State.comm_of_engines (State.endOp_engines status hk ho) _).trans
    (State.comm_setComm (k' := { k with op := none, broken := k.broken || !keepsReady status }) hk)

/-- An operation that ends by its chunks: a mismatched or failed chunk gives a status that keeps the communicator
Ready (R153, R312). -/
theorem State.closeOp_comm (hk : s.comm h = some k) (ho : k.op = some o) : (s.closeOp h fun _ => stTimeout).comm h =
    some { k with op := none, broken := k.broken || !(o.mismatch || o.checkFail) } := by
  have hlog (ev : BitVec 16) : (s.collLog k ev).comm h = some k := (State.comm_of_engines (s.engines_log ..) h).trans hk
  rw [State.closeOp, State.withOp_some _ hk ho]
  cases hm : o.mismatch with
  | true =>
    rw [if_pos rfl, State.endOp_comm _ (hlog _) ho]
    rfl
  | false =>
    rw [if_neg Bool.false_ne_true]
    cases hc : o.checkFail with
    | true =>
      rw [if_pos rfl, State.endOp_comm _ (hlog _) ho]
      rfl
    | false =>
      rw [if_neg Bool.false_ne_true, State.endOp_comm _ hk ho]
      rfl

/-! ## The course of an operation (R221, R303, R322, R323, R333) -/

/-- What an engine does that meets no error. -/
theorem State.engineMeets_none (q : Option Comm) (go : State → State) : s.engineMeets q .none go = go s := rfl

theorem exec_collOpStart {b : Batch} (hk : s.comm h = some k) (hb : s.batchOf h = some b) (hheld : b.held = false)
    (hstop : b.stop = none) (ho : k.op = none) (hbr : k.broken = false) (hclk : s.clocksRun = true)
    (hlive : s.ctxLive k.part k.ctx = true) (hres : s.batchOnChip b = false ∨ s.resident k.part = some k.ctx) :
    exec (.collOpStart h .none) s = .next (s.startDesc k b).deliverAll := by
  have hi : exec (.collOpStart h .none) s = execCollOpStart h .none s := rfl
  rw [hi, execCollOpStart, hk, hb]
  dsimp only
  rw [if_neg, State.engineMeets_none]
  rcases hres with hres | hres <;> simp [hheld, hstop, ho, hbr, hclk, hlive, hres]

theorem State.descOk_of_fields {d : Desc} (w : Bool) (l : List Nat) (hd : d.fieldsOk k.n = false) :
    s.descOk k d w l = false := by
  simp [State.descOk, hd]

/-- An operation that has been numbered and ends with `BAD_FIELD` breaks its communicator. -/
theorem State.endOp_numbered (s : State) (k : Comm) (o : CollOp) (ps : List Piece) {k' : Comm}
    (hk : s.comm k.handle = some k') :
    let t := ((s.setOp { k with opSeq := k.opSeq + 1 } o).recallPieces ps).endOp k.handle stBadField
    t.comm k.handle = some { k with op := none, broken := true, opSeq := k.opSeq + 1 } ∧
      t.fabric.arrived = s.fabric.arrived := by
  have hop : (s.setOp { k with opSeq := k.opSeq + 1 } o).comm k.handle = some { k with opSeq := k.opSeq + 1, op := some o } :=
    State.comm_setOp (k := { k with opSeq := k.opSeq + 1 }) hk
  have harr : (s.setOp { k with opSeq := k.opSeq + 1 } o).fabric.arrived = s.fabric.arrived := rfl
  generalize s.setOp { k with opSeq := k.opSeq + 1 } o = u at hop harr ⊢
  have heng := (u.touches_recallPieces ps).engines
  generalize u.recallPieces ps = v at heng ⊢
  have hcomm := (State.comm_of_engines heng _).trans hop
  have hbroken : (k.broken || !keepsReady stBadField) = true := Bool.or_true _
  refine ⟨(State.endOp_comm stBadField hcomm rfl).trans ?_, ?_⟩
  · rw [hbroken]
  · exact ((State.endOp_arrived stBadField hcomm rfl).trans (State.arrived_of_engines heng)).trans harr

theorem State.startDesc_refused {b : Batch} (hbad : (Desc.parse ((s.vread k.part k.ctx (b.desc.toNat + 64 * b.idx) 64).getD
    (List.replicate 64 0))).fieldsOk k.n = false) : ∃ o ps, s.startDesc k b =
      ((s.setOp { k with opSeq := k.opSeq + 1 } o).recallPieces ps).endOp k.handle stBadField := by
  rw [State.startDesc]
  dsimp only
  rw [State.descOk_of_fields _ _ hbad, Bool.and_false, if_neg Bool.false_ne_true]
  exact ⟨_, _, rfl⟩

theorem exec_collTimeout (hk : s.comm h = some k) (ho : k.op = some o)
    (hlate : o.lastRx + k.timeoutMs * 50 ≤ s.power.frame.toNat) (hpan : s.panWaits h = false) (hclk : s.clocksRun = true) :
    exec (.collTimeout h) s = .next (s.closeOp h fun _ => stTimeout) :=
  congrArg _ ((State.withOp_some _ hk ho).trans (if_pos ⟨hlate, by simp [hpan], hclk⟩))

theorem exec_batchSuspendTimeout {slot : Nat} {b : Batch} {r : StopReq}
    (hb : s.coll.batches.find? (fun x => !x.held && stopNames slot x.slot x.stop) = some b) (hr : b.stop = some r)
    (hc : r.cancel = false) (hh : r.hard = false) (hlate : r.since + 5000 ≤ s.power.frame.toNat) :
    exec (.batchSuspendTimeout slot) s = .next (s.endOp b.handle stCancelled) := by
  have hi : exec (.batchSuspendTimeout slot) s = execBatchSuspendTimeout slot s := rfl
  rw [hi, execBatchSuspendTimeout, hb]
  dsimp only
  rw [hr]
  exact congrArg _ (if_pos (by simp [hc, hh, hlate]))

/-! ## Pan slots (R322, R323) -/

theorem exec_panSlotGrant (pan : Nat) (hclk : s.clocksRun = true) : exec (.panSlotGrant pan .none) s =
    .next ((s.servePan pan (s.coll.panQueue.getD pan []).length).claimAll.deliverAll) :=
  congrArg _ (if_pos hclk)

theorem State.grantPan_pans (r : PanReq) (pan : Nat) :
    (s.grantPan r pan).coll.panUsed = modifyAt s.coll.panUsed pan (· + r.slots) ∧
    (s.grantPan r pan).coll.panQueue = s.coll.panQueue := by
  rw [State.grantPan, State.withOp]
  split
  · split <;> exact ⟨rfl, rfl⟩
  · exact ⟨rfl, rfl⟩

/-- Requests are served from the head of the queue, and no pan exceeds its slots. -/
theorem State.servePan_spec (pan n : Nat) (s : State) (hused : s.coll.panUsed.getD pan 0 ≤ panTotal)
    (hlen : pan < s.coll.panUsed.length) :
    (s.servePan pan n).coll.panUsed.getD pan 0 ≤ panTotal ∧
    ∃ served, s.coll.panQueue.getD pan [] = served ++ (s.servePan pan n).coll.panQueue.getD pan [] ∧ served.length ≤ n ∧
      (s.servePan pan n).coll.panUsed.getD pan 0 = s.coll.panUsed.getD pan 0 + (served.map fun r => r.slots).sum := by
  have hnone : s.coll.panUsed.getD pan 0 ≤ panTotal ∧ ∃ served, s.coll.panQueue.getD pan [] =
      served ++ s.coll.panQueue.getD pan [] ∧ served.length ≤ n ∧
      s.coll.panUsed.getD pan 0 = s.coll.panUsed.getD pan 0 + (served.map fun r => r.slots).sum :=
    ⟨hused, [], rfl, Nat.zero_le _, rfl⟩
  induction n generalizing s with
  | zero => exact hnone
  | succ n ih =>
    rw [State.servePan]
    split
    case h_1 => exact hnone
    case h_2 r rest hq =>
      split
      case isFalse => exact hnone
      case isTrue hfit =>
        generalize hs1 : ({ s with coll := { s.coll with panQueue := setAt s.coll.panQueue pan rest } } : State) = s1
        obtain ⟨hused', hqueue'⟩ := State.grantPan_pans (s := s1) r pan
        generalize s1.grantPan r pan = t at hused' hqueue' ⊢
        subst hs1
        have hin : pan < s.coll.panQueue.length := by
          by_contra hout
          simp [Nat.not_lt.1 hout] at hq
        have hused : t.coll.panUsed.getD pan 0 = s.coll.panUsed.getD pan 0 + r.slots := by
          simp [hused', modifyAt, hlen]
        have hqueue : t.coll.panQueue.getD pan [] = rest := by
          simp [hqueue', setAt, hin]
        have hlen' : pan < t.coll.panUsed.length := by
          simpa [hused', modifyAt] using hlen
        obtain ⟨hle, served, hsplit, hn, hsum⟩ := ih t (hused ▸ hfit) hlen' ⟨hused ▸ hfit, [], rfl, Nat.zero_le _, rfl⟩
        refine ⟨hle, r :: served, ?_, Nat.succ_le_succ hn, ?_⟩
        · rw [hq, ← hqueue, hsplit, List.cons_append, ← hsplit]
        · rw [hsum, hused, List.map_cons, List.sum_cons, Nat.add_assoc]

theorem exec_panWaitExpiry_late (hclk : s.clocksRun = true) (hlate : ∃ q ∈ s.coll.panQueue, ∃ r ∈ q, r.comm = h ∧
    r.frame + cfg s.config.active 0x24 2 ≤ s.power.frame.toNat) :
    let s1 : State := { s with coll := s.coll.unqueue h }
    exec (.panWaitExpiry h .none) s = .next
      (((s1.withOp h fun k o => s1.setOp k { o with lastRx := s.power.frame.toNat }).askFallback h).deliverAll) :=
  congrArg _ (if_pos (by simpa [hclk] using hlate))

theorem exec_panWaitExpiry_early (f : DataFault) (hearly : ∀ q ∈ s.coll.panQueue, ∀ r ∈ q, r.comm = h →
    s.power.frame.toNat < r.frame + cfg s.config.active 0x24 2) : exec (.panWaitExpiry h f) s = .next s := by
  refine congrArg _ (if_neg fun hlate => ?_)
  simp only [Bool.and_eq_true, List.any_eq_true, beq_iff_eq, decide_eq_true_eq] at hlate
  obtain ⟨⟨q, hq, r, hr, hcomm, hle⟩, -⟩ := hlate
  exact absurd (hearly q hq r hr hcomm) (Nat.not_lt.2 hle)

end

/-! ## A context that an error stops (R183, R257, R313) -/

section
variable (s : State)

theorem State.touches_freeFill (t : Tag) (ps : List Piece) : s.Touches (s.freeFill t ps) :=
  State.Touches.trans (t := { s with freeCtr := s.freeCtr + (ps.map (·.len)).sum }) ⟨_, _, _, _, _, rfl⟩
    (State.touches_writePieces _ _ _ _)

theorem State.touches_cutShort (p c : Nat) : s.Touches (s.cutShort p c) :=
  (State.Touches.foldl _ (fun a (x : Nat × Cell) => .foldl _ (fun _ _ => State.touches_freeFill _ _ _) (a.cell x.1).async a) _ s).trans
    (.foldl _ (fun _ _ => State.touches_freeFill _ _ _) _ _)

theorem State.ctx_setCtx {p c : Nat} (v : Ctx) (hp : p < s.parts.length) (hc : c < (s.part p).ctxs.length) :
    (s.setCtx p c v).ctx p c = v := by
  rw [State.ctx, State.setCtx, State.part_setPart _ hp]
  simp [setAt, hc]

/-- A change of a partition that a reading of it does not see. -/
theorem State.part_setPart_keeps {α : Type} (g : Part → α) {q : Nat} {v : Part} (h : g v = g (s.part q)) (p : Nat) :
    g ((s.setPart q v).part p) = g (s.part p) := by
  by_cases e : p = q
  · subst e
    by_cases hl : p < s.parts.length
    · rw [State.part_setPart _ hl, h]
    · simp [State.part, State.setPart, setAt, List.set_eq_of_length_le (Nat.not_lt.1 hl)]
  · simp [State.part, State.setPart, setAt, Ne.symm e]

theorem State.freezeTotals_st (q p c : Nat) : ((s.freezeTotals q).ctx p c).st = (s.ctx p c).st := by
  refine s.part_setPart_keeps (fun k => (k.ctxs.getD c Ctx.reset).st) ?_ p
  by_cases hc : c < (s.part q).ctxs.length <;> simp [hc]

theorem State.completeSlot_parts (slot : Nat) (r : Report) : (s.completeSlot slot r).parts = s.parts := by
  unfold State.completeSlot
  split <;> rfl

theorem State.ctx_of_parts {s t : State} (h : t.parts = s.parts) (p c : Nat) : t.ctx p c = s.ctx p c := by
  rw [State.ctx, State.part, h]
  rfl

theorem State.endCommands_st (p c p' c' status : Nat) (but : Option Nat) :
    ((s.endCommands p' c' status but).ctx p c).st = (s.ctx p c).st := by
  refine foldl_keeps (fun a : State => (a.ctx p c).st) _ (fun a t => ?_) _ s
  unfold State.endCommand
  split
  case h_1 u _ =>
    generalize hu : (if writesRecords status then a.hostWrite u.buf (u.recordBytes.take u.bufLen) else a) = a1
    have ha1 : a1.parts = a.parts := by
      rw [← hu]
      split <;> rfl
    exact (State.freezeTotals_st ..).trans
      (congrArg Ctx.st (State.ctx_of_parts ((State.completeSlot_parts ..).trans ha1) p c))
  case h_2 => rfl

/-- A context that has work becomes Stopped, and its communicators are gone. -/
theorem State.stopContext_stops {s : State} {p c : Nat} (status : Nat) (hsz : s.sized) (hp : p < 8) (hc : c < 16)
    (hst : (s.ctx p c).st = .opened ∨ (s.ctx p c).st = .resident) :
    ((s.stopContext p c status).ctx p c).st = .stopped ∧
    ∀ x ∈ (s.stopContext p c status).coll.comms, ¬(x.part = p ∧ x.ctx = c) := by
  obtain ⟨hparts, hctxs, -⟩ := hsz
  have hlen : (s.part p).ctxs.length = 16 := hctxs _ (by simp [State.part, hparts, hp])
  have hcut := (s.touches_cutShort p c).parts
  rw [State.stopContext, if_pos hst]
  generalize s.cutShort p c = a at hcut ⊢
  have hv : (a.setCtx p c { s.ctx p c with st := .stopped, leaving := none, waiting := none }).ctx p c =
      { s.ctx p c with st := .stopped, leaving := none, waiting := none } :=
    a.ctx_setCtx _ (by rw [hcut, hparts]; exact hp) (by rw [State.part, hcut]; exact hlen ▸ hc)
  generalize a.setCtx p c { s.ctx p c with st := .stopped, leaving := none, waiting := none } = u at hv ⊢
  constructor
  · have hend := u.endCommands_st p c p c status none
    rw [hv] at hend
    exact hend
  · intro x hx
    simpa [or_iff_not_imp_left] using (List.mem_filter.1 hx).2

end

/-! ## Packets of an operation (R280, R305 to R309, R322) -/

/-- The rows of packets without an error, each with the type of its packet. -/
inductive PacketRow (p : Packet) : Nat → Instr → Prop
  | chdr : PacketRow p ptChdr (.chdr p .none)
  | cdata : PacketRow p ptCdata (.cdata p .none)
  | credit : PacketRow p ptCredit (.credit p .none)
  | claim : PacketRow p ptClaim (.claim p .none)
  | go : PacketRow p ptGo (.go p .none)
  | fallbkUp : PacketRow p ptFallbkUp (.fallbkUp p .none)
  | fallbkDn : PacketRow p ptFallbkDn (.fallbkDn p .none)
  | counts : PacketRow p ptCounts (.counts p .none)
  | barUp : PacketRow p ptBarUp (.barUp p)
  | barDn : PacketRow p ptBarDn (.barDn p)
  | beaconUp : PacketRow p ptBeaconUp (.beaconUp p)
  | beaconDn : PacketRow p ptBeaconDn (.beaconDn p)

theorem packetRow_of_mem {p : Packet} : ∀ i ∈ [Instr.chdr p .none, .cdata p .none, .credit p .none, .claim p .none, .go p .none,
    .fallbkUp p .none, .fallbkDn p .none, .counts p .none, .barUp p, .barDn p, .beaconUp p, .beaconDn p],
    ∃ n, PacketRow p n i := by
  simp only [List.forall_mem_cons, List.not_mem_nil, IsEmpty.forall_iff, implies_true, and_true]
  exact ⟨⟨_, .chdr⟩, ⟨_, .cdata⟩, ⟨_, .credit⟩, ⟨_, .claim⟩, ⟨_, .go⟩, ⟨_, .fallbkUp⟩, ⟨_, .fallbkDn⟩, ⟨_, .counts⟩,
    ⟨_, .barUp⟩, ⟨_, .barDn⟩, ⟨_, .beaconUp⟩, ⟨_, .beaconDn⟩⟩

section
variable {s : State} {p : Packet} {k : Comm} {j : Nat}

theorem exec_packetRow {n : Nat} {i : Instr} (h : PacketRow p n i) : exec i s = .next (arrives n p s) := by
  cases h <;> rfl

theorem exec_packet {n : Nat} {i : Instr} (hrow : PacketRow p n i) (ha : s.accepts = true) (hd : s.destOk p = true)
    (hw : wellFormed p = true) (hk : s.commOf p = some k) (hj : s.senderOf k p = some j) (ht : p.ptype.toNat = n) :
    exec i s = .next (s.handOver k j p).deliverAll :=
  (exec_packetRow hrow).trans (congrArg _ (arrives_of_checks ha hd hw hk hj ht))

/-- A packet that fails a check changes nothing at the module's own agents (R280). -/
theorem arrives_refused (n : Nat) (h : s.accepts = false ∨ s.destOk p = false ∨ wellFormed p = false ∨ s.commOf p = none)
    (harr : s.fabric.arrived = []) : arrives n p s = s := by
  have hin : s.ingress { iod := 0, src := none, pkt := p } = s := by
    unfold State.ingress
    split
    · rfl
    · rename_i hacc
      split
      · rfl
      · rename_i hchecks
        simp only [Bool.not_eq_true', Bool.not_eq_false] at hacc
        simp only [Bool.not_eq_true', not_or, Bool.not_eq_false] at hchecks
        simp only [hacc, hchecks.1, hchecks.2, Bool.true_eq_false, false_or] at h
        rw [h]
        rfl
  unfold arrives
  split
  · rw [hin, State.deliverAll_idle harr]
  · rfl

/-- A packet of the engine's own types that passes every check is one for its communicator (R305). -/
theorem exec_claim (ht : p.ptype = 0x04) (ha : s.accepts = true) (hd : s.destOk p = true) (hw : wellFormed p = true)
    (hk : s.commOf p = some k) (hj : s.senderOf k p = some j) :
    exec (.claim p .none) s = .next (s.commPacket k j p).deliverAll := by
  have hover : s.handOver k j p = s.commPacket k j p := if_neg (by rw [ht]; decide)
  rw [exec_packet .claim ha hd hw hk hj (by rw [ht]; rfl), hover]

theorem State.setOp_setOp (o o' : CollOp) : (s.setOp k o).setOp k o' = s.setOp k o' :=
  State.setComm_setComm rfl

/-- A member whose stages have not all been served does not claim yet. -/
theorem State.tryClaim_waits {h : Nat} {o : CollOp} (hk : s.comm h = some k) (ho : k.op = some o)
    (hp : o.pans.length < k.trees) : s.tryClaim h = s :=
  (State.withOp_some _ hk ho).trans (if_pos (by simp [hp]))

/-- A `CLAIM` that is not the last is kept. -/
theorem State.commPacket_claim {x : CollOp} (ht : p.ptype = 0x04) (hk : s.comm k.handle = some k) (ho : k.op = some x)
    (hseq : (Obj.of p.obj).seq = k.opSeq.toNat) (hp : x.pans.length < k.trees) :
    s.commPacket k j p = s.setOp k { x with lastRx := s.power.frame.toNat, claims := j :: x.claims } := by
  have hclaim : p.ptype.toNat = ptClaim := by rw [ht]; rfl
  have hrun : BitVec.ofNat 16 (Obj.of p.obj).seq = k.opSeq ∧ k.op.isSome = true := by simp [hseq, ho]
  rw [State.commPacket]
  rw [if_pos hrun, State.opPacket, State.withOp_some _ hk ho]
  simp only [hclaim, show ptClaim ≠ ptChdr by decide, show ptClaim ≠ ptCdata by decide, show ptClaim ≠ ptCredit by decide,
    if_false, if_true, State.setOp_setOp]
  exact State.tryClaim_waits (State.comm_setOp hk) rfl hp

/-- A packet that comes before its operation is kept in the peer area, or counted as dropped (R305). -/
theorem State.commPacket_early (ht : p.ptype = 0x04) (ho : k.op = none) : s.commPacket k j p =
    if BitVec.ofNat 16 (Obj.of p.obj).seq = k.opSeq + 1 ∨ BitVec.ofNat 16 (Obj.of p.obj).seq = k.opSeq + 2 then
      s.recordEarly k j p 17
    else s.dropEarly k.handle := by
  have hbit : earlyBit p.ptype.toNat = some 17 := by rw [ht]; rfl
  rw [State.commPacket]
  rw [if_neg (by simp [ho]), hbit]

theorem State.touches_recordEarly (bit : Nat) : s.Touches (s.recordEarly k j p bit) := by
  rw [State.recordEarly]
  generalize s.vread k.part k.ctx (k.earlyAt j (Obj.of p.obj).seq) 16 = r
  cases r with
  | none => exact .refl s
  | some l => exact s.touches_vwrite ..

/-! ### Errors that an engine meets (R183, R313) -/

theorem State.dataFor_of_op (ha : s.accepts = true) (hd : s.destOk p = true) (hk : s.commOf p = some k)
    (ho : k.op.isSome = true) (hseq : (Obj.of p.obj).seq = k.opSeq.toNat) : s.dataFor p = some k := by
  simp [State.dataFor, ha, hd, hk, ho, hseq]

theorem exec_cdata_panParity (h : s.dataFor p = some k) :
    exec (.cdata p .panParity) s = .next (s.stopContext k.part k.ctx stKilled) := by
  have hi : exec (.cdata p .panParity) s = .next (s.engineMeets (s.dataFor p) .panParity (arrives ptCdata p)) := rfl
  rw [hi, h]
  rfl

theorem exec_cdata_memory {b : BadData} {pa : Nat} (h : s.dataFor p = some k) (hb : (s.meets (some b)).2 = some pa) :
    exec (.cdata p (.memory b)) s = .next ((s.stopContext k.part k.ctx stKilled).uncorrectable pa 1) := by
  have hi : exec (.cdata p (.memory b)) s = .next (s.engineMeets (s.dataFor p) (.memory b) (arrives ptCdata p)) := rfl
  rw [hi, h]
  simp only [State.engineMeets, hb]

end

section
variable {s : State} {p : Packet} {k : Comm}

/-- A pan slot in error stops the context of the operation. -/
theorem answers_cdata_panParity (hsz : s.sized) (hdata : s.dataFor p = some k) (hp : k.part < 8) (hc : k.ctx < 16)
    (hst : (s.ctx k.part k.ctx).st = .opened ∨ (s.ctx k.part k.ctx).st = .resident) :
    Answers (.cdata p .panParity) s fun t => (t.ctx k.part k.ctx).st = .stopped ∧
      ∀ x ∈ t.coll.comms, ¬(x.part = k.part ∧ x.ctx = k.ctx) :=
  ⟨_, exec_cdata_panParity hdata, State.stopContext_stops stKilled hsz hp hc hst⟩

/-- A packet that is neither of the running operation nor of the next two is counted as dropped. -/
theorem State.dropEarly_batchOf {h : Nat} {b : Batch} (hb : s.batchOf h = some b) :
    ∃ b1, (s.dropEarly h).batchOf h = some b1 ∧ b1.dropped = b.dropped + 1 ∧ (s.dropEarly h).mem = s.mem := by
  obtain rfl : b.handle = h := by simpa using List.find?_some hb
  have hdrop : s.dropEarly b.handle = s.setBatch { b with dropped := b.dropped + 1 } := by rw [State.dropEarly, hb]
  rw [hdrop]
  exact ⟨_, State.batchOf_setBatch (b' := { b with dropped := b.dropped + 1 }) hb, rfl, rfl⟩

end

/-- Settles O35: the end of an operation is followed through to its communicator, pan requests are served by induction on
their number, and a packet that passes the checks is traced to the engine. -/
theorem collectiveOperations : Obligations.CollectiveOperations := by
  refine ⟨⟨?_, ?_, ?_, ?_, ?_, ?_⟩, ?_, ?_⟩
  case refine_1 =>
    intro s h k b hk hb hheld hstop ho hbr hclk hlive hres
    have hstart := exec_collOpStart hk hb hheld hstop ho hbr hclk hlive hres
    refine ⟨hstart, fun harr => ?_⟩
    intro d hbad
    obtain rfl := State.comm_handle hk
    obtain ⟨o, ps, hdesc⟩ := State.startDesc_refused (s := s) (k := k) hbad
    obtain ⟨hcomm, harr'⟩ := s.endOp_numbered k o ps hk
    rw [← hdesc] at hcomm harr'
    rw [State.deliverAll_idle (harr'.trans harr)] at hstart
    exact ⟨_, hstart, _, hcomm, rfl, rfl, rfl⟩
  case refine_2 =>
    intro s h k o hk ho hlate hpan hclk
    exact ⟨_, exec_collTimeout hk ho hlate hpan hclk, _, State.closeOp_comm hk ho, rfl, rfl⟩
  case refine_3 =>
    intro s slot b r k o hb hr hc hh hlate hk ho
    exact ⟨_, exec_batchSuspendTimeout hb hr hc hh hlate, _, State.endOp_comm stCancelled hk ho, rfl, Bool.or_true _⟩
  case refine_4 => exact fun s pan hclk => exec_panSlotGrant pan hclk
  case refine_5 => exact fun s pan n hused hlen => State.servePan_spec pan n s hused hlen
  case refine_6 => exact fun s h hclk => ⟨exec_panWaitExpiry_late hclk, fun hearly f => exec_panWaitExpiry_early f hearly⟩
  case refine_7 =>
    refine fun s p => ⟨fun k j ha hd hw hk hj => ?_, fun hbad harr i hi => ?_⟩
    · have row {n : Nat} {i : Instr} (hrow : PacketRow p n i) (ht : p.ptype.toNat = n) :
          exec i s = .next (s.handOver k j p).deliverAll := exec_packet hrow ha hd hw hk hj ht
      exact ⟨fun ht => row .chdr (congrArg BitVec.toNat ht), fun ht => row .cdata (congrArg BitVec.toNat ht),
        fun ht => row .credit (congrArg BitVec.toNat ht), fun ht => row .claim (congrArg BitVec.toNat ht),
        fun ht => row .go (congrArg BitVec.toNat ht), fun ht => row .fallbkUp (congrArg BitVec.toNat ht),
        fun ht => row .fallbkDn (congrArg BitVec.toNat ht), fun ht => row .counts (congrArg BitVec.toNat ht),
        fun ht => row .barUp (congrArg BitVec.toNat ht), fun ht => row .barDn (congrArg BitVec.toNat ht),
        fun ht => row .beaconUp (congrArg BitVec.toNat ht), fun ht => row .beaconDn (congrArg BitVec.toNat ht)⟩
    · obtain ⟨n, hrow⟩ := packetRow_of_mem i hi
      rw [exec_packetRow hrow, arrives_refused n hbad harr]
  case refine_8 =>
    intro s p k j ha hd hw hk hj hcomm harr o
    refine ⟨fun x ht ho hseq _ hpans => ?_, fun ht ho _ => ?_, fun hsz ho hseq hp hc hst => ?_⟩
    · rw [exec_claim ht ha hd hw hk hj, State.commPacket_claim ht hcomm ho hseq hpans]
      exact congrArg _ (State.deliverAll_idle harr)
    · have hexec := exec_claim ht ha hd hw hk hj
      rw [State.commPacket_early ht ho] at hexec
      refine ⟨fun hnear => ?_, fun b hne1 hne2 hb => ?_⟩
      · rw [if_pos hnear, (State.touches_recordEarly 17).deliverAll harr] at hexec
        exact hexec
      · obtain ⟨b1, hb1, hdropped, hmem⟩ := State.dropEarly_batchOf hb
        have hidle : (s.dropEarly k.handle).fabric.arrived = [] := by rw [State.dropEarly, hb]; exact harr
        rw [if_neg (not_or.2 ⟨hne1, hne2⟩), State.deliverAll_idle hidle] at hexec
        exact ⟨_, hexec, b1, hb1, hdropped, hmem⟩
    · have hdata := State.dataFor_of_op ha hd hk ho hseq
      exact ⟨answers_cdata_panParity hsz hdata hp hc hst, fun b pa hb => exec_cdata_memory hdata hb⟩

end Sys2Proof.Machine

end

section

/-! PROOFS. The frame tick (06_mailboxes, 07_dispatch, 11_power, 15_recovery). -/

namespace Sys2Proof.Machine

/-! ## What a frame boundary is judged by -/

/-- The log, powered time, control state, and by partition its service, grant and balance. -/
structure FrameAccount where
  log : List LogEntry
  poweredS : BitVec 64
  power : Power
  part : Nat → Bool × Nat × Int

/-- The configuration sets, what waits to change the active one, and communicators that were destroyed in the frame. -/
structure ConfigSets where
  active : ConfigSet
  shadow : ConfigSet
  swap : Option Nat
  writes : List ActiveWrite
  dead : List Nat

/-- What a balance is judged by. -/
def Part.account (k : Part) : Bool × Nat × Int := (k.inService, k.grant, k.balance)

def State.account (s : State) : FrameAccount where
  log := s.flash.log
  poweredS := s.flash.persist.poweredS
  power := s.power
  part p := (s.part p).account

def State.configSets (s : State) : ConfigSets where
  active := s.config.active
  shadow := s.config.shadow
  swap := s.config.swap
  writes := s.config.writes
  dead := s.coll.dead

/-- Account and configuration sets together: most of what a tick does leaves both. -/
def State.framed (s : State) : FrameAccount × ConfigSets := (s.account, s.configSets)

section
variable (s : State)

theorem State.account_of_framed {s t : State} (h : t.framed = s.framed) : t.account = s.account := congrArg Prod.fst h

theorem State.configSets_of_framed {s t : State} (h : t.framed = s.framed) : t.configSets = s.configSets :=
  congrArg Prod.snd h

theorem State.Touches.framed {s t : State} (h : s.Touches t) : t.framed = s.framed := by
  obtain ⟨_, _, _, _, _, rfl⟩ := h
  rfl

theorem State.framed_setPart {q : Nat} {v : Part} (h : v.account = (s.part q).account) :
    (s.setPart q v).framed = s.framed := by
  have hpart : (s.setPart q v).account.part = s.account.part := funext fun p => s.part_setPart_keeps Part.account h p
  have hrest : (s.setPart q v).framed = ({ s.account with part := (s.setPart q v).account.part }, s.configSets) := rfl
  rw [hrest, hpart]
  rfl

/-! ## Commands that complete -/

@[simp] theorem State.framed_giveData (t : Taken) (addr len : Nat) (data : List Byte) :
    (s.giveData t addr len data).framed = s.framed := rfl

@[simp] theorem State.framed_completeSlot (slot : Nat) (r : Report) : (s.completeSlot slot r).framed = s.framed := by
  unfold State.completeSlot
  split <;> rfl

@[simp] theorem State.framed_freezeTotals (p : Nat) : (s.freezeTotals p).framed = s.framed := s.framed_setPart rfl

@[simp] theorem State.framed_dropSubmit (order : Nat) : (s.dropSubmit order).framed = s.framed := rfl

@[simp] theorem State.framed_endStop (stop : Option StopReq) (status : Nat) : (s.endStop stop status).framed = s.framed := by
  unfold State.endStop
  split <;> simp

@[simp] theorem State.framed_endSubmit (u : Submit) (status stopStatus : Nat) :
    (s.endSubmit u status stopStatus).framed = s.framed := by
  rw [State.endSubmit, State.framed_endStop, State.framed_freezeTotals, State.framed_dropSubmit, State.framed_completeSlot]
  split <;> rfl

@[simp] theorem State.framed_finishSubmits (f : Submit → Bool) : (s.finishSubmits f).framed = s.framed := by
  refine foldl_keeps State.framed _ (fun a u => ?_) _ s
  unfold State.endOver
  split <;> simp

/-! ## The ended frame: telemetry, interrupts, its log, and samples (R204, R351, R468) -/

/-- Telemetry adds to the records of power alone. -/
theorem State.telemetry_eq : ∃ w : Power, s.telemetry = { s with power := w } ∧ w.frame = s.power.frame ∧
    w.act = s.power.act ∧ w.rack = s.power.rack ∧ w.rackNew = s.power.rackNew := by
  have hhost (s : State) (e : FrameEnergy) : ∃ w : Power, s.hostTelem e = { s with power := w } ∧ w.frame = s.power.frame ∧
      w.act = s.power.act ∧ w.rack = s.power.rack ∧ w.rackNew = s.power.rackNew := by
    unfold State.hostTelem
    dsimp only
    split <;> exact ⟨_, rfl, rfl, rfl, rfl, rfl⟩
  have htray (s : State) (e : FrameEnergy) : ∃ w : Power, s.trayTelem e = { s with power := w } ∧ w.frame = s.power.frame ∧
      w.act = s.power.act ∧ w.rack = s.power.rack ∧ w.rackNew = s.power.rackNew := by
    unfold State.trayTelem
    dsimp only
    split <;> exact ⟨_, rfl, rfl, rfl, rfl, rfl⟩
  have hcoarse (s : State) (e : FrameEnergy) : ∃ w : Power, s.coarseWindow e = { s with power := w } ∧
      w.frame = s.power.frame ∧ w.act = s.power.act ∧ w.rack = s.power.rack ∧ w.rackNew = s.power.rackNew := by
    unfold State.coarseWindow
    dsimp only
    split <;> exact ⟨_, rfl, rfl, rfl, rfl, rfl⟩
  unfold State.telemetry
  split
  case h_1 e _ =>
    obtain ⟨w1, h1, f1, a1, r1, n1⟩ := hhost s e
    obtain ⟨w2, h2, f2, a2, r2, n2⟩ := htray (s.hostTelem e) e
    obtain ⟨w3, h3, f3, a3, r3, n3⟩ := hcoarse ((s.hostTelem e).trayTelem e) e
    rw [h1] at h2 f2 a2 r2 n2
    rw [h1, h2] at h3 f3 a3 r3 n3
    refine ⟨w3, ?_, f3.trans (f2.trans f1), a3.trans (a2.trans a1), r3.trans (r2.trans r1), n3.trans (n2.trans n1)⟩
    rw [h1, h2, h3]
  case h_2 => exact ⟨s.power, rfl, rfl, rfl, rfl, rfl⟩

/-- Interrupts at the boundary change the mailbox and what the module has sent. -/
theorem State.sendVectors_eq : ∃ m o, s.sendVectors = { s with mail := m, out := o } := by
  have hone (due : BitVec 64) (l : List Nat) (a : State) :
      ∃ m o, l.foldl (State.sendVector due) a = { a with mail := m, out := o } := by
    induction l generalizing a with
    | nil => exact ⟨a.mail, a.out, rfl⟩
    | cons v l ih =>
      have hv : ∃ m o, State.sendVector due a v = { a with mail := m, out := o } := by
        unfold State.sendVector
        dsimp only
        split
        · exact ⟨a.mail, a.out, rfl⟩
        · split <;> exact ⟨_, _, rfl⟩
      obtain ⟨m, o, hv⟩ := hv
      obtain ⟨m', o', h⟩ := ih (State.sendVector due a v)
      exact ⟨m', o', by rw [List.foldl_cons, h, hv]⟩
  unfold State.sendVectors
  dsimp only
  split
  · obtain ⟨m, o, h⟩ := hone _ (List.range 64) _
    exact ⟨m, o, h⟩
  · exact ⟨_, _, rfl⟩

theorem State.touches_mapCells (f : Nat → Cell → Cell) : s.Touches (s.mapCells f) := ⟨_, _, _, _, _, rfl⟩

theorem State.touches_setCell (c : Nat) (k : Cell) : s.Touches (s.setCell c k) := ⟨_, _, _, _, _, rfl⟩

theorem State.touches_dropSample (p c : Nat) : s.Touches (s.dropSample p c) := by
  rw [State.dropSample]
  generalize s.vread p c ((s.ctx p c).sampling.cb.toNat + 0x14) 4 = r
  cases r with
  | none => exact .refl s
  | some l => exact s.touches_vwrite ..

theorem State.touches_of_vwrite {s t : State} {p c va : Nat} {l : List Byte} (h : s.vwrite p c va l = some t) :
    s.Touches t := by
  have hw := s.touches_vwrite p c va l
  rwa [h] at hw

@[simp] theorem State.framed_stopSampling (p c : Nat) : (s.stopSampling p c).framed = s.framed := by
  rw [State.stopSampling]
  dsimp only
  refine (State.touches_vwrite ..).framed.trans ((State.touches_mapCells _ _).framed.trans ?_)
  exact s.framed_setPart rfl

theorem State.framed_match {o : Option State} {d : State} {f : State → State} (hd : d.framed = s.framed)
    (hf : ∀ t, o = some t → (f t).framed = s.framed) :
    State.framed (match (generalizing := false) o with
      | none => d
      | some t => f t) = s.framed := by
  cases o with
  | none => exact hd
  | some t => exact hf t rfl

/-- The results of writes to memory stay opaque (`∃ r, … = r`), so that none of them is evaluated. -/
@[simp] theorem State.framed_spill (c : Nat) (x : Sample) : (s.spill c x).framed = s.framed := by
  have hstop := s.framed_stopSampling x.part x.ctx
  obtain ⟨stopped, hst⟩ : ∃ t, s.stopSampling x.part x.ctx = t := ⟨_, rfl⟩
  rw [hst] at hstop
  rw [State.spill, hst]
  split
  case isTrue => rfl
  case isFalse =>
    split
    case h_1 => exact hstop
    case h_2 l _ =>
      extract_lets r va
      split
      case isTrue => exact (s.touches_dropSample ..).framed
      case isFalse =>
        obtain ⟨r0, h0⟩ : ∃ r0, s.vwrite x.part x.ctx va (x.bytes c) = r0 := ⟨_, rfl⟩
        rw [h0]
        refine s.framed_match hstop fun s0 hs0 => ?_
        extract_lets s1
        have hcount : s.Touches s1 := (State.touches_of_vwrite (h0.trans hs0)).trans (s0.counts_count ..).touches
        obtain ⟨r1, h1⟩ : ∃ r1, s1.vwrite x.part x.ctx ((s.ctx x.part x.ctx).sampling.cb.toNat + 0x10)
            (leBytes 4 (r.2.2.2 + 1)) = r1 := ⟨_, rfl⟩
        rw [h1]
        cases r1 with
        | some s2 => exact (hcount.trans (State.touches_of_vwrite h1)).framed
        | none => exact hstop

@[simp] theorem State.framed_tickSampling : s.tickSampling.framed = s.framed := by
  unfold State.tickSampling
  split
  · refine foldl_keeps State.framed _ (fun a c => ?_) _ s
    exact (foldl_keeps State.framed _ (fun b x => b.framed_spill c x) _ _).trans (a.touches_setCell ..).framed
  · rfl

/-! ## Fences (R61) -/

theorem State.framed_log (e : BitVec 16) (src : BitVec 8) (o a : BitVec 32) : (s.log e src o a).framed = s.framed := by
  unfold State.log
  dsimp only
  split
  · rfl
  · split <;> rfl

theorem State.framed_publishFence (x : BitVec 32 × Nat) : (s.publishFence x).framed = s.framed := by
  have hlog := s.framed_log evUnitFenced srcCmd x.1 (BitVec.ofNat 32 x.2)
  rw [State.publishFence]
  generalize s.log evUnitFenced srcCmd x.1 (BitVec.ofNat 32 x.2) = s1 at hlog ⊢
  dsimp only
  split <;> exact hlog

@[simp] theorem State.framed_publish : s.publish.framed = s.framed := by
  rw [State.publish]
  dsimp only
  exact foldl_keeps State.framed _ State.framed_publishFence _ _

/-! ## The configuration sets (R226, R227, R328, R336, R345) -/

@[simp] theorem State.framed_holdMode (p : Nat) : (s.holdMode p).framed = s.framed := by
  unfold State.holdMode
  dsimp only
  split <;> rfl

@[simp] theorem State.framed_settlePort (p : Nat) : (s.settlePort p).framed = s.framed := by
  have hmode : (s.applyMode p).framed = s.framed := by
    unfold State.applyMode
    split
    · split <;> rfl
    · rfl
  unfold State.settlePort
  dsimp only
  split
  · exact hmode
  · refine (foldl_keeps State.framed _ (fun a h => ?_) _ _).trans hmode
    split <;> rfl

@[simp] theorem State.framed_settlePorts : s.settlePorts.framed = s.framed :=
  foldl_keeps State.framed _ State.framed_settlePort _ _

@[simp] theorem State.framed_settleBeacons (before : ConfigSet) : (s.settleBeacons before).framed = s.framed := by
  refine foldl_keeps State.framed _ (fun a c => ?_) _ s
  split <;> rfl

@[simp] theorem State.framed_clearBlock (b : Nat) : (s.clearBlock b).framed = s.framed := rfl

@[simp] theorem State.framed_clearChanged (before : ConfigSet) : (s.clearChanged before).framed = s.framed :=
  foldl_keeps State.framed _ State.framed_clearBlock _ s

@[simp] theorem State.framed_elapseBlock (b : Nat) : (s.elapseBlock b).framed = s.framed := by
  have hcell (a : State) (c : Nat) : (a.elapseCell c).framed = a.framed := by
    unfold State.elapseCell
    split <;> rfl
  have hbank (a : State) : (a.elapseBank b).framed = a.framed := by
    unfold State.elapseBank
    split <;> rfl
  exact (hbank _).trans (foldl_keeps State.framed _ (fun a i => hcell a _) _ s)

@[simp] theorem State.framed_configBlock (q : CntPending) (b : Nat) : (s.configBlock q b).framed = s.framed :=
  by
  refine foldl_keeps State.framed _ (fun a i => ?_) _ s
  rfl

@[simp] theorem State.framed_runCnt (q : CntPending) : (s.runCnt q).framed = s.framed := by
  unfold State.runCnt
  dsimp only
  split
  · split
    · exact s.framed_completeSlot ..
    · exact (State.framed_completeSlot ..).trans (foldl_keeps State.framed _ (fun a b => a.framed_configBlock q b) _ s)
  · split
    · split
      · exact (State.framed_giveData ..).trans (foldl_keeps State.framed _ State.framed_elapseBlock _ s)
      · rfl
    · exact (State.framed_completeSlot ..).trans (foldl_keeps State.framed _ State.framed_clearBlock _ s)

@[simp] theorem State.framed_runCounters : s.runCounters.framed = s.framed :=
  foldl_keeps State.framed _ State.framed_runCnt _ _

/-- Waiting writes are made to the active set, and those of Beacon end there. -/
theorem State.framed_applyWrites : s.applyWrites.framed = (s.account, { s.configSets with
    active := (s.config.writes.filter fun w => !w.applied).foldl (fun k w => w.to_ k) s.config.active
    writes := (s.config.writes.map fun (w : ActiveWrite) => { w with applied := true }).filter fun w => w.beacon.isNone }) := by
  refine foldl_keeps State.framed _ (fun a w => ?_) _ _
  refine (State.framed_completeSlot ..).trans ?_
  split
  · split <;> rfl
  · rfl

/-- With no communicator destroyed, no channel is disabled. -/
theorem State.applyDead_none (h : s.coll.dead = []) : s.applyDead = s := by
  simp only [State.applyDead, h, List.contains_nil, Bool.and_false, List.filter_false, List.foldl_nil, Bool.false_eq_true,
    if_false, List.map_id']
  rw [← h]

theorem State.applySwap_none (h : s.config.swap = none) : s.applySwap = s := by
  rw [State.applySwap, h]

theorem State.framed_applySwap_some {slot : Nat} (h : s.config.swap = some slot) : s.applySwap.framed =
    (s.account, { s.configSets with active := s.config.shadow, shadow := s.config.active, swap := none }) := by
  rw [State.applySwap, h]
  refine (State.framed_completeSlot ..).trans ((State.framed_settlePorts _).trans ?_)
  refine (foldl_keeps State.framed _ State.framed_holdMode _ _).trans ?_
  rfl

theorem State.account_applySwap : s.applySwap.account = s.account := by
  cases h : s.config.swap with
  | none => rw [s.applySwap_none h]
  | some slot => exact congrArg Prod.fst (s.framed_applySwap_some h)

/-- What follows from a changed active set leaves it. -/
theorem State.framed_applyConfig : s.applyConfig.framed = (s.account,
    { s.applyWrites.applyDead.applySwap.applyDead.configSets with dead := [] }) := by
  refine (State.framed_runCounters _).trans ((State.framed_settleBeacons ..).trans ((State.framed_clearChanged ..).trans ?_))
  have hacc : s.applyWrites.applyDead.applySwap.applyDead.account = s.account :=
    (State.account_applySwap _).trans (congrArg Prod.fst s.framed_applyWrites)
  rw [← hacc]
  rfl

theorem State.account_applyConfig : s.applyConfig.account = s.account := congrArg Prod.fst s.framed_applyConfig

theorem State.configSets_applyWrites : s.applyWrites.configSets = { s.configSets with
    active := (s.config.writes.filter fun w => !w.applied).foldl (fun k w => w.to_ k) s.config.active
    writes := (s.config.writes.map fun (w : ActiveWrite) => { w with applied := true }).filter fun w => w.beacon.isNone } :=
  congrArg Prod.snd s.framed_applyWrites

theorem State.configSets_applySwap_some {slot : Nat} (h : s.config.swap = some slot) : s.applySwap.configSets =
    { s.configSets with active := s.config.shadow, shadow := s.config.active, swap := none } :=
  congrArg Prod.snd (s.framed_applySwap_some h)

theorem State.configSets_applyConfig (hdead : s.coll.dead = []) :
    s.applyConfig.configSets = { s.applyWrites.applySwap.configSets with dead := [] } := by
  have hw : s.applyWrites.coll.dead = [] := (congrArg ConfigSets.dead s.configSets_applyWrites).trans hdead
  have hs : s.applyWrites.applySwap.coll.dead = [] := by
    cases h : s.applyWrites.config.swap with
    | none => rw [State.applySwap_none _ h, hw]
    | some slot => exact (congrArg ConfigSets.dead (State.configSets_applySwap_some _ h)).trans hw
  have h := congrArg Prod.snd s.framed_applyConfig
  rwa [State.applyDead_none _ hw, State.applyDead_none _ hs] at h

/-- Without a swap, the active set takes the waiting writes. -/
theorem State.active_applyConfig_writes (hswap : s.config.swap = none) (hdead : s.coll.dead = []) :
    s.applyConfig.configSets.active =
      (s.config.writes.filter fun w => !w.applied).foldl (fun k w => w.to_ k) s.config.active := by
  have hw : s.applyWrites.config.swap = none := (congrArg ConfigSets.swap s.configSets_applyWrites).trans hswap
  rw [s.configSets_applyConfig hdead, State.applySwap_none _ hw, s.configSets_applyWrites]

/-- Without a waiting write, a swap exchanges the sets. -/
theorem State.configSets_applyConfig_swap {slot : Nat} (hswap : s.config.swap = some slot) (hdead : s.coll.dead = [])
    (hwrites : s.config.writes = []) : s.applyConfig.configSets =
      { active := s.config.shadow, shadow := s.config.active, swap := none, writes := [], dead := [] } := by
  have hsets := s.configSets_applyWrites
  rw [hwrites] at hsets
  have hw : s.applyWrites.config.swap = some slot := (congrArg ConfigSets.swap hsets).trans hswap
  have hactive : s.applyWrites.config.active = s.config.active := congrArg ConfigSets.active hsets
  have hshadow : s.applyWrites.config.shadow = s.config.shadow := congrArg ConfigSets.shadow hsets
  rw [s.configSets_applyConfig hdead, State.configSets_applySwap_some _ hw, hsets, hactive, hshadow]
  rfl

/-! ## Outputs, links and the control state (R249, R252, R282, R355, R435) -/

/-- Points in force, grants and refilled balances of the new frame. -/
theorem State.framed_applyOutputs : ∃ part, s.applyOutputs.framed =
    ({ s.account with power := { s.power with points := s.power.act.points }, part := part }, s.configSets) ∧
    ∀ p, p < 8 → part p = ((s.part p).inService, s.power.act.grants.getD p 0,
      if (s.part p).inService then min ((s.part p).balance + s.power.act.grants.getD p 0) (2 * s.power.act.grants.getD p 0)
      else (s.part p).balance) := by
  have hframed : s.applyOutputs.framed = _ := State.framed_finishSubmits _ fun u => u.tail == []
  refine ⟨_, hframed, fun p hp => ?_⟩
  simp [State.part, Part.account, hp]

@[simp] theorem State.framed_correctSubmits : s.correctSubmits.framed = s.framed := rfl

@[simp] theorem State.framed_correctFrame : s.correctFrame.framed = s.framed := by
  unfold State.correctFrame
  split <;> rfl

@[simp] theorem State.framed_sendTimes : s.sendTimes.framed = s.framed := by
  unfold State.sendTimes
  split
  · rfl
  · refine foldl_keeps State.framed _ (fun a h => ?_) _ s
    rfl

@[simp] theorem State.framed_linkTurn : s.linkTurn.framed = s.framed := by
  have hnext (a : Activation) (l : List Nat) : (s.linkNext a l).framed = s.framed := by
    induction l with
    | nil => rfl
    | cons h rest ih =>
      unfold State.linkNext
      dsimp only
      split
      · rfl
      · split
        · rfl
        · exact ih
  unfold State.linkTurn
  split
  · split
    · exact hnext _ _
    · rfl
  · rfl

theorem State.framed_latch (m : Snapshot) :
    (s.latch m).framed = ({ s.account with power := (s.latch m).power }, s.configSets) := rfl

theorem State.framed_nextFrame : s.nextFrame.framed = ({ s.account with
    poweredS := s.flash.persist.poweredS + (if (s.power.frame + 1).toNat % 50000 = 0 then 1 else 0)
    power := { s.power with frame := s.power.frame + 1 } }, s.configSets) := by
  have hsec : s.nextFrame.flash.persist.poweredS =
      s.flash.persist.poweredS + if (s.power.frame + 1).toNat % 50000 = 0 then 1 else 0 := by
    rw [State.nextFrame]
    dsimp only
    simp only [beq_iff_eq]
    split
    · rfl
    · exact (BitVec.add_zero _).symm
  have hframed : s.nextFrame.framed = ({ s.account with
      poweredS := s.nextFrame.flash.persist.poweredS
      power := { s.power with frame := s.power.frame + 1 } }, s.configSets) := rfl
  rw [hframed, hsec]

end

/-! ## The tick -/

/-- What a tick does with rails up once the counter has advanced. -/
def State.beginFrame (s : State) (m : Snapshot) : State :=
  (s.publish.applyConfig.applyOutputs.latch m).correctSubmits.correctFrame.sendTimes.linkTurn

section
variable (s : State)

theorem State.framed_withLog (log : List LogEntry) (r : Recovery) :
    State.framed { s with flash := { s.flash with log := log }, rcv := r } = ({ s.account with log := log }, s.configSets) := rfl

theorem State.framed_commitLog : s.commitLog.framed = ({ s.account with
    log := (s.flash.log ++ s.rcv.fresh).drop ((s.flash.log ++ s.rcv.fresh).length - logRing) }, s.configSets) :=
  s.framed_withLog _ _

theorem State.commitLog_rest : s.commitLog.parts = s.parts ∧ s.commitLog.config = s.config ∧ s.commitLog.cells = s.cells ∧
    s.commitLog.mem = s.mem := by
  rw [State.commitLog]
  exact ⟨rfl, rfl, rfl, rfl⟩

/-- The ended frame: records of power, interrupts, and the log of the frame, committed. -/
theorem State.endFrame_spec : ∃ w : Power, s.telemetry.sendVectors.commitLog.framed =
      ({ s.account with
          log := (s.flash.log ++ s.rcv.fresh).drop ((s.flash.log ++ s.rcv.fresh).length - logRing)
          power := w }, s.configSets) ∧
    (s.telemetry.sendVectors.commitLog.parts = s.parts ∧ s.telemetry.sendVectors.commitLog.config = s.config ∧
      s.telemetry.sendVectors.commitLog.cells = s.cells ∧ s.telemetry.sendVectors.commitLog.mem = s.mem) ∧
    w.frame = s.power.frame ∧ w.act = s.power.act ∧ w.rack = s.power.rack ∧ w.rackNew = s.power.rackNew := by
  obtain ⟨w, hw, hrest⟩ := s.telemetry_eq
  obtain ⟨mail, out, hv⟩ := s.telemetry.sendVectors_eq
  rw [hv, hw]
  refine ⟨w, ?_, State.commitLog_rest _, hrest⟩
  rw [State.framed_commitLog]
  dsimp only
  generalize (s.flash.log ++ s.rcv.fresh).drop _ = log
  rfl

theorem State.framed_beginFrame (m : Snapshot) : ∃ part, (s.beginFrame m).framed = ({ s.account with
      power := (State.latch { s with power := { s.power with points := s.power.act.points } } m).power
      part := part }, s.publish.applyConfig.configSets) ∧
    ∀ p, p < 8 → part p = ((s.part p).inService, s.power.act.grants.getD p 0,
      if (s.part p).inService then min ((s.part p).balance + s.power.act.grants.getD p 0) (2 * s.power.act.grants.getD p 0)
      else (s.part p).balance) := by
  have hacc : s.publish.applyConfig.account = s.account :=
    (State.account_applyConfig _).trans (State.account_of_framed s.framed_publish)
  rw [State.beginFrame, State.framed_linkTurn, State.framed_sendTimes, State.framed_correctFrame, State.framed_correctSubmits,
    State.framed_latch]
  generalize s.publish.applyConfig = a at hacc ⊢
  obtain ⟨part, hout, hpart⟩ := a.framed_applyOutputs
  have hpower : a.power = s.power := congrArg FrameAccount.power hacc
  have haccount (p : Nat) : (a.part p).account = (s.part p).account := congrFun (congrArg FrameAccount.part hacc) p
  have hservice (p : Nat) : (a.part p).inService = (s.part p).inService := congrArg Prod.fst (haccount p)
  have hbalance (p : Nat) : (a.part p).balance = (s.part p).balance := congrArg (fun x => x.2.2) (haccount p)
  rw [hacc, hpower] at hout
  simp only [hpower, hservice, hbalance] at hpart
  refine ⟨part, ?_, hpart⟩
  have hsets : a.applyOutputs.configSets = a.configSets := congrArg Prod.snd hout
  have haccOut : a.applyOutputs.account = _ := congrArg Prod.fst hout
  have hlatch (b : State) (h : b.power = { s.power with points := s.power.act.points }) :
      (b.latch m).power = (State.latch { s with power := { s.power with points := s.power.act.points } } m).power := by
    rw [State.latch, h]
    rfl
  rw [hsets, haccOut, hlatch _ (congrArg FrameAccount.power haccOut)]

/-- The frame ends with its energies, and the counter advances. -/
def State.turnFrame (s : State) (e : Option FrameEnergy) : State :=
  State.nextFrame { s with power := { s.power with ended := e } }

theorem State.framed_turnFrame (e : Option FrameEnergy) : (s.turnFrame e).framed = ({ s.account with
    poweredS := s.account.poweredS + (if (s.account.power.frame + 1).toNat % 50000 = 0 then 1 else 0)
    power := { s.account.power with ended := e, frame := s.account.power.frame + 1 } }, s.configSets) :=
  State.framed_nextFrame _

theorem State.turnFrame_rest (e : Option FrameEnergy) : (s.turnFrame e).parts = s.parts ∧ (s.turnFrame e).config = s.config ∧
    (s.turnFrame e).cells = s.cells ∧ (s.turnFrame e).mem = s.mem := by
  rw [State.turnFrame, State.nextFrame]
  exact ⟨rfl, rfl, rfl, rfl⟩

end

/-- What a tick does with and without core rails: the counter, the log of the ended frame, and powered time. -/
def State.turned (t s : State) : Prop :=
  t.power.frame = s.power.frame + 1 ∧
  t.flash.log = (s.flash.log ++ s.rcv.fresh).drop ((s.flash.log ++ s.rcv.fresh).length - logRing) ∧
  t.flash.persist.poweredS = s.flash.persist.poweredS + (if (s.power.frame + 1).toNat % 50000 = 0 then 1 else 0)

section
variable {s : State}

theorem exec_frameTick_off (m : Snapshot) (h : s.board.vddSb = false ∨ s.board.coldReset = true) :
    exec (.frameTick m) s = .next s :=
  congrArg _ (if_pos (by simpa using h))

theorem exec_frameTick_railsDown (m : Snapshot) (hsb : s.board.vddSb = true) (hcold : s.board.coldReset = false)
    (hrails : s.board.railsUp = false) : exec (.frameTick m) s = .next (s.telemetry.sendVectors.commitLog.turnFrame none) := by
  have hi : exec (.frameTick m) s = execFrameTick m s := rfl
  rw [hi, execFrameTick, if_neg (by simp [hsb, hcold])]
  dsimp only
  rw [if_neg (by simp [hrails]), State.turnFrame]

theorem exec_frameTick_railsUp (m : Snapshot) (hsb : s.board.vddSb = true) (hcold : s.board.coldReset = false)
    (hrails : s.board.railsUp = true) : ∃ e, exec (.frameTick m) s =
      .next ((s.telemetry.sendVectors.commitLog.tickSampling.turnFrame (some e)).beginFrame m) := by
  have hi : exec (.frameTick m) s = execFrameTick m s := rfl
  refine ⟨s.telemetry.sendVectors.commitLog.frameEnd m, ?_⟩
  rw [hi, execFrameTick, if_neg (by simp [hsb, hcold])]
  dsimp only
  rw [if_pos hrails, State.beginFrame, State.turnFrame]

/-- With the rails down, the counter and the log go on, and nothing else of the module. -/
theorem frameTick_railsDown (m : Snapshot) (hsb : s.board.vddSb = true) (hcold : s.board.coldReset = false)
    (hrails : s.board.railsUp = false) : Answers (.frameTick m) s fun t => t.turned s ∧
      t.parts = s.parts ∧ t.config = s.config ∧ t.cells = s.cells ∧ t.mem = s.mem := by
  refine ⟨_, exec_frameTick_railsDown m hsb hcold hrails, ?_⟩
  obtain ⟨w, hend, ⟨hparts, hconfig, hcells, hmem⟩, hframe, -⟩ := s.endFrame_spec
  generalize s.telemetry.sendVectors.commitLog = a at hend hparts hconfig hcells hmem ⊢
  rw [State.turned]
  generalize (s.flash.log ++ s.rcv.fresh).drop _ = log at hend ⊢
  obtain ⟨kparts, kconfig, kcells, kmem⟩ := a.turnFrame_rest none
  have hacc : (a.turnFrame none).account = _ := congrArg Prod.fst (a.framed_turnFrame none)
  rw [show a.account = _ from congrArg Prod.fst hend, hframe] at hacc
  exact ⟨⟨congrArg (fun x => x.power.frame) hacc, congrArg FrameAccount.log hacc, congrArg FrameAccount.poweredS hacc⟩,
    kparts.trans hparts, kconfig.trans hconfig, kcells.trans hcells, kmem.trans hmem⟩

/-- What begins with a frame while the core rails are up (R226, R249, R355, R357), from an account and configuration sets. -/
def State.begun (t : State) (a : FrameAccount) (k : ConfigSets) (m : Snapshot) : Prop :=
  (t.power.decided = false ∧ t.power.overran = false ∧ t.power.wroteA = none ∧ t.power.wroteB = none ∧
    t.power.snap = m ∧ t.power.points = a.power.act.points ∧
    t.power.rack = a.power.rackNew.getD a.power.rack ∧ t.power.rackNew = none) ∧
  (∀ p, p < 8 → (t.part p).account = ((a.part p).1, a.power.act.grants.getD p 0,
    if (a.part p).1 then min ((a.part p).2.2 + a.power.act.grants.getD p 0) (2 * a.power.act.grants.getD p 0)
    else (a.part p).2.2)) ∧
  (k.swap = none → k.dead = [] → t.config.active =
    (k.writes.filter fun w => !w.applied).foldl (fun k w => w.to_ k) k.active) ∧
  (∀ slot, k.swap = some slot → k.dead = [] → k.writes = [] →
    t.config.active = k.shadow ∧ t.config.shadow = k.active ∧ t.config.swap = none)

theorem State.beginFrame_begun (s : State) (m : Snapshot) : (s.beginFrame m).begun s.account s.configSets m ∧
    (s.beginFrame m).power.frame = s.power.frame ∧ (s.beginFrame m).flash.log = s.flash.log ∧
    (s.beginFrame m).flash.persist.poweredS = s.flash.persist.poweredS := by
  obtain ⟨part, hframed, hpart⟩ := s.framed_beginFrame m
  have hpub := State.configSets_of_framed s.framed_publish
  generalize s.publish = a at hframed hpub
  generalize s.beginFrame m = t at hframed ⊢
  have hacc : t.account = _ := congrArg Prod.fst hframed
  have hsets : t.configSets = a.applyConfig.configSets := congrArg Prod.snd hframed
  have hpower : t.power = (State.latch { s with power := { s.power with points := s.power.act.points } } m).power :=
    congrArg FrameAccount.power hacc
  rw [← hpub]
  refine ⟨⟨?_, fun p hp => ?_, fun hs hd => ?_, fun slot hs hd hw => ?_⟩, ?_, congrArg FrameAccount.log hacc,
    congrArg FrameAccount.poweredS hacc⟩
  · rw [hpower]
    exact ⟨rfl, rfl, rfl, rfl, rfl, rfl, rfl, rfl⟩
  · exact (congrFun (congrArg FrameAccount.part hacc) p).trans (hpart p hp)
  · exact (congrArg ConfigSets.active hsets).trans (a.active_applyConfig_writes hs hd)
  · have h := hsets.trans (a.configSets_applyConfig_swap hs hd hw)
    exact ⟨congrArg ConfigSets.active h, congrArg ConfigSets.shadow h, congrArg ConfigSets.swap h⟩
  · rw [hpower]
    rfl

/-- With rails up, the boundary changes what a frame is judged by as it should. -/
theorem frameTick_railsUp (m : Snapshot) (hsb : s.board.vddSb = true) (hcold : s.board.coldReset = false)
    (hrails : s.board.railsUp = true) :
    Answers (.frameTick m) s fun t => t.turned s ∧ t.begun s.account s.configSets m := by
  obtain ⟨e, hexec⟩ := exec_frameTick_railsUp m hsb hcold hrails
  refine ⟨_, hexec, ?_⟩
  obtain ⟨w, hend, -, hframe, hact, hrack, hrackNew⟩ := s.endFrame_spec
  have htick := (State.framed_tickSampling _).trans hend
  generalize s.telemetry.sendVectors.commitLog.tickSampling = a at htick
  rw [State.turned]
  generalize (s.flash.log ++ s.rcv.fresh).drop _ = log at htick ⊢
  have hturn := a.framed_turnFrame (some e)
  rw [show a.account = _ from congrArg Prod.fst htick, show a.configSets = _ from congrArg Prod.snd htick, hframe] at hturn
  generalize a.turnFrame (some e) = u at hturn ⊢
  obtain ⟨hbegun, hf, hl, hp⟩ := u.beginFrame_begun m
  have hacc : u.account = _ := congrArg Prod.fst hturn
  have hsets : u.configSets = s.configSets := congrArg Prod.snd hturn
  refine ⟨⟨hf.trans (congrArg (fun x => x.power.frame) hacc), hl.trans (congrArg FrameAccount.log hacc),
    hp.trans (congrArg FrameAccount.poweredS hacc)⟩, ?_⟩
  rw [hacc, hsets, State.begun] at hbegun
  rw [State.begun]
  dsimp only at hbegun
  rwa [hact, hrack, hrackNew] at hbegun

end

/-- Settles O40: account and configuration sets are followed through the parts of the tick, most of which keep both. -/
theorem frameTick : Obligations.FrameTick := by
  intro s m
  refine ⟨exec_frameTick_off m, fun hsb hcold => ?_⟩
  cases hrails : s.board.railsUp with
  | false =>
    obtain ⟨t, hexec, ⟨hf, hl, hp⟩, hrest⟩ := frameTick_railsDown m hsb hcold hrails
    exact ⟨t, hexec, hf, hl, hp, fun _ => hrest, fun h => absurd h (by decide)⟩
  | true =>
    obtain ⟨t, hexec, ⟨hf, hl, hp⟩, ⟨hd, ho, ha, hb, hm, hpo, hr, hrn⟩, hparts, hwrites, hswap⟩ :=
      frameTick_railsUp m hsb hcold hrails
    refine ⟨t, hexec, hf, hl, hp, fun h => absurd h (by decide), fun _ => ⟨hd, ho, ha, hb, hm, hpo, hr, hrn,
      fun p hp8 => ?_, hwrites, hswap⟩⟩
    have haccount := hparts p hp8
    exact ⟨congrArg (fun x => x.2.1) haccount, congrArg (fun x => x.2.2) haccount⟩

end Sys2Proof.Machine

end

section

/-! PROOFS. Partitions and residency: creation and destruction of a partition, which context is Resident, preemption and
ageing (07_dispatch). -/

namespace Sys2Proof

theorem SMap.find_foldl_del {α : Type} {m : SMap α} (hm : SMap.sorted m = true) (l : List Nat) (k : Nat) :
    SMap.find (l.foldl SMap.del m) k = if k ∈ l then none else m.find k := by
  induction l generalizing m with
  | nil => rfl
  | cons j l ih =>
    rw [List.foldl_cons, ih (SMap.sorted_del m j hm)]
    by_cases hk : k = j
    · subst hk
      simp [SMap.find_del_self k hm]
    · simp [SMap.find_del_other m hk, hk]

end Sys2Proof

namespace Sys2Proof.Machine

/-! ## Partitions as a reset of regions and the freeing of granules leave them (R184, R189, R348) -/

section
variable (s : State)

theorem State.lt_parts {s : State} {p : Nat} (hsz : s.sized) (hp : p < 8) : p < s.parts.length := by
  obtain ⟨hparts, -⟩ := hsz
  omega

theorem State.lt_ctxs {s : State} {p c : Nat} (hsz : s.sized) (hp : p < 8) (hc : c < 16) : c < (s.part p).ctxs.length := by
  obtain ⟨hparts, hctxs, -⟩ := hsz
  have hlen := hctxs (s.part p) (by simp [State.part, hparts, hp])
  omega

theorem State.part_of_parts {s t : State} (h : t.parts = s.parts) (p : Nat) : t.part p = s.part p :=
  congrArg (fun l => l.getD p Part.reset) h

theorem State.part_setPart_other {p q : Nat} (v : Part) (h : q ≠ p) : (s.setPart p v).part q = s.part q := by
  simp [State.part, State.setPart, setAt, Ne.symm h]

theorem State.resetRegions_parts (m : BitVec 8) : (s.resetRegions m).parts = s.parts :=
  foldl_keeps State.parts State.resetRegion (fun _ _ => rfl) _ s

theorem State.resetRegions_granules (m : BitVec 8) : (s.resetRegions m).mem.granules = s.mem.granules :=
  foldl_keeps (fun a : State => a.mem.granules) State.resetRegion (fun _ _ => rfl) _ s

/-- Where no page is listed as retired or to be retired, granules that are freed only leave the list of granules. -/
theorem State.foldl_freeGranule (hr : s.flash.retired = []) (l : List Nat) :
    l.foldl State.freeGranule s = { s with mem := { s.mem with granules := l.foldl SMap.del s.mem.granules } } := by
  induction l generalizing s with
  | nil => rfl
  | cons g l ih =>
    have hg : s.freeGranule g = { s with mem := { s.mem with granules := s.mem.granules.del g } } := by
      simp [State.freeGranule, State.retirePending, State.setGranule, hr]
    rw [List.foldl_cons, hg]
    exact ih _ hr

end

/-! ## Creation of a partition (R230, R231) -/

section
variable {s : State} {slot : Nat} {t : Taken}

/-- The partition that a `PART_CREATE` puts in service. -/
def State.createdPart (s : State) (slot p : Nat) : Part :=
  { Part.reset with
    inService := true, conf := s.body slot 1 1 == 1, regions := BitVec.ofNat 8 (s.body slot 0 1)
    ranges := s.bodyRanges slot, weight := s.body slot 2 2, pgen := (s.part p).pgen, lastRegion := 7
    ctxs := (s.part p).ctxs.map fun c => { Ctx.reset with cgen := c.cgen, retired := c.retired } }

theorem exec_partCreate (h : s.startable slot opPartCreate = some t) (hr : s.partRefusal slot t.part.toNat = none) :
    ∃ r, exec (.partCreate slot) s = .next (((s.setPart t.part.toNat (s.createdPart slot t.part.toNat)).resetRegions
      (BitVec.ofNat 8 (s.body slot 0 1))).complete t r) :=
  ⟨_, (command_of_startable h _).trans (by simp only [hr]; rfl)⟩

theorem exec_partCreate_refused {st : Nat} (h : s.startable slot opPartCreate = some t)
    (hr : s.partRefusal slot t.part.toNat = some st) : exec (.partCreate slot) s = .next (s.complete t (.of st)) :=
  (command_of_startable h _).trans (by simp only [hr])

theorem State.createdPart_closed (s : State) (slot p c : Nat) :
    ((s.createdPart slot p).ctxs.getD c Ctx.reset).st = .closed := by
  by_cases hc : c < (s.part p).ctxs.length <;> simp [State.createdPart, hc, Ctx.reset]

end

/-! ## Destruction of a partition (R232, R233) -/

section
variable {s : State} {slot p : Nat} {t : Taken}

/-- The module with the decoders of a partition uncommitted, its granules freed and its regions reset. -/
def State.vacatePart (s : State) (p : Nat) : State :=
  let s1 := s.uncommit fun w => w.part.toNat == p
  let s2 := ((s1.mem.granules.filter fun x => s1.inPart p x.1).map (·.1)).foldl State.freeGranule s1
  s2.resetRegions (s2.part p).regions

theorem State.vacatePart_parts (s : State) (p : Nat) (hr : s.flash.retired = []) : (s.vacatePart p).parts = s.parts := by
  rw [State.vacatePart, State.resetRegions_parts, State.foldl_freeGranule (s.uncommit _) hr]
  rfl

theorem State.uncommit_span (s : State) (f : Window → Bool) (p pa : Nat) : (s.uncommit f).span p pa = s.span p pa := rfl

theorem State.uncommit_inPart (s : State) (f : Window → Bool) (p g : Nat) : (s.uncommit f).inPart p g = s.inPart p g :=
  congrArg Option.isSome (s.uncommit_span f p _)

/-- A listed granule in the memory of the partition ends free and pending. -/
theorem State.vacatePart_granule (s : State) (hr : s.flash.retired = []) (hm : SMap.sorted s.mem.granules = true)
    {g : Nat} {x : Granule} (hg : (g, x) ∈ s.mem.granules) (hin : s.inPart p g = true) :
    (s.vacatePart p).granule g = { owner := .free, scrub := .pending } := by
  have hfind : SMap.find (s.vacatePart p).mem.granules g = none := by
    rw [State.vacatePart, State.resetRegions_granules, State.foldl_freeGranule (s.uncommit _) hr]
    refine (SMap.find_foldl_del hm _ g).trans (if_pos ?_)
    exact List.mem_map.2 ⟨(g, x), List.mem_filter.2 ⟨hg, (s.uncommit_inPart _ p g).trans hin⟩, rfl⟩
  rw [State.granule, hfind]
  rfl

theorem exec_partDestroy (h : s.startable slot opPartDestroy = some t)
    (hc : ∀ c ∈ (s.part t.part.toNat).ctxs, c.st = .closed) : exec (.partDestroy slot) s = .next (
      ((s.vacatePart t.part.toNat).setPart t.part.toNat { Part.reset with
        pgen := genNext ((s.vacatePart t.part.toNat).part t.part.toNat).pgen
        ctxs := ((s.vacatePart t.part.toNat).part t.part.toNat).ctxs }).complete t (.of stDone)) := by
  have hclosed : ¬(s.part t.part.toNat).ctxs.any (fun c => c.st != .closed) = true := by simpa using hc
  exact (command_of_startable h _).trans (congrArg _ (if_neg hclosed))

end

/-- Settles O25: a creation writes one partition and resets regions; a destruction frees granules one after another. -/
theorem partitionLifecycle : Obligations.PartitionLifecycle := by
  intro s slot t p hp hsz hwf
  obtain ⟨-, -, -, hgranules⟩ := hwf
  have hlt : p < s.parts.length := State.lt_parts hsz hp
  refine ⟨fun h hr => ?create, fun h st hr => exec_partCreate_refused h hr, fun h hc hret => ?destroy⟩
  case create =>
    obtain ⟨r, hexec⟩ := exec_partCreate h hr
    refine ⟨_, hexec, ?_⟩
    generalize hu : State.resetRegions _ _ = u
    have hpart (q : Nat) : (u.complete t r).part q = (s.setPart p (s.createdPart slot p)).part q :=
      State.part_of_parts (hu ▸ State.resetRegions_parts _ _) q
    have hnew : (u.complete t r).part p = s.createdPart slot p := (hpart p).trans (State.part_setPart _ hlt)
    rw [hnew]
    refine ⟨rfl, rfl, rfl, rfl, rfl, rfl, fun c => ?_, fun q hq => ?_, State.complete_own _ _ _⟩
    · rw [State.ctx, hnew]
      exact s.createdPart_closed slot p c
    · exact (hpart q).trans (State.part_setPart_other _ _ hq)
  case destroy =>
    have hexec := exec_partDestroy h hc
    have hsame := s.vacatePart_parts p hret
    have hfree (g x) := s.vacatePart_granule (p := p) hret hgranules (g := g) (x := x)
    generalize s.vacatePart p = u at hexec hsame hfree
    have hold : u.part p = s.part p := State.part_of_parts hsame p
    rw [hold] at hexec
    refine ⟨_, hexec, ?_⟩
    generalize hv : ({ Part.reset with pgen := _, ctxs := _ } : Part) = v
    have hnew : ((u.setPart p v).complete t (.of stDone)).part p = v :=
      (State.part_of_parts (s := u.setPart p v) rfl p).trans (u.part_setPart v (hsame ▸ hlt))
    rw [hnew, ← hv]
    exact ⟨rfl, rfl, rfl, hfree, State.complete_own _ _ _⟩

/-! ## The Resident context (R239 to R241) -/

section
variable {s : State} {p c : Nat}

theorem State.resident_lt (h : s.resident p = some c) : c < 16 :=
  List.mem_range.1 (List.mem_of_find?_eq_some h)

theorem State.resident_st (h : s.resident p = some c) : (s.ctx p c).st = .resident := by
  simpa using List.find?_some h

/-- A change of a context that keeps its state keeps which context is Resident. -/
theorem State.resident_setCtx {v : Ctx} (h : v.st = (s.ctx p c).st) : (s.setCtx p c v).resident p = s.resident p := by
  have hst (d : Nat) : ((s.setCtx p c v).ctx p d).st = (s.ctx p d).st := by
    refine s.part_setPart_keeps (fun k => (k.ctxs.getD d Ctx.reset).st) ?_ p
    by_cases hd : d = c
    · subst hd
      by_cases hl : d < (s.part p).ctxs.length
      · simpa [setAt, hl, State.ctx] using h
      · simp [setAt, hl]
    · simp [setAt, Ne.symm hd]
  simp only [State.resident, hst]

end

/-! ### Selection (R239, R241) -/

section
variable (s : State) (p c : Nat)

/-- A context becomes Resident, from a frame on. -/
def State.seat (frame : Nat) : State :=
  let a := s.setCtx p c { s.ctx p c with st := .resident, since := frame, waiting := none, leaving := none }
  a.setPart p { a.part p with lastCtx := some c }

theorem State.touches_scrambleLines : s.Touches (s.scrambleLines p c) :=
  .foldl _ (fun _ _ => State.touches_freeFill _ _ _) _ s

theorem State.freeFill_cells (t : Tag) (ps : List Piece) : (s.freeFill t ps).cells = s.cells :=
  State.writePieces_cells _ t ps _

theorem State.scrambleLines_cells : (s.scrambleLines p c).cells = s.cells :=
  foldl_keeps State.cells _ (fun _ _ => State.freeFill_cells _ _ _) _ s

variable {s p c}

/-- The context chosen is seated, after lines that it may have left on chip have lost their contents. -/
theorem exec_residencySelect (hin : (s.part p).inService = true) (hres : s.resident p = none)
    (hch : s.chooseContext p = some c) : ∃ a : State, s.Touches a ∧ a.cells = s.cells ∧
      exec (.residencySelect p) s = .next ((a.seat p c s.power.frame.toNat).dropXlats p c) := by
  have hgo : ¬(!(s.part p).inService || (s.resident p).isSome) = true := by simp [hin, hres]
  have hexec : exec (.residencySelect p) s = execResidencySelect p s := rfl
  rw [hexec, execResidencySelect, if_neg hgo, hch]
  dsimp only
  cases (s.part p).lastCtx with
  | none => exact ⟨s, .refl s, rfl, rfl⟩
  | some d =>
    by_cases hd : d = c
    · exact ⟨s, .refl s, rfl, by simp only [if_pos hd]; rfl⟩
    · exact ⟨_, s.touches_scrambleLines p c, s.scrambleLines_cells p c, by simp only [if_neg hd]; rfl⟩

theorem State.seat_part (frame : Nat) (hp : p < s.parts.length) : (s.seat p c frame).part p = { s.part p with
    lastCtx := some c
    ctxs := setAt (s.part p).ctxs c { s.ctx p c with
      st := .resident, since := frame, waiting := none, leaving := none } } := by
  have hlen : p < (s.setCtx p c { s.ctx p c with
      st := .resident, since := frame, waiting := none, leaving := none }).parts.length := by
    simpa [State.setCtx, setAt] using hp
  rw [State.seat, State.part_setPart _ hlen, State.setCtx, State.part_setPart _ hp]

theorem State.seat_part_other (frame : Nat) {q : Nat} (h : q ≠ p) : (s.seat p c frame).part q = s.part q :=
  (State.part_setPart_other _ _ h).trans (State.part_setPart_other _ _ h)

theorem residencySelect_answers (hsz : s.sized) (hp : p < 8) (hc : c < 16) (hin : (s.part p).inService = true)
    (hres : s.resident p = none) (hch : s.chooseContext p = some c) :
    Answers (.residencySelect p) s fun t => (t.ctx p c).st = .resident ∧ (t.ctx p c).since = s.power.frame.toNat ∧
      (t.part p).lastCtx = some c ∧ (∀ q, q ≠ p → t.part q = s.part q) ∧
      ∀ i, (t.cell i).arch = (s.cell i).arch := by
  obtain ⟨a, ha, hcells, hexec⟩ := exec_residencySelect hin hres hch
  have hparts := ha.parts
  have hpart : ((a.seat p c s.power.frame.toNat).dropXlats p c).part p = _ :=
    State.seat_part _ (by rw [hparts]; exact State.lt_parts hsz hp)
  have hlen : c < (a.part p).ctxs.length := by
    rw [State.part_of_parts hparts]
    exact State.lt_ctxs hsz hp hc
  refine ⟨_, hexec, ?_⟩
  beta_reduce
  rw [State.ctx, hpart]
  refine ⟨by simp [setAt, hlen], by simp [setAt, hlen], rfl, fun q hq => ?_, fun i => ?_⟩
  · exact (State.seat_part_other _ hq).trans (State.part_of_parts hparts q)
  · exact ((State.dropXlat_alike _ p c _ _).1 i).trans (congrArg Cell.arch (State.cell_congr hcells i))

end

/-! ### Expiry of the quantum (R240) -/

section
variable {s : State} {p c : Nat}

/-- A Resident context with a running item stays Resident. -/
theorem State.settleResidency_of_running (hr : s.resident p = some c)
    (hu : ∃ u ∈ s.disp.submits, u.part = p ∧ u.ctx = c ∧ u.held = false ∧ u.running ≠ []) :
    s.settleResidency p = s := by
  obtain ⟨u, hmem, hpart, hctx, hheld, hrun⟩ := hu
  have hitems : s.hasItems p c = true := List.any_eq_true.2 ⟨u, hmem, by simp [hpart, hctx, hheld, hrun]⟩
  have hruns : s.itemsRun p c = true := List.any_eq_true.2 ⟨u, hmem, by simp [hpart, hctx, hrun]⟩
  simp [State.settleResidency, hr, hitems, hruns]

theorem exec_quantumExpiry {d : Nat} (hr : s.resident p = some c) (hl : (s.ctx p c).leaving = none)
    (hq : (s.ctx p c).since + (s.ctx p c).quantum ≤ s.power.frame.toNat) (hd : d < 16) (hne : d ≠ c)
    (hst : (s.ctx p d).st = .opened) (hready : s.ready p d = true) (hb : s.batchKeeps p c = false) :
    exec (.quantumExpiry p) s = .next
      ((s.setCtx p c { s.ctx p c with leaving := some s.power.frame.toNat }).settleResidency p) := by
  have hother : ((List.range 16).any fun d => d != c && (s.ctx p d).st == .opened && s.ready p d) = true :=
    List.any_eq_true.2 ⟨d, List.mem_range.2 hd, by simp [hne, hst, hready]⟩
  have hexec : exec (.quantumExpiry p) s = execQuantumExpiry p s := rfl
  rw [hexec, execQuantumExpiry, hr]
  exact congrArg _ (if_pos ⟨hl, hq, hother, by rw [hb]; rfl⟩)

end

/-! ## Requests to running items (R139, R240) -/

/-- A cell after the request of `State.requestItems` for preemption. -/
def Cell.ask (k : Cell) (order : Nat) : Cell :=
  match k.run with
  | some r => if r.order = order && k.ended.isNone then k.request false else k
  | none => k

/-- A preempt request stands at a cell. -/
def Cell.Asked (k : Cell) : Prop := k.preempt = true ∧ k.requested = true

section
variable {s : State} {k : Cell} {o : Nat}

theorem State.rest_requestItems (s : State) (order : Nat) (cancel : Bool) : (s.requestItems order cancel).rest = s.rest := rfl

theorem State.find_requestItems {i : Nat} (h : s.cells.find i = some k) :
    (s.requestItems o false).cells.find i = some (k.ask o) :=
  (SMap.find_map s.cells i fun _ k => k.ask o).trans (congrArg _ h)

theorem Cell.ask_cases (k : Cell) (o : Nat) : k.ask o = k ∨ k.ask o = k.request false := by
  unfold Cell.ask
  split
  · split
    · exact .inr rfl
    · exact .inl rfl
  · exact .inl rfl

theorem Cell.ask_run (k : Cell) (o : Nat) : (k.ask o).run = k.run ∧ (k.ask o).ended = k.ended := by
  rcases k.ask_cases o with h | h <;> rw [h] <;> exact ⟨rfl, rfl⟩

theorem Cell.Asked.ask (h : k.Asked) (o : Nat) : (k.ask o).Asked := by
  obtain ⟨hp, hr⟩ := h
  rcases k.ask_cases o with e | e
  · rw [e]
    exact ⟨hp, hr⟩
  · rw [e]
    exact ⟨by simp [Cell.request, hp], rfl⟩

theorem Cell.asked_ask {run : Run} (hrun : k.run = some run) (ho : run.order = o) (he : k.ended = none) :
    (k.ask o).Asked := by
  simp [Cell.ask, Cell.Asked, Cell.request, hrun, ho, he]

/-- A cell that runs an item of a `SUBMIT` in the list has a preempt request once all of the list have been asked. -/
theorem State.foldl_requestItems_asked {i : Nat} (l : List Submit) (hk : s.cells.find i = some k) (he : k.ended = none)
    (h : k.Asked ∨ ∃ u ∈ l, ∃ run, k.run = some run ∧ run.order = u.order) :
    ((l.foldl (fun a u => a.requestItems u.order false) s).cell i).Asked := by
  induction l generalizing s k with
  | nil =>
    obtain h | ⟨u, hu, -⟩ := h
    · rw [List.foldl_nil, State.cell, hk]
      exact h
    · cases hu
  | cons x l ih =>
    obtain ⟨hrun, hended⟩ := k.ask_run x.order
    refine ih (State.find_requestItems hk) (hended.trans he) ?_
    obtain h | ⟨u, hu, run, hr, ho⟩ := h
    · exact .inl (h.ask _)
    · obtain rfl | hu := List.mem_cons.1 hu
      · exact .inl (Cell.asked_ask hr ho he)
      · exact .inr ⟨u, hu, run, hrun.trans hr, ho⟩

theorem exec_residencyDrainTimeout {p c f : Nat} (hr : s.resident p = some c) (hl : (s.ctx p c).leaving = some f)
    (hf : f + 5000 ≤ s.power.frame.toNat) : exec (.residencyDrainTimeout p) s = .next
      ((s.disp.submits.filter fun u => u.part == p && u.ctx == c).foldl (fun a u => a.requestItems u.order false) s) := by
  have hexec : exec (.residencyDrainTimeout p) s = execResidencyDrainTimeout p s := rfl
  simp only [hexec, execResidencyDrainTimeout, hr, hl]
  exact congrArg _ (if_pos hf)

theorem exec_submitAging {slot : Nat} {u : Submit}
    (hu : s.disp.submits.find? (fun u => !u.held && u.slot == slot) = some u) (hi : 500 ≤ u.idleFrames)
    (ht : u.toStart = true) : exec (.submitAging slot) s = .next (s.setSubmit { u with aged := true }) := by
  have hexec : exec (.submitAging slot) s = execSubmitAging slot s := rfl
  simp only [hexec, execSubmitAging, hu]
  exact congrArg _ (if_pos ⟨hi, ht⟩)

end

/-- Settles O30: one lemma for each of the four rows, by what it writes. -/
theorem residencyRules : Obligations.ResidencyRules := by
  intro s p hp hsz
  refine ⟨fun c hin hres hch hc => residencySelect_answers hsz hp hc hin hres hch,
    fun c d hr hl hq hd hne hst hready hb hrun => ?quantum, fun c f hr hl hf => ?drain,
    fun slot u hu hi ht => ⟨_, exec_submitAging hu hi ht, rfl, rfl⟩⟩
  case quantum =>
    refine ⟨_, exec_quantumExpiry hr hl hq hd hne hst hready hb, ?_⟩
    have hstays := State.resident_setCtx (s := s) (p := p) (c := c)
      (v := { s.ctx p c with leaving := some s.power.frame.toNat }) rfl
    rw [State.settleResidency_of_running (hstays.trans hr) hrun]
    beta_reduce
    rw [s.ctx_setCtx _ (State.lt_parts hsz hp) (State.lt_ctxs hsz hp (State.resident_lt hr))]
    exact ⟨rfl, State.resident_st hr⟩
  case drain =>
    refine ⟨_, exec_residencyDrainTimeout hr hl hf, foldl_keeps State.rest _ (fun a u => a.rest_requestItems _ _) _ s, ?_⟩
    intro i k u hk hu hpart hctx hrun he
    have hmem : u ∈ s.disp.submits.filter fun u => u.part == p && u.ctx == c :=
      List.mem_filter.2 ⟨hu, by simp [hpart, hctx]⟩
    exact State.foldl_requestItems_asked _ hk he (.inr ⟨u, hmem, hrun⟩)

end Sys2Proof.Machine

end

section
/-! PROOFS. Port halves: what sending on a link leaves (R266 to R268). -/

namespace Sys2Proof.Machine

/-! ## What sending changes of a port half -/

/-- A port half but for what sending changes: what it has to send, the flits sent and not acknowledged, the keys of its
direction, its credits and its counters. -/
def Port.fixed (k : Port) : Port :=
  { k with txSeq := 0, keyFlits := 0, txKey := none, nextTx := none, oldTx := none, replay := [], queue := [], cut := []
           control := [], turn := Port.reset.turn, credits := [], owed := [], counters := Vector.replicate 10 0 }

/-- From `k` to `k'` a half has done no more than send, or count a packet; one with a key to send has a key still. -/
structure Port.Sends (k k' : Port) : Prop where
  fixed : k'.fixed = k.fixed
  keyed : k.txKey.isSome = true → k'.txKey.isSome = true

section
variable {k k' k'' : Port}

theorem Port.Sends.refl (k : Port) : k.Sends k := ⟨rfl, id⟩

theorem Port.Sends.trans (h : k.Sends k') (g : k'.Sends k'') : k.Sends k'' :=
  ⟨g.fixed.trans h.fixed, g.keyed ∘ h.keyed⟩

theorem Port.Sends.st (h : k.Sends k') : k'.st = k.st := congrArg (·.st) h.fixed
theorem Port.Sends.cause (h : k.Sends k') : k'.cause = k.cause := congrArg (·.cause) h.fixed
theorem Port.Sends.authFails (h : k.Sends k') : k'.authFails = k.authFails := congrArg (·.authFails) h.fixed
theorem Port.Sends.retrainFails (h : k.Sends k') : k'.retrainFails = k.retrainFails := congrArg (·.retrainFails) h.fixed
theorem Port.Sends.idSent (h : k.Sends k') : k'.idSent = k.idSent := congrArg (·.idSent) h.fixed
theorem Port.Sends.rxSeq (h : k.Sends k') : k'.rxSeq = k.rxSeq := congrArg (·.rxSeq) h.fixed
theorem Port.Sends.ackSeq (h : k.Sends k') : k'.ackSeq = k.ackSeq := congrArg (·.ackSeq) h.fixed
theorem Port.Sends.rxKey (h : k.Sends k') : k'.rxKey = k.rxKey := congrArg (·.rxKey) h.fixed
theorem Port.Sends.nextRx (h : k.Sends k') : k'.nextRx = k.nextRx := congrArg (·.nextRx) h.fixed

end

theorem Port.returns_snd (k : Port) : ∃ o, k.returns.2 = { k with owed := o } := by
  unfold Port.returns
  split
  · split <;> exact ⟨_, rfl⟩
  · exact ⟨_, rfl⟩

theorem Port.sends_returns (k : Port) : k.Sends k.returns.2 := by
  obtain ⟨o, ho⟩ := k.returns_snd
  rw [ho]
  exact ⟨rfl, id⟩

theorem Port.sends_bump (k : Port) (i : Fin 10) (n : Nat) : k.Sends (k.bump i n) := ⟨rfl, id⟩

/-- The marker of a switch replaces a key by another. -/
theorem Port.sends_switched (k : Port) (c : Control) (seq : BitVec 12) : k.Sends (k.switched c seq) := by
  unfold Port.switched
  split
  next h => exact ⟨rfl, fun _ => h.2⟩
  next => exact .refl k

theorem Port.sends_nextBytes {k : Port} {vl : Nat} {x : List Byte × Waiting × Bool × Port} (h : k.nextBytes vl = some x) :
    k.Sends x.2.2.2 := by
  unfold Port.nextBytes at h
  split at h
  · obtain rfl := Option.some.inj h
    exact ⟨rfl, id⟩
  · split at h
    · obtain ⟨y, -, rfl⟩ := Option.map_eq_some_iff.1 h
      exact ⟨rfl, fun _ => rfl⟩
    · cases h

theorem Port.sends_fill (vl n : Nat) (k : Port) (f : SentFlit) : k.Sends (Port.fill vl n k f).1 := by
  induction n generalizing k f with
  | zero => exact .refl k
  | succ n ih =>
    unfold Port.fill
    dsimp only
    split
    · exact .refl k
    · split
      · exact .refl k
      next l w fresh k1 hnext =>
        have hk : k.Sends k1 := Port.sends_nextBytes hnext
        split
        · exact hk.trans ⟨rfl, id⟩
        · exact hk.trans (ih _ _)

/-- A half whose flit has entered the replay buffer. -/
def Port.buffered (k : Port) (f : SentFlit) (seq : BitVec 12) : Port :=
  { k with txSeq := seq, keyFlits := k.keyFlits + 1, turn := k.turn.after f.lane, replay := k.replay ++ [f] }

/-- A half that has sent a data flit on a lane. -/
def Port.sentData (k : Port) (vl : Nat) : Port :=
  let r := Port.fill vl 7 k { seq := k.txSeq + 1, lane := some vl, start := 0xFF, payload := [], packets := [] }
  (Port.buffered { r.1 with credits := modifyAt r.1.credits vl (· - 1) } r.2 (k.txSeq + 1)).returns.2

/-- A half that has sent a link-control message, `rest` of which are still to be sent. -/
def Port.sentControl (k : Port) (c : Control) (rest : List Control) : Port :=
  let f : SentFlit :=
    { seq := k.txSeq + 1, lane := none, start := 0xFF, payload := k.controlPayload c (k.txSeq + 1), packets := [] }
  (Port.buffered { k with control := rest } f (k.txSeq + 1)).returns.2.switched c (k.txSeq + 1)

theorem Port.sendOne_none {k : Port} (h : k.choose = none) : k.sendOne = none := by
  rw [Port.sendOne, h]

theorem Port.sendOne_data {k : Port} {vl : Nat} (h : k.choose = some (some vl)) :
    ∃ l, k.sendOne = some (k.sentData vl, l) := by
  rw [Port.sendOne, h]
  exact ⟨_, rfl⟩

theorem Port.sendOne_control {k : Port} {c : Control} {rest : List Control} (h : k.choose = some none)
    (hc : k.control = c :: rest) : ∃ l, k.sendOne = some (k.sentControl c rest, l) := by
  rw [Port.sendOne, h, hc]
  exact ⟨_, rfl⟩

theorem Port.sendOne_noControl {k : Port} (h : k.choose = some none) (hc : k.control = []) : k.sendOne = none := by
  rw [Port.sendOne, h, hc]

theorem Port.sends_buffered (k : Port) (f : SentFlit) (seq : BitVec 12) : k.Sends (k.buffered f seq).returns.2 :=
  (show k.Sends (k.buffered f seq) from ⟨rfl, id⟩).trans (Port.sends_returns _)

theorem Port.sends_control (k : Port) (l : List Control) : k.Sends { k with control := l } := ⟨rfl, id⟩

theorem Port.sends_queue (k : Port) (l : List (Nat × Waiting)) : k.Sends { k with queue := l } := ⟨rfl, id⟩

theorem Port.sends_credits (k : Port) (l : List Nat) : k.Sends { k with credits := l } := ⟨rfl, id⟩

theorem Port.sends_sentData (k : Port) (vl : Nat) : k.Sends (k.sentData vl) :=
  ((Port.sends_fill ..).trans (Port.sends_credits ..)).trans (Port.sends_buffered ..)

theorem Port.sends_sentControl (k : Port) (c : Control) (rest : List Control) : k.Sends (k.sentControl c rest) :=
  ((k.sends_control _).trans (Port.sends_buffered ..)).trans (Port.sends_switched ..)

/-- One flit that a half sends is a data flit or a link-control flit. -/
theorem Port.sends_sendOne {k : Port} {r : Port × List Byte} (h : k.sendOne = some r) : k.Sends r.1 := by
  match hch : k.choose with
  | none => rw [Port.sendOne_none hch] at h; cases h
  | some (some vl) =>
    obtain ⟨l, hl⟩ := Port.sendOne_data hch
    obtain rfl := Option.some.inj (hl.symm.trans h)
    exact k.sends_sentData vl
  | some none =>
    match hc : k.control with
    | [] => rw [Port.sendOne_noControl hch hc] at h; cases h
    | c :: rest =>
      obtain ⟨l, hl⟩ := Port.sendOne_control hch hc
      obtain rfl := Option.some.inj (hl.symm.trans h)
      exact k.sends_sentControl c rest

theorem Port.sends_drain (n : Nat) (k : Port) : k.Sends (Port.drain n k).1 := by
  induction n generalizing k with
  | zero => exact .refl k
  | succ n ih =>
    unfold Port.drain
    split
    · exact .refl k
    next hone => exact (Port.sends_sendOne hone).trans (ih _)

theorem Port.sends_plain (k : Port) (ftype : Nat) : k.Sends (k.plain ftype).1 := k.sends_returns

/-! ## What sending changes of the state -/

/-- From `s` to `t` port halves have done no more than send, or count packets: the rest of the state is the same but for
the messages sent and the packets that wait for a member of their group. -/
structure State.Sends (s t : State) : Prop where
  rest : ∃ o p w, t = { s with out := o, fabric := { s.fabric with ports := p, waiting := w } }
  size : t.fabric.ports.length = s.fabric.ports.length
  port : ∀ j, (s.port j).Sends (t.port j)

theorem State.Sends.refl (s : State) : s.Sends s := ⟨⟨_, _, _, rfl⟩, rfl, fun _ => .refl _⟩

theorem State.Sends.trans {s t u : State} (h : s.Sends t) (g : t.Sends u) : s.Sends u := by
  refine ⟨?_, g.size.trans h.size, fun j => (h.port j).trans (g.port j)⟩
  obtain ⟨o, p, w, rfl⟩ := h.rest
  obtain ⟨o', p', w', rfl⟩ := g.rest
  exact ⟨o', p', w', rfl⟩

theorem State.Sends.foldl {α : Type} (f : State → α → State) (hf : ∀ (a : State) x, a.Sends (f a x)) (l : List α)
    (s : State) : s.Sends (l.foldl f s) := by
  induction l generalizing s with
  | nil => exact .refl s
  | cons x l ih => exact (hf s x).trans (ih _)

section
variable {s t : State}

theorem State.Sends.mem (h : s.Sends t) : t.mem = s.mem := by obtain ⟨_, _, _, rfl⟩ := h.rest; rfl
theorem State.Sends.upd (h : s.Sends t) : t.upd = s.upd := by obtain ⟨_, _, _, rfl⟩ := h.rest; rfl
theorem State.Sends.blocks (h : s.Sends t) : t.fabric.blocks = s.fabric.blocks := by obtain ⟨_, _, _, rfl⟩ := h.rest; rfl
theorem State.Sends.arrived (h : s.Sends t) : t.fabric.arrived = s.fabric.arrived := by
  obtain ⟨_, _, _, rfl⟩ := h.rest
  rfl

/-- Nothing is handed over after packets have been sent where none had arrived. -/
theorem State.Sends.deliverAll (h : s.Sends t) (ha : s.fabric.arrived = []) : t.deliverAll = t :=
  State.deliverAll_idle (h.arrived.trans ha)

end

section
variable (s : State)

theorem State.port_setPort_other {h j : Nat} (k : Port) (hj : j ≠ h) : (s.setPort h k).port j = s.port j := by
  simp [State.port, State.setPort, setAt, Ne.symm hj]

theorem State.port_setPort_same {h : Nat} (k : Port) (hh : h < s.fabric.ports.length) : (s.setPort h k).port h = k := by
  rw [s.port_setPort h h k hh, if_pos rfl]

@[simp] theorem State.length_setPort (h : Nat) (k : Port) : (s.setPort h k).fabric.ports.length = s.fabric.ports.length :=
  List.length_set

variable {s} in
theorem State.sends_setPort {h : Nat} {k : Port} (hk : (s.port h).Sends k) : s.Sends (s.setPort h k) := by
  refine ⟨⟨_, _, _, rfl⟩, s.length_setPort h k, fun j => ?_⟩
  by_cases hj : j = h
  · subst hj
    by_cases hl : j < s.fabric.ports.length
    · rwa [s.port_setPort_same k hl]
    · have hout : (s.setPort j k).port j = s.port j := by
        simp only [State.port, State.setPort, setAt, List.set_eq_of_length_le (Nat.le_of_not_lt hl)]
      rw [hout]
      exact .refl _
  · rw [s.port_setPort_other k hj]
    exact .refl _

theorem State.sends_emitFlits (h : Nat) (l : List (List Byte)) : s.Sends (s.emitFlits h l) :=
  ⟨⟨_, _, _, rfl⟩, rfl, fun _ => .refl _⟩

theorem State.sends_drainPort (h : Nat) : s.Sends (s.drainPort h) :=
  (State.sends_setPort (Port.sends_drain _ _)).trans (State.sends_emitFlits ..)

theorem State.sends_sendControl (h kind : Nat) (fields : List Nat) : s.Sends (s.sendControl h kind fields) :=
  (State.sends_setPort (Port.sends_control ..)).trans (State.sends_drainPort ..)

theorem State.sends_sendPlain (h ftype : Nat) : s.Sends (s.sendPlain h ftype) :=
  (State.sends_setPort (Port.sends_plain _ _)).trans (State.sends_emitFlits ..)

theorem State.sends_resendAll (h : Nat) : s.Sends (s.resendAll h) := State.sends_emitFlits ..

theorem State.sends_drop (src : Option Nat) (i : Fin 10) : s.Sends (s.drop src i) := by
  cases src with
  | none => exact .refl s
  | some h => exact State.sends_setPort (Port.sends_bump ..)

theorem State.sends_sendOn (h : Nat) (w : Waiting) : s.Sends (s.sendOn h w) :=
  (State.sends_setPort (Port.sends_queue ..)).trans (State.sends_drainPort ..)

theorem State.sends_wait (l : List Waiting) : s.Sends { s with fabric := { s.fabric with waiting := l } } :=
  ⟨⟨_, _, _, rfl⟩, rfl, fun _ => .refl _⟩

theorem State.sends_forward (w : Waiting) : s.Sends (s.forward w) := by
  unfold State.forward
  split
  · exact s.sends_sendOn ..
  · split
    · exact s.sends_sendOn ..
    · exact s.sends_wait _

theorem State.sends_reroute (h : Nat) (w : Waiting) : s.Sends (s.reroute h w) := by
  unfold State.reroute
  split
  · exact s.sends_forward _
  · exact s.sends_drop ..

theorem State.sends_retryWaiting : s.Sends s.retryWaiting :=
  (s.sends_wait []).trans (.foldl _ State.sends_forward _ _)

/-- A half that receives a flit sends what it can, or an idle flit. -/
theorem State.sends_answerFlit (h : Nat) : s.Sends (s.answerFlit h) := by
  unfold State.answerFlit
  dsimp only
  split
  · exact (s.sends_drainPort h).trans (State.sends_sendPlain ..)
  · exact s.sends_drainPort h

end

/-! ## Commands on a port half -/

/-- A command on an existing half is what its change makes of it. -/
theorem onPort_of_halfNamed {s : State} {pid h : Nat} (hh : s.halfNamed pid = some h) (f : Nat → Port → State) :
    onPort pid s f = .next (f h (s.port h)) := by
  rw [onPort, hh]

theorem State.halfNamed_exists {s : State} {pid h : Nat} (hh : s.halfNamed pid = some h) : s.halfExists h = true := by
  obtain ⟨⟨-, he⟩, rfl⟩ := Option.ite_some_none_eq_some.1 hh
  exact he

theorem State.halfNamed_lt {s : State} {pid h : Nat} (hsz : s.sized) (hh : s.halfNamed pid = some h) :
    h < s.fabric.ports.length := by
  obtain ⟨-, -, hports, -⟩ := hsz
  have he := State.halfNamed_exists hh
  simp only [State.halfExists, Bool.and_eq_true, decide_eq_true_eq] at he
  omega

end Sys2Proof.Machine

end

section
/-! PROOFS. Routing at an I/O die and the route tables (R277, R278, R280, R286, R287, R289). -/

namespace Sys2Proof.Machine

/-! ## Dropped packets (R289) -/

theorem Port.counters_bump_same (k : Port) (i : Fin 10) (n : Nat) :
    (k.bump i n).counters[i] = k.counters[i] + BitVec.ofNat 64 n :=
  Vector.getElem_set_self _

theorem Port.counters_bump_other (k : Port) {i j : Fin 10} (n : Nat) (h : i ≠ j) :
    (k.bump i n).counters[j] = k.counters[j] :=
  Vector.getElem_set_ne i.isLt j.isLt (Fin.val_ne_of_ne h)

/-- A drop is counted at the half through which the packet entered. -/
theorem State.port_drop {s : State} {h : Nat} (i : Fin 10) (hh : h < s.fabric.ports.length) :
    (s.drop (some h) i).port h = (s.port h).bump i 1 :=
  s.port_setPort_same _ hh

theorem State.counters_drop {s : State} {h : Nat} (i : Fin 10) (hh : h < s.fabric.ports.length) :
    ((s.drop (some h) i).port h).counters[i] = (s.port h).counters[i] + 1 := by
  rw [State.port_drop i hh]
  exact Port.counters_bump_same ..

/-- A drop leaves memory, the collective engines and the packets that wait or have arrived. -/
theorem State.drop_fields (s : State) (src : Option Nat) (i : Fin 10) :
    (s.drop src i).mem = s.mem ∧ (s.drop src i).coll = s.coll ∧ (s.drop src i).fabric.waiting = s.fabric.waiting := by
  cases src <;> exact ⟨rfl, rfl, rfl⟩

/-! ## Route tables (R277, R286, R287) -/

/-- `LEN` of an entry of the table of prefixes. -/
def prefixLen (e : BitVec 64) : Nat := (e.extractLsb' 52 5).toNat

/-- The better of the entry found and the next one: the next one where its `LEN` is greater. -/
def longer (best : Option (BitVec 64)) (x : Nat × BitVec 64) : Option (BitVec 64) :=
  match best with
  | some e => if prefixLen e < prefixLen x.2 then some x.2 else some e
  | none => some x.2

theorem State.routeEntry_direct {s : State} {iod : Nat} {dst : BitVec 20} {d : BitVec 32}
    (hd : (SMap.find (s.fabBlock iod).direct (dst.toNat % 65536)).getD 0 = d)
    (h : dst.extractLsb' 16 4 = (s.fabBlock iod).directHi ∧ d.getLsbD 0 = true) : s.routeEntry iod dst = some d := by
  subst hd
  exact if_pos h

theorem State.routeEntry_search {s : State} {iod : Nat} {dst : BitVec 20} {d : BitVec 32}
    (hd : (SMap.find (s.fabBlock iod).direct (dst.toNat % 65536)).getD 0 = d)
    (h : ¬(dst.extractLsb' 16 4 = (s.fabBlock iod).directHi ∧ d.getLsbD 0 = true)) :
    s.routeEntry iod dst = ((((s.fabBlock iod).prefixes.filter fun x => prefixMatches x.2 dst).foldl longer none).map
      fun e => e.setWidth 32) := by
  subst hd
  exact if_neg h

/-- Entry `x` of a table goes before entry `y`: its `LEN` is greater, or the same at a lower index. -/
def Before (x y : Nat × BitVec 64) : Prop :=
  prefixLen y.2 < prefixLen x.2 ∨ prefixLen y.2 = prefixLen x.2 ∧ x.1 ≤ y.1

/-- From an entry that goes before every one already passed, the search ends at one that goes before every entry. -/
theorem foldl_longer_some (l : List (Nat × BitVec 64)) (x : Nat × BitVec 64)
    (hl : ∀ y ∈ l, x.1 ≤ y.1) (hs : l.Pairwise fun y z => y.1 ≤ z.1) :
    ∃ y ∈ x :: l, l.foldl longer (some x.2) = some y.2 ∧ ∀ z ∈ x :: l, Before y z := by
  induction l generalizing x with
  | nil => exact ⟨x, List.mem_cons_self, rfl, by simp [Before]⟩
  | cons a l ih =>
    obtain ⟨ha, hs⟩ := List.pairwise_cons.1 hs
    have hxa := hl a List.mem_cons_self
    by_cases hlt : prefixLen x.2 < prefixLen a.2
    · obtain ⟨y, hy, hfold, hbest⟩ := ih a ha hs
      refine ⟨y, List.mem_cons_of_mem _ hy, ?_, ?_⟩
      · rw [List.foldl_cons, longer, if_pos hlt, hfold]
      · have hya := hbest a List.mem_cons_self
        refine List.forall_mem_cons.2 ⟨?_, hbest⟩
        unfold Before at hya ⊢
        omega
    · obtain ⟨y, hy, hfold, hbest⟩ := ih x (fun z hz => hl z (List.mem_cons_of_mem _ hz)) hs
      obtain ⟨hyx, hrest⟩ := List.forall_mem_cons.1 hbest
      have hyl : x.1 ≤ y.1 := by
        obtain rfl | hy := List.mem_cons.1 hy
        · exact le_rfl
        · exact hl y (List.mem_cons_of_mem _ hy)
      refine ⟨y, ?_, ?_, List.forall_mem_cons.2 ⟨hyx, List.forall_mem_cons.2 ⟨?_, hrest⟩⟩⟩
      · obtain rfl | hy := List.mem_cons.1 hy
        · exact List.mem_cons_self
        · exact List.mem_cons_of_mem _ (List.mem_cons_of_mem _ hy)
      · rw [List.foldl_cons, longer, if_neg hlt, hfold]
      · unfold Before at hyx ⊢
        omega

/-- The search ends at the entry that goes before every other, and at none only where there is none. -/
theorem foldl_longer_none {l : List (Nat × BitVec 64)} (hs : l.Pairwise fun y z => y.1 ≤ z.1) :
    l = [] ∧ l.foldl longer none = none ∨ ∃ y ∈ l, l.foldl longer none = some y.2 ∧ ∀ z ∈ l, Before y z := by
  cases l with
  | nil => exact .inl ⟨rfl, rfl⟩
  | cons x l =>
    obtain ⟨hx, hs⟩ := List.pairwise_cons.1 hs
    exact .inr (foldl_longer_some l x hx hs)

theorem pairwise_of_sorted {α : Type} (l : SMap α) (h : SMap.sorted l = true) :
    l.Pairwise fun x y => x.1 ≤ y.1 := by
  induction l with
  | nil => exact .nil
  | cons x l ih =>
    obtain ⟨a, w⟩ := x
    obtain ⟨habove, hs⟩ := (SMap.sorted_cons a w l).1 h
    exact .cons (fun y hy => (Nat.lt_of_succ_le (habove y hy)).le) (ih hs)

/-- Without a valid direct entry, the table of prefixes decides: none exactly where nothing matches. -/
theorem State.routeEntry_of_prefixes {s : State} {iod : Nat} {dst : BitVec 20} {d : BitVec 32}
    (hd : (SMap.find (s.fabBlock iod).direct (dst.toNat % 65536)).getD 0 = d)
    (h : ¬(dst.extractLsb' 16 4 = (s.fabBlock iod).directHi ∧ d.getLsbD 0 = true))
    (hs : SMap.sorted (s.fabBlock iod).prefixes = true) :
    (s.routeEntry iod dst = none ↔ ∀ x ∈ (s.fabBlock iod).prefixes, prefixMatches x.2 dst = false) ∧
    ∀ e, s.routeEntry iod dst = some e → ∃ x ∈ (s.fabBlock iod).prefixes, prefixMatches x.2 dst = true ∧
      e = x.2.setWidth 32 ∧ ∀ y ∈ (s.fabBlock iod).prefixes, prefixMatches y.2 dst = true → Before x y := by
  rw [State.routeEntry_search hd h]
  have hrise := (pairwise_of_sorted _ hs).filter fun x => prefixMatches x.2 dst
  obtain ⟨hnil, hfold⟩ | ⟨x, hx, hfold, hbest⟩ := foldl_longer_none hrise
  · rw [hfold]
    refine ⟨iff_of_true rfl fun x hx => ?_, nofun⟩
    exact Bool.eq_false_iff.2 (List.filter_eq_nil_iff.1 hnil x hx)
  · rw [hfold]
    obtain ⟨hmem, hmatch⟩ := List.mem_filter.1 hx
    refine ⟨iff_of_false nofun fun hall => ?_, ?_⟩
    · exact Bool.false_ne_true ((hall x hmem).symm.trans hmatch)
    · intro e he
      exact ⟨x, hmem, hmatch, (Option.some.inj he).symm, fun y hy hm => hbest y (List.mem_filter.2 ⟨hy, hm⟩)⟩

/-! ## Members of a group (R278, R287) -/

/-- A usable member belongs to its group, exists and is linked. -/
theorem State.of_mem_members {s : State} {iod g h : Nat} (hm : h ∈ s.members iod g) :
    ((s.fabBlock iod).groups.getD g 0).getLsbD h = true ∧ s.halfExists h = true ∧ (s.port h).linked = true := by
  obtain ⟨-, huse⟩ := List.mem_filter.1 hm
  simp only [Bool.and_eq_true] at huse
  exact ⟨huse.1.1.1, huse.1.1.2, huse.1.2⟩

theorem State.mem_members_of_pick {s : State} {iod g h : Nat} {p : Packet} (hp : s.pick iod g p = some h) :
    h ∈ s.members iod g := by
  have hl := List.mem_of_getElem? hp
  split at hl
  · exact hl
  · exact List.mem_of_mem_filter hl

/-! ## A packet at an I/O die (R277, R278) -/

/-- A packet that entered through a port has one hop less to go. -/
def afterHop (p : Packet) (src : Option Nat) : Packet :=
  if src.isSome then { p with hops := p.hops - 1 } else p

theorem afterHop_dstEp (p : Packet) (src : Option Nat) : (afterHop p src).dstEp = p.dstEp := by
  cases src <;> rfl

/-- A packet with the route entry that takes it on. -/
def Waiting.of (iod : Nat) (src : Option Nat) (q : Packet) (e : BitVec 32) : Waiting :=
  { iod, src, pkt := q, groupA := (e.extractLsb' 2 6).toNat, odd := e.getLsbD 1
    groupB := if e.getLsbD 14 then some (e.extractLsb' 8 6).toNat else none }

section
variable {s : State} {iod : Nat} {src : Option Nat} {p : Packet}

theorem State.routePacket_hops (h : p.hops = 0) : s.routePacket iod src p = s.drop src cntDropHops := if_pos h

theorem State.routePacket_here (h : p.hops ≠ 0) (hd : p.dstEp = (s.fabBlock iod).ep) : s.routePacket iod src p =
    { s with fabric := { s.fabric with arrived := s.fabric.arrived ++ [{ iod, src, pkt := afterHop p src }] } } :=
  (if_neg h).trans (if_pos ((afterHop_dstEp p src).trans hd))

theorem State.routePacket_noRoute (h : p.hops ≠ 0) (hd : p.dstEp ≠ (s.fabBlock iod).ep)
    (hr : (s.fabBlock iod).routesValid = false ∨ s.routeEntry iod p.dstEp = none) :
    s.routePacket iod src p = s.drop src cntDropNoRoute := by
  have hq := afterHop_dstEp p src
  unfold afterHop at hq
  unfold State.routePacket
  dsimp only
  rw [if_neg h, hq, if_neg hd]
  obtain hr | hr := hr
  · rw [hr]
    rfl
  · rw [hr]
    exact ite_self _

theorem State.routePacket_entry {e : BitVec 32} (h : p.hops ≠ 0) (hd : p.dstEp ≠ (s.fabBlock iod).ep)
    (hv : (s.fabBlock iod).routesValid = true) (he : s.routeEntry iod p.dstEp = some e) :
    s.routePacket iod src p = s.forward (.of iod src (afterHop p src) e) := by
  have hq := afterHop_dstEp p src
  unfold afterHop at hq
  unfold State.routePacket
  dsimp only
  rw [if_neg h, hq, if_neg hd, hv, he]
  rfl

theorem exec_packetRoute {from? : Option Nat} (hup : s.board.railsUp = true) (hiod : iod < 4) :
    exec (.packetRoute iod from? p) s = .next (s.routePacket iod (from?.bind s.halfNamed) p).deliverAll :=
  congrArg Host.Outcome.next (if_pos ⟨hup, hiod⟩)

end

section
variable {s : State} {w : Waiting}

theorem State.forward_member {h : Nat} (hp : s.pick w.iod w.groupA w.pkt = some h) : s.forward w = s.sendOn h w := by
  rw [State.forward, hp]

theorem State.forward_alternate {g h : Nat} (hp : s.pick w.iod w.groupA w.pkt = none) (hg : w.groupB = some g)
    (ha : s.pick w.iod g w.pkt = some h) : s.forward w = s.sendOn h w := by
  rw [State.forward, hp, hg]
  simp only [Option.bind_some, ha]

theorem State.forward_waits (hp : s.pick w.iod w.groupA w.pkt = none)
    (ha : ∀ g, w.groupB = some g → s.pick w.iod g w.pkt = none) :
    s.forward w = { s with fabric := { s.fabric with waiting := s.fabric.waiting ++ [w] } } := by
  have hb : (w.groupB.bind fun g => s.pick w.iod g w.pkt) = none := Option.bind_eq_none_iff.2 ha
  rw [State.forward, hp]
  simp only [hb]

end

/-! ## A packet for the module itself (R280) -/

section
variable {s : State} {a : Arrival}

theorem State.ingress_refused (h : s.accepts = false) : s.ingress a = s.drop a.src cntDropRefused := by
  rw [State.ingress, h]
  rfl

theorem State.ingress_bad (h : s.accepts = true)
    (hbad : s.destOk a.pkt = false ∨ wellFormed a.pkt = false ∨ s.commOf a.pkt = none) :
    s.ingress a = s.drop a.src cntDropGen := by
  rw [State.ingress, h]
  by_cases hc : (!s.destOk a.pkt) = true ∨ (!wellFormed a.pkt) = true
  · exact if_pos hc
  · have hk : s.commOf a.pkt = none := by
      simp only [not_or, Bool.not_eq_true', Bool.not_eq_false] at hc
      simpa [hc] using hbad
    rw [hk]
    exact if_neg hc

theorem State.ingress_checked {k : Comm} {j : Nat} (h : s.accepts = true) (hd : s.destOk a.pkt = true)
    (hw : wellFormed a.pkt = true) (hk : s.commOf a.pkt = some k) (hj : s.senderOf k a.pkt = some j) :
    s.ingress a = s.handOver k j a.pkt := by
  rw [State.ingress, h, hd, hw, hk]
  simp [hj]

end

theorem exec_packetIngress {s : State} {pid h : Nat} (p : Packet) (hh : s.halfNamed pid = some h) :
    exec (.packetIngress pid p) s = .next (s.ingress { iod := iodOf h, src := some h, pkt := p }).deliverAll :=
  onPort_of_halfNamed hh fun h _ => (s.ingress { iod := iodOf h, src := some h, pkt := p }).deliverAll

/-- A packet that fails a check is dropped and counted at its port. -/
theorem packetIngress_drops {s : State} {pid h : Nat} {p : Packet} {i : Fin 10} (hsz : s.sized)
    (hh : s.halfNamed pid = some h) (harr : s.fabric.arrived = [])
    (hin : s.ingress { iod := iodOf h, src := some h, pkt := p } = s.drop (some h) i) :
    Answers (.packetIngress pid p) s fun t =>
      (t.port h).counters[i] = (s.port h).counters[i] + 1 ∧ t.mem = s.mem ∧ t.coll = s.coll := by
  obtain ⟨hmem, hcoll, -⟩ := s.drop_fields (some h) i
  refine ⟨_, exec_packetIngress p hh, ?_⟩
  rw [hin, (s.sends_drop ..).deliverAll harr]
  exact ⟨State.counters_drop i (State.halfNamed_lt hsz hh), hmem, hcoll⟩

theorem exec_routeWaitExpiry {s : State} {i : Nat} {w : Waiting} (hw : s.fabric.waiting[i]? = some w) :
    exec (.routeWaitExpiry i) s = .next
      (({ s with fabric := { s.fabric with waiting := s.fabric.waiting.eraseIdx i } } : State).drop w.src cntDropDown) := by
  have hexec : exec (.routeWaitExpiry i) s = execRouteWaitExpiry i s := rfl
  rw [hexec, execRouteWaitExpiry, hw]

/-- A packet that has waited its time leaves the list, and is counted where it entered. -/
theorem routeWaitExpiry_answers {s : State} {i : Nat} {w : Waiting} (hw : s.fabric.waiting[i]? = some w) (hsz : s.sized) :
    Answers (.routeWaitExpiry i) s fun t => t.fabric.waiting = s.fabric.waiting.eraseIdx i ∧
      ∀ h, h < 72 → w.src = some h → (t.port h).counters[9] = (s.port h).counters[9] + 1 := by
  obtain ⟨-, -, hports, -⟩ := hsz
  refine ⟨_, exec_routeWaitExpiry hw, (State.drop_fields ..).2.2, fun h hh hsrc => ?_⟩
  rw [hsrc]
  exact State.counters_drop cntDropDown (hports ▸ hh)

/-- Settles O33: the branches of the routing of a packet, the checks of one that has arrived, and the search of the route
tables. -/
theorem routing : Obligations.Routing := by
  refine ⟨⟨fun s iod from? p => ?route, fun s i w hw hsz => routeWaitExpiry_answers hw hsz,
    fun s pid h p hsz hh harr => ⟨fun ha => ?refused, fun ha hbad => ?bad, fun k j ha hd hw hk hj => ?checked⟩⟩,
    fun s iod dst => ⟨fun hi hd => State.routeEntry_direct rfl ⟨hi, hd⟩,
      fun hdir hs => State.routeEntry_of_prefixes rfl hdir hs⟩,
    fun s iod g h p hp => State.of_mem_members (State.mem_members_of_pick hp)⟩
  case route =>
    intro src q b hup hiod harr
    have hexec := exec_packetRoute (p := p) (from? := from?) hup hiod
    refine ⟨fun h0 => ?_, fun h0 hep => ?_, fun h0 hep => ⟨fun hr => ?_, fun e hv he => ?_⟩⟩
    · rw [hexec, State.routePacket_hops h0, (s.sends_drop ..).deliverAll harr]
    · rw [hexec, State.routePacket_here h0 hep, harr]
      rfl
    · rw [hexec, State.routePacket_noRoute h0 hep hr, (s.sends_drop ..).deliverAll harr]
    · rw [hexec, State.routePacket_entry h0 hep hv he, (s.sends_forward _).deliverAll harr]
      exact ⟨fun h hp => congrArg _ (State.forward_member hp),
        fun g h hp hg ha => congrArg _ (State.forward_alternate hp hg ha),
        fun hp ha => congrArg _ (State.forward_waits hp ha)⟩
  case refused => exact packetIngress_drops hsz hh harr (State.ingress_refused ha)
  case bad => exact packetIngress_drops hsz hh harr (State.ingress_bad ha hbad)
  case checked =>
    rw [exec_packetIngress p hh, State.ingress_checked (a := { iod := iodOf h, src := some h, pkt := p }) ha hd hw hk hj]

end Sys2Proof.Machine

end

section
/-! PROOFS. Link-control messages of a port half, its leaving a link, and its leaving Disabled (R261, R266, R270, R288). -/

namespace Sys2Proof.Machine

/-! ## A half with one link-control message to send (R266) -/

/-- No data waits on a half that may send data. -/
def Port.Quiet (k : Port) : Prop := k.st = .active → k.queue = [] ∧ k.cut = []

/-- A half that may send link-control flits, with room for one more. -/
def Port.Controls (k : Port) : Prop := (k.st = .secure ∨ k.st = .active ∨ k.st = .paused) ∧ k.inFlight < 1024

section
variable {k : Port} {c : Control} {rest : List Control}

theorem Port.Quiet.canSend (h : k.Quiet) (vl : Nat) : k.canSend vl = false := by
  by_cases hst : k.st = .active
  · obtain ⟨hqueue, hcut⟩ := h hst
    simp [Port.canSend, Port.hasData, hqueue, hcut]
  · simp [Port.canSend, hst]

theorem Port.Quiet.no_lane (h : k.Quiet) : (List.range 6).filter k.canSend = [] :=
  List.filter_eq_nil_iff.2 fun vl _ => by simp [h.canSend vl]

theorem Port.Quiet.choose_control (h : k.Quiet) (hk : k.Controls) (hc : k.control = c :: rest) :
    k.choose = some none := by
  obtain ⟨hst, hroom⟩ := hk
  have hcan : k.canControl = true := by simpa [Port.canControl, hc, hroom, or_assoc] using hst
  simp [Port.choose, h.no_lane, h.canSend 7, hcan]

theorem Port.roundRobin_nil (k : Port) : k.roundRobin [] = none := by
  simp [Port.roundRobin]

theorem Port.Quiet.choose_none (h : k.Quiet) (hc : k.control = []) : k.choose = none := by
  have hcan : k.canControl = false := by simp [Port.canControl, hc]
  simp [Port.choose, h.no_lane, h.canSend 7, hcan, k.roundRobin_nil]

/-- A link-control flit is buffered, may return credits, and may mark a switch of keys. -/
theorem Port.sentControl_eq (k : Port) (c : Control) (rest : List Control) : ∃ f o, k.sentControl c rest =
    Port.switched { Port.buffered { k with control := rest } f (k.txSeq + 1) with owed := o } c (k.txSeq + 1) := by
  obtain ⟨o, ho⟩ := Port.returns_snd (Port.buffered { k with control := rest }
    { seq := k.txSeq + 1, lane := none, start := 0xFF, payload := k.controlPayload c (k.txSeq + 1), packets := [] }
    (k.txSeq + 1))
  exact ⟨_, o, congrArg (Port.switched · c (k.txSeq + 1)) ho⟩

/-- What a link-control flit leaves of the data to send, and what it counts. -/
theorem Port.sentControl_fields (k : Port) (c : Control) (rest : List Control) :
    (k.sentControl c rest).control = rest ∧ (k.sentControl c rest).queue = k.queue ∧ (k.sentControl c rest).cut = k.cut ∧
      (k.sentControl c rest).credits = k.credits ∧ (k.sentControl c rest).txSeq = k.txSeq + 1 := by
  obtain ⟨f, o, hsent⟩ := k.sentControl_eq c rest
  rw [hsent, Port.switched]
  split <;> exact ⟨rfl, rfl, rfl, rfl, rfl⟩

/-- The marker of a switch takes the new key into use (R276). -/
theorem Port.sentControl_switch {key : LinkKey} (hc : c.kind = 1) (hk : k.nextTx = some key) (rest : List Control) :
    (k.sentControl c rest).keyFlits = 0 ∧ (k.sentControl c rest).txKey = some key := by
  obtain ⟨f, o, hsent⟩ := k.sentControl_eq c rest
  have hswitch (k' : Port) (seq : BitVec 12) (hnext : k'.nextTx = some key) :
      (k'.switched c seq).keyFlits = 0 ∧ (k'.switched c seq).txKey = some key := by
    rw [Port.switched, if_pos ⟨hc, Option.isSome_of_eq_some hnext⟩]
    exact ⟨rfl, hnext⟩
  rw [hsent]
  exact hswitch _ _ hk

theorem Port.nextTx_sentControl (hc : c.kind ≠ 1) (rest : List Control) : (k.sentControl c rest).nextTx = k.nextTx := by
  obtain ⟨f, o, hsent⟩ := k.sentControl_eq c rest
  rw [hsent, Port.switched, if_neg (fun g => hc g.1)]
  rfl

/-- A half that has only one message to send sends it and no more. -/
theorem Port.drain_control (h : k.Quiet) (hk : k.Controls) (hc : k.control = [c]) (n : Nat) :
    (Port.drain (n + 2) k).1 = k.sentControl c [] := by
  obtain ⟨hcontrol, hqueue, hcut, -, -⟩ := k.sentControl_fields c []
  have hquiet : (k.sentControl c []).Quiet := fun hst => by
    rw [hqueue, hcut]
    exact h ((k.sends_sentControl c []).st ▸ hst)
  obtain ⟨l, hone⟩ := Port.sendOne_control (h.choose_control hk hc) hc
  rw [Port.drain, hone]
  dsimp only
  rw [Port.drain, Port.sendOne_none (hquiet.choose_none hcontrol)]

end

section
variable {s : State} {h : Nat}

theorem State.port_drainPort (hh : h < s.fabric.ports.length) : (s.drainPort h).port h = (Port.drain 1024 (s.port h)).1 :=
  s.port_setPort_same _ hh

theorem State.port_sendControl (hh : h < s.fabric.ports.length) (kind : Nat) (fields : List Nat)
    (hq : (s.port h).Quiet) (hk : (s.port h).Controls) (hc : (s.port h).control = []) :
    (s.sendControl h kind fields).port h =
      Port.sentControl { s.port h with control := [{ kind, fields }] } { kind, fields } [] := by
  unfold State.sendControl
  dsimp only
  rw [State.port_drainPort (by rwa [State.length_setPort]), s.port_setPort_same _ hh, hc]
  exact Port.drain_control (k := { s.port h with control := [{ kind, fields }] }) hq hk rfl 1022

theorem State.port_sendControl_other {j : Nat} (hj : j ≠ h) (kind : Nat) (fields : List Nat) :
    (s.sendControl h kind fields).port j = s.port j :=
  (State.port_setPort_other _ _ hj).trans (s.port_setPort_other _ hj)

/-! ## Leaving a link (R261, R270, R288) -/

theorem State.log_fabric (s : State) (e : BitVec 16) (src : BitVec 8) (o a : BitVec 32) :
    (s.log e src o a).fabric = s.fabric :=
  congrArg Kept.fabric (s.kept_log e src o a)

/-- The choice of a source leaves the tables of the fabric and the information of the peers. -/
theorem State.retime_tables (s : State) :
    s.retime.fabric.blocks = s.fabric.blocks ∧ s.retime.fabric.peers = s.fabric.peers := by
  unfold State.retime
  dsimp only
  split
  · exact ⟨rfl, rfl⟩
  · split
    · split <;> exact ⟨rfl, rfl⟩
    · split
      · exact ⟨rfl, rfl⟩
      · split <;> exact ⟨rfl, rfl⟩

theorem State.port_retime (s : State) (j : Nat) : s.retime.port j = s.port j := by
  rw [State.port, s.retime_fields.2.2, State.port]

/-- A half out of its link, with the event, before its packets take another way. -/
def State.unlinked (s : State) (h : Nat) (st : PortState) (cause : BitVec 4) : State :=
  let s1 := s.setPort h { (s.port h).unlink st with cause }
  if (s.port h).inService then s1.log evPortDown srcLink (BitVec.ofNat 32 (pidOf h)) (cause.setWidth 32) else s1

theorem State.unlinked_fabric (s : State) (h : Nat) (st : PortState) (cause : BitVec 4) :
    (s.unlinked h st cause).fabric = (s.setPort h { (s.port h).unlink st with cause }).fabric := by
  unfold State.unlinked
  dsimp only
  split
  · exact State.log_fabric ..
  · rfl

theorem State.leaveLink_eq (s : State) (h : Nat) (st : PortState) (cause : BitVec 4) : s.leaveLink h st cause =
    ((s.port h).packets.foldl (fun a x => a.reroute h x.2) (s.unlinked h st cause)).retime := rfl

theorem State.sends_rerouted (s : State) (h : Nat) (l : List (Nat × Waiting)) :
    s.Sends (l.foldl (fun a x => a.reroute h x.2) s) :=
  .foldl _ (fun a x => a.sends_reroute h x.2) l s

theorem State.leaveLink_tables (s : State) (h : Nat) (st : PortState) (cause : BitVec 4) :
    (s.leaveLink h st cause).fabric.blocks = s.fabric.blocks ∧
      (s.leaveLink h st cause).fabric.ports.length = s.fabric.ports.length := by
  have hsends := (s.unlinked h st cause).sends_rerouted h (s.port h).packets
  rw [State.leaveLink_eq, (State.retime_tables _).1, (State.retime_fields _).2.2, hsends.blocks, hsends.size,
    State.unlinked_fabric]
  exact ⟨rfl, s.length_setPort ..⟩

/-- A half that leaves its link takes up nothing that is rerouted, but may count it. -/
theorem State.port_leaveLink (hh : h < s.fabric.ports.length) (st : PortState) (cause : BitVec 4) :
    Port.Sends { (s.port h).unlink st with cause } ((s.leaveLink h st cause).port h) := by
  have hunlinked : (s.unlinked h st cause).port h = { (s.port h).unlink st with cause } := by
    rw [State.port, State.unlinked_fabric]
    exact s.port_setPort_same _ hh
  rw [State.leaveLink_eq, State.port_retime, ← hunlinked]
  exact (State.sends_rerouted ..).port h

theorem State.portDown_tables (s : State) (h : Nat) (cause : BitVec 4) :
    (s.portDown h cause).fabric.blocks = s.fabric.blocks ∧
      (s.portDown h cause).fabric.ports.length = s.fabric.ports.length := by
  obtain ⟨hblocks, hlen⟩ := s.leaveLink_tables h .down cause
  exact ⟨hblocks, (State.length_setPort ..).trans hlen⟩

/-- A port that goes Down keeps the cause; an authentication failure is counted. -/
theorem State.port_portDown (hh : h < s.fabric.ports.length) (cause : BitVec 4) :
    ((s.portDown h cause).port h).st = .down ∧ ((s.portDown h cause).port h).cause = cause ∧
      ((s.portDown h cause).port h).authFails =
        if cause = causeAuth then (s.port h).authFails + 1 else (s.port h).authFails := by
  have hleft := State.port_leaveLink hh .down cause
  have hlen := (s.leaveLink_tables h .down cause).2
  unfold State.portDown
  dsimp only
  rw [State.port_setPort_same _ _ (hlen ▸ hh), hleft.authFails]
  exact ⟨hleft.st, hleft.cause, rfl⟩

/-- A port that goes Down for a failed authentication. -/
theorem State.port_portDown_auth (hh : h < s.fabric.ports.length) :
    ((s.portDown h causeAuth).port h).st = .down ∧ ((s.portDown h causeAuth).port h).cause = 3 ∧
      ((s.portDown h causeAuth).port h).authFails = (s.port h).authFails + 1 :=
  State.port_portDown hh causeAuth

end

/-! ## Leaving Disabled (R261) -/

/-- A port settles by going, if at all, from Disabled to Detect. -/
def Port.Settles (k k' : Port) : Prop := k' = k ∨ k.st = .disabled ∧ k.disable = false ∧ k' = { k with st := .detect }

theorem Port.Settles.trans {k k' k'' : Port} (h : k.Settles k') (g : k'.Settles k'') : k.Settles k'' := by
  obtain rfl | ⟨hst, hdis, rfl⟩ := h
  · exact g
  · obtain rfl | ⟨hst', -⟩ := g
    · exact .inr ⟨hst, hdis, rfl⟩
    · cases hst'

/-- A settled port has changed nothing but its state. -/
theorem Port.Settles.fields {k k' : Port} (h : k.Settles k') :
    k'.disable = k.disable ∧ k'.authFails = k.authFails ∧ (k'.st = k.st ∨ k.st = .disabled ∧ k'.st = .detect) ∧
      (k.disable = true → k'.st = k.st) := by
  obtain rfl | ⟨hst, hdis, rfl⟩ := h
  · exact ⟨rfl, rfl, .inl rfl, fun _ => rfl⟩
  · exact ⟨rfl, rfl, .inr ⟨hst, rfl⟩, fun hd => absurd (hdis.symm.trans hd) Bool.false_ne_true⟩

/-- One half of port `p` settles. -/
def State.settleHalf (p : Nat) (a : State) (h : Nat) : State :=
  if (a.port h).st = .disabled ∧ (a.modeOf p).1 ≠ 0 ∧ !(a.port h).disable ∧ a.board.srefclk ∧ a.board.railsUp then
    a.setPort h { a.port h with st := .detect }
  else a

/-- What lets a half of port `p` leave Disabled. -/
def State.MayLeave (a : State) (p h : Nat) : Prop :=
  (a.port h).st = .disabled ∧ (a.modeOf p).1 ≠ 0 ∧ !(a.port h).disable ∧ a.board.srefclk ∧ a.board.railsUp

theorem State.settlePort_eq (s : State) (p : Nat) : s.settlePort p =
    if (SMap.find (s.applyMode p).config.heldModes p).isSome then s.applyMode p
    else ((s.applyMode p).halves p).foldl (State.settleHalf p) (s.applyMode p) := rfl

theorem State.applyMode_ports (s : State) (p : Nat) : (s.applyMode p).fabric.ports = s.fabric.ports := by
  unfold State.applyMode
  split
  · split <;> rfl
  · rfl

theorem State.port_settleHalf (a : State) (p h j : Nat) : (a.port j).Settles ((a.settleHalf p h).port j) := by
  unfold State.settleHalf
  split
  next hc =>
    obtain ⟨hst, -, hdis, -⟩ := hc
    by_cases hj : j = h
    · subst hj
      by_cases hl : j < a.fabric.ports.length
      · rw [a.port_setPort_same _ hl]
        exact .inr ⟨hst, by simpa using hdis, rfl⟩
      · refine .inl ?_
        simp only [State.port, State.setPort, setAt, List.set_eq_of_length_le (Nat.le_of_not_lt hl)]
    · exact .inl (a.port_setPort_other _ hj)
  next => exact .inl rfl

theorem State.port_settleHalves (p : Nat) (l : List Nat) (a : State) (j : Nat) :
    (a.port j).Settles ((l.foldl (State.settleHalf p) a).port j) := by
  induction l generalizing a with
  | nil => exact .inl rfl
  | cons h l ih => exact (a.port_settleHalf p h j).trans (ih _)

theorem State.port_settlePort (s : State) (p j : Nat) : (s.port j).Settles ((s.settlePort p).port j) := by
  have hports : (s.applyMode p).port j = s.port j := by rw [State.port, s.applyMode_ports, State.port]
  rw [State.settlePort_eq, ← hports]
  split
  · exact .inl rfl
  · exact State.port_settleHalves ..

section
variable {a : State} {p h : Nat}

theorem State.settleHalf_leaves (hl : h < a.fabric.ports.length) (hm : a.MayLeave p h) :
    ((a.settleHalf p h).port h).st = .detect := by
  have hset : a.settleHalf p h = a.setPort h { a.port h with st := .detect } := if_pos hm
  rw [hset, a.port_setPort_same _ hl]

/-- The other half of a port does not keep one in Disabled. -/
theorem State.MayLeave.settleHalf {j : Nat} (hj : h ≠ j) (hm : a.MayLeave p h) : (a.settleHalf p j).MayLeave p h := by
  unfold State.settleHalf
  split
  · rw [State.MayLeave, a.port_setPort_other _ hj]
    exact hm
  · exact hm

theorem State.length_settleHalf (j : Nat) : (a.settleHalf p j).fabric.ports.length = a.fabric.ports.length := by
  unfold State.settleHalf
  split
  · exact a.length_setPort ..
  · rfl

theorem State.settleHalves_leaves {l : List Nat} (hh : h ∈ l) (hl : h < a.fabric.ports.length) (hm : a.MayLeave p h) :
    ((l.foldl (State.settleHalf p) a).port h).st = .detect := by
  induction l generalizing a with
  | nil => cases hh
  | cons j l ih =>
    by_cases hj : h = j
    · subst hj
      have hdetect := State.settleHalf_leaves hl hm
      obtain ⟨-, -, hst | ⟨hst, -⟩, -⟩ := (State.port_settleHalves p l (a.settleHalf p h) h).fields
      · exact hst.trans hdetect
      · cases hst.symm.trans hdetect
    · refine ih ?_ ?_ (hm.settleHalf hj)
      · exact (List.mem_cons.1 hh).resolve_left hj
      · rwa [State.length_settleHalf]

theorem State.mem_halves {s : State} (he : s.halfExists h = true) : h ∈ s.halves (h / 2) := by
  simp only [State.halfExists, Bool.and_eq_true, Bool.or_eq_true, beq_iff_eq, decide_eq_true_eq] at he
  obtain ⟨-, he⟩ := he
  unfold State.halves
  split
  · simp only [List.mem_cons, List.not_mem_nil, or_false]
    omega
  next hsplit =>
    have heven := he.resolve_right hsplit
    simp only [List.mem_singleton]
    omega

/-- Where no change of modes is held, a half that may leave Disabled does. -/
theorem State.settlePort_leaves {s : State} (he : s.halfExists h = true) (hl : h < s.fabric.ports.length)
    (hheld : s.config.heldModes = []) (hm : s.MayLeave (h / 2) h) : ((s.settlePort (h / 2)).port h).st = .detect := by
  have hmode : s.applyMode (h / 2) = s := by
    rw [State.applyMode, hheld]
    rfl
  rw [State.settlePort_eq, hmode, hheld]
  exact State.settleHalves_leaves (State.mem_halves he) hl hm

end

end Sys2Proof.Machine

end

section
/-! PROOFS. Training and authentication of a port half (R261, R262, R270, R274, R275, R284, R288). -/

namespace Sys2Proof.Machine

/-! ## Training, and the exchange of endpoint IDs (R262, R274, R275) -/

/-- A half that has entered Secure from training, before it sends. -/
def Port.secured (k : Port) (split : Bool) : Port :=
  { k.unlink .secure with
    width := k.width, laneOk := k.laneOk, reversed := k.reversed, inverted := k.inverted, queue := k.packets
    txSeq := 0, rxSeq := 0, ackSeq := 0, credits := fullCredits split
    rxBytes := List.replicate 8 [], owed := List.replicate 8 0 }

theorem State.enterSecure_eq (s : State) (h : Nat) : s.enterSecure h =
    let s1 := s.setPort h ((s.port h).secured (s.modeOf (h / 2)).2)
    if (s.fabBlock (iodOf h)).epValid then s1.sendId h else s1 := rfl

section
variable {s : State} {h : Nat}

theorem State.port_sendId (hh : h < s.fabric.ports.length) :
    Port.Sends { s.port h with idSent := true } ((s.sendId h).port h) := by
  have hsends := (State.sends_sendControl (s.setPort h { s.port h with idSent := true }) h 0
    [(s.fabBlock (iodOf h)).ep.toNat]).port h
  rwa [s.port_setPort_same _ hh] at hsends

theorem State.sendId_blocks (s : State) (h : Nat) : (s.sendId h).fabric.blocks = s.fabric.blocks :=
  (State.sends_sendControl ..).blocks

theorem State.port_sendId_other {j : Nat} (hj : j ≠ h) : (s.sendId h).port j = s.port j :=
  (State.port_sendControl_other hj ..).trans (s.port_setPort_other _ hj)

/-- A half in Secure with nothing to send sends its endpoint ID at once. -/
theorem State.port_sendId_now (hh : h < s.fabric.ports.length) (hst : (s.port h).st = .secure)
    (hc : (s.port h).control = []) (hroom : (s.port h).inFlight < 1024) :
    ((s.sendId h).port h).credits = (s.port h).credits ∧ ((s.sendId h).port h).txSeq = (s.port h).txSeq + 1 := by
  have hport := s.port_setPort_same { s.port h with idSent := true } hh
  have hsent := State.port_sendControl (s := s.setPort h { s.port h with idSent := true }) (h := h)
    (by rwa [State.length_setPort]) 0 [(s.fabBlock (iodOf h)).ep.toNat]
  rw [hport] at hsent
  have hsent' := hsent (fun ha => nomatch hst.symm.trans ha) ⟨.inl hst, hroom⟩ hc
  obtain ⟨-, -, -, hcredits, hseq⟩ := Port.sentControl_fields _ _ _
  rw [State.sendId, hsent']
  exact ⟨hcredits, hseq⟩

/-- A half that enters Secure, with the endpoint ID sent where it is valid. -/
theorem State.port_enterSecure (hh : h < s.fabric.ports.length) :
    let v := (s.fabBlock (iodOf h)).epValid
    let f := (s.enterSecure h).port h
    Port.Sends { (s.port h).secured (s.modeOf (h / 2)).2 with idSent := v } f ∧
      f.txSeq = (if v then 1 else 0) ∧ f.credits = fullCredits (s.modeOf (h / 2)).2 := by
  have hport := s.port_setPort_same ((s.port h).secured (s.modeOf (h / 2)).2) hh
  have hlen := s.length_setPort h ((s.port h).secured (s.modeOf (h / 2)).2)
  rw [State.enterSecure_eq]
  cases (s.fabBlock (iodOf h)).epValid with
  | false =>
    dsimp only
    rw [if_neg Bool.false_ne_true, hport]
    exact ⟨.refl _, rfl, rfl⟩
  | true =>
    dsimp only
    rw [if_pos rfl]
    generalize s.setPort h ((s.port h).secured (s.modeOf (h / 2)).2) = s1 at hport hlen ⊢
    have hsends := State.port_sendId (hlen ▸ hh)
    have hnow := State.port_sendId_now (s := s1) (hlen ▸ hh)
    rw [hport] at hsends hnow
    obtain ⟨hcredits, hseq⟩ := hnow rfl rfl (show (0 - 0 : BitVec 12).toNat < 1024 by decide)
    exact ⟨hsends, hseq, hcredits⟩

theorem State.port_enterSecure_other {j : Nat} (hj : j ≠ h) : (s.enterSecure h).port j = s.port j := by
  rw [State.enterSecure_eq]
  dsimp only
  split
  · exact (State.port_sendId_other hj).trans (s.port_setPort_other _ hj)
  · exact s.port_setPort_other _ hj

theorem State.chooseInitiator_eq {ep : BitVec 20} (hp : (s.port h).peerEp = some ep) (hst : (s.port h).st = .secure)
    (hv : (s.fabBlock (iodOf h)).epValid = true) : s.chooseInitiator h =
      if (s.modeOf (h / 2)).1 = 2 then s.setPort h { s.port h with initiator := true }
      else if ep = (s.fabBlock (iodOf h)).ep then s.portDown h causeEpConflict
      else s.setPort h { s.port h with initiator := decide ((s.fabBlock (iodOf h)).ep.toNat < ep.toNat) } := by
  unfold State.chooseInitiator
  dsimp only
  rw [hp]
  exact if_neg (by simp [hst, hv])

/-- With both IDs known, the module initiates in endpoint mode, or the end with the lower ID does (R274, R275). -/
theorem State.port_chooseInitiator {ep : BitVec 20} (hh : h < s.fabric.ports.length) (hp : (s.port h).peerEp = some ep)
    (hst : (s.port h).st = .secure) (hv : (s.fabBlock (iodOf h)).epValid = true) :
    let f := (s.chooseInitiator h).port h
    if (s.modeOf (h / 2)).1 = 2 then f.initiator = true ∧ f.peerEp = some ep
    else if ep = (s.fabBlock (iodOf h)).ep then f.st = .down ∧ f.cause = 6
    else f.st = .secure ∧ f.peerEp = some ep ∧ f.initiator = decide ((s.fabBlock (iodOf h)).ep.toNat < ep.toNat) := by
  rw [State.chooseInitiator_eq hp hst hv]
  dsimp only
  split
  · rw [s.port_setPort_same _ hh]
    exact ⟨rfl, hp⟩
  · split
    · obtain ⟨hdown, hcause, -⟩ := State.port_portDown hh causeEpConflict
      exact ⟨hdown, hcause⟩
    · rw [s.port_setPort_same _ hh]
      exact ⟨hst, hp, rfl⟩

end

/-! ## The rows of training and authentication -/

section
variable {s : State} {pid h : Nat}

theorem exec_portDetect (hh : s.halfNamed pid = some h) (hst : (s.port h).st = .detect) :
    exec (.portDetect pid) s = .next (s.setPort h { s.port h with st := .training }) := by
  have hexec : exec (.portDetect pid) s = execPortDetect pid s := rfl
  rw [hexec, execPortDetect, onPort_of_halfNamed hh, if_pos hst]

section
variable {lanes inv : BitVec 8} {rev : Bool}

theorem exec_portTrainingDone (hh : s.halfNamed pid = some h) (hst : (s.port h).st = .training) :
    exec (.portTrainingDone pid lanes rev inv) s = .next
      (if s.trainedWidth h lanes = 0 then
        if (s.port h).trainFails < 2 then s.setPort h { s.port h with trainFails := (s.port h).trainFails + 1 }
        else s.portDown h causeTraining
      else (s.setPort h { s.port h with
        width := s.trainedWidth h lanes, laneOk := lanes, reversed := rev, inverted := inv, trainFails := 0
        storedEq := true }).enterSecure h) := by
  have hexec : exec (.portTrainingDone pid lanes rev inv) s = execPortTrainingDone pid lanes rev inv s := rfl
  rw [hexec, execPortTrainingDone, onPort_of_halfNamed hh]
  exact congrArg _ (if_neg (not_not.2 hst))

/-- Training that gives a width leads to Secure (R262, R275). -/
theorem portTrainingDone_secure (hsz : s.sized) (hh : s.halfNamed pid = some h) (hst : (s.port h).st = .training)
    (hw : s.trainedWidth h lanes ≠ 0) : Answers (.portTrainingDone pid lanes rev inv) s fun t =>
      (t.port h).st = .secure ∧ (t.port h).width = s.trainedWidth h lanes ∧ (t.port h).laneOk = lanes ∧
      (t.port h).reversed = rev ∧ (t.port h).inverted = inv ∧ (t.port h).trainFails = 0 ∧
      (t.port h).rxSeq = 0 ∧ (t.port h).peerEp = none ∧
      (t.port h).txSeq = (if (s.fabBlock (iodOf h)).epValid then 1 else 0) ∧
      (t.port h).idSent = (s.fabBlock (iodOf h)).epValid ∧
      (t.port h).credits = fullCredits (s.modeOf (h / 2)).2 ∧ (∀ j, j ≠ h → t.port j = s.port j) := by
  have hlen := State.halfNamed_lt hsz hh
  have hexec := exec_portTrainingDone (lanes := lanes) (rev := rev) (inv := inv) hh hst
  rw [if_neg hw] at hexec
  generalize hk : ({ s.port h with
    width := s.trainedWidth h lanes, laneOk := lanes, reversed := rev, inverted := inv, trainFails := 0
    storedEq := true } : Port) = k at hexec
  obtain ⟨hsends, hseq, hcredits⟩ := State.port_enterSecure (s := s.setPort h k) (h := h) (by rwa [State.length_setPort])
  rw [s.port_setPort_same k hlen] at hsends
  have hfixed := hsends.fixed
  subst hk
  refine ⟨_, hexec, hsends.st, congrArg (·.width) hfixed, congrArg (·.laneOk) hfixed, congrArg (·.reversed) hfixed,
    congrArg (·.inverted) hfixed, congrArg (·.trainFails) hfixed, hsends.rxSeq, congrArg (·.peerEp) hfixed, hseq,
    hsends.idSent, hcredits, fun j hj => ?_⟩
  exact (State.port_enterSecure_other hj).trans (s.port_setPort_other _ hj)

end

theorem exec_epIdFlit (ep : BitVec 20) (hh : s.halfNamed pid = some h) (hst : (s.port h).st = .secure) :
    exec (.epIdFlit pid ep) s = .next ((s.setPort h { s.port h with peerEp := some ep }).chooseInitiator h) := by
  have hexec : exec (.epIdFlit pid ep) s = execEpIdFlit pid ep s := rfl
  rw [hexec, execEpIdFlit, onPort_of_halfNamed hh, if_pos hst]

/-- The peer's endpoint ID chooses the initiator, or shows that both ends have the same one (R275). -/
theorem epIdFlit_answers (hsz : s.sized) (hh : s.halfNamed pid = some h) (ep : BitVec 20) (hst : (s.port h).st = .secure)
    (hv : (s.fabBlock (iodOf h)).epValid = true) : Answers (.epIdFlit pid ep) s fun t =>
      if (s.modeOf (h / 2)).1 = 2 then (t.port h).initiator = true ∧ (t.port h).peerEp = some ep
      else if ep = (s.fabBlock (iodOf h)).ep then (t.port h).st = .down ∧ (t.port h).cause = 6
      else (t.port h).st = .secure ∧ (t.port h).peerEp = some ep ∧
        (t.port h).initiator = decide ((s.fabBlock (iodOf h)).ep.toNat < ep.toNat) := by
  have hlen := State.halfNamed_lt hsz hh
  have hport := s.port_setPort_same { s.port h with peerEp := some ep } hlen
  refine ⟨_, exec_epIdFlit ep hh hst, ?_⟩
  exact State.port_chooseInitiator (s := s.setPort h { s.port h with peerEp := some ep }) (by rwa [State.length_setPort])
    (congrArg Port.peerEp hport) ((congrArg Port.st hport).trans hst) hv

theorem exec_epIdResend (hh : s.halfNamed pid = some h) (hst : (s.port h).st = .secure) (hp : (s.port h).peerEp = none)
    (hv : (s.fabBlock (iodOf h)).epValid = true) : exec (.epIdResend pid) s = .next (s.sendId h) := by
  have hexec : exec (.epIdResend pid) s = execEpIdResend pid s := rfl
  rw [hexec, execEpIdResend, onPort_of_halfNamed hh]
  exact congrArg _ (if_pos ⟨hst, hp, hv⟩)

/-- A half whose authentication has succeeded, with its keys. -/
def State.keysAgreed (s : State) (h : Nat) (e : PeerEvidence) : State :=
  let a := s.agreement h e
  let s1 := s.free.2.sendControl h 3 ((a.mine ++ a.hash.take 32).map (·.toNat))
  s1.setPort h { s1.port h with
    st := s.upState, authFails := 0, keyFlits := 0, rxKeyFlits := 0, initiator := s.initiates h
    txKey := some a.tx, rxKey := some a.rx }

theorem exec_keyAgreement (e : PeerEvidence) (hh : s.halfNamed pid = some h) (hst : (s.port h).st = .secure)
    (hv : (s.fabBlock (iodOf h)).epValid = true) (hsec : s.secAvailable = true)
    (hknown : (s.port h).peerEp.isSome = true ∨ (s.modeOf (h / 2)).1 = 2) :
    exec (.keyAgreement pid e) s = .next
      (if (s.peerOk e && s.transcriptAgrees h e) = true then ((s.keysAgreed h e).drainPort h).retryWaiting
      else s.portDown h causeAuth) := by
  have hexec : exec (.keyAgreement pid e) s = execKeyAgreement pid e s := rfl
  rw [hexec, execKeyAgreement, onPort_of_halfNamed hh]
  refine congrArg _ (if_neg ?_)
  have hk : ((s.port h).peerEp.isSome || (s.modeOf (h / 2)).1 == 2) = true := by simpa using hknown
  simp only [hst, hv, hsec, hk, ne_eq, not_true_eq_false, Bool.not_true, Bool.false_eq_true, or_self, not_false_eq_true]

/-- Accepted evidence brings the link up with its keys; any other takes it Down and is counted (R274, R275). -/
theorem keyAgreement_answers (hsz : s.sized) (hh : s.halfNamed pid = some h) (e : PeerEvidence)
    (hst : (s.port h).st = .secure) (hv : (s.fabBlock (iodOf h)).epValid = true) (hsec : s.secAvailable = true)
    (hknown : (s.port h).peerEp.isSome = true ∨ (s.modeOf (h / 2)).1 = 2) : Answers (.keyAgreement pid e) s fun t =>
      if (s.peerOk e && s.transcriptAgrees h e) = true then
        (t.port h).st = s.upState ∧ (t.port h).authFails = 0 ∧ (t.port h).txKey.isSome = true ∧
          (t.port h).rxKey.isSome = true
      else (t.port h).st = .down ∧ (t.port h).cause = 3 ∧ (t.port h).authFails = (s.port h).authFails + 1 := by
  have hlen := State.halfNamed_lt hsz hh
  have hexec := exec_keyAgreement e hh hst hv hsec hknown
  split at hexec
  next hok =>
    refine ⟨_, hexec, ?_⟩
    beta_reduce
    rw [if_pos hok]
    have hlen' := (State.sends_sendControl s.free.2 h 3
      (((s.agreement h e).mine ++ (s.agreement h e).hash.take 32).map (·.toNat))).size
    have hsends := ((State.sends_drainPort (s.keysAgreed h e) h).trans (State.sends_retryWaiting _)).port h
    rw [State.keysAgreed] at hsends ⊢
    dsimp only at hsends ⊢
    rw [State.port_setPort_same _ _ (hlen' ▸ hlen)] at hsends
    refine ⟨hsends.st, hsends.authFails, hsends.keyed rfl, ?_⟩
    rw [hsends.rxKey]
    rfl
  next hbad =>
    refine ⟨_, hexec, ?_⟩
    beta_reduce
    rw [if_neg hbad]
    exact State.port_portDown_auth hlen

/-! ## The rows of Down and Disabled -/

theorem exec_portDownExpiry_stays (hh : s.halfNamed pid = some h)
    (hfail : (s.port h).cause = 3 ∧ 3 ≤ (s.port h).authFails) : exec (.portDownExpiry pid) s = .next s := by
  have hexec : exec (.portDownExpiry pid) s = execPortDownExpiry pid s := rfl
  rw [hexec, execPortDownExpiry, onPort_of_halfNamed hh]
  exact congrArg _ (if_neg (by simp [causeAuth, hfail]))

theorem exec_portDownExpiry (hh : s.halfNamed pid = some h) (hst : (s.port h).st = .down)
    (hfail : ¬((s.port h).cause = 3 ∧ 3 ≤ (s.port h).authFails)) :
    exec (.portDownExpiry pid) s = .next ((s.setPort h { s.port h with st := .disabled }).settlePort (h / 2)) := by
  have hexec : exec (.portDownExpiry pid) s = execPortDownExpiry pid s := rfl
  rw [hexec, execPortDownExpiry, onPort_of_halfNamed hh]
  exact congrArg _ (if_pos ⟨hst, by simpa [causeAuth, imp_iff_not_or] using hfail⟩)

/-- A port leaves Down for Disabled, and for Detect where nothing keeps it in Disabled (R261). -/
theorem portDownExpiry_answers (hsz : s.sized) (hh : s.halfNamed pid = some h) (hst : (s.port h).st = .down)
    (hfail : ¬((s.port h).cause = 3 ∧ 3 ≤ (s.port h).authFails)) : Answers (.portDownExpiry pid) s fun t =>
      ((t.port h).st = .disabled ∨ (t.port h).st = .detect) ∧
      (s.config.heldModes = [] → (s.modeOf (h / 2)).1 ≠ 0 → (s.port h).disable = false → s.board.srefclk = true →
        s.board.railsUp = true → (t.port h).st = .detect) := by
  have hlen := State.halfNamed_lt hsz hh
  have hport := s.port_setPort_same { s.port h with st := .disabled } hlen
  refine ⟨_, exec_portDownExpiry hh hst hfail, ?_, fun hheld hmode hdis hclk hup => ?_⟩
  · obtain ⟨-, -, hstate, -⟩ := (State.port_settlePort (s.setPort h { s.port h with st := .disabled }) (h / 2) h).fields
    rw [hport] at hstate
    exact hstate.imp id (·.2)
  · refine State.settlePort_leaves (s := s.setPort h { s.port h with st := .disabled }) (State.halfNamed_exists hh)
      (by rwa [State.length_setPort]) hheld ?_
    rw [State.MayLeave, hport]
    exact ⟨rfl, hmode, congrArg not hdis, hclk, hup⟩

/-- A write to `PORT_CTL` before the port settles. -/
def State.portCtlSet (s : State) (h : Nat) (v : BitVec 64) : State :=
  let s1 := if v.getLsbD 0 ∧ (s.port h).st ≠ .disabled then s.leaveLink h .disabled (s.port h).cause else s
  s1.setPort h { s1.port h with
    disable := v.getLsbD 0, authFails := if v.getLsbD 0 then 0 else (s1.port h).authFails }

theorem exec_portCtlWrite (v : BitVec 64) (hh : s.halfNamed pid = some h) :
    exec (.portCtlWrite pid v) s = .next ((s.portCtlSet h v).settlePort (h / 2)) :=
  onPort_of_halfNamed hh fun h _ => s.portCtl h v

/-- A half that software disables is in Disabled, and its authentication failures are forgotten (R288). -/
theorem State.port_portCtlSet (hh : h < s.fabric.ports.length) (v : BitVec 64) :
    ((s.portCtlSet h v).port h).disable = v.getLsbD 0 ∧
      (v.getLsbD 0 = true → ((s.portCtlSet h v).port h).st = .disabled ∧ ((s.portCtlSet h v).port h).authFails = 0) := by
  unfold State.portCtlSet
  dsimp only
  split
  next hleave =>
    obtain ⟨hv, -⟩ := hleave
    have hleft := State.port_leaveLink hh .disabled (s.port h).cause
    rw [State.port_setPort_same _ _ ((s.leaveLink_tables h .disabled (s.port h).cause).2 ▸ hh)]
    exact ⟨rfl, fun _ => ⟨hleft.st, if_pos hv⟩⟩
  next hstay =>
    rw [State.port_setPort_same _ _ hh]
    exact ⟨rfl, fun hv => ⟨by simpa [hv] using hstay, if_pos hv⟩⟩

theorem portCtlWrite_answers (hsz : s.sized) (hh : s.halfNamed pid = some h) (v : BitVec 64) :
    Answers (.portCtlWrite pid v) s fun t => (t.port h).disable = v.getLsbD 0 ∧
      (v.getLsbD 0 = true → (t.port h).st = .disabled ∧ (t.port h).authFails = 0) := by
  obtain ⟨hdis, hset⟩ := State.port_portCtlSet (State.halfNamed_lt hsz hh) v
  obtain ⟨kdis, kauth, -, kst⟩ := (State.port_settlePort (s.portCtlSet h v) (h / 2) h).fields
  refine ⟨_, exec_portCtlWrite v hh, kdis.trans hdis, fun hv => ?_⟩
  obtain ⟨hst, hauth⟩ := hset hv
  exact ⟨(kst (hdis.trans hv)).trans hst, kauth.trans hauth⟩

end

/-! ## `FAB_EP` (R284) -/

/-- The copies of `FAB_EP` after a write. -/
def State.writtenEp (s : State) (v : BitVec 64) : State :=
  { s with fabric := { s.fabric with blocks := s.fabric.blocks.map fun b => b.writeEp v } }

/-- A half follows a write to `FAB_EP`; `s` is the state before the write. -/
def State.followEp (s a : State) (h : Nat) : State :=
  if (s.fabBlock (iodOf h)).epValid && !(a.fabBlock (iodOf h)).epValid && (a.port h).st == .active then a.enterSecure h
  else if !(s.fabBlock (iodOf h)).epValid && (a.fabBlock (iodOf h)).epValid && (a.port h).st == .secure then
    (a.sendId h).chooseInitiator h
  else a

theorem State.writeFabEp_eq (s : State) (v : BitVec 64) :
    s.writeFabEp v = ((List.range 72).foldl s.followEp (s.writtenEp v)).retime := rfl

theorem State.enterSecure_blocks (s : State) (h : Nat) : (s.enterSecure h).fabric.blocks = s.fabric.blocks := by
  rw [State.enterSecure_eq]
  dsimp only
  split
  · exact State.sendId_blocks ..
  · rfl

theorem State.chooseInitiator_blocks (s : State) (h : Nat) : (s.chooseInitiator h).fabric.blocks = s.fabric.blocks := by
  unfold State.chooseInitiator
  dsimp only
  split
  · split
    · rfl
    · split
      · rfl
      · split
        · exact (s.portDown_tables ..).1
        · rfl
  · rfl

theorem State.followEp_blocks (s a : State) (h : Nat) : (s.followEp a h).fabric.blocks = a.fabric.blocks := by
  unfold State.followEp
  split
  · exact a.enterSecure_blocks h
  · split
    · exact (State.chooseInitiator_blocks ..).trans (a.sendId_blocks h)
    · rfl

theorem State.fabBlock_writtenEp {s : State} {d : Nat} (v : BitVec 64) (hd : d < s.fabric.blocks.length) :
    (s.writtenEp v).fabBlock d = (s.fabBlock d).writeEp v := by
  simp [State.fabBlock, State.writtenEp, hd]

theorem State.fabBlock_writeFabEp {s : State} {d : Nat} (v : BitVec 64) (hd : d < s.fabric.blocks.length) :
    (s.writeFabEp v).fabBlock d = (s.fabBlock d).writeEp v := by
  rw [← State.fabBlock_writtenEp v hd, State.writeFabEp_eq, State.fabBlock, (State.retime_tables _).1,
    foldl_keeps (fun a : State => a.fabric.blocks) _ s.followEp_blocks, State.fabBlock]

section
variable {s a : State} {h : Nat}

/-- Where no endpoint ID is valid any more, a half can only go from Active to Secure. -/
theorem State.followEp_invalid (hnow : (a.fabBlock (iodOf h)).epValid = false) : s.followEp a h =
    if (s.fabBlock (iodOf h)).epValid && (a.port h).st == .active then
      a.setPort h ((a.port h).secured (a.modeOf (h / 2)).2) else a := by
  have henter : a.enterSecure h = a.setPort h ((a.port h).secured (a.modeOf (h / 2)).2) := by
    rw [State.enterSecure_eq, hnow]
    rfl
  unfold State.followEp
  rw [henter, hnow]
  simp

theorem State.followEp_length (hnow : (a.fabBlock (iodOf h)).epValid = false) :
    (s.followEp a h).fabric.ports.length = a.fabric.ports.length := by
  rw [State.followEp_invalid hnow]
  split
  · exact a.length_setPort ..
  · rfl

theorem State.port_followEp_other {j : Nat} (hnow : (a.fabBlock (iodOf h)).epValid = false) (hj : j ≠ h) :
    (s.followEp a h).port j = a.port j := by
  rw [State.followEp_invalid hnow]
  split
  · exact a.port_setPort_other _ hj
  · rfl

theorem State.port_followEp_same (hnow : (a.fabBlock (iodOf h)).epValid = false) (hh : h < a.fabric.ports.length)
    (hwas : (s.fabBlock (iodOf h)).epValid = true) (hst : (a.port h).st = .active ∨ (a.port h).st = .secure) :
    ((s.followEp a h).port h).st = .secure := by
  rw [State.followEp_invalid hnow, hwas]
  obtain hst | hst := hst
  · rw [hst, if_pos (show (true && PortState.active == PortState.active) = true from rfl), a.port_setPort_same _ hh]
    rfl
  · rw [hst]
    exact hst

/-- Every Active half of the list returns to Secure (R284). -/
theorem State.followEp_secures (l : List Nat) (hl : ∀ j ∈ l, (a.fabBlock (iodOf j)).epValid = false)
    (hh : h < a.fabric.ports.length) (hwas : (s.fabBlock (iodOf h)).epValid = true)
    (hst : h ∈ l ∧ (a.port h).st = .active ∨ (a.port h).st = .secure) :
    ((l.foldl s.followEp a).port h).st = .secure := by
  induction l generalizing a with
  | nil => simpa using hst
  | cons j l ih =>
    have hnow := hl j List.mem_cons_self
    refine ih (fun x hx => ?_) ?_ ?_
    · rw [State.fabBlock, State.followEp_blocks]
      exact hl x (List.mem_cons_of_mem _ hx)
    · rwa [State.followEp_length hnow]
    · by_cases hj : h = j
      · subst hj
        exact .inr (State.port_followEp_same hnow hh hwas (hst.imp (·.2) id))
      · rw [State.port_followEp_other hnow hj]
        exact hst.imp (fun g => ⟨(List.mem_cons.1 g.1).resolve_left hj, g.2⟩) id

end

theorem exec_fabEpWrite {s : State} (v : BitVec 64) (hup : s.board.railsUp = true) :
    exec (.fabEpWrite v) s = .next (s.writeFabEp v) :=
  congrArg Host.Outcome.next (if_pos hup)

theorem fabEpWrite_answers {s : State} (v : BitVec 64) (hsz : s.sized) (hup : s.board.railsUp = true) :
    Answers (.fabEpWrite v) s fun t =>
      (∀ d, d < 4 → (t.fabBlock d).epValid = v.getLsbD 31 ∧
        (t.fabBlock d).ep = (if (s.fabBlock d).epValid then (s.fabBlock d).ep else v.setWidth 20)) ∧
      (v.getLsbD 31 = false → ∀ h, h < 72 → (s.fabBlock (iodOf h)).epValid = true → (s.port h).st = .active →
        (t.port h).st = .secure) := by
  obtain ⟨-, -, hports, hblocks⟩ := hsz
  refine ⟨_, exec_fabEpWrite v hup, fun d hd => ?_, fun hv h hh hwas hst => ?_⟩
  · rw [State.fabBlock_writeFabEp v (hblocks ▸ hd)]
    exact ⟨rfl, rfl⟩
  · rw [State.writeFabEp_eq, State.port_retime]
    refine State.followEp_secures (a := s.writtenEp v) _ (fun j hj => ?_) (hports ▸ hh) hwas
      (.inl ⟨List.mem_range.2 hh, hst⟩)
    have hd : iodOf j < s.fabric.blocks.length := by
      have := List.mem_range.1 hj
      rw [hblocks, iodOf]
      omega
    rw [State.fabBlock_writtenEp v hd]
    exact hv

/-- Settles O31: one lemma for each row of training, authentication, Down, Disabled and `FAB_EP`. -/
theorem fabricTraining : Obligations.FabricTraining := by
  refine ⟨fun s pid h hsz hh => ⟨exec_portDetect hh, fun lanes rev inv hst hw => portTrainingDone_secure hsz hh hst hw,
    fun lanes rev inv hst hw hfew => ?again, fun lanes rev inv hst hw hmany => ?fails,
    fun ep hst hv => epIdFlit_answers hsz hh ep hst hv, fun hst hp hv => ?resend,
    fun e hst hv hsec hknown => keyAgreement_answers hsz hh e hst hv hsec hknown,
    fun _ hfail => exec_portDownExpiry_stays hh hfail, fun hst hfail => portDownExpiry_answers hsz hh hst hfail,
    fun v => portCtlWrite_answers hsz hh v⟩, fun s v hsz hup => fabEpWrite_answers v hsz hup⟩
  case again => rw [exec_portTrainingDone hh hst, if_pos hw, if_pos hfew]
  case fails =>
    refine ⟨_, exec_portTrainingDone hh hst, ?_⟩
    rw [if_pos hw, if_neg (Nat.not_lt.2 hmany)]
    obtain ⟨hdown, hcause, -⟩ := State.port_portDown (State.halfNamed_lt hsz hh) causeTraining
    exact ⟨hdown, hcause⟩
  case resend =>
    have hsends := State.port_sendId (State.halfNamed_lt hsz hh)
    exact ⟨_, exec_epIdResend hh hst hp hv, rfl, hsends.idSent, hsends.st.trans hst⟩

end Sys2Proof.Machine

end

section
/-! PROOFS. Flits and packets on a link read back as what was written (R265, R272, R273). -/

namespace Sys2Proof.Machine

/-! ## Flits (R265) -/

theorem length_padTo (n : Nat) (l : List Byte) : (padTo n l).length = n := by
  simp [padTo]

/-- The number that the six bytes of a link header hold. -/
def FlitHead.num (h : FlitHead) : Nat :=
  h.ftype % 16 + h.vl % 8 * 2 ^ 4 + h.fseq.toNat * 2 ^ 8 + h.ack.toNat * 2 ^ 20 + h.start % 256 * 2 ^ 32
    + h.crVl % 8 * 2 ^ 40 + h.crCnt % 32 * 2 ^ 43

theorem FlitHead.bytes_eq (h : FlitHead) : h.bytes = leBytes 6 h.num := rfl

theorem FlitHead.num_lt (h : FlitHead) : h.num < 256 ^ 6 := by
  have hfseq := h.fseq.isLt
  have hack := h.ack.isLt
  unfold FlitHead.num
  omega

theorem FlitHead.leNat_bytes (h : FlitHead) : leNat h.bytes = h.num := by
  rw [h.bytes_eq, leNat_leBytes, Nat.mod_eq_of_lt h.num_lt]

/-- A flit before its CRC. -/
def flitBody (h : FlitHead) (l : List Byte) : List Byte := h.bytes ++ padTo 242 l

theorem flitBytes_eq (h : FlitHead) (l : List Byte) :
    flitBytes h l = flitBody h l ++ leBytes 8 (crc64 (flitBody h l)).toNat := rfl

theorem length_flitBody (h : FlitHead) (l : List Byte) : (flitBody h l).length = 248 := by
  simp [flitBody, FlitHead.bytes_eq, length_leBytes, length_padTo]

theorem take_flitBytes {n : Nat} (h : FlitHead) (l : List Byte) (hn : n ≤ 6) :
    (flitBytes h l).take n = h.bytes.take n := by
  have hlen : h.bytes.length = 6 := length_leBytes ..
  rw [flitBytes_eq, flitBody, List.append_assoc, List.take_append_of_le_length (by omega)]

section
variable {h : FlitHead}

/-- The fields of a header in their ranges read back. -/
theorem flitHead_of_take {x : List Byte} (hx : x.take 6 = h.bytes) (hf : h.ftype ≤ 3) (hvl : h.vl < 8)
    (hstart : h.start < 256) (hcr : h.crVl < 8) (hcnt : h.crCnt < 32) : flitHead x = h := by
  have hfseq := h.fseq.isLt
  have hack := h.ack.isLt
  have hseqs : BitVec.ofNat 12 (h.num / 2 ^ 8) = h.fseq ∧ BitVec.ofNat 12 (h.num / 2 ^ 20) = h.ack := by
    constructor <;> refine BitVec.eq_of_toNat_eq ?_ <;> rw [BitVec.toNat_ofNat, FlitHead.num] <;> omega
  have hnums : h.num % 16 = h.ftype ∧ h.num / 2 ^ 4 % 8 = h.vl ∧ h.num / 2 ^ 32 % 256 = h.start ∧
      h.num / 2 ^ 40 % 8 = h.crVl ∧ h.num / 2 ^ 43 % 32 = h.crCnt := by
    unfold FlitHead.num
    omega
  obtain ⟨hfseq', hack'⟩ := hseqs
  obtain ⟨hf', hvl', hstart', hcr', hcnt'⟩ := hnums
  simp only [flitHead, hx, FlitHead.leNat_bytes, hf', hvl', hfseq', hack', hstart', hcr', hcnt']

theorem leNat_take_one (n v : Nat) : leNat ((leBytes (n + 1) v).take 1) = v % 256 := by
  simp [leBytes, leNat]

/-- A flit reads back: it is good, and so are its header and its padded payload. -/
theorem flit_readback (l : List Byte) (hf : h.ftype ≤ 3) (hvl : h.vl < 8) (hstart : h.start < 256) (hcr : h.crVl < 8)
    (hcnt : h.crCnt < 32) :
    flitGood (flitBytes h l) = true ∧ flitHead (flitBytes h l) = h ∧ flitPayload (flitBytes h l) = padTo 242 l := by
  have hbody := length_flitBody h l
  have hcrc : (leBytes 8 (crc64 (flitBody h l)).toNat).length = 8 := length_leBytes ..
  have hhead : flitHead (flitBytes h l) = h :=
    flitHead_of_take ((take_flitBytes h l le_rfl).trans (List.take_of_length_le (length_leBytes ..).le)) hf hvl hstart
      hcr hcnt
  refine ⟨?_, hhead, ?_⟩
  · have hlen : (flitBytes h l).length = 256 := by rw [flitBytes_eq, List.length_append, hbody, hcrc]
    have hdrop : (flitBytes h l).drop 248 = leBytes 8 (crc64 (flitBody h l)).toNat := by
      rw [flitBytes_eq, List.drop_left' hbody]
    have htake : (flitBytes h l).take 248 = flitBody h l := by rw [flitBytes_eq, List.take_left' hbody]
    have hvalue : leNat (leBytes 8 (crc64 (flitBody h l)).toNat) = (crc64 (flitBody h l)).toNat := by
      rw [leNat_leBytes]
      exact Nat.mod_eq_of_lt (crc64 (flitBody h l)).isLt
    have hone : leNat ((flitBytes h l).take 1) / 2 ^ 7 = 0 := by
      rw [take_flitBytes h l (by omega), FlitHead.bytes_eq, leNat_take_one]
      unfold FlitHead.num
      omega
    simp only [flitGood, hlen, hdrop, htake, hvalue, hhead, hone, BEq.rfl, hf, decide_true, Bool.and_self]
  · have hpad : h.bytes.length = 6 := length_leBytes ..
    rw [flitPayload, flitBytes_eq, flitBody, List.append_assoc, List.drop_left' hpad, List.take_left' (length_padTo ..)]

end

/-! ## Packets (R272, R273) -/

/-- The number that the 24 bytes of a packet header hold. -/
def headerNum (p : Packet) : Nat :=
  p.ptype.toNat + p.dstEp.toNat * 2 ^ 8 + p.srcEp.toNat * 2 ^ 28 + p.hops.toNat * 2 ^ 48
    + p.dstPart.toNat * 2 ^ 56 + p.dstCtx.toNat * 2 ^ 60 + p.dstPgen.toNat * 2 ^ 64 + p.dstCgen.toNat * 2 ^ 72
    + p.srcPart.toNat * 2 ^ 80 + p.srcCtx.toNat * 2 ^ 84 + p.srcPgen.toNat * 2 ^ 88 + p.srcCgen.toNat * 2 ^ 96
    + p.payload.length % 2 ^ 13 * 2 ^ 104 + p.obj.toNat * 2 ^ 128

theorem packetHeader_eq (p : Packet) : packetHeader p = leBytes 24 (headerNum p) := rfl

/-- The fields of a header do not overlap, and its reserved bits are zero. -/
theorem headerNum_fields (p : Packet) :
    headerNum p < 256 ^ 24 ∧
    (headerNum p % 2 ^ 5 = p.ptype.toNat ∧ headerNum p / 2 ^ 8 % 2 ^ 20 = p.dstEp.toNat ∧
      headerNum p / 2 ^ 28 % 2 ^ 20 = p.srcEp.toNat ∧ headerNum p / 2 ^ 48 % 2 ^ 6 = p.hops.toNat ∧
      headerNum p / 2 ^ 56 % 2 ^ 4 = p.dstPart.toNat ∧ headerNum p / 2 ^ 60 % 2 ^ 4 = p.dstCtx.toNat) ∧
    (headerNum p / 2 ^ 64 % 2 ^ 8 = p.dstPgen.toNat ∧ headerNum p / 2 ^ 72 % 2 ^ 8 = p.dstCgen.toNat ∧
      headerNum p / 2 ^ 80 % 2 ^ 4 = p.srcPart.toNat ∧ headerNum p / 2 ^ 84 % 2 ^ 4 = p.srcCtx.toNat ∧
      headerNum p / 2 ^ 88 % 2 ^ 8 = p.srcPgen.toNat ∧ headerNum p / 2 ^ 96 % 2 ^ 8 = p.srcCgen.toNat ∧
      headerNum p / 2 ^ 104 % 2 ^ 13 = p.payload.length % 2 ^ 13 ∧ headerNum p / 2 ^ 128 % 2 ^ 64 = p.obj.toNat) ∧
    headerNum p / 2 ^ 5 % 8 = 0 ∧ headerNum p / 2 ^ 54 % 4 = 0 ∧ headerNum p / 2 ^ 117 % 2 ^ 11 = 0 := by
  have hptype := p.ptype.isLt
  have hdstEp := p.dstEp.isLt
  have hsrcEp := p.srcEp.isLt
  have hhops := p.hops.isLt
  have hdstPart := p.dstPart.isLt
  have hdstCtx := p.dstCtx.isLt
  have hdstPgen := p.dstPgen.isLt
  have hdstCgen := p.dstCgen.isLt
  have hsrcPart := p.srcPart.isLt
  have hsrcCtx := p.srcCtx.isLt
  have hsrcPgen := p.srcPgen.isLt
  have hsrcCgen := p.srcCgen.isLt
  have hobj := p.obj.isLt
  unfold headerNum
  omega

section
variable {p : Packet} {k : LinkKey}

theorem leNat_packetHeader (p : Packet) : leNat (packetHeader p) = headerNum p := by
  obtain ⟨hlt, -⟩ := headerNum_fields p
  rw [packetHeader_eq, leNat_leBytes, Nat.mod_eq_of_lt hlt]

theorem length_packetHeader (p : Packet) : (packetHeader p).length = 24 := length_leBytes ..

/-- A header and a payload make the packet that they came from. -/
theorem packetOf_packetHeader (p : Packet) : packetOf (packetHeader p) p.payload = p := by
  obtain ⟨-, ⟨hptype, hdstEp, hsrcEp, hhops, hdstPart, hdstCtx⟩,
    ⟨hdstPgen, hdstCgen, hsrcPart, hsrcCtx, hsrcPgen, hsrcCgen, -, hobj⟩, -⟩ := headerNum_fields p
  have hfield {w n : Nat} {x : BitVec w} (hx : n % 2 ^ w = x.toNat) : BitVec.ofNat w n = x :=
    BitVec.eq_of_toNat_eq ((BitVec.toNat_ofNat ..).trans hx)
  unfold packetOf
  rw [List.take_of_length_le (length_packetHeader p).le, leNat_packetHeader]
  dsimp only
  rw [hfield hptype, hfield hdstEp, hfield hsrcEp, hfield hhops, hfield hdstPart, hfield hdstCtx, hfield hdstPgen,
    hfield hdstCgen, hfield hsrcPart, hfield hsrcCtx, hfield hsrcPgen, hfield hsrcCgen, hfield hobj]

theorem LinkKey.length_crypt (l : List Byte) : (k.crypt l).length = l.length := List.length_mapIdx

/-- The keystream added twice cancels. -/
theorem LinkKey.crypt_crypt (l : List Byte) : k.crypt (k.crypt l) = l := by
  refine List.ext_getElem (by simp only [LinkKey.length_crypt]) fun i _ _ => ?_
  simp [LinkKey.crypt]

theorem LinkKey.seal_eq (k : LinkKey) (p : Packet) :
    k.seal p = packetHeader p ++ (k.crypt p.payload ++ k.tag (packetHeader p) (k.crypt p.payload)) :=
  List.append_assoc ..

theorem LinkKey.take_seal (k : LinkKey) (p : Packet) : (k.seal p).take 24 = packetHeader p := by
  rw [k.seal_eq, List.take_left' (length_packetHeader p)]

theorem LinkKey.headerLen_seal (k : LinkKey) (hp : p.payload.length ≤ 4096) : headerLen (k.seal p) = p.payload.length := by
  obtain ⟨-, -, ⟨-, -, -, -, -, -, hlen, -⟩, -⟩ := headerNum_fields p
  rw [headerLen, k.take_seal, leNat_packetHeader, hlen, Nat.mod_eq_of_lt (by omega)]

theorem LinkKey.headerClean_seal (k : LinkKey) (hp : p.payload.length ≤ 4096) : headerClean (k.seal p) = true := by
  obtain ⟨-, -, -, hlow, hmid, hhigh⟩ := headerNum_fields p
  simp only [headerClean, k.headerLen_seal hp, k.take_seal, leNat_packetHeader, hlow, hmid, hhigh, BEq.rfl, Bool.and_self,
    decide_eq_true hp]

/-- A packet reads back under the key that sealed it. -/
theorem LinkKey.unseal_seal (k : LinkKey) (hp : p.payload.length ≤ 4096) : k.unseal (k.seal p) = some p := by
  have hcipher : (k.crypt p.payload).length = p.payload.length := LinkKey.length_crypt _
  have hbody : ((k.seal p).drop 24).take p.payload.length = k.crypt p.payload := by
    rw [k.seal_eq, List.drop_left' (length_packetHeader p), List.take_left' hcipher]
  have htag : (k.seal p).drop (24 + p.payload.length) = k.tag (packetHeader p) (k.crypt p.payload) := by
    rw [← List.drop_drop, k.seal_eq, List.drop_left' (length_packetHeader p), List.drop_left' hcipher]
  unfold LinkKey.unseal
  dsimp only
  rw [k.headerLen_seal hp, k.take_seal, hbody, htag, if_pos rfl, k.crypt_crypt, packetOf_packetHeader]

end

end Sys2Proof.Machine

end

section
/-! PROOFS. What a linked port half does with a flit (R265, R268, R269, R273). -/

namespace Sys2Proof.Machine

/-! ## Errors of a flit (R269) -/

theorem Port.linked_iff (k : Port) : k.linked = true ↔ k.st = .active ∨ k.st = .paused := by
  simp [Port.linked]

theorem Port.not_retraining {k : Port} (h : k.linked = true) : k.st ≠ .retraining := by
  obtain hst | hst := k.linked_iff.1 h <;> simp [hst]

theorem Port.bump_bump (k : Port) (i j : Fin 10) (m n : Nat) :
    (k.bump i m).bump j n = { k with counters := ((k.bump i m).bump j n).counters } := rfl

/-- A half that has counted the corrected and uncorrected codewords of a flit. -/
def Port.noted (k : Port) (f : Flit) : Port :=
  { k with
    laneErrors := (List.range 8).map fun i => k.laneErrors.getD i 0 + f.fecUncorr.getD i 0
    counters := ((k.bump cntFecCorr f.fecCorr).bump cntFecUncorr f.fecUncorr.sum).counters }

theorem Port.st_noted (k : Port) (f : Flit) : (k.noted f).st = k.st := rfl

theorem Port.counters_noted (k : Port) (f : Flit) {i : Fin 10} (hcorr : cntFecCorr ≠ i) (hun : cntFecUncorr ≠ i) :
    (k.noted f).counters[i] = k.counters[i] :=
  (Port.counters_bump_other _ _ hun).trans (k.counters_bump_other _ hcorr)

/-- One lane has more than 100 uncorrected codewords in the frame. -/
def Port.TooMany (k : Port) (f : Flit) : Prop := ∃ i, i < 8 ∧ 100 < k.laneErrors.getD i 0 + f.fecUncorr.getD i 0

theorem Port.tooMany_iff (k : Port) (f : Flit) :
    k.TooMany f ↔ ((k.noted f).laneErrors.any fun n => decide (100 < n)) = true := by
  simp [Port.TooMany, Port.noted]

section
variable {s : State} {h : Nat} {f : Flit}

theorem State.noteErrors_eq (s : State) (h : Nat) (f : Flit) : s.noteErrors h f =
    if ((s.port h).linked && ((s.port h).noted f).laneErrors.any fun n => decide (100 < n)) = true then
      (s.setPort h ((s.port h).noted f)).retrain h
    else s.setPort h ((s.port h).noted f) := by
  unfold State.noteErrors
  dsimp only
  rw [Port.bump_bump]
  rfl

theorem State.noteErrors_few (hfew : ¬(s.port h).TooMany f) : s.noteErrors h f = s.setPort h ((s.port h).noted f) := by
  rw [Port.tooMany_iff, Bool.not_eq_true] at hfew
  rw [State.noteErrors_eq, hfew, Bool.and_false]
  rfl

/-- A half that begins to retrain. -/
def Port.retrained (k : Port) : Port :=
  { k with st := .retraining, sameReplays := 0, counters := (k.bump cntRetrain 1).counters }

theorem State.port_retrain (hh : h < s.fabric.ports.length) : (s.retrain h).port h = (s.port h).retrained :=
  s.port_setPort_same _ hh

theorem State.port_noteErrors_many (hh : h < s.fabric.ports.length) (hk : (s.port h).linked = true)
    (hmany : (s.port h).TooMany f) : (s.noteErrors h f).port h = ((s.port h).noted f).retrained := by
  rw [State.noteErrors_eq, hk, (Port.tooMany_iff ..).1 hmany, if_pos (by rfl),
    State.port_retrain (by rwa [State.length_setPort]), s.port_setPort_same _ hh]

theorem State.length_noteErrors (s : State) (h : Nat) (f : Flit) :
    (s.noteErrors h f).fabric.ports.length = s.fabric.ports.length := by
  rw [State.noteErrors_eq]
  split
  · exact (State.length_setPort ..).trans (s.length_setPort ..)
  · exact s.length_setPort ..

/-! ## The branches of a flit (R268, R270) -/

/-- A half that has taken the acknowledgement and the credits of a flit in order. -/
def Port.inOrder (k : Port) (hd : FlitHead) : Port :=
  { (k.acked hd.ack).returned hd with
    rxSeq := hd.fseq, asked := false, rxKeyFlits := ((k.acked hd.ack).returned hd).rxKeyFlits + 1 }

/-- What a linked half does with a flit whose errors have been noted; `n` is the number that follows in order. -/
def State.judgeFlit (s : State) (h : Nat) (n : BitVec 12) (f : Flit) : State :=
  let hd := flitHead f.bytes
  let s2 := s.setPort h ((s.port h).inOrder hd)
  if !flitGood f.bytes then s.askReplay h true
  else if hd.ftype = ftReplay then ((s.setPort h ((s.port h).returned hd)).resend h hd.ack).drainPort h
  else if hd.ftype = ftIdle then (s.setPort h (((s.port h).acked hd.ack).returned hd)).drainPort h
  else if hd.fseq ≠ n then s.askReplay h false
  else
    (if hd.ftype = ftData then s2.takeData h hd.vl (flitPayload f.bytes)
      else s2.takeControl h hd.fseq (flitPayload f.bytes)).answerFlit h

theorem State.setPort_setPort (s : State) (h : Nat) (k k' : Port) : (s.setPort h k).setPort h k' = s.setPort h k' := by
  simp only [State.setPort, setAt, List.set_set]

theorem exec_flitReceive {pid : Nat} (hh : s.halfNamed pid = some h) (hk : (s.port h).linked = true)
    (hl : h < (s.noteErrors h f).fabric.ports.length) : exec (.flitReceive pid f) s = .next
      (if ((s.noteErrors h f).port h).st = .retraining then s.noteErrors h f
      else (s.noteErrors h f).judgeFlit h ((s.port h).rxSeq + 1) f) := by
  have hsecure : (s.port h).st ≠ .secure := by
    obtain hst | hst := (s.port h).linked_iff.1 hk <;> simp [hst]
  have hexec : exec (.flitReceive pid f) s = execFlitReceive pid f s := rfl
  rw [hexec, execFlitReceive, onPort_of_halfNamed hh, hk, if_neg (by simp)]
  dsimp only
  generalize s.noteErrors h f = s0 at hl
  unfold State.judgeFlit
  dsimp only
  have hdata : ¬((flitHead f.bytes).ftype = ftData ∧ (s.port h).st = .secure) := fun hd => hsecure hd.2
  rw [if_neg hdata, s0.port_setPort_same _ hl, State.setPort_setPort]
  rfl

/-- Too many errors retrain the port before anything else is done with the flit (R269). -/
theorem flitReceive_many {pid : Nat} (hsz : s.sized) (hh : s.halfNamed pid = some h) (hk : (s.port h).linked = true)
    (hmany : (s.port h).TooMany f) : Answers (.flitReceive pid f) s fun t =>
      (t.port h).st = .retraining ∧ (t.port h).rxSeq = (s.port h).rxSeq := by
  have hlen := State.halfNamed_lt hsz hh
  have hport := State.port_noteErrors_many hlen hk hmany
  have hst : ((s.noteErrors h f).port h).st = .retraining := by
    rw [hport]
    rfl
  have hexec := exec_flitReceive hh hk (f := f) (by rwa [State.length_noteErrors])
  rw [if_pos hst] at hexec
  refine ⟨_, hexec, hst, ?_⟩
  rw [hport]
  rfl

/-- Without too many errors, they are counted and the flit is judged. -/
theorem exec_flitReceive_few {pid : Nat} (hsz : s.sized) (hh : s.halfNamed pid = some h) (hk : (s.port h).linked = true)
    (hfew : ¬(s.port h).TooMany f) : exec (.flitReceive pid f) s = .next
      ((s.setPort h ((s.port h).noted f)).judgeFlit h ((s.port h).rxSeq + 1) f) := by
  have hlen := State.halfNamed_lt hsz hh
  rw [exec_flitReceive hh hk (by rwa [State.length_noteErrors]), State.noteErrors_few hfew, s.port_setPort_same _ hlen,
    Port.st_noted, if_neg (Port.not_retraining hk)]

section
variable {n : BitVec 12}

theorem State.judgeFlit_bad (hg : flitGood f.bytes = false) : s.judgeFlit h n f = s.askReplay h true := by
  simp [State.judgeFlit, hg]

theorem State.judgeFlit_idle (hg : flitGood f.bytes = true) (ht : (flitHead f.bytes).ftype = 0) : s.judgeFlit h n f =
    (s.setPort h (((s.port h).acked (flitHead f.bytes).ack).returned (flitHead f.bytes))).drainPort h := by
  simp [State.judgeFlit, hg, ht, ftReplay, ftIdle]

theorem State.judgeFlit_gap (hg : flitGood f.bytes = true)
    (ht : (flitHead f.bytes).ftype = 1 ∨ (flitHead f.bytes).ftype = 3)
    (hn : (flitHead f.bytes).fseq ≠ n) : s.judgeFlit h n f = s.askReplay h false := by
  obtain ht | ht := ht <;> simp [State.judgeFlit, hg, ht, hn, ftReplay, ftIdle]

theorem State.judgeFlit_control (hg : flitGood f.bytes = true) (ht : (flitHead f.bytes).ftype = 3)
    (hn : (flitHead f.bytes).fseq = n) : s.judgeFlit h n f =
    ((s.setPort h ((s.port h).inOrder (flitHead f.bytes))).takeControl h (flitHead f.bytes).fseq
      (flitPayload f.bytes)).answerFlit h := by
  simp [State.judgeFlit, hg, ht, hn, ftReplay, ftIdle, ftData]

theorem State.judgeFlit_data (hg : flitGood f.bytes = true) (ht : (flitHead f.bytes).ftype = 1)
    (hn : (flitHead f.bytes).fseq = n) : s.judgeFlit h n f =
    ((s.setPort h ((s.port h).inOrder (flitHead f.bytes))).takeData h (flitHead f.bytes).vl
      (flitPayload f.bytes)).answerFlit h := by
  simp [State.judgeFlit, hg, ht, hn, ftReplay, ftIdle, ftData]

end

/-! ## Discarded flits (R268) -/

theorem Port.returns_congr {k k' : Port} (ho : k'.owed = k.owed) (hst : k'.st = k.st) : k'.returns.1 = k.returns.1 := by
  unfold Port.returns
  rw [ho, hst]
  split
  · split <;> rfl
  · rfl

theorem Port.plain_congr {k k' : Port} (ho : k'.owed = k.owed) (hst : k'.st = k.st) (hrx : k'.rxSeq = k.rxSeq)
    (ftype : Nat) : (k'.plain ftype).2 = (k.plain ftype).2 := by
  unfold Port.plain
  dsimp only
  rw [Port.returns_congr ho hst, hrx]

/-- A half that has discarded a flit, with the fault counted. -/
def Port.faulted (k : Port) (fault : Bool) : Port := if fault then k.bump cntCrc 1 else k

/-- A half that asks for a replay. -/
def Port.asking (k : Port) : Port := { k with asked := true, counters := (k.bump cntReplay 1).counters }

theorem Port.asking_fields (k : Port) :
    (k.asking.owed = k.owed ∧ k.asking.st = k.st ∧ k.asking.rxSeq = k.rxSeq) ∧
      k.asking.counters[2] = k.counters[2] ∧ k.asking.counters[3] = k.counters[3] + 1 :=
  ⟨⟨rfl, rfl, rfl⟩, k.counters_bump_other (i := cntReplay) (j := 2) 1 (by decide), k.counters_bump_same cntReplay 1⟩

theorem Port.faulted_fields (k : Port) (fault : Bool) :
    (k.faulted fault).asked = k.asked ∧ (k.faulted fault).rxSeq = k.rxSeq ∧ (k.faulted fault).owed = k.owed ∧
      (k.faulted fault).st = k.st ∧ (k.faulted fault).counters[3] = k.counters[3] ∧
      (k.faulted fault).counters[2] = k.counters[2] + (if fault then 1 else 0) := by
  cases fault with
  | false => exact ⟨rfl, rfl, rfl, rfl, rfl, (BitVec.add_zero _).symm⟩
  | true =>
    exact ⟨rfl, rfl, rfl, rfl, k.counters_bump_other (i := cntCrc) (j := 3) 1 (by decide), k.counters_bump_same cntCrc 1⟩

theorem State.askReplay_again {fault : Bool} (ha : (s.port h).asked = true) :
    s.askReplay h fault = s.setPort h ((s.port h).faulted fault) :=
  if_pos ha

theorem State.askReplay_first {fault : Bool} (ha : (s.port h).asked = false) :
    s.askReplay h fault = (s.setPort h ((s.port h).faulted fault).asking).sendPlain h ftReplay :=
  if_neg (Bool.eq_false_iff.1 ha)

/-- A discarded flit is asked for again once, and a fault is counted. -/
theorem State.askReplay_fields (hh : h < s.fabric.ports.length) (fault : Bool) :
    let t := s.askReplay h fault
    ((t.port h).asked = true ∧
      t.out = s.out ++ if (s.port h).asked then [] else [.flit (pidOf h) ((s.port h).plain ftReplay).2]) ∧
    (t.port h).rxSeq = (s.port h).rxSeq ∧ t.fabric.arrived = s.fabric.arrived ∧
    (t.port h).counters[2] = (s.port h).counters[2] + (if fault then 1 else 0) ∧
    (t.port h).counters[3] = (s.port h).counters[3] + (if (s.port h).asked then 0 else 1) := by
  obtain ⟨hasked, hrx, howed, hst, hreplays, hfaults⟩ := (s.port h).faulted_fields fault
  dsimp only
  cases ha : (s.port h).asked with
  | true =>
    rw [State.askReplay_again ha, s.port_setPort_same _ hh]
    exact ⟨⟨hasked.trans ha, (List.append_nil _).symm⟩, hrx, rfl, hfaults, hreplays.trans (BitVec.add_zero _).symm⟩
  | false =>
    obtain ⟨⟨aowed, ast, arx⟩, hcrc, hreplay⟩ := ((s.port h).faulted fault).asking_fields
    have hport := s.port_setPort_same ((s.port h).faulted fault).asking hh
    obtain ⟨o, ho⟩ := Port.returns_snd ((s.port h).faulted fault).asking
    have hsent : ((s.setPort h ((s.port h).faulted fault).asking).sendPlain h ftReplay).port h =
        { ((s.port h).faulted fault).asking with owed := o } := by
      rw [← ho, State.sendPlain, hport]
      exact State.port_setPort_same _ _ (by rwa [State.length_setPort])
    have hout : ((s.setPort h ((s.port h).faulted fault).asking).sendPlain h ftReplay).out =
        s.out ++ [.flit (pidOf h) (((s.port h).faulted fault).asking.plain ftReplay).2] := by
      rw [State.sendPlain, hport]
      rfl
    have hflit : (((s.port h).faulted fault).asking.plain ftReplay).2 = ((s.port h).plain ftReplay).2 :=
      Port.plain_congr (aowed.trans howed) (ast.trans hst) (arx.trans hrx) ftReplay
    rw [State.askReplay_first ha, hsent, hout, hflit]
    exact ⟨⟨rfl, rfl⟩, arx.trans hrx, rfl, hcrc.trans hfaults, hreplay.trans (congrArg (· + 1) hreplays)⟩

end

end Sys2Proof.Machine

end

section
/-! PROOFS. Flits in order, replay, retraining and rekeying of a linked port half (R265, R268, R269, R273, R276). -/

namespace Sys2Proof.Machine

/-! ## Flits that a linked half receives -/

theorem Port.acked_eq (k : Port) (ack : BitVec 12) : ∃ a n o l,
    k.acked ack = { k with ackSeq := a, sameReplays := n, oldTx := o, replay := l } := by
  unfold Port.acked
  dsimp only
  split <;> exact ⟨_, _, _, _, rfl⟩

theorem Port.ackSeq_acked (k : Port) (ack : BitVec 12) :
    (k.acked ack).ackSeq = if (ack - k.ackSeq).toNat ≤ k.inFlight then ack else k.ackSeq :=
  apply_ite Port.ackSeq _ _ _

theorem Port.st_acked (k : Port) (ack : BitVec 12) : (k.acked ack).st = k.st := by
  obtain ⟨_, _, _, _, hacked⟩ := k.acked_eq ack
  rw [hacked]

theorem Port.rxSeq_acked (k : Port) (ack : BitVec 12) : (k.acked ack).rxSeq = k.rxSeq := by
  obtain ⟨_, _, _, _, hacked⟩ := k.acked_eq ack
  rw [hacked]

/-- A flit in order moves the receive number and nothing else that the checks of its payload read. -/
theorem Port.inOrder_fields (k : Port) (hd : FlitHead) :
    (k.inOrder hd).rxSeq = hd.fseq ∧ (k.inOrder hd).st = k.st ∧ (k.inOrder hd).rxKey = k.rxKey ∧
      (k.inOrder hd).rxBytes = k.rxBytes ∧ (k.inOrder hd).authFails = k.authFails := by
  obtain ⟨_, _, _, _, hacked⟩ := k.acked_eq hd.ack
  rw [Port.inOrder, hacked]
  exact ⟨rfl, rfl, rfl, rfl, rfl⟩

theorem Port.plain_noted (k : Port) (f : Flit) (ftype : Nat) : ((k.noted f).plain ftype).2 = (k.plain ftype).2 :=
  Port.plain_congr (k := k) (k' := k.noted f) rfl rfl rfl ftype

theorem Port.controlOk_congr {k k' : Port} (hkey : k'.rxKey = k.rxKey) (seq : BitVec 12) (l : List Byte) :
    k'.controlOk seq l = k.controlOk seq l := by
  unfold Port.controlOk
  rw [hkey]

theorem Port.peerSwitched_fields (k : Port) (l : List Byte) :
    (k.peerSwitched l).rxSeq = k.rxSeq ∧ (k.peerSwitched l).st = k.st := by
  unfold Port.peerSwitched
  split <;> exact ⟨rfl, rfl⟩

/-- A half that has taken the bytes of a data flit. -/
def Port.received (k : Port) (key : LinkKey) (vl : Nat) (payload : List Byte) : Port :=
  let r := takePackets 256 key (k.rxBytes.getD vl [] ++ payload) []
  { k with rxBytes := setAt k.rxBytes vl r.2.1, rxKey := some r.2.2.1, owed := modifyAt k.owed vl (· + 1) }

section
variable {s : State} {h : Nat}

theorem State.takeControl_good {seq : BitVec 12} {l : List Byte} (hok : (s.port h).controlOk seq l = true) :
    s.takeControl h seq l = s.setPort h ((s.port h).peerSwitched l) := if_pos hok

theorem State.takeControl_bad {seq : BitVec 12} {l : List Byte} (hbad : (s.port h).controlOk seq l = false) :
    s.takeControl h seq l = s.portDown h causeAuth := if_neg (Bool.eq_false_iff.1 hbad)

theorem State.takeData_bad {key : LinkKey} {vl : Nat} {l : List Byte} (hkey : (s.port h).rxKey = some key)
    (hbad : (takePackets 256 key ((s.port h).rxBytes.getD vl [] ++ l) []).2.2.2 = false) :
    s.takeData h vl l = (s.setPort h ((s.port h).received key vl l)).portDown h causeAuth := by
  unfold State.takeData Port.received
  dsimp only
  rw [hkey]
  dsimp only
  rw [hbad]
  rfl

/-- Bytes that complete no packet are kept for the flits that follow. -/
theorem State.takeData_part {key : LinkKey} {vl : Nat} {l : List Byte} (hkey : (s.port h).rxKey = some key)
    (hok : (takePackets 256 key ((s.port h).rxBytes.getD vl [] ++ l) []).2.2.2 = true)
    (hnone : (takePackets 256 key ((s.port h).rxBytes.getD vl [] ++ l) []).1 = []) (harr : s.fabric.arrived = []) :
    s.takeData h vl l = s.setPort h ((s.port h).received key vl l) := by
  unfold State.takeData Port.received
  dsimp only
  rw [hkey]
  dsimp only
  rw [hok, hnone]
  exact State.deliverAll_idle harr

/-- A tag that does not verify takes the half Down, whatever it sends after. -/
theorem State.port_answer_portDown (hh : h < s.fabric.ports.length) :
    let k := ((s.portDown h causeAuth).answerFlit h).port h
    k.st = .down ∧ k.cause = 3 ∧ k.authFails = (s.port h).authFails + 1 := by
  have hsends := (State.sends_answerFlit (s.portDown h causeAuth) h).port h
  obtain ⟨hst, hcause, hfails⟩ := State.port_portDown_auth hh
  exact ⟨hsends.st.trans hst, hsends.cause.trans hcause, hsends.authFails.trans hfails⟩

section
variable {pid : Nat} {f : Flit} (hsz : s.sized) (hh : s.halfNamed pid = some h) (hk : (s.port h).linked = true)
  (hfew : ¬(s.port h).TooMany f)
include hsz hh

/-- A discarded flit counts its errors, and is asked for again once. -/
theorem State.askReplay_noted (fault : Bool) :
    let t := (s.setPort h ((s.port h).noted f)).askReplay h fault
    ((t.port h).asked = true ∧
      t.out = s.out ++ if (s.port h).asked then [] else [.flit (pidOf h) ((s.port h).plain ftReplay).2]) ∧
    (t.port h).rxSeq = (s.port h).rxSeq ∧ t.fabric.arrived = s.fabric.arrived ∧
    (t.port h).counters[2] = (s.port h).counters[2] + (if fault then 1 else 0) ∧
    (t.port h).counters[3] = (s.port h).counters[3] + (if (s.port h).asked then 0 else 1) := by
  have hlen := State.halfNamed_lt hsz hh
  have hfields := State.askReplay_fields (s := s.setPort h ((s.port h).noted f)) (h := h) (by rwa [State.length_setPort]) fault
  have hcrc : ((s.port h).noted f).counters[2] = (s.port h).counters[2] :=
    (s.port h).counters_noted f (i := cntCrc) (by decide) (by decide)
  have hreplay : ((s.port h).noted f).counters[3] = (s.port h).counters[3] :=
    (s.port h).counters_noted f (i := cntReplay) (by decide) (by decide)
  rw [s.port_setPort_same _ hlen, Port.plain_noted, hcrc, hreplay] at hfields
  exact hfields

/-- A half whose flit is in order, before its payload is taken. -/
theorem State.ordered_port :
    let k := ((s.setPort h (((s.port h).noted f).inOrder (flitHead f.bytes))).port h)
    k.rxSeq = (flitHead f.bytes).fseq ∧ k.st = (s.port h).st ∧ k.rxKey = (s.port h).rxKey ∧
      k.rxBytes = (s.port h).rxBytes ∧ k.authFails = (s.port h).authFails := by
  rw [s.port_setPort_same _ (State.halfNamed_lt hsz hh)]
  exact ((s.port h).noted f).inOrder_fields _

include hk hfew

theorem flitReceive_bad (hg : flitGood f.bytes = false) : Answers (.flitReceive pid f) s fun t =>
    (t.port h).rxSeq = (s.port h).rxSeq ∧ (t.port h).counters[2] = (s.port h).counters[2] + 1 ∧
    (t.port h).counters[3] = (s.port h).counters[3] + (if (s.port h).asked then 0 else 1) ∧
    ((t.port h).asked = true ∧
      t.out = s.out ++ if (s.port h).asked then [] else [.flit (pidOf h) ((s.port h).plain ftReplay).2]) ∧
    t.fabric.arrived = s.fabric.arrived := by
  obtain ⟨hasks, hrx, harr, hcrc, hreplay⟩ := State.askReplay_noted hsz hh (f := f) true
  have hexec := exec_flitReceive_few hsz hh hk hfew
  rw [State.judgeFlit_bad hg] at hexec
  exact ⟨_, hexec, hrx, hcrc, hreplay, hasks, harr⟩

theorem flitReceive_gap (hg : flitGood f.bytes = true)
    (ht : (flitHead f.bytes).ftype = 1 ∨ (flitHead f.bytes).ftype = 3)
    (hn : (flitHead f.bytes).fseq ≠ (s.port h).rxSeq + 1) : Answers (.flitReceive pid f) s fun t =>
    (t.port h).rxSeq = (s.port h).rxSeq ∧ (t.port h).counters[2] = (s.port h).counters[2] ∧
    ((t.port h).asked = true ∧
      t.out = s.out ++ if (s.port h).asked then [] else [.flit (pidOf h) ((s.port h).plain ftReplay).2]) ∧
    t.fabric.arrived = s.fabric.arrived := by
  obtain ⟨hasks, hrx, harr, hcrc, -⟩ := State.askReplay_noted hsz hh (f := f) false
  have hexec := exec_flitReceive_few hsz hh hk hfew
  rw [State.judgeFlit_gap hg ht hn] at hexec
  exact ⟨_, hexec, hrx, hcrc.trans (BitVec.add_zero _), hasks, harr⟩

theorem flitReceive_idle (hg : flitGood f.bytes = true) (ht : (flitHead f.bytes).ftype = 0) :
    Answers (.flitReceive pid f) s fun t => (t.port h).rxSeq = (s.port h).rxSeq ∧
      (t.port h).ackSeq = ((s.port h).acked (flitHead f.bytes).ack).ackSeq ∧ t.mem = s.mem := by
  have hlen := State.halfNamed_lt hsz hh
  have hexec := exec_flitReceive_few hsz hh hk hfew
  rw [State.judgeFlit_idle hg ht, State.setPort_setPort, s.port_setPort_same _ hlen] at hexec
  have hsends := State.sends_drainPort
    (s.setPort h ((((s.port h).noted f).acked (flitHead f.bytes).ack).returned (flitHead f.bytes))) h
  have hport := hsends.port h
  rw [s.port_setPort_same _ hlen] at hport
  refine ⟨_, hexec, ?_, ?_, hsends.mem⟩
  · exact hport.rxSeq.trans (Port.rxSeq_acked ((s.port h).noted f) _)
  · exact hport.ackSeq.trans ((Port.ackSeq_acked ..).trans ((s.port h).ackSeq_acked _).symm)

theorem flitReceive_control_bad (hg : flitGood f.bytes = true) (ht : (flitHead f.bytes).ftype = 3)
    (hn : (flitHead f.bytes).fseq = (s.port h).rxSeq + 1)
    (hbad : (s.port h).controlOk (flitHead f.bytes).fseq (flitPayload f.bytes) = false) :
    Answers (.flitReceive pid f) s fun t =>
      (t.port h).st = .down ∧ (t.port h).cause = 3 ∧ (t.port h).authFails = (s.port h).authFails + 1 := by
  have hlen := State.halfNamed_lt hsz hh
  obtain ⟨-, -, hkey, -, hfails⟩ := State.ordered_port hsz hh (f := f)
  have hexec := exec_flitReceive_few hsz hh hk hfew
  rw [State.judgeFlit_control hg ht hn, State.setPort_setPort, s.port_setPort_same _ hlen,
    State.takeControl_bad ((Port.controlOk_congr hkey ..).trans hbad)] at hexec
  rw [← hfails]
  exact ⟨_, hexec, State.port_answer_portDown (by rwa [State.length_setPort])⟩

theorem flitReceive_control (hg : flitGood f.bytes = true) (ht : (flitHead f.bytes).ftype = 3)
    (hn : (flitHead f.bytes).fseq = (s.port h).rxSeq + 1)
    (hok : (s.port h).controlOk (flitHead f.bytes).fseq (flitPayload f.bytes) = true) :
    Answers (.flitReceive pid f) s fun t => (t.port h).rxSeq = (flitHead f.bytes).fseq ∧ (t.port h).st = (s.port h).st ∧
      t.fabric.arrived = s.fabric.arrived ∧ t.mem = s.mem := by
  have hlen := State.halfNamed_lt hsz hh
  obtain ⟨hseq, hst, hkey, -⟩ := State.ordered_port hsz hh (f := f)
  have hexec := exec_flitReceive_few hsz hh hk hfew
  rw [State.judgeFlit_control hg ht hn, State.setPort_setPort, s.port_setPort_same _ hlen,
    State.takeControl_good ((Port.controlOk_congr hkey ..).trans hok), State.setPort_setPort] at hexec
  generalize (s.setPort h (((s.port h).noted f).inOrder (flitHead f.bytes))).port h = k at hseq hst hexec
  obtain ⟨hseq', hst'⟩ := k.peerSwitched_fields (flitPayload f.bytes)
  have hsends := State.sends_answerFlit (s.setPort h (k.peerSwitched (flitPayload f.bytes))) h
  have hport := hsends.port h
  rw [s.port_setPort_same _ hlen] at hport
  exact ⟨_, hexec, hport.rxSeq.trans (hseq'.trans hseq), hport.st.trans (hst'.trans hst), hsends.arrived, hsends.mem⟩

section
variable {key : LinkKey} (hg : flitGood f.bytes = true) (ht : (flitHead f.bytes).ftype = 1)
  (hn : (flitHead f.bytes).fseq = (s.port h).rxSeq + 1) (hkey : (s.port h).rxKey = some key)
include hg ht hn hkey

theorem flitReceive_data_bad
    (hbad : (takePackets 256 key ((s.port h).rxBytes.getD (flitHead f.bytes).vl [] ++ flitPayload f.bytes) []).2.2.2 = false) :
    Answers (.flitReceive pid f) s fun t =>
      (t.port h).st = .down ∧ (t.port h).cause = 3 ∧ (t.port h).authFails = (s.port h).authFails + 1 := by
  have hlen := State.halfNamed_lt hsz hh
  obtain ⟨-, -, hkey', hbytes, hfails⟩ := State.ordered_port hsz hh (f := f)
  have hexec := exec_flitReceive_few hsz hh hk hfew
  rw [State.judgeFlit_data hg ht hn, State.setPort_setPort, s.port_setPort_same _ hlen,
    State.takeData_bad (hkey'.trans hkey) (hbytes ▸ hbad), State.setPort_setPort] at hexec
  refine ⟨_, hexec, ?_⟩
  have hdown := State.port_answer_portDown (h := h) (s := s.setPort h (((s.setPort h (((s.port h).noted f).inOrder
    (flitHead f.bytes))).port h).received key (flitHead f.bytes).vl (flitPayload f.bytes))) (by rwa [State.length_setPort])
  rw [s.port_setPort_same (Port.received ..) hlen] at hdown
  rw [← hfails]
  exact hdown

theorem flitReceive_data_part
    (hok : (takePackets 256 key ((s.port h).rxBytes.getD (flitHead f.bytes).vl [] ++ flitPayload f.bytes) []).2.2.2 = true)
    (hnone : (takePackets 256 key ((s.port h).rxBytes.getD (flitHead f.bytes).vl [] ++ flitPayload f.bytes) []).1 = [])
    (harr : s.fabric.arrived = []) :
    Answers (.flitReceive pid f) s fun t => (t.port h).rxSeq = (flitHead f.bytes).fseq ∧ (t.port h).st = (s.port h).st ∧
      (t.port h).rxKey =
        some (takePackets 256 key ((s.port h).rxBytes.getD (flitHead f.bytes).vl [] ++ flitPayload f.bytes) []).2.2.1 ∧
      t.fabric.arrived = [] ∧ t.mem = s.mem := by
  have hlen := State.halfNamed_lt hsz hh
  obtain ⟨hseq, hst, hkey', hbytes, -⟩ := State.ordered_port hsz hh (f := f)
  have hexec := exec_flitReceive_few hsz hh hk hfew
  rw [State.judgeFlit_data hg ht hn, State.setPort_setPort, s.port_setPort_same _ hlen,
    State.takeData_part (hkey'.trans hkey) (hbytes ▸ hok) (hbytes ▸ hnone) harr, State.setPort_setPort] at hexec
  generalize (s.setPort h (((s.port h).noted f).inOrder (flitHead f.bytes))).port h = k at hseq hst hbytes hexec
  have hsends := State.sends_answerFlit (s.setPort h (k.received key (flitHead f.bytes).vl (flitPayload f.bytes))) h
  have hport := hsends.port h
  rw [s.port_setPort_same _ hlen] at hport
  refine ⟨_, hexec, hport.rxSeq.trans hseq, hport.st.trans hst, hport.rxKey.trans ?_, hsends.arrived.trans harr, hsends.mem⟩
  rw [← hbytes]
  rfl

end

end

end

end Sys2Proof.Machine

end

section
/-! PROOFS. Replay, retraining and rekeying of a linked port half (R268, R269, R276, R282). -/

namespace Sys2Proof.Machine

/-! ## Replay (R268, R269) -/

section
variable {s : State} {h : Nat} {ack : BitVec 12}

theorem State.resend_none (hn : ((s.port h).acked ack).inFlight = 0) :
    s.resend h ack = s.setPort h ((s.port h).acked ack) := if_pos hn

theorem State.resend_paused (hn : ((s.port h).acked ack).inFlight ≠ 0) (hst : (s.port h).st = .paused) :
    s.resend h ack = s.setPort h { (s.port h).acked ack with resendDue := true } :=
  (if_neg hn).trans (if_pos ((Port.st_acked ..).trans hst))

/-- A half that has counted a replay of its unacknowledged flits. -/
def Port.replayed (k : Port) : Port :=
  { k with sameReplays := k.sameReplays + 1, frameReplays := k.frameReplays + k.inFlight }

theorem State.resend_now (hn : ((s.port h).acked ack).inFlight ≠ 0) (hst : (s.port h).st ≠ .paused) :
    s.resend h ack =
      let k := (s.port h).acked ack
      let s2 := (s.setPort h k.replayed).resendAll h
      if 8 ≤ k.sameReplays + 1 ∨ 1000 < k.frameReplays + k.inFlight then s2.retrain h else s2 :=
  (if_neg hn).trans (if_neg fun hp => hst ((Port.st_acked ..).symm.trans hp))

theorem State.out_resendAll (hh : h < s.fabric.ports.length) (k : Port) :
    ((s.setPort h k.replayed).resendAll h).out = s.out ++ k.replay.map fun x => .flit (pidOf h) (k.emitSent (0, 0) x) := by
  rw [State.resendAll, s.port_setPort_same _ hh]
  exact congrArg (s.out ++ ·) (List.map_map ..)

theorem State.out_retrain (s : State) (h : Nat) : (s.retrain h).out = s.out := rfl

/-- A replay is sent at once, or after the pause; too many retrain the port. -/
theorem replayRequest_answers {pid : Nat} (hsz : s.sized) (hh : s.halfNamed pid = some h) (ack : BitVec 12)
    (hk : (s.port h).linked = true) :
    let k1 := (s.port h).acked ack
    Answers (.replayRequest pid ack) s fun t =>
      t.out = s.out ++ (if k1.inFlight = 0 ∨ (s.port h).st = .paused then []
        else k1.replay.map fun x => .flit (pidOf h) (k1.emitSent (0, 0) x)) ∧
      ((s.port h).st = .paused → k1.inFlight ≠ 0 → (t.port h).resendDue = true) ∧
      ((t.port h).st = .retraining ↔ k1.inFlight ≠ 0 ∧ (s.port h).st ≠ .paused ∧
        (8 ≤ k1.sameReplays + 1 ∨ 1000 < k1.frameReplays + k1.inFlight)) := by
  have hlen := State.halfNamed_lt hsz hh
  have hstays := Port.not_retraining hk
  have hst1 := (s.port h).st_acked ack
  have hexec : exec (.replayRequest pid ack) s = .next (s.resend h ack) :=
    (onPort_of_halfNamed hh fun h k => if k.linked then s.resend h ack else s).trans (congrArg _ (if_pos hk))
  dsimp only
  refine ⟨_, hexec, ?_⟩
  beta_reduce
  by_cases hn : ((s.port h).acked ack).inFlight = 0
  · rw [State.resend_none hn, s.port_setPort_same _ hlen, if_pos (.inl hn), List.append_nil, hst1]
    exact ⟨rfl, fun _ h0 => absurd hn h0, iff_of_false hstays fun g => g.1 hn⟩
  · by_cases hp : (s.port h).st = .paused
    · rw [State.resend_paused hn hp, s.port_setPort_same _ hlen, if_pos (.inr hp), List.append_nil]
      exact ⟨rfl, fun _ _ => rfl, iff_of_false (hst1 ▸ hstays) fun g => g.2.1 hp⟩
    · rw [State.resend_now hn hp, if_neg (not_or.2 ⟨hn, hp⟩)]
      dsimp only
      have hsent : ((s.setPort h ((s.port h).acked ack).replayed).resendAll h).port h = ((s.port h).acked ack).replayed :=
        s.port_setPort_same _ hlen
      split
      next hmany =>
        rw [State.port_retrain (by rwa [(State.sends_resendAll ..).size, State.length_setPort]), State.out_retrain,
          State.out_resendAll hlen]
        exact ⟨rfl, fun g => absurd g hp, iff_of_true rfl ⟨hn, hp, hmany⟩⟩
      next hfew =>
        rw [hsent, State.out_resendAll hlen]
        exact ⟨rfl, fun g => absurd g hp, iff_of_false (hst1 ▸ hstays) fun g => hfew g.2.2⟩

end

/-! ## Retraining (R269, R270, R449) -/

section
variable {s : State} {pid h : Nat}

/-- The turn of a half in an activation retrains it only where it is in service and its turn has come. -/
def State.Turned (s t : State) (l : List Nat) (h : Nat) : Prop :=
  t.port h = s.port h ∨ h ∈ l ∧ (s.port h).inService = true ∧ t.port h = (s.port h).retrained

theorem State.port_linkNext (hh : h < s.fabric.ports.length) (a : Activation) (l : List Nat) :
    s.Turned (s.linkNext a l) l h := by
  induction l with
  | nil => exact .inl rfl
  | cons j l ih =>
    unfold State.linkNext
    dsimp only
    split
    · exact .inl rfl
    · split
      next hin =>
        by_cases hj : h = j
        · subst hj
          exact .inr ⟨List.mem_cons_self, hin, State.port_retrain hh⟩
        · exact .inl (State.port_setPort_other _ _ hj)
      next => exact ih.imp id fun ⟨hmem, hrest⟩ => ⟨List.mem_cons_of_mem _ hmem, hrest⟩

/-- The next turn changes a half only if it awaits its turn and is in service, and then it retrains. -/
theorem State.port_linkTurn (hh : h < s.fabric.ports.length) : s.linkTurn.port h = s.port h ∨
    s.awaits h = true ∧ (s.port h).inService = true ∧ s.linkTurn.port h = (s.port h).retrained := by
  unfold State.linkTurn
  split
  next a ha =>
    split
    next hturn =>
      refine (State.port_linkNext hh a a.linkLeft).imp id fun ⟨hmem, hrest⟩ => ⟨?_, hrest⟩
      have hcomp : a.comp = 5 := by simp_all
      simp [State.awaits, ha, hcomp, hmem]
    next => exact .inl rfl
  next => exact .inl rfl

theorem portRetrain_answers (hsz : s.sized) (hh : s.halfNamed pid = some h) (hk : (s.port h).linked = true) :
    Answers (.portRetrain pid) s fun t =>
      (t.port h).st = .retraining ∧ (t.port h).counters[4] = (s.port h).counters[4] + 1 ∧
      (t.port h).replay = (s.port h).replay ∧ (t.port h).queue = (s.port h).queue ∧
      ∀ j, j ≠ h → t.port j = s.port j := by
  have hexec : exec (.portRetrain pid) s = .next (s.retrain h) :=
    (onPort_of_halfNamed hh fun h k => if k.linked then s.retrain h else s).trans (congrArg _ (if_pos hk))
  have hport := State.port_retrain (State.halfNamed_lt hsz hh)
  refine ⟨_, hexec, ?_⟩
  beta_reduce
  rw [hport]
  exact ⟨rfl, (s.port h).counters_bump_same cntRetrain 1, rfl, rfl, fun j hj => s.port_setPort_other _ hj⟩

theorem exec_portRetrainDone (e : RetrainEnd) (hh : s.halfNamed pid = some h) (hst : (s.port h).st = .retraining) :
    exec (.portRetrainDone pid e) s = .next
      (if e = .ok then
        ((s.setPort h { s.port h with st := s.upState, retrainFails := 0 }).drainPort h).retryWaiting.linkTurn
      else if (s.port h).retrainFails < 2 then
        s.setPort h (Port.bump { s.port h with retrainFails := (s.port h).retrainFails + 1 } cntRetrain 1)
      else (s.portDown h (if e = .peerLost then causePeerLost else causeRetraining)).linkTurn) := by
  have hexec : exec (.portRetrainDone pid e) s = execPortRetrainDone pid e s := rfl
  rw [hexec, execPortRetrainDone, onPort_of_halfNamed hh]
  exact congrArg _ (if_neg (not_not.2 hst))

/-- A link that has retrained is up again, unless its turn in an activation has come just then. -/
theorem portRetrainDone_ok (hsz : s.sized) (hh : s.halfNamed pid = some h) (hst : (s.port h).st = .retraining) :
    Answers (.portRetrainDone pid .ok) s fun t => (t.port h).retrainFails = 0 ∧
      ((t.port h).st = s.upState ∨ (t.port h).st = .retraining ∧ s.awaits h = true) ∧
      (s.awaits h = false → (t.port h).st = s.upState) := by
  have hlen := State.halfNamed_lt hsz hh
  have hset := s.port_setPort_same { s.port h with st := s.upState, retrainFails := 0 } hlen
  have hsends := (State.sends_drainPort (s.setPort h { s.port h with st := s.upState, retrainFails := 0 }) h).trans
    (State.sends_retryWaiting _)
  refine .of_next (exec_portRetrainDone .ok hh hst) (if_pos rfl) ?_
  generalize ((s.setPort h { s.port h with st := s.upState, retrainFails := 0 }).drainPort h).retryWaiting = u at hsends ⊢
  have hport := hsends.port h
  rw [hset] at hport
  have hawaits : u.awaits h = s.awaits h := congrArg (fun x : Update => x.activation.any _) hsends.upd
  obtain hturn | ⟨hwait, -, hturn⟩ := State.port_linkTurn (s := u) (h := h) (by rwa [hsends.size, State.length_setPort])
  · rw [hturn]
    exact ⟨hport.retrainFails, .inl hport.st, fun _ => hport.st⟩
  · rw [hawaits] at hwait
    rw [hturn]
    exact ⟨hport.retrainFails, .inr ⟨rfl, hwait⟩, fun hnot => absurd (hnot.symm.trans hwait) Bool.false_ne_true⟩

/-- A retraining that fails is tried again twice; then the port goes Down. -/
theorem portRetrainDone_fails (hsz : s.sized) (hh : s.halfNamed pid = some h) (hst : (s.port h).st = .retraining)
    {e : RetrainEnd} (he : e ≠ .ok) :
    ((s.port h).retrainFails < 2 → Answers (.portRetrainDone pid e) s fun t =>
      (t.port h).st = .retraining ∧ (t.port h).retrainFails = (s.port h).retrainFails + 1) ∧
    (2 ≤ (s.port h).retrainFails → Answers (.portRetrainDone pid e) s fun t =>
      (t.port h).st = .down ∧ (t.port h).cause = (if e = .peerLost then 5 else 2)) := by
  have hlen := State.halfNamed_lt hsz hh
  refine ⟨fun hfew => ?_, fun hmany => ?_⟩
  · refine .of_next (exec_portRetrainDone e hh hst) ((if_neg he).trans (if_pos hfew)) ?_
    rw [s.port_setPort_same _ hlen]
    exact ⟨hst, rfl⟩
  · refine .of_next (exec_portRetrainDone e hh hst) ((if_neg he).trans (if_neg (Nat.not_lt.2 hmany))) ?_
    obtain ⟨hdown, hcause, -⟩ := State.port_portDown hlen (if e = .peerLost then causePeerLost else causeRetraining)
    have hkept := (s.portDown_tables h (if e = .peerLost then causePeerLost else causeRetraining)).2
    generalize s.portDown h (if e = .peerLost then causePeerLost else causeRetraining) = u at hdown hcause hkept ⊢
    have hout : (u.port h).inService = false := by simp [Port.inService, Port.linked, hdown]
    obtain hturn | ⟨-, hin, -⟩ := State.port_linkTurn (s := u) (h := h) (hkept ▸ hlen)
    · rw [hturn]
      exact ⟨hdown, hcause⟩
    · exact absurd (hout.symm.trans hin) Bool.false_ne_true

/-! ## Rekeying (R276) -/

/-- The agreement and the marker of the switch go out at once where nothing else waits: the new key is in use. -/
theorem State.port_sendSwitch {key : LinkKey} (hh : h < s.fabric.ports.length) (hk : (s.port h).linked = true)
    (hnext : (s.port h).nextTx = some key) (hqueue : (s.port h).queue = []) (hcut : (s.port h).cut = [])
    (hcontrol : (s.port h).control = []) (hroom : (s.port h).inFlight + 2 ≤ 1024) (fields : List Nat) :
    let k := ((s.sendControl h 3 fields).sendControl h 1 []).port h
    k.keyFlits = 0 ∧ k.txKey = some key := by
  have hst := (s.port h).linked_iff.1 hk
  have hfirst := State.port_sendControl hh 3 fields (fun _ => ⟨hqueue, hcut⟩) ⟨.inr hst, by omega⟩ hcontrol
  have hsends := (s.sends_sendControl h 3 fields).port h
  have hlen := (s.sends_sendControl h 3 fields).size
  obtain ⟨kcontrol, kqueue, kcut, -, kseq⟩ := Port.sentControl_fields
    { s.port h with control := [{ kind := 3, fields }] } { kind := 3, fields } []
  have knext := Port.nextTx_sentControl (k := { s.port h with control := [{ kind := 3, fields }] })
    (c := { kind := 3, fields }) (show 3 ≠ 1 by decide) []
  rw [← hfirst] at kcontrol kqueue kcut kseq knext
  generalize s.sendControl h 3 fields = s1 at *
  have hroom1 : (s1.port h).inFlight < 1024 := by
    unfold Port.inFlight at hroom ⊢
    rw [kseq, hsends.ackSeq]
    dsimp only
    generalize (s.port h).txSeq = x at *
    generalize (s.port h).ackSeq = y at *
    bv_omega
  have hsecond := State.port_sendControl (s := s1) (hlen ▸ hh) 1 [] (fun _ => ⟨kqueue.trans hqueue, kcut.trans hcut⟩)
    ⟨.inr (hsends.st ▸ hst), hroom1⟩ kcontrol
  dsimp only
  rw [hsecond]
  exact Port.sentControl_switch rfl (knext.trans hnext) []

/-- A half with the keys of a new agreement, before the switch. -/
def State.rekeying (s : State) (h : Nat) (e : PeerEvidence) : State :=
  s.free.2.setPort h { s.port h with nextTx := some (s.agreement h e).tx, nextRx := some (s.agreement h e).rx }

theorem exec_rekey (e : PeerEvidence) (hh : s.halfNamed pid = some h) (hk : (s.port h).linked = true)
    (hsec : s.secAvailable = true) (hnext : (s.port h).nextTx = none)
    (hmany : 2 ^ 31 ≤ (s.port h).keyFlits ∨ 2 ^ 31 ≤ (s.port h).rxKeyFlits) : exec (.rekey pid e) s = .next
      (if (s.peerOk e && s.transcriptAgrees h e) = true then
        ((s.rekeying h e).sendControl h 3
          (((s.agreement h e).mine ++ (s.agreement h e).hash.take 32).map (·.toNat))).sendControl h 1 []
      else s.portDown h causeAuth) := by
  have hexec : exec (.rekey pid e) s = execRekey pid e s := rfl
  rw [hexec, execRekey, onPort_of_halfNamed hh]
  refine congrArg _ (if_neg ?_)
  have hfew : ¬((s.port h).keyFlits < 2 ^ 31 ∧ (s.port h).rxKeyFlits < 2 ^ 31) := by omega
  simp only [hk, hsec, hnext, hfew, Bool.not_true, Bool.false_eq_true, Option.isSome_none, or_self, not_false_eq_true]

/-- A rekeying keeps the link up with new keys, or is a failed authentication. -/
theorem rekey_answers (hsz : s.sized) (hh : s.halfNamed pid = some h) (e : PeerEvidence) (hk : (s.port h).linked = true)
    (hsec : s.secAvailable = true) (hnext : (s.port h).nextTx = none)
    (hmany : 2 ^ 31 ≤ (s.port h).keyFlits ∨ 2 ^ 31 ≤ (s.port h).rxKeyFlits) : Answers (.rekey pid e) s fun t =>
      if (s.peerOk e && s.transcriptAgrees h e) = true then
        (t.port h).st = (s.port h).st ∧ (t.port h).nextRx = some (s.agreement h e).rx ∧
          ((s.port h).queue = [] → (s.port h).cut = [] → (s.port h).control = [] → (s.port h).inFlight + 2 ≤ 1024 →
            (t.port h).keyFlits = 0 ∧ (t.port h).txKey = some (s.agreement h e).tx)
      else (t.port h).st = .down ∧ (t.port h).cause = 3 := by
  have hlen := State.halfNamed_lt hsz hh
  have hexec := exec_rekey e hh hk hsec hnext hmany
  refine ⟨_, hexec, ?_⟩
  beta_reduce
  split
  next hok =>
    have hport : (s.rekeying h e).port h =
        { s.port h with nextTx := some (s.agreement h e).tx, nextRx := some (s.agreement h e).rx } :=
      State.port_setPort_same s.free.2 _ hlen
    have hlen' : h < (s.rekeying h e).fabric.ports.length := by rwa [State.rekeying, State.length_setPort]
    generalize s.rekeying h e = s1 at hport hlen'
    have hswitch := State.port_sendSwitch (key := (s.agreement h e).tx) hlen' (by rw [hport]; exact hk) (by rw [hport])
    have hsends := ((s1.sends_sendControl h 3
      (((s.agreement h e).mine ++ (s.agreement h e).hash.take 32).map (·.toNat))).trans
        (State.sends_sendControl _ h 1 [])).port h
    rw [hport] at hsends hswitch
    exact ⟨hsends.st, hsends.nextRx, fun hqueue hcut hcontrol hroom => hswitch hqueue hcut hcontrol hroom _⟩
  next hbad =>
    obtain ⟨hdown, hcause, -⟩ := State.port_portDown_auth hlen
    exact ⟨hdown, hcause⟩

theorem exec_rekeyOverrun (hh : s.halfNamed pid = some h) : exec (.rekeyOverrun pid) s = .next
    (if (s.port h).inService = true ∧ (2 ^ 32 ≤ (s.port h).keyFlits ∨ 2 ^ 32 ≤ (s.port h).rxKeyFlits) then
      s.portDown h causeRekey else s) := by
  have hexec : exec (.rekeyOverrun pid) s = execRekeyOverrun pid s := rfl
  rw [hexec, execRekeyOverrun, onPort_of_halfNamed hh]

/-- A direction that has used its key up takes the port Down (R276, R288). -/
theorem rekeyOverrun_answers (hsz : s.sized) (hh : s.halfNamed pid = some h) (hin : (s.port h).inService = true) :
    (2 ^ 32 ≤ (s.port h).keyFlits ∨ 2 ^ 32 ≤ (s.port h).rxKeyFlits →
      Answers (.rekeyOverrun pid) s fun t => (t.port h).st = .down ∧ (t.port h).cause = 4) ∧
    ((s.port h).keyFlits < 2 ^ 32 → (s.port h).rxKeyFlits < 2 ^ 32 → exec (.rekeyOverrun pid) s = .next s) := by
  refine ⟨fun hmany => ?_, fun htx hrx => ?_⟩
  · obtain ⟨hdown, hcause, -⟩ := State.port_portDown (State.halfNamed_lt hsz hh) causeRekey
    exact .of_next (exec_rekeyOverrun hh) (if_pos ⟨hin, hmany⟩) ⟨hdown, hcause⟩
  · rw [exec_rekeyOverrun hh, if_neg (fun hmany => hmany.2.elim (Nat.not_le.2 htx) (Nat.not_le.2 hrx))]

/-! ## Time flits (R282) -/

/-- The time of a peer, kept for its port. -/
def State.heard (s : State) (pid : Nat) (i : TimeInfo) : State :=
  { s with fabric := { s.fabric with peers := SMap.put s.fabric.peers pid i } }

/-- The time of a peer may choose the source anew; a frame input goes before any peer. -/
theorem timeFlit_answers (hh : s.halfNamed pid = some h) (i : TimeInfo) (hk : (s.port h).linked = true) :
    Answers (.timeFlit pid i) s fun t =>
      SMap.find t.fabric.peers pid = some i ∧ t.fabric.ports = s.fabric.ports ∧
      (s.board.frameSync = true → t.fabric.stratum = 0 ∧ t.fabric.source = 1 ∧ t.fabric.locked = true) := by
  have hexec : exec (.timeFlit pid i) s = .next (s.heard pid i).retime :=
    (onPort_of_halfNamed hh fun _ k => if k.linked then (s.heard pid i).retime else s).trans (congrArg _ (if_pos hk))
  refine ⟨_, hexec, ?_, (s.heard pid i).retime_fields.2.2, (s.heard pid i).retime_of_frameSync⟩
  rw [(s.heard pid i).retime_tables.2]
  exact SMap.find_put_self ..

end

/-- Settles O32: one lemma for each branch of a flit that is received, for each other row, and for what is read back. -/
theorem fabricLinks : Obligations.FabricLinks := by
  refine ⟨fun s pid h hsz hh => ⟨fun f hk => ⟨fun hmany => flitReceive_many hsz hh hk hmany,
      fun hfew hg => flitReceive_bad hsz hh hk hfew hg, fun hfew hg ht => flitReceive_idle hsz hh hk hfew hg ht,
      fun hfew hg ht => ⟨fun hn => flitReceive_gap hsz hh hk hfew hg ht hn,
        fun hn h3 hbad => flitReceive_control_bad hsz hh hk hfew hg h3 hn hbad,
        fun hn h3 hok => flitReceive_control hsz hh hk hfew hg h3 hn hok,
        fun key hn h1 hkey => ⟨fun hbad => flitReceive_data_bad hsz hh hk hfew hg h1 hn hkey hbad,
          fun hok hnone harr => flitReceive_data_part hsz hh hk hfew hg h1 hn hkey hok hnone harr⟩⟩⟩,
    fun ack hk => replayRequest_answers hsz hh ack hk, fun hk => portRetrain_answers hsz hh hk,
    fun hst => ⟨portRetrainDone_ok hsz hh hst, fun e he => portRetrainDone_fails hsz hh hst he⟩,
    fun e hk hsec hnext hmany => rekey_answers hsz hh e hk hsec hnext hmany,
    fun hin => rekeyOverrun_answers hsz hh hin, fun i hk => timeFlit_answers hh i hk⟩,
    fun hd l hf hvl hstart hcr hcnt _ => flit_readback l hf hvl hstart hcr hcnt,
    fun key p hp => ⟨key.headerClean_seal hp, key.unseal_seal hp⟩⟩

end Sys2Proof.Machine

end

section

/-! PROOFS. The commands of communicators and batches, and the linear check (09_collectives). -/

namespace Sys2Proof.Machine

/-! ## Free handles (R292) -/

section
variable {s : State} {slot : Nat} {t : Taken} {ms : List Member}

/-- The handles that name no communicator. -/
def State.freeHandles (s : State) : List Nat := (List.range 4096).filter fun h => (s.comm h).isNone

theorem State.mem_freeHandles {h : Nat} : h ∈ s.freeHandles ↔ h < 4096 ∧ s.comm h = none := by
  rw [State.freeHandles, List.mem_filter, List.mem_range, Option.isNone_iff_eq_none]

/-- Fewer than 4,096 communicators leave a handle free, for each names one. -/
theorem State.freeHandles_ne_nil (h : s.coll.comms.length < 4096) : s.freeHandles ≠ [] := by
  intro hnil
  have hnamed : List.range 4096 ⊆ s.coll.comms.map Comm.handle := by
    intro n hn
    have hsome : s.comm n ≠ none := fun hnone =>
      List.not_mem_nil (hnil ▸ State.mem_freeHandles.2 ⟨List.mem_range.1 hn, hnone⟩)
    obtain ⟨k, hk⟩ := Option.ne_none_iff_exists'.1 hsome
    exact State.comm_handle hk ▸ List.mem_map_of_mem (List.mem_of_find?_eq_some hk)
  have hle := (List.nodup_range.subperm hnamed).length_le
  rw [List.length_range, List.length_map] at hle
  omega

/-- The handle that a `COMM_CREATE` picks is one of the free ones. -/
theorem State.freeHandle_mem (h : s.coll.comms.length < 4096) : s.freeHandle.1 ∈ s.freeHandles := by
  have hpick (l : List Nat) (i : Nat) (hl : l ≠ []) : l.getD (i % l.length) 0 ∈ l := by
    have hlt := Nat.mod_lt i (List.length_pos_iff.2 hl)
    rw [List.getD_eq_getElem _ _ hlt]
    exact List.getElem_mem hlt
  unfold State.freeHandle
  rw [← State.freeHandles]
  dsimp only
  split
  case isTrue => exact hpick _ _ (State.freeHandles_ne_nil h)
  case isFalse hnew => exact List.mem_of_mem_filter (hpick _ _ hnew)

/-! ## COMM_CREATE (R292 to R294) -/

/-- A `COMM_CREATE` that passes its checks has good fields and finds fewer than 4,096 communicators. -/
theorem State.commCheck_inr (h : s.commCheck t = .inr ms) :
    s.commFieldsOk t = true ∧ s.coll.comms.length < 4096 := by
  unfold State.commCheck at h
  dsimp only at h
  split at h
  case isTrue => cases h
  case isFalse hfields =>
    split at h
    case isTrue => cases h
    case isFalse =>
      split at h
      case isTrue => cases h
      case isFalse hroom => exact ⟨by simpa using hfields, Nat.not_le.1 hroom⟩

theorem State.key_lt_of_commFieldsOk (h : s.commFieldsOk t = true) : s.body t.slot 0x10 4 < 2 ^ 20 := by
  simp only [State.commFieldsOk, Bool.and_eq_true, decide_eq_true_eq] at h
  obtain ⟨⟨⟨⟨-, -, -, -, hkey, -⟩, -⟩, -⟩, -⟩ := h
  exact hkey

/-- The communicator that a `COMM_CREATE` adds. -/
def State.createdComm (s : State) (t : Taken) (ms : List Member) : Comm :=
  s.freeHandle.2.newComm t s.freeHandle.1 ms

/-- The state in which a `COMM_CREATE` completes: the communicator added and its peer area zeroed. -/
def State.joinedBy (s : State) (k : Comm) : State :=
  let s1 := { s.freeHandle.2 with coll := { s.coll with comms := s.coll.comms ++ [k] } }
  (s1.vwrite k.part k.ctx k.peerArea.toNat (List.replicate (32 * k.n) 0)).getD s1

theorem State.joinedBy_coll (s : State) (k : Comm) :
    (s.joinedBy k).coll = { s.coll with comms := s.coll.comms ++ [k] } :=
  (State.touches_vwrite _ _ _ _ _).coll

theorem exec_commCreate (h : s.startable slot opCommCreate = some t)
    (hlive : s.ctxLive t.part.toNat t.ctx.toNat = true) (hc : s.commCheck t = .inr ms) :
    ∃ r, exec (.commCreate slot) s = .next ((s.joinedBy (s.createdComm t ms)).complete t r) :=
  ⟨_, (command_of_startable h _).trans (by rw [hlive, hc]; rfl)⟩

theorem exec_commCreate_refused {r : Report} (h : s.startable slot opCommCreate = some t)
    (hlive : s.ctxLive t.part.toNat t.ctx.toNat = true) (hc : s.commCheck t = .inl r) :
    exec (.commCreate slot) s = .next (s.complete t r) :=
  (command_of_startable h _).trans (by rw [hlive, hc]; rfl)

theorem commCreate_answers (h : s.startable t.slot opCommCreate = some t)
    (hlive : s.ctxLive t.part.toNat t.ctx.toNat = true) (hc : s.commCheck t = .inr ms) :
    let b := s.body t.slot
    Answers (.commCreate t.slot) s fun u => ∃ k : Comm,
      u.coll.comms = s.coll.comms ++ [k] ∧ k.handle < 4096 ∧ s.comm k.handle = none ∧ k.part = t.part.toNat ∧
      k.ctx = t.ctx.toNat ∧ k.key.toNat = b 0x10 4 ∧ k.n = b 8 4 ∧ k.rank = b 0x0C 4 ∧ k.trees = b 0x14 1 ∧
      k.panSlots = (if b 0x15 1 = 0 then 2 else b 0x15 1) ∧
      k.timeoutMs = (if b 0x18 4 = 0 then cfg s.config.active 0x20 4 else b 0x18 4) ∧
      k.broken = false ∧ k.op = none ∧ u.mail.own t.slot = 3 := by
  obtain ⟨hfields, hroom⟩ := State.commCheck_inr hc
  obtain ⟨hhandle, hfree⟩ := State.mem_freeHandles.1 (State.freeHandle_mem hroom)
  obtain ⟨r, hexec⟩ := exec_commCreate h hlive hc
  have hkey : (BitVec.ofNat 20 (s.body t.slot 0x10 4)).toNat = s.body t.slot 0x10 4 :=
    Nat.mod_eq_of_lt (State.key_lt_of_commFieldsOk hfields)
  refine ⟨_, hexec, s.createdComm t ms, congrArg Coll.comms (s.joinedBy_coll _), ?_⟩
  rw [State.createdComm]
  generalize s.freeHandle.1 = n at hhandle hfree
  exact ⟨hhandle, hfree, rfl, rfl, hkey, rfl, rfl, rfl, rfl, rfl, rfl, rfl, State.complete_own ..⟩

end

/-! ## COMM_DESTROY (R296) -/

section
variable {s : State} {slot : Nat} {t : Taken} {k : Comm}

/-- An enabled Beacon channel names the communicator of a handle. -/
def State.beaconEnabled (s : State) (h : Nat) : Bool :=
  (List.range 16).any fun c => s.beaconEntry c / 2 ^ 16 % 2 == 1 && s.beaconEntry c % 4096 == h

theorem exec_commDestroy (h : s.startable slot opCommDestroy = some t)
    (hlive : s.ctxLive t.part.toNat t.ctx.toNat = true) (hk : s.ownComm t (s.body slot 0 2) = some k) :
    exec (.commDestroy slot) s = .next (
      if ((s.batchOf k.handle).isSome || s.beaconEnabled k.handle) = true then s.complete t (.of stBusy)
      else { s with coll := { s.coll with
          comms := s.coll.comms.filter fun x => x.handle != k.handle
          dead := s.coll.dead ++ [k.handle] } }.complete t (.of stDone)) :=
  (command_of_startable h _).trans (by rw [hlive, hk]; rfl)

theorem commDestroy_answers (h : s.startable t.slot opCommDestroy = some t)
    (hlive : s.ctxLive t.part.toNat t.ctx.toNat = true) (hk : s.ownComm t (s.body t.slot 0 2) = some k) :
    (s.batchOf k.handle = none → s.beaconEnabled k.handle = false → Answers (.commDestroy t.slot) s fun u =>
      u.coll.comms = s.coll.comms.filter (fun x => x.handle != k.handle) ∧ u.mail.own t.slot = 3) ∧
    ((s.batchOf k.handle).isSome = true ∨ s.beaconEnabled k.handle = true →
      exec (.commDestroy t.slot) s = .next (s.complete t (.of stBusy))) := by
  have hexec := exec_commDestroy h hlive hk
  refine ⟨fun hbatch hoff => ?_, fun hbusy => ?_⟩
  · exact .of_next hexec (if_neg (by simp [hbatch, hoff])) ⟨rfl, State.complete_own ..⟩
  · exact hexec.trans (congrArg _ (if_pos (Bool.or_eq_true_iff.2 hbusy)))

/-! ## COLL_BATCH (R297) -/

/-- The batch that a `COLL_BATCH` starts. -/
def State.newBatch (s : State) (t : Taken) (h : Nat) : Batch :=
  { slot := t.slot, seq := t.seq, part := t.part.toNat, ctx := t.ctx.toNat, pgen := t.pgen, cgen := t.cgen, handle := h
    desc := BitVec.ofNat 64 (s.body t.slot 0 8), count := s.body t.slot 8 4, idx := 0, ended := 0, fell := 0, ovf := false
    dropped := 0, held := false, stop := none, fixedBroken := false }

/-- The state once a batch has started. -/
def State.withBatch (s : State) (b : Batch) : State :=
  let s1 := s.markStarted b.slot
  { s1 with coll := { s1.coll with batches := s1.coll.batches ++ [b] } }

theorem State.noteWaiting_coll_mem (s : State) (p c : Nat) :
    (s.noteWaiting p c).coll = s.coll ∧ (s.noteWaiting p c).mem = s.mem := by
  unfold State.noteWaiting
  dsimp only
  split <;> exact ⟨rfl, rfl⟩

theorem exec_collBatch (h : s.startable t.slot opCollBatch = some t)
    (hlive : s.ctxLive t.part.toNat t.ctx.toNat = true) (halign : s.body t.slot 0 8 % 64 = 0)
    (hpos : 0 < s.body t.slot 8 4) (hmax : s.body t.slot 8 4 ≤ 65536)
    (hk : s.ownComm t (s.body t.slot 0x0C 2) = some k) (hready : k.broken = false) :
    exec (.collBatch t.slot) s = .next (
      if (s.batchOf k.handle).isSome = true then s.complete t (.of stBusy)
      else (s.withBatch (s.newBatch t k.handle)).noteWaiting t.part.toNat t.ctx.toNat) := by
  have hfields : ¬(s.body t.slot 0 8 % 64 ≠ 0 ∨ s.body t.slot 8 4 = 0 ∨ 65536 < s.body t.slot 8 4) := by omega
  refine (command_of_startable h _).trans ?_
  dsimp only
  rw [hlive, if_neg (by decide), if_neg hfields, hk]
  dsimp only
  rw [hready, if_neg (by decide)]
  rfl

theorem collBatch_answers (h : s.startable t.slot opCollBatch = some t)
    (hlive : s.ctxLive t.part.toNat t.ctx.toNat = true) (halign : s.body t.slot 0 8 % 64 = 0)
    (hpos : 0 < s.body t.slot 8 4) (hmax : s.body t.slot 8 4 ≤ 65536)
    (hk : s.ownComm t (s.body t.slot 0x0C 2) = some k) (hready : k.broken = false) :
    (s.batchOf k.handle = none → Answers (.collBatch t.slot) s fun u => ∃ x : Batch,
      u.coll.batches = s.coll.batches ++ [x] ∧ x.slot = t.slot ∧ x.handle = k.handle ∧
      x.desc = BitVec.ofNat 64 (s.body t.slot 0 8) ∧ x.count = s.body t.slot 8 4 ∧ x.idx = 0 ∧ x.held = false ∧
      x.stop = none ∧ u.coll.comms = s.coll.comms ∧ u.mem = s.mem) ∧
    ((s.batchOf k.handle).isSome = true → exec (.collBatch t.slot) s = .next (s.complete t (.of stBusy))) := by
  have hexec := exec_collBatch h hlive halign hpos hmax hk hready
  refine ⟨fun hnone => ?_, fun hbusy => hexec.trans (congrArg _ (if_pos hbusy))⟩
  obtain ⟨hcoll, hmem⟩ :=
    (s.withBatch (s.newBatch t k.handle)).noteWaiting_coll_mem t.part.toNat t.ctx.toNat
  exact .of_next hexec (if_neg (by simp [hnone])) ⟨s.newBatch t k.handle, congrArg Coll.batches hcoll, rfl, rfl, rfl, rfl,
    rfl, rfl, rfl, (congrArg Coll.comms hcoll :), hmem⟩

end

/-- Settles O34, command by command. -/
theorem communicatorCommands : Obligations.CommunicatorCommands := by
  unfold Obligations.CommunicatorCommands
  rintro s _ t rfl
  intro b p c hlive
  refine ⟨fun h => ⟨fun ms hc => commCreate_answers h hlive hc, fun r hc => exec_commCreate_refused h hlive hc⟩,
    fun h k hk => commDestroy_answers h hlive hk,
    fun h halign hpos hmax k hk hready => collBatch_answers h hlive halign hpos hmax hk hready⟩

/-! ## The linear check (R310) -/

/-- A word modulo `2^61 - 1`. -/
def wordResidue (w : Word) : Nat := (w.toInt % (q61 : Int)).toNat

/-- The weighted sum of R310 before its reduction, by Horner's scheme. -/
def weightedSum : List Word → Nat
  | [] => 0
  | w :: ws => wordResidue w + 3 * weightedSum ws

/-- One word of the check: the sum so far, and the weight of the next word. -/
def checkStep (a : Nat × Nat) (w : Word) : Nat × Nat := ((a.1 + wordResidue w * a.2) % q61, a.2 * 3 % q61)

theorem brineCheck_eq_foldl (ws : List Word) : brineCheck ws = (ws.foldl checkStep (0, 1)).1 := rfl

theorem weightedSum_eq_sum (ws : List Word) :
    weightedSum ws = ((List.range ws.length).map fun i => wordResidue (ws.getD i 0) * 3 ^ i).sum := by
  induction ws with
  | nil => rfl
  | cons w ws ih =>
    rw [weightedSum, ih, List.length_cons, List.range_succ_eq_map, List.map_cons, List.map_map, List.sum_cons,
      ← List.sum_map_mul_left]
    refine congrArg₂ _ (by simp) (congrArg _ (List.map_congr_left fun i _ => ?_))
    simp only [Function.comp_apply, List.getD_cons_succ, Nat.pow_succ]
    ring

theorem foldl_checkStep_modEq (ws : List Word) (sum weight : Nat) :
    (ws.foldl checkStep (sum, weight)).1 ≡ sum + weight * weightedSum ws [MOD q61] := by
  induction ws generalizing sum weight with
  | nil => exact Nat.ModEq.refl _
  | cons w ws ih =>
    calc ((w :: ws).foldl checkStep (sum, weight)).1
      _ ≡ (sum + wordResidue w * weight) % q61 + weight * 3 % q61 * weightedSum ws [MOD q61] := ih _ _
      _ ≡ sum + wordResidue w * weight + weight * 3 * weightedSum ws [MOD q61] :=
        (Nat.mod_modEq _ _).add ((Nat.mod_modEq _ _).mul_right _)
      _ = sum + weight * weightedSum (w :: ws) := by rw [weightedSum]; ring

theorem foldl_checkStep_lt (ws : List Word) {a : Nat × Nat} (h : a.1 < q61) : (ws.foldl checkStep a).1 < q61 := by
  induction ws generalizing a with
  | nil => exact h
  | cons w ws ih => exact ih (Nat.mod_lt _ (by decide))

/-- The check is the weighted sum modulo `2^61 - 1`. -/
theorem brineCheck_eq_weightedSum_mod (ws : List Word) : brineCheck ws = weightedSum ws % q61 := by
  have hmod := foldl_checkStep_modEq ws 0 1
  rw [zero_add, one_mul] at hmod
  rw [brineCheck_eq_foldl, ← Nat.mod_eq_of_lt (foldl_checkStep_lt ws (a := (0, 1)) (by decide)), hmod]

theorem intCast_wordResidue_modEq (w : Word) : (wordResidue w : Int) ≡ w.toInt [ZMOD q61] := by
  rw [wordResidue, Int.toNat_of_nonneg (Int.emod_nonneg _ (by decide))]
  exact Int.mod_modEq _ _

/-- An addition that does not saturate is exact, so residues add up. -/
theorem wordResidue_brineAdd_modEq {x y : Word} (h : (brineAdd x y).2 = false) :
    wordResidue (brineAdd x y).1 ≡ wordResidue x + wordResidue y [MOD q61] := by
  rw [← Int.natCast_modEq_iff, Nat.cast_add]
  have hsum := intCast_wordResidue_modEq (brineAdd x y).1
  rw [toInt_brineAdd_of_exact h] at hsum
  exact hsum.trans ((intCast_wordResidue_modEq x).add (intCast_wordResidue_modEq y)).symm

theorem weightedSum_zipWith_modEq (a b : List Word) (hlen : a.length = b.length)
    (h : ∀ x ∈ a.zip b, (brineAdd x.1 x.2).2 = false) :
    weightedSum (List.zipWith (fun x y => (brineAdd x y).1) a b) ≡ weightedSum a + weightedSum b [MOD q61] := by
  induction a generalizing b with
  | nil =>
    obtain rfl := List.length_eq_zero_iff.1 hlen.symm
    rfl
  | cons x a ih =>
    cases b with
    | nil => cases hlen
    | cons y b =>
      rw [List.zip_cons_cons, List.forall_mem_cons] at h
      have hrest := ih b (Nat.succ.inj hlen) h.2
      calc weightedSum (List.zipWith (fun x y => (brineAdd x y).1) (x :: a) (y :: b))
        _ ≡ wordResidue x + wordResidue y + 3 * (weightedSum a + weightedSum b) [MOD q61] :=
          (wordResidue_brineAdd_modEq h.1).add (hrest.mul_left 3)
        _ = weightedSum (x :: a) + weightedSum (y :: b) := by rw [weightedSum, weightedSum]; ring

/-- Settles O37: the fold is a weighted sum modulo `2^61 - 1`, and exact additions add up residue by residue. -/
theorem checkLinear : Obligations.CheckLinear := by
  unfold Obligations.CheckLinear
  refine ⟨fun ws => ?_, fun a b hlen h => ?_⟩
  · rw [brineCheck_eq_weightedSum_mod, weightedSum_eq_sum]
    rfl
  · simp only [brineCheck_eq_weightedSum_mod]
    exact (weightedSum_zipWith_modEq a b hlen h).trans ((Nat.mod_modEq _ _).add (Nat.mod_modEq _ _)).symm

end Sys2Proof.Machine

end

section

/-! PROOFS. Counter registers by the mode of their block (10_counters). -/

namespace Sys2Proof.Machine

/-! ## Registers of the mode that a block does not run (R337, R341) -/

/-- `CYCLE`, `PMC0` to `PMC7` and `PMOVF`, which count in select mode. -/
abbrev IsSelectCsr (n : Nat) : Prop := n = 0x100 ∨ 0x108 ≤ n ∧ n ≤ 0x10F ∨ n = 0x118

section
variable {s : State} {c n : Nat} {u : Upset} {o : CsrOp} {k : Cell}

theorem State.Alike.census {t : State} (h : t.Alike s) (b : Nat) : t.census b = s.census b :=
  show t.rest.census b = s.rest.census b from congrArg (fun a : State => a.census b) h.2

theorem State.csrGet_censusCounter (hmode : s.census (c / 16) = false) (h1 : 0x180 ≤ n) (h2 : n ≤ 0x1DF) :
    s.csrGet c k n = 0 := by
  simp (disch := omega) only [State.csrGet, hmode, if_neg, if_pos, if_true, Bool.not_false]

theorem State.csrGet_selectCsr (hmode : s.census (c / 16) = true) (hn : IsSelectCsr n) : s.csrGet c k n = 0 := by
  rcases hn with h | h | h <;> simp (disch := omega) only [State.csrGet, hmode, if_neg, if_pos, if_true]

theorem State.csrPut_selectCsr (hmode : s.census (c / 16) = true) (hn : IsSelectCsr n) (v clear : Word) :
    s.csrPut c k n v clear = s.setCell c k := by
  rcases hn with h | h | h <;> simp (disch := omega) only [State.csrPut, hmode, if_neg, if_pos, if_true]

theorem csrRights_censusCounter (h1 : 0x180 ≤ n) (h2 : n ≤ 0x1DF) : csrRights n = some (.none_, .readOnly) := by
  simp (disch := omega) only [csrRights, if_neg, if_pos]

theorem csrRights_selectCsr (hn : IsSelectCsr n) : csrRights n = some (.readOnly, .readWrite) := by
  simp (disch := omega) only [csrRights, if_neg, if_pos]

theorem csrReadFault_selectCsr (hn : IsSelectCsr n) (h : k.sup = true ∨ k.userReads c n = true) :
    k.csrReadFault c n = none := by
  rcases h with h | h <;> simp [Cell.csrReadFault, csrRights_selectCsr hn, h]

theorem csrWriteFault_selectCsr (hn : IsSelectCsr n) (hsup : k.sup = true) : k.csrWriteFault n = none := by
  simp [Cell.csrWriteFault, csrRights_selectCsr hn, hsup]

/-- A read of a control register that gives `v` once its counter has gone on with the clock. -/
theorem runs_csrr_value {v : Word} (h : s.Ready c) (hu : Unhurt u) (hf : (s.cell c).csrReadFault c o.csr.toNat = none)
    (hv : ∀ (t : State) (k : Cell), t.Alike s → t.csrGet c k o.csr.toNat = v) :
    Runs (.csrr c o u) s c ((s.cell c).ws o.r v).adv := by
  have hr := runs_csrr h hu hf
  rwa [hv _ _ (s.elapse_alike ..)] at hr

/-- A write of a select-mode register in census mode only advances the cell. -/
theorem runs_csrWrite_selectCsr {i : Instr} {f : Word → Word → Word} {clears : Bool}
    (hi : exec i s = csrWrite f clears c o u s) (h : s.Ready c) (hu : Unhurt u) (hmode : s.census (c / 16) = true)
    (hn : IsSelectCsr o.csr.toNat) (hsup : (s.cell c).sup = true) : Runs i s c (s.cell c).adv := by
  have ha := s.elapse_alike c o.csr.toNat
  have hissue := Issues.of_issue hi (κ := kControl) rfl
  have hlegal (v : Word) : csrIllegal o.csr.toNat v = false := by
    have hsel : ¬ (0x110 ≤ o.csr.toNat ∧ o.csr.toNat ≤ 0x117) := by omega
    simp [csrIllegal, hsel]
  simp only [hlegal, csrWriteFault_selectCsr hn hsup, Bool.false_eq_true, if_false,
    State.csrPut_selectCsr ((ha.census _).trans hmode) hn] at hissue
  exact Answers.of_next_effect hissue h hu rfl fun t' ht =>
    (((CellOnly.setCell _ c _).after_alike ha).congr (Cell.adv_arch (ha.1 c))).alike ht

end

/-- Settles O38: the state that a counter register is read from runs the same mode. -/
theorem counterModes : Obligations.CounterModes := by
  unfold Obligations.CounterModes
  refine fun s c u o h hu => ⟨fun hsup hmode h1 h2 => ?select, fun hmode hn => ⟨fun hr => ?read, fun hsup => ?write⟩⟩
  case select =>
    refine runs_csrr_value h hu ?_ fun t k ha => State.csrGet_censusCounter ((ha.census _).trans hmode) h1 h2
    simp [Cell.csrReadFault, csrRights_censusCounter h1 h2, hsup]
  case read =>
    exact runs_csrr_value h hu (csrReadFault_selectCsr hn hr) fun t k ha =>
      State.csrGet_selectCsr ((ha.census _).trans hmode) hn
  case write =>
    exact ⟨runs_csrWrite_selectCsr (f := fun _ b => b) (clears := true) rfl h hu hmode hn hsup,
      runs_csrWrite_selectCsr (f := fun a b => a ||| b) (clears := false) rfl h hu hmode hn hsup,
      runs_csrWrite_selectCsr (f := fun a b => a &&& ~~~b) (clears := true) rfl h hu hmode hn hsup⟩

end Sys2Proof.Machine

end

section

/-! PROOFS. `CNT_CONFIG`, `SAMPLE_CONFIG` and the sampling of instructions (10_counters). -/

namespace Sys2Proof.Machine

/-! ## CNT_CONFIG (R344, R345, R347) -/

/-- The rows of `CNT_CONFIG` by `OP`. -/
abbrev IsCntConfig (slot op : Nat) (i : Instr) : Prop :=
  op = 0 ∧ i = .cntConfigConfigure slot ∨ op = 1 ∧ i = .cntConfigRead slot ∨ op = 2 ∧ i = .cntConfigClear slot

section
variable {s : State} {slot op : Nat} {t : Taken} {i : Instr}

theorem exec_cntConfig (h : s.startable slot opCntConfig = some t) (hop : s.body slot 0 1 = op)
    (hi : IsCntConfig slot op i) : exec i s = .next (s.startCnt t op) := by
  subst hop
  rcases hi with ⟨hop, rfl⟩ | ⟨hop, rfl⟩ | ⟨hop, rfl⟩
  · exact (if_neg (by omega)).trans (command_of_startable h _)
  · exact (if_neg (not_not.2 hop)).trans ((command_of_startable h _).trans (by rw [hop]))
  · exact (if_neg (not_not.2 hop)).trans ((command_of_startable h _).trans (by rw [hop]))

theorem State.startCnt_badField (hf : s.cntFieldsOk t op = false) : s.startCnt t op = s.complete t (.of stBadField) :=
  if_pos (by simp [hf])

theorem State.startCnt_confidential (hf : s.cntFieldsOk t op = true) (hop : op ≠ 1) (hp : t.part.toNat ≠ 0xFF)
    (hconf : s.confidential t.part.toNat = true) : s.startCnt t op = s.complete t (.of stWrongState) :=
  (if_neg (by simp [hf])).trans (if_pos ⟨hop, hp, hconf⟩)

/-- A `CNT_CONFIG` that may start changes no counter: it joins those that wait. -/
theorem State.startCnt_waits (hf : s.cntFieldsOk t op = true)
    (hopen : op = 1 ∨ t.part.toNat = 0xFF ∨ s.confidential t.part.toNat = false) :
    (s.startCnt t op).cells = s.cells ∧ (s.startCnt t op).banks = s.banks ∧
      ∃ q : CntPending, (s.startCnt t op).config.counters = s.config.counters ++ [q] ∧ q.slot = t.slot ∧ q.op = op ∧
        q.first = s.body t.slot 1 1 ∧ q.n = s.body t.slot 2 1 := by
  have hnot : ¬ (op ≠ 1 ∧ t.part.toNat ≠ 0xFF ∧ s.confidential t.part.toNat = true) := by
    rintro ⟨h1, hff, hconf⟩
    rcases hopen with h | h | h
    · exact h1 h
    · exact hff h
    · simp [h] at hconf
  rw [State.startCnt, if_neg (by simp [hf]), if_neg hnot]
  exact ⟨rfl, rfl, _, rfl, rfl, rfl, rfl, rfl⟩

end

/-! ## SAMPLE_CONFIG (R349) -/

section
variable {s : State} {slot : Nat} {t : Taken}

theorem exec_sampleConfig_confidential (h : s.startable slot opSampleConfig = some t)
    (hlive : s.ctxLive t.part.toNat t.ctx.toNat = true) (hconf : s.confidential t.part.toNat = true) :
    exec (.sampleConfig slot) s = .next (s.complete t (.of stWrongState)) :=
  (command_of_startable h _).trans (congrArg _ ((if_neg (by simp [hlive])).trans (if_pos hconf)))

/-- A context as `SAMPLE_CONFIG` sets it: its setting, the countdowns that run, and the status in its control block. -/
def State.setSampling (s : State) (p c mode n cb : Nat) : State :=
  let s1 := s.setCtx p c { s.ctx p c with
    sampling := { mode := BitVec.ofNat 8 mode, interval := n, cb := BitVec.ofNat 64 cb, stopped := false } }
  let s2 := s1.mapCells fun _ k => k.recount (16 * p + c) mode n
  (s2.vwrite p c (cb + 0x18) (leBytes 4 0)).getD s2

/-- The store to the control block and the completion leave the setting of a context as it was made. -/
theorem State.complete_setSampling_sampling {p c : Nat} (hp : p < s.parts.length) (hc : c < (s.part p).ctxs.length)
    (mode n cb : Nat) (t : Taken) (r : Report) : (((s.setSampling p c mode n cb).complete t r).ctx p c).sampling =
      { mode := BitVec.ofNat 8 mode, interval := n, cb := BitVec.ofNat 64 cb, stopped := false } := by
  have hparts (a : State) : (a.complete t r).parts = a.parts := rfl
  refine (congrArg Ctx.sampling (State.ctx_of_parts ((hparts _).trans ((State.touches_vwrite ..).parts.trans
    (State.touches_mapCells _ _).parts)) p c)).trans ?_
  rw [State.ctx_setCtx s _ hp hc]

theorem sampleConfig_answers (h : s.startable slot opSampleConfig = some t)
    (hlive : s.ctxLive t.part.toNat t.ctx.toNat = true) (hp : t.part.toNat < 8) (hc : t.ctx.toNat < 16) (hsz : s.sized)
    (hconf : s.confidential t.part.toNat = false) (hmode : s.body slot 0 1 ≤ 2)
    (hn : s.body slot 0 1 = 0 ∨ 1024 ≤ s.body slot 4 4) (halign : s.body slot 8 8 % 64 = 0)
    (hcb : s.sampleCbOk t.part.toNat t.ctx.toNat (s.body slot 8 8) = true) :
    Answers (.sampleConfig slot) s fun u => u.mail.own t.slot = 3 ∧
      (u.ctx t.part.toNat t.ctx.toNat).sampling = { mode := BitVec.ofNat 8 (s.body slot 0 1), interval := s.body slot 4 4
                                                    cb := BitVec.ofNat 64 (s.body slot 8 8), stopped := false } := by
  have hok : ¬ (2 < s.body slot 0 1 ∨ (s.body slot 0 1 ≠ 0 ∧ s.body slot 4 4 < 1024) ∨ s.body slot 8 8 % 64 ≠ 0 ∨
      (!s.sampleCbOk t.part.toNat t.ctx.toNat (s.body slot 8 8)) = true) := by
    rintro (hover | ⟨hon, hshort⟩ | hoff | hbad)
    · omega
    · omega
    · exact hoff halign
    · simp [hcb] at hbad
  have hexec : exec (.sampleConfig slot) s = .next
      ((s.setSampling t.part.toNat t.ctx.toNat (s.body slot 0 1) (s.body slot 4 4) (s.body slot 8 8)).complete t
        (.of stDone)) :=
    (command_of_startable h _).trans (congrArg _
      ((if_neg (by simp [hlive])).trans ((if_neg (by simp [hconf])).trans (if_neg hok))))
  exact ⟨_, hexec, State.complete_own _ t _,
    State.complete_setSampling_sampling (State.lt_parts hsz hp) (State.lt_ctxs hsz hp hc) ..⟩

end

/-! ## The sampling countdown (R349 to R351) -/

section
variable {s : State} {c n : Nat} {k : Cell} {r : Run} {w : BitVec 64} {ps : List Piece} {again : Bool}

theorem sampleDue_retired (hmode : k.sampMode = 1) (n f : Nat) :
    sampleDue k n f true = (decide (n ≤ 1), if n ≤ 1 then k.sampN else n - 1) :=
  if_pos ⟨hmode, rfl⟩

/-- What the retirement of an instruction does to the samples of its cell in mode 1. -/
theorem State.sample_retired (hrun : k.run = some r) (hfind : k.countdown.find (16 * r.part + r.ctx) = some n)
    (hmode : k.sampMode = 1) (hgo : (s.ctx r.part r.ctx).sampling.stopped = false) :
    let t := s.sample c k w ps true again
    (t.cell c).countdown.find (16 * r.part + r.ctx) = some (if n ≤ 1 then k.sampN else n - 1) ∧
    (1 < n → (t.cell c).latches = (s.cell c).latches) ∧
    (n ≤ 1 → ∃ (x : Sample) (a : Option Nat), (t.cell c).latches = (s.cell c).latches ++ [(x, a)] ∧ x.pc = k.pc ∧
      x.insn = w ∧ x.sup = k.sup ∧ x.item = r.item ∧ x.frame = s.power.frame ∧ x.discarded = false) := by
  unfold State.sample
  simp only [hrun, hfind, sampleDue_retired hmode, hgo, State.cell_setCell, Bool.not_false, Bool.and_true, decide_eq_true_eq]
  by_cases hdue : n ≤ 1
  · simp only [if_pos hdue, SMap.find_put_self]
    exact ⟨trivial, fun h => absurd h (Nat.not_lt.2 hdue), fun _ => ⟨_, _, rfl, rfl, rfl, rfl, rfl, rfl, rfl⟩⟩
  · simp only [if_neg hdue, SMap.find_put_self]
    exact ⟨trivial, fun _ => trivial, fun h => absurd h hdue⟩

end

/-! ## Records that enter the buffer of their cell (R351, R353) -/

section
variable {s : State} {c : Nat} {i : SampleInfo} {x : Sample} {l : List (Sample × Option Nat)}

/-- A sampled instruction without asynchronous work is over. -/
theorem exec_sampleTaken_first (hrun : s.clocksRun = true) (hl : (s.cell c).latches = (x, none) :: l) :
    exec (.sampleTaken c i) s = .next (
      if 256 ≤ (s.cell c).samples.length then (s.setCell c { s.cell c with latches := l }).dropSample x.part x.ctx
      else s.setCell c { s.cell c with latches := l, samples := (s.cell c).samples ++ [{ x with time := i }] }) := by
  show execSampleTaken c i s = _
  simp [execSampleTaken, hl, hrun, takeReady]

/-- The sample of a copy or a gather waits until the operation is over. -/
theorem exec_sampleTaken_outstanding {id : Nat} (hl : (s.cell c).latches = [(x, some id)])
    (ha : (s.cell c).async.any (·.id == id) = true) : exec (.sampleTaken c i) s = .next s := by
  show execSampleTaken c i s = _
  simp only [execSampleTaken, hl, takeReady, Option.map_some, Option.getD_some, ha, Bool.not_true, Bool.false_eq_true,
    if_false]

end

/-! ## Stores where only counters differ -/

/-- A state with other cells and counter banks. -/
def State.withCounters (s : State) (cs : SMap Cell) (bs : SMap CounterBank) : State := { s with cells := cs, banks := bs }

section
variable (s : State) (cs : SMap Cell) (bs : SMap CounterBank)

theorem State.cell_withCounters (t : State) (d : Nat) : (s.withCounters t.cells bs).cell d = t.cell d := rfl

theorem State.rest_withCounters : (s.withCounters cs bs).rest = s.rest := rfl

theorem State.recall_withCounters (pa n : Nat) :
    (s.withCounters cs bs).recall pa n = (s.recall pa n).withCounters cs bs := by
  unfold State.recall State.withCounters
  dsimp only
  split <;> rfl

theorem State.foldl_withCounters {α : Type} (f : State → α → State)
    (hf : ∀ (a : State) x, f (a.withCounters cs bs) x = (f a x).withCounters cs bs) (l : List α) :
    l.foldl f (s.withCounters cs bs) = (l.foldl f s).withCounters cs bs := by
  induction l generalizing s with
  | nil => rfl
  | cons x l ih => rw [List.foldl_cons, hf, ih, List.foldl_cons]

theorem State.writeByte_withCounters (t : Tag) (pa : Nat) (b : Byte) :
    (s.withCounters cs bs).writeByte t pa b = (s.writeByte t pa b).withCounters cs bs := by
  have hfirst (g : Nat) : (s.withCounters cs bs).firstWrite g = (s.firstWrite g).withCounters cs bs := by
    rw [State.firstWrite, State.firstWrite, apply_ite (fun a : State => a.withCounters cs bs)]
    rfl
  unfold State.writeByte
  cases place pa with
  | hbm | ddr =>
    dsimp only
    rw [hfirst]
    rfl
  | shared | local_ | host | control | package | hole => rfl

theorem State.writeBytes_withCounters (t : Tag) (pa : Nat) (l : List Byte) :
    (s.withCounters cs bs).writeBytes t pa l = (s.writeBytes t pa l).withCounters cs bs := by
  induction l generalizing s pa with
  | nil => rfl
  | cons b l ih => rw [State.writeBytes, State.writeByte_withCounters, ih, State.writeBytes]

theorem State.writePieces_withCounters (t : Tag) (ps : List Piece) (l : List Byte) :
    (s.withCounters cs bs).writePieces t ps l = (s.writePieces t ps l).withCounters cs bs := by
  induction ps generalizing s l with
  | nil => rfl
  | cons p ps ih =>
    rw [State.writePieces, State.recall_withCounters, State.writeBytes_withCounters, ih, State.writePieces]

end

section
variable {s t u : State} {p c va n : Nat} {l : List Byte}

/-- Translation does not depend on counters. -/
theorem State.Counts.vpieces (h : s.Counts t) (p c : Nat) (acc : Acc) (va n : Nat) :
    t.vpieces p c acc va n = s.vpieces p c acc va n := by
  obtain ⟨cs, b, rfl, hc⟩ := h
  have hs : ({ s with cells := cs, banks := b } : State).space p c = s.space p c :=
    congrArg (fun l => ({ root := (s.ctx p c).ptroot, cached := l } : Space)) hc
  have htr (a : Nat) : ({ s with cells := cs, banks := b } : State).translate (s.tagOf p c) (s.space p c) acc false a =
      s.translate (s.tagOf p c) (s.space p c) acc false a := rfl
  rw [State.vpieces, hs]
  exact State.translateParts_congr htr (pageParts va n)

theorem State.vsnoop_withCounters {cs : SMap Cell} {bs : SMap CounterBank} (h : s.Counts (s.withCounters cs bs)) :
    (s.withCounters cs bs).vsnoop p c va n = (s.vsnoop p c va n).withCounters cs bs := by
  rw [State.vsnoop, h.vpieces, State.vsnoop, State.recallPieces, State.recallPieces, State.recallEntries,
    State.recallEntries]
  rw [← State.foldl_withCounters _ _ _ _ fun a x => a.recall_withCounters ..,
    ← State.foldl_withCounters _ _ _ _ fun a x => a.recall_withCounters ..]
  rfl

/-- A store leaves the same memory whatever counters stand, and leaves the counters. -/
theorem State.Counts.vwrite (h : s.Counts t) (hw : s.vwrite p c va l = some u) :
    t.vwrite p c va l = some (u.withCounters t.cells t.banks) := by
  have ht : t = s.withCounters t.cells t.banks := by
    obtain ⟨cs, bs, rfl, -⟩ := h
    rfl
  unfold State.vwrite at hw ⊢
  rw [h.vpieces]
  split at hw
  case h_1 ps hps =>
    cases hw
    generalize t.cells = cs at ht ⊢
    generalize t.banks = bs at ht ⊢
    subst ht
    rw [State.vsnoop_withCounters h]
    exact congrArg some (State.writePieces_withCounters ..)
  case h_2 => cases hw

end

/-- A store on top of counted events leaves what the store alone leaves. -/
theorem State.withCounters_alike {p c va : Nat} {l : List Byte} {s t u : State} (h : t.Alike s)
    (hw : s.vwrite p c va l = some u) : (u.withCounters t.cells t.banks).Alike u := by
  refine ⟨fun d => ?_, u.rest_withCounters _ _⟩
  rw [State.cell_congr (State.vwrite_cells hw), State.cell_withCounters]
  exact h.1 d

/-! ## Spilling a record to its ring (R351, R352) -/

section
variable {s : State} {c : Nat} {x : Sample} {l : List Byte}

theorem State.spill_full (hgo : (s.ctx x.part x.ctx).sampling.stopped = false)
    (hl : s.vread x.part x.ctx (s.ctx x.part x.ctx).sampling.cb.toNat 64 = some l)
    (hfull : ((ringOf l).2.2.2 + 2 ^ 32 - (ringOf l).2.2.1) % 2 ^ 32 = (ringOf l).2.1) :
    s.spill c x = s.dropSample x.part x.ctx := by
  rw [State.spill, if_neg (by simp [hgo]), hl]
  exact if_pos hfull

theorem State.alike_match {o : Option State} {d t u : State} {f : State → State} (ho : o = some t)
    (h : (f t).Alike u) : State.Alike (match (generalizing := false) o with
      | none => d
      | some t => f t) u := by
  subst ho
  exact h

/-- A record that reaches the ring: what is left is what the stores of record and tail leave, and counted events. The
results of the stores stay opaque (`∃ r, … = r`), so that none of them is evaluated. -/
theorem State.spill_stored {s1 s2 : State} (hgo : (s.ctx x.part x.ctx).sampling.stopped = false)
    (hl : s.vread x.part x.ctx (s.ctx x.part x.ctx).sampling.cb.toNat 64 = some l)
    (hroom : ((ringOf l).2.2.2 + 2 ^ 32 - (ringOf l).2.2.1) % 2 ^ 32 ≠ (ringOf l).2.1)
    (h1 : s.vwrite x.part x.ctx ((ringOf l).1 + 64 * ((ringOf l).2.2.2 % (ringOf l).2.1)) (x.bytes c) = some s1)
    (h2 : s1.vwrite x.part x.ctx ((s.ctx x.part x.ctx).sampling.cb.toNat + 0x10) (leBytes 4 ((ringOf l).2.2.2 + 1)) =
      some s2) : (s.spill c x).Alike s2 := by
  rw [State.spill, if_neg (by simp [hgo])]
  split
  case h_1 hnone => cases hl.symm.trans hnone
  case h_2 l' hl' =>
    obtain rfl : l = l' := Option.some.inj (hl.symm.trans hl')
    extract_lets r va
    split
    case isTrue hfull => exact absurd hfull hroom
    case isFalse =>
      obtain ⟨r1, hr1⟩ : ∃ r1, s.vwrite x.part x.ctx va (x.bytes c) = r1 := ⟨_, rfl⟩
      rw [hr1]
      refine State.alike_match (hr1.symm.trans h1) ?_
      extract_lets s0
      have hcount : s1.Counts s0 := s1.counts_count ..
      have halike : s0.Alike s1 := s1.count_alike ..
      clear_value s0
      obtain ⟨r2, hr2⟩ : ∃ r2, s0.vwrite x.part x.ctx ((s.ctx x.part x.ctx).sampling.cb.toNat + 0x10)
          (leBytes 4 (r.2.2.2 + 1)) = r2 := ⟨_, rfl⟩
      rw [hr2]
      obtain rfl : r2 = some (s2.withCounters s0.cells s0.banks) := hr2.symm.trans (hcount.vwrite h2)
      exact State.withCounters_alike halike h2

end

/-- Settles O39, command by command and step by step. -/
theorem countersAndSampling : Obligations.CountersAndSampling := by
  unfold Obligations.CountersAndSampling
  refine ⟨fun s slot op t i h hslot hop hi => ⟨fun hf => ?badField, fun hf => ⟨fun h1 hff hconf => ?confidential,
      fun hopen => ?waits⟩⟩, fun s slot t h hslot => ?sampleConfig, fun s c k w ps again r n => State.sample_retired,
    fun s c i x l hrun => ⟨fun hl hroom => ?taken, fun hl hfull => ?lost, fun id => exec_sampleTaken_outstanding⟩,
    fun s c => rfl, fun s c x hgo => ?spill⟩
  case badField => rw [exec_cntConfig h hop hi, State.startCnt_badField hf]
  case confidential => rw [exec_cntConfig h hop hi, State.startCnt_confidential hf h1 hff hconf]
  case waits =>
    subst hslot
    exact ⟨_, exec_cntConfig h hop hi, State.startCnt_waits hf hopen⟩
  case sampleConfig =>
    subst hslot
    intro p c mode n cb hlive hp hc hsz
    refine ⟨exec_sampleConfig_confidential h hlive, fun hconf hmode hn halign hcb => ?_⟩
    obtain ⟨u, hu, hown, hset⟩ := sampleConfig_answers h hlive hp hc hsz hconf hmode hn halign hcb
    refine ⟨u, hu, hown, ?_⟩
    rw [hset]
    exact ⟨rfl, rfl, rfl, rfl⟩
  case taken =>
    exact .of_next (exec_sampleTaken_first hrun hl) (if_neg (Nat.not_le.2 hroom))
      (by simp only [State.cell_setCell]; exact ⟨trivial, trivial, rfl⟩)
  case lost => rw [exec_sampleTaken_first hrun hl, if_pos hfull]
  case spill =>
    intro cb l hl r
    refine ⟨State.spill_full hgo hl, fun s1 s2 hroom h1 h2 => ?_⟩
    obtain ⟨hcells, hrest⟩ := State.spill_stored hgo hl hroom h1 h2
    exact ⟨hrest, hcells⟩

end Sys2Proof.Machine

end

section

/-! PROOFS. The decide step of the active control processor (11_power). -/

namespace Sys2Proof.Machine

/-! ## What a decide step is judged by -/

/-- The sources of the effective cap, the outputs in force and those written, and the grants in force. -/
structure ControlView where
  rack : Nat
  active : ConfigSet
  thermalW : Nat
  coolantW : Nat
  effCap : Nat
  act : Outputs
  points : List Nat
  grant : Nat → Nat

def State.controlView (s : State) : ControlView where
  rack := s.power.rack
  active := s.config.active
  thermalW := s.power.thermalW
  coolantW := s.power.coolantW
  effCap := s.power.effCap
  act := s.power.act
  points := s.power.points
  grant p := (s.part p).grant

/-! ## Parts of the decide step that leave it -/

section
variable {s t : State}

theorem State.controlView_of_framed (h : t.framed = s.framed) : t.controlView = s.controlView := by
  have hact : t.config.active = s.config.active := congrArg (fun x => x.2.active) h
  have hpower : t.power = s.power := congrArg (fun x => x.1.power) h
  have hgrant (p : Nat) : (t.part p).grant = (s.part p).grant := congrArg (fun x => (x.1.part p).2.1) h
  simp only [State.controlView, hact, hpower, hgrant]

end

section
variable (s : State)

@[simp] theorem State.controlView_log (e : BitVec 16) (src : BitVec 8) (o a : BitVec 32) :
    (s.log e src o a).controlView = s.controlView := State.controlView_of_framed (s.framed_log ..)

/-! ### Reports, sensors and the thermal model (R389 to R396) -/

@[simp] theorem State.controlView_useReports : s.useReports.controlView = s.controlView := by
  refine foldl_keeps State.controlView _ (fun a x => ?_) _ _
  unfold State.useReport
  dsimp only
  split
  · exact State.controlView_log ..
  · rfl

@[simp] theorem State.controlView_judgeSensors : s.judgeSensors.controlView = s.controlView := by
  have hone (a : State) (n : Nat) : (a.judgeSensor n).controlView = a.controlView := by
    unfold State.judgeSensor
    split
    · rfl
    · exact State.controlView_log ..
  have hpair (a : State) (g : Nat) : (a.judgePair g).controlView = a.controlView := by
    unfold State.judgePair
    dsimp only
    split
    · split
      · split
        · exact State.controlView_log ..
        · rfl
      · rfl
    · rfl
  exact (foldl_keeps State.controlView _ hpair _ _).trans (foldl_keeps State.controlView _ hone _ s.keepHistory)

@[simp] theorem State.controlView_settleHold : s.settleHold.controlView = s.controlView := rfl

@[simp] theorem State.controlView_modelStep : s.modelStep.controlView = s.controlView := by
  refine foldl_keeps State.controlView _ (fun a g => ?_) _ _
  unfold State.limitRegion
  dsimp only
  split
  · rfl
  · split
    · rfl
    · split <;> rfl

/-! ### The estimator (R362 to R366) -/

@[simp] theorem State.controlView_estimate : s.estimate.controlView = s.controlView := by
  have hjudge (a : State) (r : Nat) : (a.judgeRail r).controlView = a.controlView := by
    unfold State.judgeRail
    dsimp only
    split
    · split
      · rfl
      · exact State.controlView_log ..
    · split <;> rfl
  have hcollect (a : State) : a.collect.controlView = a.controlView := by
    unfold State.collect
    dsimp only
    split <;> rfl
  have hmismatch (a : State) : a.mismatchStep.controlView = a.controlView := by
    unfold State.mismatchStep
    dsimp only
    split
    · split
      · split
        · exact State.controlView_log ..
        · rfl
      · rfl
    · split
      · rfl
      · split <;> rfl
  exact (hmismatch _).trans ((hcollect _).trans (foldl_keeps State.controlView _ hjudge _ s))

/-! ### The halt path (R397) -/

@[simp] theorem State.controlView_closeGate (halt : Bool) : (s.closeGate halt).controlView = s.controlView := by
  unfold State.closeGate
  dsimp only
  split <;> rfl

@[simp] theorem State.controlView_openGate : s.openGate.controlView = s.controlView := by
  have hresets (a : State) : a.waitingResets.controlView = a.controlView :=
    foldl_keeps State.controlView State.resetRegion (fun _ _ => rfl) _ a
  have hresume (a : State) : a.resumePorts.controlView = a.controlView := by
    refine foldl_keeps State.controlView _ (fun b h => ?_) _ a
    dsimp only
    split <;> rfl
  exact (hresume _).trans (hresets _)

@[simp] theorem State.controlView_haltStep : s.haltStep.controlView = s.controlView := by
  unfold State.haltStep
  dsimp only
  split
  · split
    · exact (State.controlView_closeGate ..).trans (State.controlView_log ..)
    · rfl
  · split
    · exact s.controlView_openGate
    · rfl

/-! ### Energies that enter the accounts (R379 to R381) -/

theorem State.controlView_credit (p : Nat) (x io loss : Rat) :
    (s.setPart p ((s.part p).credit x io loss)).controlView = s.controlView :=
  State.controlView_of_framed (s.framed_setPart rfl)

theorem State.controlView_setCtx (p c : Nat) (v : Ctx) : (s.setCtx p c v).controlView = s.controlView :=
  State.controlView_of_framed (s.framed_setPart rfl)

@[simp] theorem State.controlView_finishSubmits (f : Submit → Bool) : (s.finishSubmits f).controlView = s.controlView :=
  State.controlView_of_framed (s.framed_finishSubmits f)

/-! ### Suspension of fixed mode (R377) -/

@[simp] theorem State.controlView_markBroken : s.markBroken.controlView = s.controlView := rfl

@[simp] theorem State.controlView_logBroken (o : Nat) : (s.logBroken o).controlView = s.controlView := State.controlView_log ..

@[simp] theorem State.controlView_suspendRegion (g : Nat) : (s.suspendRegion g).controlView = s.controlView := by
  unfold State.suspendRegion
  dsimp only
  split
  · exact (State.controlView_markBroken _).trans (State.controlView_logBroken ..)
  · rfl

@[simp] theorem State.controlView_resumeRegion (g : Nat) : (s.resumeRegion g).controlView = s.controlView := by
  unfold State.resumeRegion
  dsimp only
  split <;> rfl

@[simp] theorem State.controlView_suspendStep : s.suspendStep.controlView = s.controlView := by
  unfold State.suspendStep
  extract_lets p floor s2 n s1 s3
  split
  case isTrue => rfl
  case isFalse =>
    have h1 : s1.controlView = s.controlView := by
      unfold s1
      split
      · split
        · rfl
        · exact State.controlView_logBroken ..
      · split <;> rfl
    have h3 : s3.controlView = s.controlView :=
      (foldl_keeps State.controlView _ State.controlView_resumeRegion _ s1).trans h1
    split <;> exact h3

/-! ## The effective cap (R374, R392, R395) -/

theorem State.controlView_thermalCap (before : State) (px : Rat) : ∃ w, (s.thermalCap before px).controlView =
    { s.controlView with thermalW := w } := ⟨_, rfl⟩

theorem State.controlView_coolantCap : ∃ w, s.coolantCap.controlView = { s.controlView with coolantW := w } := by
  unfold State.coolantCap
  dsimp only
  split
  · exact ⟨_, rfl⟩
  · split <;> exact ⟨_, rfl⟩

theorem State.capSources_min : s.capSources.foldl min (s.capSources.headD 0) =
    min (min s.power.rack (cfg s.config.active 2 2)) (min s.power.thermalW s.power.coolantW) := by
  simp [State.capSources, Nat.min_assoc]

theorem State.controlView_capStep : s.capStep.controlView = { s.controlView with
    effCap := min (min s.power.rack (cfg s.config.active 2 2)) (min s.power.thermalW s.power.coolantW) } := by
  rw [← s.capSources_min]
  unfold State.capStep
  extract_lets p l cap src seen bound moved dirty due s1
  split
  · exact s1.controlView_log ..
  · rfl

/-! ## Outputs (R357, R371) -/

theorem State.outputs_spec (seed : Nat) : (s.outputs seed).controlView = s.controlView ∧
    ∀ g, g < 8 → (s.outputs seed).power.next.points.getD g 0 ≤ s.power.points.getD g 0 + 1 := by
  have hview : (s.brokenRegions.foldl State.suspendRegion s).controlView = s.controlView :=
    foldl_keeps State.controlView _ State.controlView_suspendRegion _ s
  have hpoints : (s.brokenRegions.foldl State.suspendRegion s).power.points = s.power.points :=
    congrArg ControlView.points hview
  unfold State.outputs
  dsimp only
  generalize s.brokenRegions.foldl State.suspendRegion s = s1 at hview hpoints ⊢
  refine ⟨hview, fun g hg => ?_⟩
  rw [hpoints]
  simp [hg]

/-- Commands that complete after the decide step leave what it decided. -/
theorem State.finishWrites_keeps : s.finishWrites.controlView = s.controlView ∧ s.finishWrites.power = s.power := by
  have hslot (a : State) (slot : Nat) (r : Report) : (a.completeSlot slot r).framed = a.framed := a.framed_completeSlot ..
  exact ⟨foldl_keeps State.controlView _ (fun a w => State.controlView_of_framed (hslot a _ _)) _ _,
    foldl_keeps State.power _ (fun a w => congrArg (fun x => x.1.power) (hslot a _ _)) _ _⟩

/-! ## The step (R354) -/

/-- What a decide step has decided: its cap, and the next outputs, none of which is in force. -/
structure State.Decided (s t : State) : Prop where
  decided : t.power.decided = true
  overruns : t.power.overruns = 0
  effCap : t.power.effCap = min (min s.power.rack (cfg s.config.active 2 2)) (min t.power.thermalW t.power.coolantW)
  act : t.power.act = s.power.act
  points : t.power.points = s.power.points
  grant (p : Nat) : (t.part p).grant = (s.part p).grant
  next (g : Nat) : g < 8 → t.power.next.points.getD g 0 ≤ s.power.points.getD g 0 + 1

end

section
variable {s : State}

/-- The decide step once the allowances of the cap are known; `account` enters the energies of the frame (R379). -/
def State.decideRest (account : State → State) (a : State) (seed : Nat) : State :=
  let b := (((account a.capStep.haltStep).finishSubmits fun u => u.tail == []).suspendStep).outputs seed
  { b with power := { b.power with decided := true, everDecided := true, overruns := 0 } }.finishWrites

theorem State.decideRest_spec {account : State → State} (haccount : ∀ a, (account a).controlView = a.controlView)
    (a : State) (seed : Nat) :
    let t := State.decideRest account a seed
    t.controlView = a.capStep.controlView ∧ t.power.decided = true ∧ t.power.overruns = 0 ∧
    ∀ g, g < 8 → t.power.next.points.getD g 0 ≤ a.power.points.getD g 0 + 1 := by
  have hview : ((account a.capStep.haltStep).finishSubmits fun u => u.tail == []).suspendStep.controlView =
      a.capStep.controlView := by
    rw [State.controlView_suspendStep, State.controlView_finishSubmits, haccount, State.controlView_haltStep]
  have hpoints := congrArg ControlView.points (hview.trans a.controlView_capStep)
  unfold State.decideRest
  generalize ((account a.capStep.haltStep).finishSubmits fun u => u.tail == []).suspendStep = b at hview hpoints ⊢
  obtain ⟨hout, hnext⟩ := b.outputs_spec seed
  dsimp only
  generalize b.outputs seed = d at hout hnext ⊢
  obtain ⟨hwrites, hpower⟩ := State.finishWrites_keeps
    { d with power := { d.power with decided := true, everDecided := true, overruns := 0 } }
  rw [hpower]
  refine ⟨hwrites.trans (hout.trans hview), rfl, rfl, fun g hg => ?_⟩
  have hle := hnext g hg
  rwa [show b.power.points = a.power.points from hpoints] at hle

/-- The decide step up to the allowances of the cap. -/
def State.decideFirst (s : State) : State :=
  let s1 := (s.free.2.useReports.estimate.judgeSensors).settleHold
  (s1.modelStep.thermalCap s1 (s1.otherForecast s.freeCtr)).coolantCap

/-- The decide step in its two parts; what enters the energies credits partitions, then contexts. -/
theorem State.decideAll_eq : ∃ account : State → State, (∀ a, (account a).controlView = a.controlView) ∧
    ∀ s : State, s.decideAll = State.decideRest account s.decideFirst s.freeCtr := by
  refine ⟨_, fun a => ?_, fun s => rfl⟩
  refine (foldl_keeps State.controlView _ (fun b x => ?_) _ _).trans
    (foldl_keeps State.controlView _ (fun b p => b.controlView_credit p _ _ _) _ _)
  split
  · rfl
  · exact b.controlView_setCtx ..

theorem State.controlView_decideFirst (s : State) :
    ∃ w c, s.decideFirst.controlView = { s.controlView with thermalW := w, coolantW := c } := by
  have h1 : (s.free.2.useReports.estimate.judgeSensors).settleHold.controlView = s.controlView := by
    rw [State.controlView_settleHold, State.controlView_judgeSensors, State.controlView_estimate,
      State.controlView_useReports]
    rfl
  unfold State.decideFirst
  generalize (s.free.2.useReports.estimate.judgeSensors).settleHold = s1 at h1 ⊢
  obtain ⟨w, hw⟩ := s1.modelStep.controlView_thermalCap s1 (s1.otherForecast s.freeCtr)
  obtain ⟨c, hc⟩ := (s1.modelStep.thermalCap s1 (s1.otherForecast s.freeCtr)).controlView_coolantCap
  exact ⟨w, c, by rw [hc, hw, State.controlView_modelStep, h1]⟩

theorem State.decideAll_decided (s : State) : s.Decided s.decideAll := by
  obtain ⟨w, c, ha⟩ := s.controlView_decideFirst
  obtain ⟨account, haccount, heq⟩ := State.decideAll_eq
  rw [heq]
  generalize s.decideFirst = a at ha ⊢
  obtain ⟨hview, hdecided, hoverruns, hnext⟩ := State.decideRest_spec haccount a s.freeCtr
  generalize State.decideRest account a s.freeCtr = t at hview hdecided hoverruns hnext ⊢
  have hrack : a.power.rack = s.power.rack := congrArg ControlView.rack ha
  have hactive : a.config.active = s.config.active := congrArg ControlView.active ha
  have hpoints : a.power.points = s.power.points := congrArg ControlView.points ha
  rw [State.controlView_capStep, hrack, hactive] at hview
  have hthermal : t.power.thermalW = a.power.thermalW := congrArg ControlView.thermalW hview
  have hcoolant : t.power.coolantW = a.power.coolantW := congrArg ControlView.coolantW hview
  refine ⟨hdecided, hoverruns, ?_, ?_, ?_, fun p => ?_, fun g hg => ?_⟩
  · rw [hthermal, hcoolant]
    exact congrArg ControlView.effCap hview
  · exact (congrArg ControlView.act hview).trans (congrArg ControlView.act ha)
  · exact (congrArg ControlView.points hview).trans hpoints
  · exact (congrFun (congrArg ControlView.grant hview) p).trans (congrFun (congrArg ControlView.grant ha) p)
  · exact hpoints ▸ hnext g hg

end

end Sys2Proof.Machine

end

section

/-! PROOFS. The control pair: act steps, state copies, overruns, takeovers and the safe state (11_power). -/

namespace Sys2Proof.Machine

/-- An event that is logged changes the mailbox, flash, the board, the record of recovery and the tray queue. -/
theorem State.log_eq (s : State) (e : BitVec 16) (src : BitVec 8) (o a : BitVec 32) :
    ∃ m f b r q, s.log e src o a = { s with mail := m, flash := f, board := b, rcv := r, side := q } := by
  unfold State.log
  dsimp only
  split
  · exact ⟨_, _, _, _, _, rfl⟩
  · split <;> exact ⟨_, _, _, _, _, rfl⟩

section
variable {s : State}

/-! ## Act steps (R357, R360) -/

/-- The power record after a write `o` by B (`b`) or A, where the registers take `act`. -/
def Power.written (p : Power) (b : Bool) (o act : Outputs) : Power :=
  { p with act, wroteA := if b then p.wroteA else some o, wroteB := if b then some o else p.wroteB }

theorem Power.written_own (p : Power) (b : Bool) (o act : Outputs) :
    (if b then (p.written b o act).wroteB else (p.written b o act).wroteA) = some o := by
  cases b <;> rfl

theorem State.actWrite_alone {b : Bool} {o : Outputs} (h : (if b then s.power.wroteA else s.power.wroteB) = none) :
    s.actWrite b o = { s with power := s.power.written b o o } := by
  simp only [State.actWrite, h]
  rfl

/-- Where both processors write, the registers take the lower of each field, and the event is logged. -/
theorem State.actWrite_both {b : Bool} {o x : Outputs} (h : (if b then s.power.wroteA else s.power.wroteB) = some x) :
    ∃ m f d r q, s.actWrite b o = { s with
      power := { s.power.written b o (x.lower o) with dualActive := s.power.dualActive + 1 }
      mail := m, flash := f, board := d, rcv := r, side := q } := by
  simp only [State.actWrite, h]
  exact State.log_eq ..

theorem exec_actStep_holder {b : Bool} (hruns : s.controlRuns = true) (hdecided : s.power.decided = true)
    (hover : s.power.overran = false) (hb : b = s.power.tokenB) (hnext : s.power.actsNext = false)
    (hmine : (if b then s.power.wroteB else s.power.wroteA) = none) :
    exec (.actStep b) s = .next (s.actWrite b s.power.next) := by
  have hi : exec (.actStep b) s = execActStep b s := rfl
  rw [hi, execActStep, if_neg (by simp [hruns, hdecided, hover, hmine]), if_pos hb, if_neg (by simp [hnext])]

theorem Outputs.lower_getD (a b : Outputs) {i : Nat} (h : i < 8) :
    (a.lower b).points.getD i 0 = min (a.points.getD i 0) (b.points.getD i 0) ∧
    (a.lower b).grants.getD i 0 = min (a.grants.getD i 0) (b.grants.getD i 0) := by
  simp [Outputs.lower, h]

/-! ## State copies and overruns (R356, R358, R359) -/

theorem stateCopy_answers (hruns : s.controlRuns = true) (hthere : s.standbyThere = true) :
    Answers (.stateCopy true) s fun t => t.power.copied = true ∧ t.power.standbyGood = true ∧
      t.copy = some s.copyOut ∧ s.copyOut.power = s.power ∧ s.copyOut.thermal = s.thermal ∧
      s.copyOut.carries = (s.parts.map fun k => (k.carries, k.ctxs.map (·.carries))) ∧ t.parts = s.parts :=
  .of_next rfl (if_pos (by rw [hruns, hthere]; rfl)) ⟨rfl, rfl, rfl, rfl, rfl, rfl, rfl⟩

theorem exec_stateCopy_bad (s : State) : exec (.stateCopy false) s = .next s :=
  congrArg _ (if_neg (by simp))

theorem frameOverrun_answers (h : s.decides = true) : Answers .frameOverrun s fun t =>
    t.power.overran = true ∧ t.power.overruns = s.power.overruns + 1 ∧ t.power.frameOverrun = s.power.frameOverrun + 1 ∧
    (3 ≤ s.power.overruns + 1 → t.power.handover = true) ∧ t.decides = false := by
  refine .of_next rfl (if_neg (by simp [h])) ?_
  dsimp only
  obtain ⟨_, _, _, _, _, hlog⟩ := State.log_eq { s with power := { s.power with
    overran := true, overruns := s.power.overruns + 1, frameOverrun := s.power.frameOverrun + 1
    handover := s.power.handover || decide (3 ≤ s.power.overruns + 1) } } evFrameOverrun s.ctlSource
    (BitVec.ofNat 32 s.power.active) (s.power.frameOverrun + 1)
  rw [hlog]
  exact ⟨rfl, rfl, rfl, fun h3 => by simp [h3], by simp [State.decides]⟩

/-! ## Takeovers (R359, R360) -/

/-- What a takeover leaves: the other processor active with the token, the outputs as they are, and what the last good
copy carries. -/
structure State.TakenOver (s t : State) : Prop where
  active : t.power.active = if s.power.active = 0 then 1 else 0
  tokenB : t.power.tokenB = decide (s.power.active = 0)
  failovers : t.power.failovers = s.power.failovers + 1
  standbyGood : t.power.standbyGood = false
  handover : t.power.handover = false
  act : t.power.act = s.power.act
  points : t.power.points = s.power.points
  copy : t.copy = none
  uncopied : s.copy = none → t.parts = s.parts ∧ t.thermal = s.thermal
  copied (k : StateCopy) : s.copy = some k → t.power.effCap = k.power.effCap ∧ t.power.coeffs = k.power.coeffs ∧
    t.power.trims = k.power.trims ∧ t.thermal.tp = k.thermal.tp ∧
    (k.carries.length = s.parts.length → ∀ p, (t.part p).grant = (s.part p).grant ∧
      (t.part p).balance = (s.part p).balance ∧ (t.part p).regions = (s.part p).regions)

/-- The carries of a copy change the account and the regions of no partition. -/
theorem getD_recarry {l : List Part} {xs : List (List Rat × List (List Rat))} (h : xs.length = l.length) (p : Nat) :
    ((List.zipWith Part.recarry l xs).getD p Part.reset).grant = (l.getD p Part.reset).grant ∧
    ((List.zipWith Part.recarry l xs).getD p Part.reset).balance = (l.getD p Part.reset).balance ∧
    ((List.zipWith Part.recarry l xs).getD p Part.reset).regions = (l.getD p Part.reset).regions := by
  by_cases hp : p < l.length
  · have hz : (List.zipWith Part.recarry l xs).getD p Part.reset = (l[p]).recarry (xs[p]'(h ▸ hp)) := by
      simp [hp, h]
    rw [hz, List.getD_eq_getElem _ _ hp]
    exact ⟨rfl, rfl, rfl⟩
  · rw [List.getD_eq_default _ _ (by simp; omega), List.getD_eq_default _ _ (by omega)]
    exact ⟨rfl, rfl, rfl⟩

theorem State.fromCopy_none (h : s.copy = none) : s.fromCopy = s := by
  rw [State.fromCopy, h]

/-- The items of a copy are none of those by which the token moves and outputs are in force. -/
theorem State.fromCopy_keeps (s : State) : s.fromCopy.power.active = s.power.active ∧
    s.fromCopy.power.failovers = s.power.failovers ∧ s.fromCopy.power.act = s.power.act ∧
    s.fromCopy.power.points = s.power.points ∧ s.fromCopy.copy = none := by
  cases h : s.copy with
  | none =>
    rw [State.fromCopy_none h]
    exact ⟨rfl, rfl, rfl, rfl, h⟩
  | some k =>
    rw [State.fromCopy, h]
    exact ⟨rfl, rfl, rfl, rfl, rfl⟩

theorem State.fromCopy_carries {k : StateCopy} (h : s.copy = some k) : s.fromCopy.power.effCap = k.power.effCap ∧
    s.fromCopy.power.coeffs = k.power.coeffs ∧ s.fromCopy.power.trims = k.power.trims ∧
    s.fromCopy.thermal.tp = k.thermal.tp ∧ s.fromCopy.parts = List.zipWith Part.recarry s.parts k.carries := by
  rw [State.fromCopy, h]
  exact ⟨rfl, rfl, rfl, rfl, rfl⟩

/-- The token moves on the items of the copy, and the takeover is logged. -/
theorem State.takeOver_eq (s : State) (former nextFrame : Bool) : ∃ m f d r q, s.takeOver former nextFrame =
    { s.fromCopy with
      power := { s.fromCopy.power with
        active := if s.fromCopy.power.active = 0 then 1 else 0
        tokenB := decide ((if s.fromCopy.power.active = 0 then 1 else 0) = 1)
        failovers := s.fromCopy.power.failovers + 1, standbyGood := false, formerWrites := former
        actsNext := nextFrame, handover := false, overruns := 0, copyMissing := false }
      mail := m, flash := f, board := d, rcv := r, side := q } := by
  unfold State.takeOver
  exact State.log_eq ..

theorem State.takeOver_takenOver (s : State) (former nextFrame : Bool) : s.TakenOver (s.takeOver former nextFrame) := by
  obtain ⟨_, _, _, _, _, heq⟩ := s.takeOver_eq former nextFrame
  obtain ⟨hactive, hfail, hact, hpoints, hcopy⟩ := s.fromCopy_keeps
  have hnone := State.fromCopy_none (s := s)
  have hsome (k : StateCopy) := State.fromCopy_carries (s := s) (k := k)
  rw [heq]
  generalize s.fromCopy = a at hactive hfail hact hpoints hcopy hnone hsome ⊢
  refine ⟨?_, ?_, ?_, rfl, rfl, hact, hpoints, hcopy, fun h => ?_, fun k h => ?_⟩
  · rw [hactive]
  · rw [hactive]
    simp
  · rw [hfail]
  · rw [hnone h]
    exact ⟨rfl, rfl⟩
  · obtain ⟨hcap, hcoeffs, htrims, htp, hparts⟩ := hsome k h
    refine ⟨hcap, hcoeffs, htrims, htp, fun hlen p => ?_⟩
    simp only [State.part, hparts]
    exact getD_recarry hlen p

/-- The standby takes over on a missing copy, on the handover flag of its copy, and after three missed heartbeats. -/
def State.TakeoverDue (s : State) : TakeoverCause → Prop
  | .missingCopy => s.power.copyMissing = true ∧ s.power.decided = false
  | .handover => (∃ k, s.copy = some k ∧ k.power.handover = true) ∧ s.power.copyMissing = false ∧ s.power.decided = false
  | .lamplighter => 3 ≤ s.rcv.fails.getD 1 0

theorem exec_ctlTakeover {why : TakeoverCause} (hup : s.board.railsUp = true) (hheld : s.rcv.ctlHeld = false)
    (hactive : s.power.active < 2) (hgood : s.power.standbyGood = true) (hwhy : s.TakeoverDue why) :
    ∃ former nextFrame, exec (.ctlTakeover why) s = .next (s.takeOver former nextFrame) := by
  have hserves : ¬(!s.board.railsUp || s.rcv.ctlHeld) = true := by simp [hup, hheld]
  cases why with
  | missingCopy =>
    obtain ⟨hmissing, hdecided⟩ := hwhy
    exact ⟨true, false, congrArg _ ((if_neg hserves).trans (if_pos (by simp [hactive, hgood, hmissing, hdecided])))⟩
  | handover =>
    obtain ⟨⟨k, hk, hflag⟩, hmissing, hdecided⟩ := hwhy
    exact ⟨false, true, congrArg _ ((if_neg hserves).trans (if_pos (by simp [hactive, hgood, hmissing, hdecided, hk, hflag])))⟩
  | lamplighter =>
    exact ⟨true, true, congrArg _ ((if_neg hserves).trans ((if_neg hactive.ne).trans (if_pos ⟨hgood, hwhy⟩)))⟩

/-! ## The safe state (R361) -/

theorem safeState_answers (hruns : s.controlRuns = true) (hgood : s.power.standbyGood = false)
    (hfails : 3 ≤ s.rcv.fails.getD 1 0) : Answers .safeState s fun t =>
      t.power.active = 2 ∧ t.power.act = safeOutputs ∧ t.power.points = List.replicate 8 0 ∧ t.copy = none ∧
      (∀ k ∈ t.parts, k.grant = 0) ∧ t.controlRuns = false ∧ t.power.mismatch = false ∧ t.power.implausible = 0 ∧
      t.power.calFrames = 0 ∧ t.power.trims = s.power.trims := by
  refine .of_next rfl (if_pos (by rw [hruns, hgood, decide_eq_true hfails]; rfl)) ?_
  have htrims : (if s.fixedEn then s.markBroken else s).power.trims = s.power.trims := by split <;> rfl
  generalize (if s.fixedEn then s.markBroken else s) = a at htrims ⊢
  refine ⟨rfl, rfl, rfl, rfl, fun k hk => ?_, by simp [State.controlRuns], rfl, rfl, rfl, htrims⟩
  obtain ⟨_, -, rfl⟩ := List.mem_map.1 hk
  rfl

end

/-- Settles O41: the decide step by what it leaves, the other steps of the pair row by row. -/
theorem controlProcessors : Obligations.ControlProcessors := by
  refine ⟨⟨fun s => ⟨fun h => ?decide, fun h => ?idle⟩,
      fun s b hruns hdecided hover hb hnext hmine => ?act, fun a b i hi => a.lower_getD b hi,
      fun s hruns hthere => ⟨stateCopy_answers hruns hthere, exec_stateCopy_bad s⟩, fun s => frameOverrun_answers⟩,
    fun s why hup hheld hactive hgood hwhy => ?takeover, fun s => safeState_answers⟩
  case decide =>
    obtain ⟨hdecided, hoverruns, hcap, hact, hpoints, hgrant, hnext⟩ := s.decideAll_decided
    exact .of_next rfl (if_pos h) ⟨hdecided, hoverruns, hcap, hact, hpoints, hgrant, hnext⟩
  case idle => exact congrArg _ (if_neg (by simp [h]))
  case act =>
    refine ⟨_, exec_actStep_holder hruns hdecided hover hb hnext hmine, ?_⟩
    cases hother : if b then s.power.wroteA else s.power.wroteB with
    | none =>
      rw [State.actWrite_alone hother]
      exact ⟨fun _ => ⟨rfl, rfl⟩, nofun, s.power.written_own b .., rfl, rfl⟩
    | some x =>
      obtain ⟨_, _, _, _, _, heq⟩ := State.actWrite_both (o := s.power.next) hother
      rw [heq]
      refine ⟨nofun, fun y hy => ?_, s.power.written_own b _ (x.lower s.power.next), rfl, rfl⟩
      cases hy
      exact ⟨rfl, rfl⟩
  case takeover =>
    have hdue : s.TakeoverDue why := by cases why <;> exact hwhy
    obtain ⟨former, nextFrame, hexec⟩ := exec_ctlTakeover hup hheld hactive hgood hdue
    obtain ⟨ha, ht, hf, hs, hh, hact, hpoints, hcopy, hnone, hsome⟩ := s.takeOver_takenOver former nextFrame
    exact ⟨_, hexec, ha, ht, hf, hs, hh, hact, hpoints, hcopy, hnone, hsome⟩

end Sys2Proof.Machine

end

section

/-! PROOFS. Trims, the stretch of clocks by droops, and the calibration of the estimator (11_power). -/

namespace Sys2Proof.Machine

/-! ## Elements of a list after a change at an index -/

section
variable {α : Type} {l : List α} {i j : Nat}

theorem getD_setAt_same (a d : α) (h : i < l.length) : (setAt l i a).getD i d = a := by
  simp [setAt, h]

theorem getD_setAt_other (a d : α) (h : j ≠ i) : (setAt l i a).getD j d = l.getD j d := by
  simp [setAt, Ne.symm h]

theorem getD_modifyAt_same (f : α → α) (d : α) (h : i < l.length) : (modifyAt l i f).getD i d = f (l.getD i d) := by
  simp [modifyAt, h]

theorem getD_modifyAt_other (f : α → α) (d : α) (h : j ≠ i) : (modifyAt l i f).getD j d = l.getD j d := by
  simp [modifyAt, Ne.symm h]

end

section
variable {s : State} {g : Nat}

/-! ## Trims (R368) -/

/-- A trim whose 24 h have passed moves by a step within its bounds, and is stored. -/
theorem trimUpdate_answers {step : Nat} (short : Bool) (htrims : g < s.power.trims.length)
    (hat : g < s.power.trimAt.length) (hup : s.board.railsUp = true) (hg : s.regionPresent g = true) (hstep : step ≤ 5)
    (hday : s.power.trimAt.getD g 0 + 86400 ≤ s.flash.persist.poweredS.toNat) :
    Answers (.trimUpdate g short step) s fun t =>
      t.power.trims.getD g 0 =
        max (-50) (min 50 (if short then s.power.trims.getD g 0 + step else s.power.trims.getD g 0 - step)) ∧
      t.flash.trims = t.power.trims ∧ t.flash.trimStored = true ∧
      t.power.trimAt.getD g 0 = s.flash.persist.poweredS.toNat ∧
      (∀ h, h ≠ g → t.power.trims.getD h 0 = s.power.trims.getD h 0) ∧ t.power.points = s.power.points :=
  .of_next rfl (if_pos (by simp only [hup, hg, hstep, hday, and_self, decide_true, Bool.and_self]))
    ⟨getD_setAt_same _ _ htrims, rfl, rfl, getD_setAt_same _ _ hat, fun _ hh => getD_setAt_other _ _ hh, rfl⟩

/-- Within 24 h of powered time after its last move, a trim does not move. -/
theorem exec_trimUpdate_early (short : Bool) (step : Nat)
    (h : s.flash.persist.poweredS.toNat < s.power.trimAt.getD g 0 + 86400) :
    exec (.trimUpdate g short step) s = .next s :=
  congrArg _ (if_neg fun hc => by
    simp only [Bool.and_eq_true, decide_eq_true_eq] at hc
    exact absurd hc.2.2 (Nat.not_le.2 h))

/-! ## Droops (R369) -/

theorem State.regionRuns_of (hg : s.regionPresent g = true) (hrun : s.clocksRun = true) : s.regionRuns_ g = true := by
  rw [State.regionRuns_, hg, hrun, Bool.and_self]

theorem droop_answers (deep : Bool) (hlen : g < s.power.stretch.length) (hruns : s.regionRuns_ g = true) :
    Answers (.droop g deep) s fun t =>
      t.power.stretch.getD g 8 = min (s.power.stretch.getD g 8) (if deep then 6 else 7) ∧
      ∀ h, h ≠ g → t.power.stretch.getD h 8 = s.power.stretch.getD h 8 :=
  .of_next rfl (if_pos hruns) ⟨getD_setAt_same _ _ hlen, fun _ hh => getD_setAt_other _ _ hh⟩

theorem droopRecovery_answers (hlen : g < s.power.stretch.length) (hruns : s.regionRuns_ g = true) :
    Answers (.droopRecovery g) s fun t =>
      t.power.stretch.getD g 8 = min 8 (s.power.stretch.getD g 8 + 1) ∧
      ∀ h, h ≠ g → t.power.stretch.getD h 8 = s.power.stretch.getD h 8 :=
  .of_next rfl (if_pos hruns) ⟨getD_modifyAt_same _ _ hlen, fun _ hh => getD_modifyAt_other _ _ hh⟩

/-! ## Calibration (R364, R365, R378) -/

/-- An update that is due fits the coefficients of the 37 rails and begins a window; first use can only end. -/
theorem calibrationUpdate_answers (hup : s.board.railsUp = true) (hdue : s.power.calDue = true)
    (hact : s.power.active < 2) : Answers .calibrationUpdate s fun t =>
      t.power.lastCal = s.power.frame ∧ t.power.calFrames = 0 ∧ t.power.calSums = [] ∧
      t.power.coeffs.length = 37 ∧ (t.power.firstUse = true → s.power.firstUse = true) := by
  refine .of_next rfl (if_pos (by simp only [hup, hdue, hact, decide_true, Bool.and_self])) ?_
  dsimp only
  have hlen (f : Nat → List Rat) : ((List.range 37).map f).length = 37 := by rw [List.length_map, List.length_range]
  split <;> exact ⟨rfl, rfl, rfl, hlen _, fun h => (Bool.and_eq_true_iff.1 h).1⟩

theorem exec_calibrationUpdate_early (h : s.power.calDue = false) : exec .calibrationUpdate s = .next s :=
  congrArg _ (if_neg (by simp [h]))

end

/-- Settles O42, row by row. -/
theorem trimsDroopsCalibration : Obligations.TrimsDroopsCalibration := by
  refine ⟨fun s g step short hg htrims hat hup hpres hstep hday => ?trim, fun s g step short => exec_trimUpdate_early short step,
    fun s g deep hlen hpres hrun => ?droop,
    fun s => ⟨calibrationUpdate_answers, exec_calibrationUpdate_early⟩⟩
  case trim => exact trimUpdate_answers short (by omega) (by omega) hup hpres hstep hday
  case droop =>
    have hruns := State.regionRuns_of hpres hrun
    exact ⟨droop_answers deep hlen hruns, droopRecovery_answers hlen hruns⟩

end Sys2Proof.Machine

end

section

/-! PROOFS. The messages of the tray (12_cooling, 15_recovery, 16_sideband). -/

namespace Sys2Proof.Machine

/-! ## Who answers a tray message (R491) -/

section
variable {s : State}

theorem tray_discarded (h : s.lampAnswers = false ∨ s.board.bootsel = 3) (f : State) : tray s f = .next s := by
  refine congrArg _ (if_neg ?_)
  rcases h with h | h <;> simp [h]

theorem tray_answered (hlamp : s.lampAnswers = true) (hboot : s.board.bootsel ≠ 3) (f : State) : tray s f = .next f :=
  congrArg _ (if_pos (Bool.and_eq_true_iff.2 ⟨hlamp, bne_iff_ne.2 hboot⟩))

/-- Each tray message acts by way of `tray`. -/
theorem exec_tray (s : State) (m : CoolantMsg) (o : PowerUp) (w iod off count comp : Nat) (vals : List (BitVec 64)) :
    ∀ i ∈ [Instr.coolantReport m o, .rackCeiling w, .serviceClear, .fabRead iod off count, .fabWrite iod off vals,
      .trayFwCommit comp, .telemRead w, .iodReset iod, .getState], ∃ f, exec i s = tray s f := by
  simp only [List.forall_mem_cons]
  exact ⟨⟨_, rfl⟩, ⟨_, rfl⟩, ⟨_, rfl⟩, ⟨_, rfl⟩, ⟨_, rfl⟩, ⟨_, rfl⟩, ⟨_, rfl⟩, ⟨_, rfl⟩, ⟨_, rfl⟩, List.forall_mem_nil _⟩

end

/-! ## The fabric of a die that resets (R281, R493) -/

@[simp] theorem State.fabBlock_answer (s : State) (cmd code : Nat) (data : List Byte) (e : Nat) :
    (s.answer cmd code data).fabBlock e = s.fabBlock e := rfl

/-- The end of an operation sends nothing, whether or not one runs. -/
theorem State.endOp_fabric (s : State) (h status : Nat) : (s.endOp h status).fabric = s.fabric := by
  cases hk : s.comm h with
  | none => rw [State.endOp, State.withOp, hk]
  | some k =>
    cases ho : k.op with
    | none => simp only [State.endOp, State.withOp, hk, ho]
    | some o => exact congrArg Prod.snd (State.endOp_engines status hk ho)

theorem State.resetHalves_blocks (s : State) (f : Nat → Bool) (st : Port → PortState) (logged : Bool) :
    (s.resetHalves f st logged).fabric.blocks = s.fabric.blocks := by
  refine foldl_keeps (fun a : State => a.fabric.blocks) _ (fun a h => ?_) _ s
  dsimp only
  split
  · rw [State.setPort, State.log_fabric]
  · rfl

theorem State.applyMode_blocks (s : State) (p : Nat) : (s.applyMode p).fabric.blocks = s.fabric.blocks := by
  unfold State.applyMode
  split
  · split <;> rfl
  · rfl

theorem State.settlePort_blocks (s : State) (p : Nat) : (s.settlePort p).fabric.blocks = s.fabric.blocks := by
  rw [← s.applyMode_blocks p]
  unfold State.settlePort
  dsimp only
  split
  · rfl
  · refine foldl_keeps (fun a : State => a.fabric.blocks) _ (fun a h => ?_) _ (s.applyMode p)
    split <;> rfl

theorem State.resetIodFabric_blocks (s : State) (d : Nat) :
    (s.resetIodFabric d).fabric.blocks = setAt s.fabric.blocks d FabBlock.reset := by
  unfold State.resetIodFabric
  dsimp only
  rw [(State.retime_tables _).1, foldl_keeps (fun a : State => a.fabric.blocks) _ State.settlePort_blocks]
  refine congrArg (setAt · d FabBlock.reset) ?_
  refine (foldl_keeps (fun a : State => a.fabric.blocks) _ ?counters _ _).trans ?halves
  case counters => exact fun _ _ => rfl
  case halves => exact s.resetHalves_blocks _ _ _

theorem State.resetDie_blocks (s : State) (d : Nat) :
    (s.resetDie d).fabric.blocks = setAt s.fabric.blocks d FabBlock.reset := by
  unfold State.resetDie
  rw [State.resetIodFabric_blocks]
  exact congrArg (fun x : Fabric => setAt x.blocks d FabBlock.reset)
    (foldl_keeps (fun a : State => a.fabric) _ (fun a h => a.endOp_fabric h stUnitFailed) _ s)

/-- A die that resets has the tables of reset, and each other die its own. -/
theorem State.fabBlock_resetDie (s : State) (d e : Nat) :
    (s.resetDie d).fabBlock e = if e = d then FabBlock.reset else s.fabBlock e := by
  rw [State.fabBlock, State.resetDie_blocks]
  split
  next he =>
    subst he
    by_cases hlen : e < s.fabric.blocks.length
    · exact getD_setAt_same _ _ hlen
    · exact List.getD_eq_default _ _ (by simpa [setAt] using hlen)
  next he => exact getD_setAt_other _ _ he

/-! ## Coolant reports (R393, R394, R396, R403, R494) -/

section
variable {s : State}

theorem State.tryPowerUp_keeps (u : State) (o : PowerUp) :
    (u.tryPowerUp o).thermal = u.thermal ∧ (u.tryPowerUp o).out = u.out := by
  cases hu : u.mayRaise with
  | false =>
    rw [State.tryPowerUp_idle hu]
    exact ⟨rfl, rfl⟩
  | true =>
    have ht : u.tryPowerUp o = _ := if_neg (by simp [hu])
    rw [ht]
    cases o <;> exact ⟨rfl, rfl⟩

theorem State.takeReport_thermal (s : State) (m : CoolantMsg) :
    (s.takeReport m).thermal.lastSeq = some m.seq ∧ (s.takeReport m).thermal.lastValid = s.power.frame.toNat ∧
      (s.board.railsUp = true →
        (s.takeReport m).thermal.arrived = s.thermal.arrived ++ [(m, s.thermal.lastSeq == some m.seq)]) := by
  cases hup : s.board.railsUp <;> simp [State.takeReport, hup]

/-- A valid report that may release a power-up after a trip. -/
def State.afterReport (s : State) (m : CoolantMsg) (o : PowerUp) : State :=
  if s.releasesTrip m then (s.takeReport m).noteTripReport.tryPowerUp o else s.takeReport m

/-- Only a report after a trip changes the board. -/
theorem State.afterReport_keeps (s : State) (m : CoolantMsg) (o : PowerUp) :
    (s.afterReport m o).thermal = (s.takeReport m).thermal ∧ (s.afterReport m o).out = s.out ∧
      ((s.afterReport m o).board = s.board ∨ s.board.tripHold = true) := by
  unfold State.afterReport
  split
  next hrel =>
    obtain ⟨hthermal, hout⟩ := (s.takeReport m).noteTripReport.tryPowerUp_keeps o
    simp only [State.releasesTrip, Bool.and_eq_true] at hrel
    obtain ⟨⟨htrip, -⟩, -⟩ := hrel
    exact ⟨hthermal, hout, .inr htrip⟩
  next => exact ⟨rfl, rfl, .inl rfl⟩

theorem coolantReport_answers {m : CoolantMsg} (o : PowerUp) (hlamp : s.lampAnswers = true) (hboot : s.board.bootsel ≠ 3)
    (hm : reportValid m = true) : Answers (.coolantReport m o) s fun t =>
      t.out = s.out ++ [.tray 0x02 trOk [1]] ∧ t.thermal.lastSeq = some m.seq ∧
      t.thermal.lastValid = s.power.frame.toNat ∧
      (s.board.railsUp = true → t.board = s.board ∨ s.board.tripHold = true) ∧
      (s.board.railsUp = true →
        t.thermal.arrived = s.thermal.arrived ++ [(m, s.thermal.lastSeq == some m.seq)]) := by
  obtain ⟨hseq, hvalid, harrived⟩ := s.takeReport_thermal m
  obtain ⟨hthermal, hout, hboard⟩ := s.afterReport_keeps m o
  rw [← hthermal] at hseq hvalid harrived
  exact .of_next (t := (s.afterReport m o).answer 0x02 trOk [1]) (tray_answered hlamp hboot _) (if_pos hm)
    ⟨congrArg (· ++ [OutMsg.tray 0x02 trOk [1]]) hout, hseq, hvalid, fun _ => hboard, harrived⟩

theorem exec_coolantReport_invalid {m : CoolantMsg} (o : PowerUp) (hlamp : s.lampAnswers = true)
    (hboot : s.board.bootsel ≠ 3) (hm : reportValid m = false) :
    exec (.coolantReport m o) s = .next (s.answer 0x02 trOk [0]) :=
  (tray_answered hlamp hboot _).trans (congrArg _ (if_neg (by simp [hm])))

theorem coolantReportStale_answers (hever : s.thermal.everValid = true)
    (hlate : s.thermal.lastValid + 1500 < s.power.frame.toNat) : Answers .coolantReportStale s fun t =>
      t.thermal = { s.thermal with held := true } ∧ t.board = s.board :=
  .of_next rfl (if_pos ⟨hever, hlate⟩) ⟨rfl, rfl⟩

theorem exec_coolantReportStale_fresh
    (h : s.thermal.everValid = false ∨ s.power.frame.toNat ≤ s.thermal.lastValid + 1500) :
    exec .coolantReportStale s = .next s := by
  refine congrArg _ (if_neg fun ⟨hever, hlate⟩ => ?_)
  rcases h with h | h
  · exact absurd hever (by simp [h])
  · omega

theorem coolantHoldExpiry_answers (hever : s.thermal.everValid = true) (hheld : s.thermal.held = true)
    (hlate : s.thermal.lastValid + 3000000 ≤ s.power.frame.toNat) : Answers .coolantHoldExpiry s fun t =>
      t.thermal = { s.thermal with held3000 := true } ∧ t.board = s.board :=
  .of_next rfl (if_pos ⟨hever, hheld, hlate⟩) ⟨rfl, rfl⟩

theorem exec_coolantHoldExpiry_idle (h : s.thermal.held = false) : exec .coolantHoldExpiry s = .next s :=
  congrArg _ (if_neg (by simp [h]))

end

/-! ## The word of `GET_STATE` (R492) -/

section
variable (s : State)

/-- The word as a sum in which each flag is a digit. -/
theorem State.stateWord_eq : s.stateWord = s.board.slotId.toNat + s.board.bootsel.toNat * 2 ^ 6 +
    s.board.pwrEn.toNat * 2 ^ 8 + s.board.pwrGood.toNat * 2 ^ 9 + s.board.coolantStop.toNat * 2 ^ 10 +
    (s.thermal.snuffed || s.thermal.haltClosed).toNat * 2 ^ 11 + s.board.thermTrip.toNat * 2 ^ 12 +
    s.board.frameSync.toNat * 2 ^ 13 + s.board.srefclk.toNat * 2 ^ 14 + s.mail.ready.toNat * 2 ^ 15 +
    s.mail.resetGen.toNat * 2 ^ 16 := by
  have hflag (i : Nat) (x : Bool) : (if x then 2 ^ i else 0) = x.toNat * 2 ^ i := by cases x <;> simp
  simp only [State.stateWord, hflag]

theorem testBit_of_div_mod {n k : Nat} {b : Bool} (h : n / 2 ^ k % 2 = b.toNat) : n.testBit k = b := by
  rw [Nat.testBit_eq_decide_div_mod_eq, h]
  cases b <;> rfl

theorem State.stateWord_fields :
    s.stateWord.testBit 8 = s.board.pwrEn ∧ s.stateWord.testBit 9 = s.board.pwrGood ∧
      s.stateWord.testBit 12 = s.board.thermTrip ∧ s.stateWord.testBit 15 = s.mail.ready ∧
      s.stateWord % 64 = s.board.slotId.toNat ∧ s.stateWord / 2 ^ 16 = s.mail.resetGen.toNat := by
  have hslot := s.board.slotId.isLt
  have hboot := s.board.bootsel.isLt
  have h8 := s.board.pwrEn.toNat_le
  have h9 := s.board.pwrGood.toNat_le
  have h10 := s.board.coolantStop.toNat_le
  have h11 := (s.thermal.snuffed || s.thermal.haltClosed).toNat_le
  have h12 := s.board.thermTrip.toNat_le
  have h13 := s.board.frameSync.toNat_le
  have h14 := s.board.srefclk.toNat_le
  have h15 := s.mail.ready.toNat_le
  have hword := s.stateWord_eq
  refine ⟨testBit_of_div_mod ?_, testBit_of_div_mod ?_, testBit_of_div_mod ?_, testBit_of_div_mod ?_, ?_, ?_⟩ <;> omega

end

/-! ## Rack ceiling, service and telemetry (R355, R374, R463, R487, R492) -/

section
variable {s : State} (hlamp : s.lampAnswers = true) (hboot : s.board.bootsel ≠ 3)
include hlamp hboot

theorem rackCeiling_answers {w : Nat} (hlow : 1500 ≤ w) (hhigh : w ≤ 5000) : Answers (.rackCeiling w) s fun t =>
    t.out = s.out ++ [.tray 0x01 trOk (leBytes 2 (if s.power.everDecided then s.power.effCap else 0))] ∧
    (if s.board.railsUp then t.power.rackNew = some w ∧ t.power.rack = s.power.rack else t.power.rack = w) := by
  refine .of_next (tray_answered hlamp hboot _) (if_pos ⟨hlow, hhigh⟩) ⟨rfl, ?_⟩
  change if s.board.railsUp then (s.setRack w).power.rackNew = some w ∧ (s.setRack w).power.rack = s.power.rack
    else (s.setRack w).power.rack = w
  cases hup : s.board.railsUp <;> simp [State.setRack, hup]

theorem exec_rackCeiling_outside {w : Nat} (h : w < 1500 ∨ 5000 < w) :
    exec (.rackCeiling w) s = .next (s.answer 0x01 trInvalidData []) :=
  (tray_answered hlamp hboot _).trans (congrArg _ (if_neg (by omega)))

theorem serviceClear_answers (hoos : s.flash.persist.oos = true) : Answers .serviceClear s fun t =>
    t.flash.persist = { s.flash.persist with clearPending := true } ∧ t.out = s.out ++ [.tray 0x03 trOk []] :=
  .of_next (tray_answered hlamp hboot _) (if_pos hoos) ⟨rfl, rfl⟩

theorem exec_serviceClear_unlatched (hoos : s.flash.persist.oos = false) :
    exec .serviceClear s = .next (s.answer 0x03 trRefused []) :=
  (tray_answered hlamp hboot _).trans (congrArg _ (if_neg (by simp [hoos])))

/-- The records read are the first three of the ring from the frame on. -/
theorem telemRead_answers (frame : Nat) : Answers (.telemRead frame) s fun t => ∃ l : List Telem,
    l.length ≤ 3 ∧ (∀ r ∈ l, r ∈ s.power.trayRing ∧ frame ≤ r.frame.toNat) ∧ t.power = s.power ∧
    t.out = s.out ++ [.tray 0x07 trOk (l.flatMap fun r => leBytes 1 l.length ++ r.bytes)] := by
  refine .of_next (tray_answered hlamp hboot _) rfl
    ⟨(s.power.trayRing.filter fun r => decide (frame ≤ r.frame.toNat)).take 3, List.length_take_le .., fun r hr => ?_,
      rfl, rfl⟩
  obtain ⟨hring, hframe⟩ := List.mem_filter.1 (List.mem_of_mem_take hr)
  exact ⟨hring, of_decide_eq_true hframe⟩

/-! ## The fabric registers (R284, R492) -/

theorem exec_fabRead_notServing (hserves : s.fabricServes = false) (iod off count : Nat) :
    exec (.fabRead iod off count) s = .next (s.answer 0x04 trNotReady []) :=
  (tray_answered hlamp hboot _).trans (congrArg _ (if_pos (by simp [hserves])))

theorem exec_fabWrite_notServing (hserves : s.fabricServes = false) (iod off : Nat) (vals : List (BitVec 64)) :
    exec (.fabWrite iod off vals) s = .next (s.answer 0x05 trNotReady []) :=
  (tray_answered hlamp hboot _).trans (congrArg _ (if_pos (by simp [hserves])))

variable (hserves : s.fabricServes = true) {iod off : Nat}
include hserves

theorem exec_fabRead_serving (count : Nat) : exec (.fabRead iod off count) s = .next (
    if fabFieldsOk iod off count then
      s.answer 0x04 trOk ((List.range count).flatMap fun i => leBytes 8 (s.fabReg iod (off + 8 * i)).toNat)
    else s.answer 0x04 trInvalidData []) := by
  refine (tray_answered hlamp hboot _).trans (congrArg _ ((if_neg (by simp [hserves])).trans ?_))
  cases fabFieldsOk iod off count <;> rfl

theorem exec_fabWrite_serving (vals : List (BitVec 64)) : exec (.fabWrite iod off vals) s = .next (
    if fabFieldsOk iod off vals.length then (s.fabWriteAll iod off vals).answer 0x05 trOk []
    else s.answer 0x05 trInvalidData []) := by
  refine (tray_answered hlamp hboot _).trans (congrArg _ ((if_neg (by simp [hserves])).trans ?_))
  cases fabFieldsOk iod off vals.length <;> rfl

end

/-! ## `IOD_RESET` (R493) -/

section
variable {s : State} (hlamp : s.lampAnswers = true) (hboot : s.board.bootsel ≠ 3) {d : Nat}
include hlamp hboot

theorem exec_iodReset_railsDown (hup : s.board.railsUp = false) :
    exec (.iodReset d) s = .next (s.answer 0x08 trNotReady []) :=
  (tray_answered hlamp hboot _).trans (congrArg _ (if_pos (by simp [hup])))

theorem exec_iodReset_inReset (hup : s.board.railsUp = true) (hdue : s.board.coldDue = true ∨ s.board.warmDue = true) :
    exec (.iodReset d) s = .next (s.answer 0x08 trBusy []) :=
  (tray_answered hlamp hboot _).trans
    (congrArg _ ((if_neg (by simp [hup])).trans (if_pos (Bool.or_eq_true_iff.2 hdue))))

theorem exec_iodReset_started (hup : s.board.railsUp = true) (hcold : s.board.coldDue = false)
    (hwarm : s.board.warmDue = false) : exec (.iodReset d) s =
      .next (if d < 4 then (s.resetDie d).answer 0x08 trOk [] else s.answer 0x08 trInvalidData []) :=
  (tray_answered hlamp hboot _).trans
    (congrArg _ ((if_neg (by simp [hup])).trans (if_neg (by simp [hcold, hwarm]))))

theorem iodReset_answers (hup : s.board.railsUp = true) (hcold : s.board.coldDue = false)
    (hwarm : s.board.warmDue = false) (hd : d < 4) : Answers (.iodReset d) s fun t =>
      t.fabBlock d = FabBlock.reset ∧ ∀ e, e ≠ d → t.fabBlock e = s.fabBlock e := by
  refine .of_next (exec_iodReset_started hlamp hboot hup hcold hwarm) (if_pos hd) ?_
  exact ⟨by simp [State.fabBlock_resetDie], fun e he => by simp [State.fabBlock_resetDie, he]⟩

end

/-- Settles O49, message by message. -/
theorem trayMessages : Obligations.TrayMessages := by
  refine ⟨fun s m o w iod off count comp vals hmute i hi => ?mute, fun s hlamp hboot => ?messages,
    fun s => ⟨coolantReportStale_answers, exec_coolantReportStale_fresh, coolantHoldExpiry_answers,
      exec_coolantHoldExpiry_idle⟩⟩
  case mute =>
    obtain ⟨f, hf⟩ := exec_tray s m o w iod off count comp vals i hi
    exact hf.trans (tray_discarded hmute f)
  case messages =>
    refine ⟨fun _ o => coolantReport_answers o hlamp hboot, fun _ o => exec_coolantReport_invalid o hlamp hboot,
      fun w => ⟨rackCeiling_answers hlamp hboot, exec_rackCeiling_outside hlamp hboot⟩,
      serviceClear_answers hlamp hboot, exec_serviceClear_unlatched hlamp hboot,
      fun hdown iod off count vals => ⟨exec_fabRead_notServing hlamp hboot hdown iod off count,
        exec_fabWrite_notServing hlamp hboot hdown iod off vals⟩,
      fun hserves iod off => ?fabric, telemRead_answers hlamp hboot,
      fun d => ⟨exec_iodReset_railsDown hlamp hboot, exec_iodReset_inReset hlamp hboot, fun hup hcold hwarm =>
        ⟨iodReset_answers hlamp hboot hup hcold hwarm, fun hd =>
          (exec_iodReset_started hlamp hboot hup hcold hwarm).trans (congrArg _ (if_neg (Nat.not_lt.2 hd)))⟩⟩,
      tray_answered hlamp hboot _, s.stateWord_fields⟩
    case fabric =>
      have hread := exec_fabRead_serving hlamp hboot hserves (iod := iod) (off := off)
      have hwrite := exec_fabWrite_serving hlamp hboot hserves (iod := iod) (off := off)
      exact ⟨fun count hok => (hread count).trans (congrArg _ (if_pos hok)),
        fun count hbad => (hread count).trans (congrArg _ (if_neg (by simp [hbad]))),
        fun v hok => (hwrite [v]).trans (congrArg _ (if_pos hok)),
        fun v w hok => (hwrite [v, w]).trans (congrArg _ (if_pos hok)),
        fun vals hbad => (hwrite vals).trans (congrArg _ (if_neg (by simp [hbad])))⟩

end Sys2Proof.Machine

end

section
/-! Steps and starts: the front command of a step, and a start that reads back a bad copy of the boot record. -/

namespace Sys2Proof.Machine

/-- Settles O1: `step` is `exec` of the front command by definition, and idles on an empty queue. -/
theorem stepRunsFrontCommand : Obligations.StepRunsFrontCommand :=
  ⟨fun _ _ _ => rfl, fun _ h => by simp [step, h]⟩

/-- The copy of the boot record that governs before the start names slot B of `PEC`, which is empty: no image of
Lamplighter is compatible with it. -/
def misnamedBoot : BootRecord :=
  { seq := 1, crcGood := true, entries := List.replicate 1 resetBootEntry ++ { resetBootEntry with activeB := true } ::
      List.replicate 4 resetBootEntry }

/-- A cold start is due under `BOOTSEL` 01 on a module with that boot record; its older copy names slot A throughout. -/
def misnamed : State :=
  { State.reset with
    fuses := { State.reset.fuses with debugFuse := true }
    board := { State.reset.board with railsUp := true, coldDue := true, bootsel := 1 }
    flash := { State.reset.flash with boot0 := misnamedBoot } }

/-- The start reads the governing copy with a wrong CRC, and finds nothing else amiss. -/
def firstCopyBad : StartFindings :=
  { selfTestOk := true, bistFailed := [], stacksOk := BitVec.allOnes 32, dimms := [], edgesOk := BitVec.allOnes 12, sensorsFailed := []
    trimReadable := true, coeffsReadable := true, repaired := [], firstBeat := BitVec.allOnes 6, ctlAOk := true
    damaged := [], recordBad := 1, trainGood := true }

/-- The state that the start of `misnamed` ends in. -/
def misnamedStarted : State :=
  match exec (.coldStart firstCopyBad) misnamed with
  | .next t => t
  | _ => misnamed

theorem misnamed_imageOk : misnamed.imageOk 1 (misnamed.image false 1) = false := by decide +kernel

theorem exec_coldStart_misnamed : exec (.coldStart firstCopyBad) misnamed = .next misnamedStarted := rfl

/-- The older copy governs once the newer is bad, every component boots, and the start succeeds. -/
theorem misnamedStarted_startResult : misnamedStarted.flash.persist.startResult = 0 := by decide +kernel

/-- Refutes O46: an image that fails its checks before the start may pass them in it, for the start may find the
governing copy of the boot record bad, and the other copy names other images (R444). -/
theorem not_starts : ¬ Obligations.Starts := by
  unfold Obligations.Starts
  intro h
  obtain ⟨-, -, hcold, -⟩ := h misnamed firstCopyBad
  obtain ⟨-, -, hmissing⟩ := hcold rfl rfl
  obtain ⟨t, ht, hresult, -⟩ := hmissing 1 (by decide) rfl (.inr rfl) rfl misnamed_imageOk
  rw [exec_coldStart_misnamed] at ht
  obtain rfl := Host.Outcome.next.inj ht
  exact absurd (misnamedStarted_startResult.symm.trans hresult) (by decide)

end Sys2Proof.Machine

end

section
/-! The contents of the memories: device memory, host memory, the mailbox slots and the granules. An operation that
writes none of them leaves `State.memory` as it is; these lemmas say so, operation by operation. -/

namespace Sys2Proof.Machine

abbrev Contents : Type := List Host.Cell × SMap Byte × List Host.Cell × SMap Granule

/-- The canonical form, as `State.memoryWf` has it. -/
def Contents.Canon (m : Contents) : Prop :=
  Memory.wf m.1 = true ∧ Memory.rising m.2.1 = true ∧ Memory.wf m.2.2.1 = true ∧ SMap.sorted m.2.2.2 = true

/-- The contents of the memories of a state; `s.memoryWf` is `s.memory.Canon`. -/
def State.memory (s : State) : Contents := (s.mem.cells, s.mem.host, s.mail.bar2, s.mem.granules)

theorem Contents.Canon.of_eq {m n : Contents} (hm : m.Canon) (h : n = m) : n.Canon := h ▸ hm

/-! `simp` reads the contents off a state that is written out. The proofs stand in parentheses so that these are
rewriting steps and not definitional ones, which the kernel would have to check by unfolding the states. -/

@[simp] theorem State.memory_mk (fuses : Fuses) (flash : Flash) (board : Board) (units : Units) (cells : SMap Cell)
    (banks : SMap CounterBank) (mem : Mem) (mail : Mail) (config : Config) (parts : List Part) (disp : Disp)
    (fabric : Fabric) (coll : Coll) (power : Power) (thermal : Thermal) (copy : Option StateCopy) (sec : Security)
    (upd : Update) (rcv : Recovery) (side : Sideband) (out : List OutMsg) (freeCtr : Nat) (pending : List Instr) :
    State.memory ⟨fuses, flash, board, units, cells, banks, mem, mail, config, parts, disp, fabric, coll, power,
      thermal, copy, sec, upd, rcv, side, out, freeCtr, pending⟩ = (mem.cells, mem.host, mail.bar2, mem.granules) :=
  (rfl)

@[simp] theorem State.memory_eta (s : State) :
    ((s.mem.cells, s.mem.host, s.mail.bar2, s.mem.granules) : Contents) = s.memory := (rfl)

@[simp] theorem foldl_memory {α : Type} (f : State → α → State) (hf : ∀ a x, (f a x).memory = a.memory)
    (l : List α) (s : State) : (l.foldl f s).memory = s.memory := by
  induction l generalizing s with
  | nil => rfl
  | cons x l ih => exact (ih _).trans (hf s x)

section
variable (s : State)

/-! ### Operations of `Ops` -/

@[simp] theorem State.free_memory : s.free.2.memory = s.memory := by simp [State.free]

@[simp] theorem State.spend_memory (n : Nat) : (s.spend n).memory = s.memory := by simp [State.spend]

@[simp] theorem State.emit_memory (m : OutMsg) : (s.emit m).memory = s.memory := by simp [State.emit]

@[simp] theorem State.setCell_memory (c : Nat) (k : Cell) : (s.setCell c k).memory = s.memory := by
  simp [State.setCell]

@[simp] theorem State.setBank_memory (b : Nat) (k : CounterBank) : (s.setBank b k).memory = s.memory := by
  simp [State.setBank]

@[simp] theorem State.setPart_memory (p : Nat) (v : Part) : (s.setPart p v).memory = s.memory := by
  simp [State.setPart]

@[simp] theorem State.setCtx_memory (p c : Nat) (v : Ctx) : (s.setCtx p c v).memory = s.memory := by
  simp [State.setCtx]

@[simp] theorem State.log_memory (event : BitVec 16) (source : BitVec 8) (object arg : BitVec 32) :
    (s.log event source object arg).memory = s.memory := by
  unfold State.log
  dsimp only
  (repeat' split) <;> simp

@[simp] theorem State.commitLog_memory : s.commitLog.memory = s.memory := by simp [State.commitLog]

@[simp] theorem State.recall_memory (pa n : Nat) : (s.recall pa n).memory = s.memory := by
  unfold State.recall
  dsimp only
  (repeat' split) <;> simp

/-! ### Operations of `CellOps` -/

@[simp] theorem State.countOne_memory (b mk cl priv cls : Nat) (e : Ev) :
    (s.countOne b mk cl priv cls e).memory = s.memory := by unfold State.countOne; split <;> simp

@[simp] theorem State.count_memory (b mk cl priv cls : Nat) (es : List Ev) :
    (s.count b mk cl priv cls es).memory = s.memory := by simp [State.count]

@[simp] theorem State.countCell_memory (c cls : Nat) (es : List Ev) : (s.countCell c cls es).memory = s.memory := by
  simp [State.countCell]

@[simp] theorem State.recallPieces_memory (ps : List Piece) : (s.recallPieces ps).memory = s.memory := by
  simp [State.recallPieces]

@[simp] theorem State.putEnd_memory (c : Nat) (k : Cell) : (s.putEnd c k).memory = s.memory := by
  unfold State.putEnd; split <;> simp

@[simp] theorem State.raise_memory (c : Nat) (cause : BitVec 8) (addr : Word) :
    (s.raise c cause addr).memory = s.memory := by
  unfold State.raise
  dsimp only
  (repeat' split) <;> simp

@[simp] theorem State.deliver_memory (c : Nat) : (s.deliver c).memory = s.memory := by
  unfold State.deliver
  dsimp only
  (repeat' split) <;> simp

/-! ### Operations of `Clock` -/

@[simp] theorem State.elapseCell_memory (c : Nat) : (s.elapseCell c).memory = s.memory := by
  unfold State.elapseCell; split <;> simp

@[simp] theorem State.elapseBank_memory (b : Nat) : (s.elapseBank b).memory = s.memory := by
  unfold State.elapseBank; split <;> simp

@[simp] theorem State.elapse_memory (c n : Nat) : (s.elapse c n).memory = s.memory := by
  unfold State.elapse
  split
  · rfl
  · split <;> simp

@[simp] theorem State.useSlots_memory (c n : Nat) : (s.useSlots c n).memory = s.memory := by
  unfold State.useSlots; split <;> simp

/-! ### Operations of `Mbox` -/

@[simp] theorem State.markStarted_memory (slot : Nat) : (s.markStarted slot).memory = s.memory := by
  simp [State.markStarted]

/-! ### Operations of `Protect` -/

@[simp] theorem State.seedDrbg_memory : s.seedDrbg.memory = s.memory := by simp [State.seedDrbg]

@[simp] theorem State.random_memory : s.random.2.memory = s.memory := by
  unfold State.random
  dsimp only
  (repeat' split) <;> simp

@[simp] theorem State.randoms_memory (n : Nat) : (s.randoms n).2.memory = s.memory := by
  induction n generalizing s with
  | zero => rfl
  | succ n ih => exact (ih _).trans s.random_memory

@[simp] theorem State.deriveKeys_memory (i : Option Image) : (s.deriveKeys i).memory = s.memory := by
  simp [State.deriveKeys]

@[simp] theorem State.newMemKey_memory : s.newMemKey.2.memory = s.memory := by simp [State.newMemKey]

/-! ### Operations of `Work` -/

@[simp] theorem State.countEngine_memory (es : List Ev) : (s.countEngine es).memory = s.memory := by
  simp [State.countEngine]

@[simp] theorem State.countAt_memory (pa code : Nat) : (s.countAt pa code).memory = s.memory := by
  unfold State.countAt; split <;> simp

@[simp] theorem State.recallEntries_memory (l : List Nat) : (s.recallEntries l).memory = s.memory := by
  simp [State.recallEntries]

@[simp] theorem State.vsnoop_memory (p c va n : Nat) : (s.vsnoop p c va n).memory = s.memory := by
  simp [State.vsnoop]

@[simp] theorem State.noteWaiting_memory (p c : Nat) : (s.noteWaiting p c).memory = s.memory := by
  unfold State.noteWaiting
  dsimp only
  (repeat' split) <;> simp

@[simp] theorem State.settleResidency_memory (p : Nat) : (s.settleResidency p).memory = s.memory := by
  unfold State.settleResidency
  dsimp only
  (repeat' split) <;> simp

@[simp] theorem State.freezeTotals_memory (p : Nat) : (s.freezeTotals p).memory = s.memory := by
  simp [State.freezeTotals]

@[simp] theorem State.dropSubmit_memory (order : Nat) : (s.dropSubmit order).memory = s.memory := by
  simp [State.dropSubmit]

@[simp] theorem State.setSubmit_memory (u : Submit) : (s.setSubmit u).memory = s.memory := by simp [State.setSubmit]

@[simp] theorem State.dropBatch_memory (slot : Nat) : (s.dropBatch slot).memory = s.memory := by
  simp [State.dropBatch]

@[simp] theorem State.dropTransfer_memory (slot : Nat) : (s.dropTransfer slot).memory = s.memory := by
  simp [State.dropTransfer]

@[simp] theorem State.dropWaiting_memory (slot : Nat) : (s.dropWaiting slot).memory = s.memory := by
  simp [State.dropWaiting]

@[simp] theorem State.dropComms_memory (p c : Nat) : (s.dropComms p c).memory = s.memory := by
  have h : ∀ (l : List Nat) (m : Mem), (l.foldl Mem.dropFeed m).cells = m.cells ∧
      (l.foldl Mem.dropFeed m).host = m.host ∧ (l.foldl Mem.dropFeed m).granules = m.granules := fun l => by
    induction l with
    | nil => exact fun m => ⟨rfl, rfl, rfl⟩
    | cons x l ih => exact fun m => ih (m.dropFeed x)
  simp [State.dropComms, h]

@[simp] theorem State.freeCells_memory (p c : Nat) : (s.freeCells p c).memory = s.memory := by
  simp [State.freeCells]

@[simp] theorem State.haltCells_memory (p c : Nat) : (s.haltCells p c).memory = s.memory := by
  simp [State.haltCells]

@[simp] theorem State.noteFence_memory (u : BitVec 32) (g : Option Nat) : (s.noteFence u g).memory = s.memory := by
  simp [State.noteFence]

@[simp] theorem State.countUncorr_memory (pa : Nat) : (s.countUncorr pa).memory = s.memory := by
  unfold State.countUncorr; split <;> simp

@[simp] theorem State.correctedError_memory (page : Nat) : (s.correctedError page).memory = s.memory := by
  unfold State.correctedError
  dsimp only
  (repeat' split) <;> simp

@[simp] theorem State.readCorrected_memory (b mk cl priv : Nat) (ps : List Piece) (e : Option Nat) :
    (s.readCorrected b mk cl priv ps e).memory = s.memory := by unfold State.readCorrected; split <;> simp

@[simp] theorem State.dropHeld_memory (p c : Nat) : (s.dropHeld p c).memory = s.memory := by simp [State.dropHeld]

@[simp] theorem State.uncommit_memory (f : Window → Bool) : (s.uncommit f).memory = s.memory := by
  simp [State.uncommit]

@[simp] theorem State.resetRegion_memory (g : Nat) : (s.resetRegion g).memory = s.memory := by
  simp [State.resetRegion]

@[simp] theorem State.resetRegions_memory (m : BitVec 8) : (s.resetRegions m).memory = s.memory := by
  simp [State.resetRegions]

/-! ### Operations of `Issue` -/

@[simp] theorem State.holdXlat_memory (b : Nat) (l : List Xent) : (s.holdXlat b l).memory = s.memory := by
  simp [State.holdXlat]

@[simp] theorem State.dropXlat_memory (p c : Nat) (cells : Nat → Bool) (f : Xent → Bool) :
    (s.dropXlat p c cells f).memory = s.memory := by simp [State.dropXlat]

@[simp] theorem State.dropXlats_memory (p c : Nat) : (s.dropXlats p c).memory = s.memory := by
  simp [State.dropXlats]

@[simp] theorem State.sample_memory (c : Nat) (k : Cell) (insn : BitVec 64) (ps : List Piece)
    (retired replayed : Bool) :
    (s.sample c k insn ps retired replayed).memory = s.memory := by
  unfold State.sample
  dsimp only
  (repeat' split) <;> simp

@[simp] theorem State.replay_memory (c : Nat) (u : Upset) (κ : Kind) (priv : Nat) :
    (s.replay c u κ priv).memory = s.memory := by
  unfold State.replay
  dsimp only
  (repeat' split) <;> simp

@[simp] theorem State.retire_memory (c : Nat) (κ : Kind) (priv : Nat) (idle : Bool) (evs : List Ev) :
    (s.retire c κ priv idle evs).memory = s.memory := by simp [State.retire]

@[simp] theorem State.afterRun_memory (s t : State) (c : Nat) (reads writes : List Piece)
    (retired replayed : Bool) :
    (s.afterRun t c reads writes retired replayed).memory = t.memory := by simp [State.afterRun]

/-! ### Operations of `CellEvents` -/

@[simp] theorem State.asyncSnoop_memory (c : Nat) (ps : List Piece) : (s.asyncSnoop c ps).memory = s.memory := by
  simp [State.asyncSnoop]

@[simp] theorem State.markClean_memory (t : Tag) (sp : Space) (user : Bool) (src dst : List Piece) :
    (s.markClean t sp user src dst).memory = s.memory := by simp [State.markClean]

/-! ### Operations of `UnitEvents` -/

@[simp] theorem State.tierRead_memory (g : Nat) (h : Hint) (va n : Nat) :
    (s.tierRead g h va n).1.memory = s.memory := by simp [State.tierRead]

@[simp] theorem State.setEdge_memory (e : Nat) (v : Edge) : (s.setEdge e v).memory = s.memory := by
  simp [State.setEdge]

/-! ### Operations of `Command` -/

@[simp] theorem State.advanceCtx_memory (p c : Nat) : (s.advanceCtx p c).memory = s.memory := by
  simp [State.advanceCtx]

@[simp] theorem State.startTransfer_memory (t : Taken) (fill : Bool) (src dst len pattern : Nat) (sp dp : Place) :
    (s.startTransfer t fill src dst len pattern sp dp).memory = s.memory := by simp [State.startTransfer]

@[simp] theorem State.setTransfer_memory (x : Transfer) : (s.setTransfer x).memory = s.memory := by
  simp [State.setTransfer]

@[simp] theorem State.countTransfer_memory (x : Transfer) (n : Nat) (rd wr : List Piece) :
    (s.countTransfer x n rd wr).memory = s.memory := by unfold State.countTransfer; split <;> simp

/-! ### Operations of `Sluice` -/

@[simp] theorem State.requestItems_memory (order : Nat) (cancel : Bool) :
    (s.requestItems order cancel).memory = s.memory := by simp [State.requestItems]

@[simp] theorem State.startItem_memory (u : Submit) (c : Nat) : (s.startItem u c).memory = s.memory := by
  simp [State.startItem]

/-! ### Operations of `Fabric` -/

@[simp] theorem State.setPort_memory (h : Nat) (k : Port) : (s.setPort h k).memory = s.memory := by
  simp [State.setPort]

@[simp] theorem State.setFabBlock_memory (d : Nat) (b : FabBlock) : (s.setFabBlock d b).memory = s.memory := by
  simp [State.setFabBlock]

@[simp] theorem State.drop_memory (src : Option Nat) (i : Fin 10) : (s.drop src i).memory = s.memory := by
  unfold State.drop; split <;> simp

@[simp] theorem State.emitFlits_memory (h : Nat) (l : List (List Byte)) : (s.emitFlits h l).memory = s.memory := by
  simp [State.emitFlits]

@[simp] theorem State.drainPort_memory (h : Nat) : (s.drainPort h).memory = s.memory := by simp [State.drainPort]

@[simp] theorem State.sendControl_memory (h kind : Nat) (fields : List Nat) :
    (s.sendControl h kind fields).memory = s.memory := by simp [State.sendControl]

@[simp] theorem State.sendPlain_memory (h ftype : Nat) : (s.sendPlain h ftype).memory = s.memory := by
  simp [State.sendPlain]

@[simp] theorem State.sendOn_memory (h : Nat) (w : Waiting) : (s.sendOn h w).memory = s.memory := by
  simp [State.sendOn]

@[simp] theorem State.forward_memory (w : Waiting) : (s.forward w).memory = s.memory := by
  unfold State.forward
  dsimp only
  (repeat' split) <;> simp

@[simp] theorem State.routePacket_memory (iod : Nat) (src : Option Nat) (p : Packet) :
    (s.routePacket iod src p).memory = s.memory := by
  unfold State.routePacket
  dsimp only
  (repeat' split) <;> simp

@[simp] theorem State.retryWaiting_memory : s.retryWaiting.memory = s.memory := by simp [State.retryWaiting]

@[simp] theorem State.retime_memory : s.retime.memory = s.memory := by
  unfold State.retime
  dsimp only
  (repeat' split) <;> simp

@[simp] theorem State.reroute_memory (h : Nat) (w : Waiting) : (s.reroute h w).memory = s.memory := by
  unfold State.reroute; split <;> simp

@[simp] theorem State.leaveLink_memory (h : Nat) (st : PortState) (cause : BitVec 4) :
    (s.leaveLink h st cause).memory = s.memory := by
  unfold State.leaveLink
  dsimp only
  (repeat' split) <;> simp

@[simp] theorem State.portDown_memory (h : Nat) (cause : BitVec 4) : (s.portDown h cause).memory = s.memory := by
  simp [State.portDown]

@[simp] theorem State.applyMode_memory (p : Nat) : (s.applyMode p).memory = s.memory := by
  unfold State.applyMode
  dsimp only
  (repeat' split) <;> simp

@[simp] theorem State.holdMode_memory (p : Nat) : (s.holdMode p).memory = s.memory := by
  unfold State.holdMode
  dsimp only
  (repeat' split) <;> simp

@[simp] theorem State.settlePort_memory (p : Nat) : (s.settlePort p).memory = s.memory := by
  unfold State.settlePort
  dsimp only
  split
  · simp
  · rw [foldl_memory]
    · simp
    · intro a h
      split <;> simp

@[simp] theorem State.settlePorts_memory : s.settlePorts.memory = s.memory := by simp [State.settlePorts]

@[simp] theorem State.resetHalves_memory (f : Nat → Bool) (st : Port → PortState) (logged : Bool) :
    (s.resetHalves f st logged).memory = s.memory := by
  refine foldl_memory _ (fun a h => ?_) _ _
  dsimp only
  split <;> simp

@[simp] theorem State.resetIodFabric_memory (d : Nat) : (s.resetIodFabric d).memory = s.memory := by
  simp [State.resetIodFabric]

@[simp] theorem State.pausePorts_memory : s.pausePorts.memory = s.memory := by simp [State.pausePorts]

@[simp] theorem State.resendAll_memory (h : Nat) : (s.resendAll h).memory = s.memory := by simp [State.resendAll]

@[simp] theorem State.resumePorts_memory : s.resumePorts.memory = s.memory := by
  refine foldl_memory _ (fun a h => ?_) _ _
  dsimp only
  split <;> simp

@[simp] theorem State.sendId_memory (h : Nat) : (s.sendId h).memory = s.memory := by simp [State.sendId]

@[simp] theorem State.enterSecure_memory (h : Nat) : (s.enterSecure h).memory = s.memory := by
  unfold State.enterSecure; split <;> simp

@[simp] theorem State.chooseInitiator_memory (h : Nat) : (s.chooseInitiator h).memory = s.memory := by
  unfold State.chooseInitiator
  dsimp only
  (repeat' split) <;> simp

@[simp] theorem State.retrain_memory (h : Nat) : (s.retrain h).memory = s.memory := by simp [State.retrain]

@[simp] theorem State.resend_memory (h : Nat) (ack : BitVec 12) : (s.resend h ack).memory = s.memory := by
  unfold State.resend
  dsimp only
  (repeat' split) <;> simp

@[simp] theorem State.linkNext_memory (a : Activation) (l : List Nat) : (s.linkNext a l).memory = s.memory := by
  induction l with
  | nil => rfl
  | cons h rest ih =>
    unfold State.linkNext
    split
    · rfl
    · split
      · simp
      · exact ih

@[simp] theorem State.linkTurn_memory : s.linkTurn.memory = s.memory := by
  unfold State.linkTurn
  split
  · split <;> simp
  · rfl

@[simp] theorem State.portCtl_memory (h : Nat) (v : BitVec 64) : (s.portCtl h v).memory = s.memory := by
  unfold State.portCtl
  dsimp only
  (repeat' split) <;> simp

@[simp] theorem State.writeFabEp_memory (v : BitVec 64) : (s.writeFabEp v).memory = s.memory := by
  unfold State.writeFabEp
  dsimp only
  rw [State.retime_memory, foldl_memory]
  · rfl
  · intro a h
    split
    · simp
    · split <;> simp

@[simp] theorem State.fabWriteReg_memory (d off : Nat) (v : BitVec 64) :
    (s.fabWriteReg d off v).memory = s.memory := by
  unfold State.fabWriteReg
  dsimp only
  (repeat' split) <;> simp

@[simp] theorem State.sendTimes_memory : s.sendTimes.memory = s.memory := by unfold State.sendTimes; split <;> simp

@[simp] theorem State.correctFrame_memory : s.correctFrame.memory = s.memory := by
  unfold State.correctFrame; split <;> simp

/-! ### Operations of `CollRun` -/

@[simp] theorem State.setComm_memory (k : Comm) : (s.setComm k).memory = s.memory := by simp [State.setComm]

@[simp] theorem State.setOp_memory (k : Comm) (o : CollOp) : (s.setOp k o).memory = s.memory := by
  simp [State.setOp]

@[simp] theorem State.withOp_memory (h : Nat) (f : Comm → CollOp → State) (hf : ∀ k o, (f k o).memory = s.memory) :
    (s.withOp h f).memory = s.memory := by
  unfold State.withOp
  split
  · split
    · exact hf ..
    · rfl
  · rfl

@[simp] theorem State.withOp_canon {s : State} (h : Nat) (f : Comm → CollOp → State)
    (hf : ∀ k o, (f k o).memory.Canon) (hm : s.memory.Canon) :
    (s.withOp h f).memory.Canon := by
  unfold State.withOp
  split
  · split
    · exact hf ..
    · exact hm
  · exact hm

@[simp] theorem State.setBatch_memory (b : Batch) : (s.setBatch b).memory = s.memory := by simp [State.setBatch]

@[simp] theorem State.collLog_memory (k : Comm) (ev : BitVec 16) : (s.collLog k ev).memory = s.memory := by
  simp [State.collLog]

@[simp] theorem State.collSend_memory (k : Comm) (pan : Bool) (dst t : Nat) (o : Obj) (payload : List Byte) :
    (s.collSend k pan dst t o payload).memory = s.memory := by
  rw [State.collSend]
  split
  · exact State.routePacket_memory ..
  · rfl

@[simp] theorem State.collNote_memory (k : Comm) (dst t : Nat) : (s.collNote k dst t).memory = s.memory := by
  simp [State.collNote]

@[simp] theorem State.collCredit_memory (k : Comm) (o : CollOp) (f : FlowKey) (n : Nat) (done : Bool) :
    (s.collCredit k o f n done).memory = s.memory := by simp [State.collCredit]

@[simp] theorem State.readSource_memory (s u : State) (k : Comm) (o : CollOp) (rs : List Ref) (evs : List Ev) :
    (s.readSource u k o rs evs).memory = u.memory := by simp [State.readSource]

@[simp] theorem State.freeWords_memory (n : Nat) : (s.freeWords n).2.memory = s.memory := by simp [State.freeWords]

@[simp] theorem State.addChunks_memory (wide : Bool) (rop : Nat) (a b : Chunk) :
    (s.addChunks wide rop a b).2.memory = s.memory := by
  unfold State.addChunks
  dsimp only
  (repeat' split) <;> simp

@[simp] theorem State.sendChunk_memory (k : Comm) (o : CollOp) (t : SendTask) (c : Chunk) :
    (s.sendChunk k o t c).memory = s.memory := by simp [State.sendChunk]

@[simp] theorem State.releaseStages_memory (h : Nat) : (s.releaseStages h).memory = s.memory := by
  refine State.withOp_memory _ _ _ (fun k o => ?_)
  dsimp only
  (repeat' split) <;> simp

@[simp] theorem State.grantMore_memory (h : Nat) : (s.grantMore h).memory = s.memory := by
  refine State.withOp_memory _ _ _ (fun _ o0 => foldl_memory _ (fun a f => ?_) _ _)
  refine State.withOp_memory _ _ _ (fun k o => ?_)
  split
  · dsimp only
    split <;> simp
  · rfl

@[simp] theorem State.grantFirst_memory (h : Nat) (f : FlowKey) : (s.grantFirst h f).memory = s.memory := by
  refine State.withOp_memory _ _ _ (fun k o => ?_)
  dsimp only
  (repeat' split) <;> simp

@[simp] theorem State.grantAll_memory (h : Nat) : (s.grantAll h).memory = s.memory := by
  refine State.withOp_memory _ _ _ (fun k o => ?_)
  (repeat' split) <;> simp

@[simp] theorem State.creditAfter_memory (h : Nat) (f : FlowKey) : (s.creditAfter h f).memory = s.memory := by
  refine State.withOp_memory _ _ _ (fun k o => ?_)
  dsimp only
  (repeat' split) <;> simp

@[simp] theorem State.grantPan_memory (r : PanReq) (pan : Nat) : (s.grantPan r pan).memory = s.memory := by
  simp [State.grantPan]

@[simp] theorem State.servePan_memory (pan fuel : Nat) : (s.servePan pan fuel).memory = s.memory := by
  induction fuel generalizing s with
  | zero => rfl
  | succ fuel ih =>
    unfold State.servePan
    split
    · rfl
    · split
      · exact (ih _).trans (by simp)
      · rfl

@[simp] theorem State.requestPans_memory (k : Comm) (wide : Bool) : (s.requestPans k wide).memory = s.memory := by
  refine foldl_memory _ (fun a t => ?_) _ _
  exact State.servePan_memory ..

@[simp] theorem State.disseminate_memory (h fuel : Nat) : (s.disseminate h fuel).memory = s.memory := by
  induction fuel generalizing s with
  | zero => rfl
  | succ fuel ih =>
    refine State.withOp_memory _ _ _ (fun k o => ?_)
    have h1 : (if o.barSent then s else (s.setOp k { o with barSent := true }).collSend k false
        ((k.rank + 2 ^ o.barRound) % k.n) ptBarDn { k.obj with arg := o.barRound } []).memory = s.memory := by
      split <;> simp
    dsimp only
    split
    · simp
    · split
      · exact (State.withOp_memory _ _ _ fun k1 o1 => (ih _).trans (by simp)).trans h1
      · exact h1

@[simp] theorem State.dropEarly_memory (h : Nat) : (s.dropEarly h).memory = s.memory := by
  unfold State.dropEarly; split <;> simp

@[simp] theorem State.markDst_memory (k : Comm) (o : CollOp) : (s.markDst k o).1.memory = s.memory := by
  simp [State.markDst]

/-! ### Operations of `Beacon` -/

@[simp] theorem State.setBeacon_memory (c : Nat) (b : Beacon) : (s.setBeacon c b).memory = s.memory := by
  simp [State.setBeacon]

@[simp] theorem State.beaconSend_memory (k : Comm) (c dst t : Nat) (v : BeaconVal) :
    (s.beaconSend k c dst t v).memory = s.memory := by simp [State.beaconSend]

@[simp] theorem State.noteTrigger_memory (k : Comm) (c : Nat) : (s.noteTrigger k c).memory = s.memory := by
  rw [State.noteTrigger]
  split
  · exact State.countAt_memory ..
  · rfl

@[simp] theorem State.settleBeacons_memory (before : ConfigSet) : (s.settleBeacons before).memory = s.memory := by
  refine foldl_memory _ (fun a c => ?_) _ _
  split <;> simp

/-! ### Operations of `Collective` -/

@[simp] theorem State.freeHandle_memory : s.freeHandle.2.memory = s.memory := by simp [State.freeHandle]

@[simp] theorem State.askReplay_memory (h : Nat) (fault : Bool) : (s.askReplay h fault).memory = s.memory := by
  unfold State.askReplay
  dsimp only
  (repeat' split) <;> simp

@[simp] theorem State.noteErrors_memory (h : Nat) (f : Flit) : (s.noteErrors h f).memory = s.memory := by
  unfold State.noteErrors
  dsimp only
  (repeat' split) <;> simp

@[simp] theorem State.takeControl_memory (h : Nat) (seq : BitVec 12) (payload : List Byte) :
    (s.takeControl h seq payload).memory = s.memory := by
  unfold State.takeControl
  dsimp only
  (repeat' split) <;> simp

@[simp] theorem State.answerFlit_memory (h : Nat) : (s.answerFlit h).memory = s.memory := by
  unfold State.answerFlit
  dsimp only
  (repeat' split) <;> simp

/-! ### Operations of `Operations` -/

@[simp] theorem State.setTarget_memory (old new : Target) : (s.setTarget old new).memory = s.memory := by
  unfold State.setTarget; split <;> simp

@[simp] theorem State.discard_memory (a : Target) : (s.discard a).memory = s.memory := by
  unfold State.discard; split <;> simp

@[simp] theorem State.applyStop_memory (t : Taken) (x : Target) (cancel hard : Bool) :
    (s.applyStop t x cancel hard).memory = s.memory := by
  unfold State.applyStop
  dsimp only
  (repeat' split) <;> simp

/-! ### Operations of `HostAccess` -/

@[simp] theorem State.setWindow_memory (i : Nat) (w : Window) : (s.setWindow i w).memory = s.memory := by
  simp [State.setWindow]

@[simp] theorem State.holdLine_memory (line : Nat) : (s.holdLine line).memory = s.memory := by
  unfold State.holdLine
  dsimp only
  (repeat' split) <;> simp

@[simp] theorem State.ras_memory (kind addr : Nat) : (s.ras kind addr).memory = s.memory := by simp [State.ras]

/-! ### Operations of `Control` -/

@[simp] theorem State.csrPut_memory (c : Nat) (k : Cell) (n : Nat) (v clear : Word) :
    (s.csrPut c k n v clear).memory = s.memory := by
  simp only [State.csrPut, apply_ite State.memory, State.setCell_memory, State.setBank_memory, ite_self]

/-! ### Operations of `Counters` -/

@[simp] theorem State.mapCells_memory (f : Nat → Cell → Cell) : (s.mapCells f).memory = s.memory := by
  simp [State.mapCells]

@[simp] theorem State.clearBlock_memory (b : Nat) : (s.clearBlock b).memory = s.memory := by simp [State.clearBlock]

@[simp] theorem State.clearChanged_memory (before : ConfigSet) : (s.clearChanged before).memory = s.memory := by
  simp [State.clearChanged]

@[simp] theorem State.elapseBlock_memory (b : Nat) : (s.elapseBlock b).memory = s.memory := by
  simp [State.elapseBlock]

@[simp] theorem State.configBlock_memory (q : CntPending) (b : Nat) : (s.configBlock q b).memory = s.memory := by
  simp [State.configBlock]

/-! ### Operations of `Estimator` -/

@[simp] theorem State.judgeRail_memory (r : Nat) : (s.judgeRail r).memory = s.memory := by
  unfold State.judgeRail
  dsimp only
  (repeat' split) <;> simp

@[simp] theorem State.collect_memory : s.collect.memory = s.memory := by
  unfold State.collect
  dsimp only
  (repeat' split) <;> simp

@[simp] theorem State.mismatchStep_memory : s.mismatchStep.memory = s.memory := by
  unfold State.mismatchStep
  dsimp only
  (repeat' split) <;> simp

@[simp] theorem State.estimate_memory : s.estimate.memory = s.memory := by simp [State.estimate]

@[simp] theorem State.storeCoeffs_memory : s.storeCoeffs.memory = s.memory := by simp [State.storeCoeffs]

@[simp] theorem State.loadCoeffs_memory (readable : Bool) : (s.loadCoeffs readable).memory = s.memory := by
  unfold State.loadCoeffs
  dsimp only
  (repeat' split) <;> simp

/-! ### Operations of `Thermal` -/

@[simp] theorem State.waitingResets_memory : s.waitingResets.memory = s.memory := by simp [State.waitingResets]

@[simp] theorem State.closeGate_memory (halt : Bool) : (s.closeGate halt).memory = s.memory := by
  unfold State.closeGate
  dsimp only
  (repeat' split) <;> simp

@[simp] theorem State.thawTimers_memory : s.thawTimers.memory = s.memory := by simp [State.thawTimers]

@[simp] theorem State.openGate_memory : s.openGate.memory = s.memory := by simp [State.openGate]

@[simp] theorem State.useReport_memory (x : CoolantMsg × Bool) : (s.useReport x).memory = s.memory := by
  unfold State.useReport
  dsimp only
  (repeat' split) <;> simp

@[simp] theorem State.useReports_memory : s.useReports.memory = s.memory := by simp [State.useReports]

@[simp] theorem State.settleHold_memory : s.settleHold.memory = s.memory := by simp [State.settleHold]

@[simp] theorem State.keepHistory_memory : s.keepHistory.memory = s.memory := by simp [State.keepHistory]

@[simp] theorem State.judgeSensor_memory (n : Nat) : (s.judgeSensor n).memory = s.memory := by
  unfold State.judgeSensor; split <;> simp

@[simp] theorem State.judgePair_memory (g : Nat) : (s.judgePair g).memory = s.memory := by
  unfold State.judgePair
  dsimp only
  (repeat' split) <;> simp

@[simp] theorem State.judgeSensors_memory : s.judgeSensors.memory = s.memory := by simp [State.judgeSensors]

@[simp] theorem State.limitRegion_memory (g : Nat) : (s.limitRegion g).memory = s.memory := by
  unfold State.limitRegion
  dsimp only
  (repeat' split) <;> simp

@[simp] theorem State.modelStep_memory : s.modelStep.memory = s.memory := by simp [State.modelStep]

@[simp] theorem State.thermalCap_memory (before : State) (px : ℚ) : (s.thermalCap before px).memory = s.memory := by
  simp [State.thermalCap]

@[simp] theorem State.coolantCap_memory : s.coolantCap.memory = s.memory := by
  unfold State.coolantCap
  dsimp only
  (repeat' split) <;> simp

@[simp] theorem State.haltStep_memory : s.haltStep.memory = s.memory := by
  unfold State.haltStep
  dsimp only
  (repeat' split) <;> simp

/-! ### Operations of `Power` -/

@[simp] theorem State.capStep_memory : s.capStep.memory = s.memory := by
  unfold State.capStep
  dsimp only
  (repeat' split) <;> simp

@[simp] theorem State.markBroken_memory : s.markBroken.memory = s.memory := by simp [State.markBroken]

@[simp] theorem State.logBroken_memory (object : Nat) : (s.logBroken object).memory = s.memory := by
  simp [State.logBroken]

@[simp] theorem State.suspendRegion_memory (g : Nat) : (s.suspendRegion g).memory = s.memory := by
  unfold State.suspendRegion
  dsimp only
  (repeat' split) <;> simp

@[simp] theorem State.resumeRegion_memory (g : Nat) : (s.resumeRegion g).memory = s.memory := by
  unfold State.resumeRegion
  dsimp only
  (repeat' split) <;> simp

@[simp] theorem State.suspendStep_memory : s.suspendStep.memory = s.memory := by
  unfold State.suspendStep
  dsimp only
  (repeat' split) <;> simp

@[simp] theorem State.outputs_memory (seed : Nat) : (s.outputs seed).memory = s.memory := by simp [State.outputs]

@[simp] theorem State.waitWrite_memory (w : ActiveWrite) : (s.waitWrite w).memory = s.memory := by
  simp [State.waitWrite]

@[simp] theorem State.hostTelem_memory (e : FrameEnergy) : (s.hostTelem e).memory = s.memory := by
  unfold State.hostTelem
  dsimp only
  (repeat' split) <;> simp

@[simp] theorem State.trayTelem_memory (e : FrameEnergy) : (s.trayTelem e).memory = s.memory := by
  unfold State.trayTelem; split <;> simp

@[simp] theorem State.coarseWindow_memory (e : FrameEnergy) : (s.coarseWindow e).memory = s.memory := by
  unfold State.coarseWindow; split <;> simp

@[simp] theorem State.telemetry_memory : s.telemetry.memory = s.memory := by unfold State.telemetry; split <;> simp

/-! ### Operations of `Frame` -/

@[simp] theorem State.sendVector_memory (due : BitVec 64) (s : State) (v : Nat) :
    (s.sendVector due v).memory = s.memory := by
  unfold State.sendVector
  dsimp only
  (repeat' split) <;> simp

@[simp] theorem State.sendVectors_memory : s.sendVectors.memory = s.memory := by
  unfold State.sendVectors
  dsimp only
  (repeat' split) <;> simp

@[simp] theorem State.publishFence_memory (x : BitVec 32 × Nat) : (s.publishFence x).memory = s.memory := by
  unfold State.publishFence
  dsimp only
  (repeat' split) <;> simp

@[simp] theorem State.publish_memory : s.publish.memory = s.memory := by simp [State.publish]

@[simp] theorem State.applyDead_memory : s.applyDead.memory = s.memory := by simp [State.applyDead]

@[simp] theorem State.correctSubmits_memory : s.correctSubmits.memory = s.memory := by simp [State.correctSubmits]

@[simp] theorem State.latch_memory (m : Snapshot) : (s.latch m).memory = s.memory := by simp [State.latch]

@[simp] theorem State.nextFrame_memory : s.nextFrame.memory = s.memory := by simp [State.nextFrame]

@[simp] theorem State.formerOutputs_memory : s.formerOutputs.2.memory = s.memory := by simp [State.formerOutputs]

@[simp] theorem State.actWrite_memory (b : Bool) (o : Outputs) : (s.actWrite b o).memory = s.memory := by
  unfold State.actWrite
  dsimp only
  (repeat' split) <;> simp

@[simp] theorem State.fromCopy_memory : s.fromCopy.memory = s.memory := by unfold State.fromCopy; split <;> simp

@[simp] theorem State.takeOver_memory (former nextFrame : Bool) :
    (s.takeOver former nextFrame).memory = s.memory := by simp [State.takeOver]

@[simp] theorem State.resetPair_memory : s.resetPair.memory = s.memory := by simp [State.resetPair]

@[simp] theorem State.resumeControl_memory : s.resumeControl.memory = s.memory := by simp [State.resumeControl]

/-! ### Operations of `Recovery` -/

@[simp] theorem State.persist_memory (f : Persist → Persist) : (s.persist f).memory = s.memory := by
  simp [State.persist]

@[simp] theorem State.alertOn_memory : s.alertOn.memory = s.memory := by simp [State.alertOn]

@[simp] theorem State.startFail_memory (code : Nat) : (s.startFail code).memory = s.memory := by
  simp [State.startFail]

@[simp] theorem State.resetSec_memory : s.resetSec.memory = s.memory := by simp [State.resetSec]

@[simp] theorem State.dropWork_memory : s.dropWork.memory = s.memory := by simp [State.dropWork]

@[simp] theorem State.resetPresent_memory : s.resetPresent.memory = s.memory := by
  unfold State.resetPresent; split <;> simp

@[simp] theorem State.advanceGen_memory : s.advanceGen.memory = s.memory := by simp [State.advanceGen]

@[simp] theorem State.dropLink_memory : s.dropLink.memory = s.memory := by simp [State.dropLink]

@[simp] theorem State.capture_memory (gen : BitVec 32) : (s.capture gen).memory = s.memory := by
  simp [State.capture]

@[simp] theorem State.logHang_memory (source : Nat) : (s.logHang source).memory = s.memory := by
  simp [State.logHang]

@[simp] theorem State.latchOut_memory : s.latchOut.memory = s.memory := by simp [State.latchOut]

@[simp] theorem State.outTest_memory : s.outTest.memory = s.memory := by
  unfold State.outTest
  split
  · split <;> simp
  · rfl

@[simp] theorem State.checkCtl_memory (beat : Bool) : (s.checkCtl beat).memory = s.memory := by
  unfold State.checkCtl; split <;> simp

@[simp] theorem State.checkSec_memory (beat : Bool) : (s.checkSec beat).memory = s.memory := by
  unfold State.checkSec
  dsimp only
  (repeat' split) <;> simp

/-! ### Operations of `Update` -/

@[simp] theorem State.writeBoot_memory (l : List BootEntry) : (s.writeBoot l).memory = s.memory := by
  unfold State.writeBoot
  dsimp only
  (repeat' split) <;> simp

@[simp] theorem State.setBootEntry_memory (comp : Nat) (e : BootEntry) :
    (s.setBootEntry comp e).memory = s.memory := by simp [State.setBootEntry]

@[simp] theorem State.setImage_memory (b : Bool) (comp : Nat) (i : Option Image) :
    (s.setImage b comp i).memory = s.memory := by unfold State.setImage; split <;> simp

@[simp] theorem State.openStaging_memory (comp : Nat) (pldm : Bool) (bytes : List Byte) :
    (s.openStaging comp pldm bytes).memory = s.memory := by simp [State.openStaging]

@[simp] theorem State.addPiece_memory (data : List Byte) (slot : Option Nat) (last : Bool) :
    (s.addPiece data slot last).memory = s.memory := by simp [State.addPiece]

@[simp] theorem State.dropStaging_memory : s.dropStaging.memory = s.memory := by simp [State.dropStaging]

@[simp] theorem State.closeStaging_memory (g : Staging) : (s.closeStaging g).1.memory = s.memory := by
  unfold State.closeStaging
  dsimp only
  (repeat' split) <;> simp

@[simp] theorem State.stagePiece_memory (t : Taken) (last : Bool) (piece : List Byte) :
    (s.stagePiece t last piece).memory = s.memory := by simp [State.stagePiece]

@[simp] theorem State.beginActivation_memory (comp : Nat) (slot : Option Nat) :
    (s.beginActivation comp slot).memory = s.memory := by
  unfold State.beginActivation
  dsimp only
  (repeat' split) <;> simp

@[simp] theorem State.activateBoot_memory (comp : Nat) : (s.activateBoot comp).memory = s.memory := by
  simp [State.activateBoot]

@[simp] theorem State.activateNext_memory (l : List Nat) (s : State) :
    (State.activateNext l s).memory = s.memory := by
  induction l generalizing s with
  | nil => rfl
  | cons c rest ih =>
    unfold State.activateNext
    split
    · rfl
    · split
      · exact (ih _).trans (State.activateBoot_memory ..)
      · simp

@[simp] theorem State.measChanged_memory (mask : Nat) : (s.measChanged mask).memory = s.memory := by
  simp [State.measChanged]

@[simp] theorem State.runImage_memory (comp : Nat) (i : Option Image) : (s.runImage comp i).memory = s.memory := by
  unfold State.runImage; split <;> simp

@[simp] theorem State.serve_memory (a : Activation) : (s.serve a).memory = s.memory := by
  unfold State.serve; split <;> simp

@[simp] theorem State.raiseFloor_memory (comp : Nat) : (s.raiseFloor comp).memory = s.memory := by
  unfold State.raiseFloor
  dsimp only
  (repeat' split) <;> simp

/-! ### Operations of `Start` -/

@[simp] theorem State.endParts_memory : s.endParts.memory = s.memory := by simp [State.endParts]

@[simp] theorem State.resetFabricAll_memory : s.resetFabricAll.memory = s.memory := by simp [State.resetFabricAll]

@[simp] theorem State.readFlash_memory (f : StartFindings) : (s.readFlash f).memory = s.memory := by
  simp [State.readFlash]

@[simp] theorem State.bootComponent_memory (comp : Nat) : (s.bootComponent comp).memory = s.memory := by
  unfold State.bootComponent
  dsimp only
  (repeat' split) <;> simp

@[simp] theorem State.bootLamp_memory (cold : Bool) : (s.bootLamp cold).memory = s.memory := by
  unfold State.bootLamp; split <;> simp

@[simp] theorem State.bootAll_memory : s.bootAll.memory = s.memory := by simp [State.bootAll]

@[simp] theorem State.noteLost_memory (hbm : BitVec 32) (edges : BitVec 12) (f : StartFindings) :
    (s.noteLost hbm edges f).memory = s.memory := by simp [State.noteLost]

@[simp] theorem State.train_memory (cold : Bool) (f : StartFindings) : (s.train cold f).memory = s.memory := by
  unfold State.train
  dsimp only
  (repeat' split) <;> simp

@[simp] theorem State.startControl_memory (cold : Bool) (f : StartFindings) :
    (s.startControl cold f).memory = s.memory := by simp [State.startControl]

@[simp] theorem State.startThermal_memory (cold : Bool) (f : StartFindings) :
    (s.startThermal cold f).memory = s.memory := by simp [State.startThermal]

@[simp] theorem State.finishStart_memory (kind : BitVec 2) : (s.finishStart kind).memory = s.memory := by
  unfold State.finishStart
  dsimp only
  (repeat' split) <;> simp

@[simp] theorem State.stopStart_memory (code : Nat) : (s.stopStart code).memory = s.memory := by
  simp [State.stopStart]

@[simp] theorem State.openDebug_memory : s.openDebug.memory = s.memory := by unfold State.openDebug; split <;> simp

/-! ### Operations of `Board` -/

@[simp] theorem State.recordCause_memory (cause : BitVec 8) : (s.recordCause cause).memory = s.memory := by
  simp [State.recordCause]

@[simp] theorem State.tryPowerUp_memory (o : PowerUp) : (s.tryPowerUp o).memory = s.memory := by
  unfold State.tryPowerUp
  dsimp only
  (repeat' split) <;> simp

@[simp] theorem State.lampDown_memory : s.lampDown.memory = s.memory := by simp [State.lampDown]

@[simp] theorem State.releaseCold_memory (slotId : BitVec 6) (bootsel : BitVec 2) (o : PowerUp) :
    (s.releaseCold slotId bootsel o).memory = s.memory := by
  unfold State.releaseCold
  dsimp only
  (repeat' split) <;> simp

/-! ### Operations of `Tray` -/

@[simp] theorem State.answer_memory (cmd code : Nat) (data : List Byte) :
    (s.answer cmd code data).memory = s.memory := by simp [State.answer]

@[simp] theorem State.takeReport_memory (m : CoolantMsg) : (s.takeReport m).memory = s.memory := by
  simp [State.takeReport]

@[simp] theorem State.noteTripReport_memory : s.noteTripReport.memory = s.memory := by simp [State.noteTripReport]

@[simp] theorem State.setRack_memory (w : Nat) : (s.setRack w).memory = s.memory := by simp [State.setRack]

@[simp] theorem State.fabWriteAll_memory (iod off : Nat) (l : List (BitVec 64)) :
    (s.fabWriteAll iod off l).memory = s.memory := by
  induction l generalizing s off with
  | nil => rfl
  | cons v rest ih => exact (ih _ _).trans (State.fabWriteReg_memory ..)

/-! ### Operations of `Sideband` -/

@[simp] theorem State.takeAddress_memory (a : BitVec 7) : (s.takeAddress a).memory = s.memory := by
  unfold State.takeAddress; split <;> simp

@[simp] theorem State.good_memory (l : List Nat) : (s.good l).memory = s.memory := by simp [State.good]

@[simp] theorem State.bad_memory (c : PldmCode) : (s.bad c).memory = s.memory := by simp [State.bad]

@[simp] theorem State.typeAnswer_memory (l : Option (List Nat)) : (s.typeAnswer l).memory = s.memory := by
  unfold State.typeAnswer; split <;> simp

@[simp] theorem State.pollEvent_memory : s.pollEvent.memory = s.memory := by unfold State.pollEvent; split <;> simp

@[simp] theorem State.ackEvent_memory : s.ackEvent.memory = s.memory := by unfold State.ackEvent; split <;> simp

@[simp] theorem State.setPldm_memory (p : PldmUpdate) : (s.setPldm p).memory = s.memory := by simp [State.setPldm]

@[simp] theorem State.pull_memory (off len : Nat) : (s.pull off len).memory = s.memory := by simp [State.pull]

@[simp] theorem State.endPldm_memory (m : List OutMsg) : (s.endPldm m).memory = s.memory := by simp [State.endPldm]

@[simp] theorem State.finishPldm_memory (g : Staging) : (s.finishPldm g).memory = s.memory := by
  unfold State.finishPldm
  dsimp only
  (repeat' split) <;> simp

@[simp] theorem State.goOn_memory (g : Staging) : (s.goOn g).memory = s.memory := by
  unfold State.goOn
  dsimp only
  (repeat' split) <;> simp

/-! ### Operations of `Attest` -/

@[simp] theorem State.reply_memory (cn : Conn) (kind : SpdmKind) (data : List Byte) :
    (s.reply cn kind data).memory = s.memory := by simp [State.reply]

@[simp] theorem State.refuse_memory (cn : Conn) (e : SpdmError) : (s.refuse cn e).memory = s.memory := by
  simp [State.refuse]

@[simp] theorem State.notReady_memory (cn : Conn) : (s.notReady cn).memory = s.memory := by simp [State.notReady]

@[simp] theorem State.setNego_memory (cn : Conn) (n : Nego) : (s.setNego cn n).memory = s.memory := by
  simp [State.setNego]

@[simp] theorem State.whenAgreed_memory {s f : State} (cn : Conn) (hf : f.memory = s.memory) :
    (s.whenAgreed cn f).memory = s.memory := by unfold State.whenAgreed; split <;> simp [hf]

@[simp] theorem State.whenSecure_memory {s f : State} (cn : Conn) (hf : f.memory = s.memory) :
    (s.whenSecure cn f).memory = s.memory := by unfold State.whenSecure; split <;> simp [hf]

@[simp] theorem State.whenSecure_canon {s f : State} (cn : Conn) (hm : s.memory.Canon) (hf : f.memory.Canon) :
    (s.whenSecure cn f).memory.Canon := by unfold State.whenSecure; split <;> simp [hm, hf]

@[simp] theorem State.onGetVersion_memory (cn : Conn) : (s.onGetVersion cn).memory = s.memory := by
  simp [State.onGetVersion]

@[simp] theorem State.onGetCapabilities_memory (cn : Conn) : (s.onGetCapabilities cn).memory = s.memory := by
  unfold State.onGetCapabilities; split <;> simp

@[simp] theorem State.onNegotiateAlgorithms_memory (cn : Conn) (a : AlgOffer) :
    (s.onNegotiateAlgorithms cn a).memory = s.memory := by unfold State.onNegotiateAlgorithms; split <;> simp

@[simp] theorem State.onGetDigests_memory (cn : Conn) : (s.onGetDigests cn).memory = s.memory := by
  simp [State.onGetDigests]

@[simp] theorem State.onGetCertificate_memory (cn : Conn) (slot off len : Nat) :
    (s.onGetCertificate cn slot off len).memory = s.memory := by
  unfold State.onGetCertificate
  dsimp only
  (repeat' split) <;> simp

@[simp] theorem State.sign_memory (text : List Byte) : (s.sign text).2.memory = s.memory := by simp [State.sign]

@[simp] theorem State.onChallenge_memory (cn : Conn) (slot : Nat) : (s.onChallenge cn slot).memory = s.memory := by
  unfold State.onChallenge; split <;> simp

@[simp] theorem State.newCosig_memory (cn : Conn) (sig : List Byte) : (s.newCosig cn sig).memory = s.memory := by
  simp [State.newCosig]

@[simp] theorem State.onGetMeasurements_memory (cn : Conn) (block : Nat) (signed : Bool) :
    (s.onGetMeasurements cn block signed).memory = s.memory := by
  unfold State.onGetMeasurements
  dsimp only
  (repeat' split) <;> simp

@[simp] theorem State.onKeyExchange_memory (cn : Conn) : (s.onKeyExchange cn).memory = s.memory := by
  unfold State.onKeyExchange
  dsimp only
  (repeat' split) <;> simp

@[simp] theorem State.onFinish_memory (cn : Conn) : (s.onFinish cn).memory = s.memory := by
  unfold State.onFinish
  dsimp only
  (repeat' split) <;> simp

@[simp] theorem State.onEndSession_memory (cn : Conn) : (s.onEndSession cn).memory = s.memory := by
  simp [State.onEndSession]

@[simp] theorem State.onKeyUpdate_memory (cn : Conn) : (s.onKeyUpdate cn).memory = s.memory := by
  simp [State.onKeyUpdate]

@[simp] theorem State.onHeartbeat_memory (cn : Conn) : (s.onHeartbeat cn).memory = s.memory := by
  simp [State.onHeartbeat]

@[simp] theorem State.onChunkSend_memory (cn : Conn) (handle : BitVec 8) (seq : Nat) (data : List Byte) :
    (s.onChunkSend cn handle seq data).memory = s.memory := by
  unfold State.onChunkSend
  dsimp only
  (repeat' split) <;> simp

@[simp] theorem State.onChunkGet_memory (cn : Conn) (handle : BitVec 8) (seq : Nat) :
    (s.onChunkGet cn handle seq).memory = s.memory := by
  unfold State.onChunkGet
  dsimp only
  (repeat' split) <;> simp

@[simp] theorem State.vendor_memory (cn : Conn) (code status : Nat) (id : BitVec 32) (data : List Byte) :
    (s.vendor cn code status id data).memory = s.memory := by simp [State.vendor]

@[simp] theorem State.giveRange_memory (cn : Conn) (code : Nat) (id : BitVec 32) (l : List Byte) (off len : Nat) :
    (s.giveRange cn code id l off len).memory = s.memory := by unfold State.giveRange; split <;> simp

@[simp] theorem State.onCosigFetch_memory (cn : Conn) (id : BitVec 32) (off len : Nat) :
    (s.onCosigFetch cn id off len).memory = s.memory := by unfold State.onCosigFetch; split <;> simp

@[simp] theorem State.onPqChainGet_memory (cn : Conn) (id : BitVec 32) (off len : Nat) :
    (s.onPqChainGet cn id off len).memory = s.memory := by unfold State.onPqChainGet; split <;> simp

@[simp] theorem State.onDebugNonce_memory (cn : Conn) : (s.onDebugNonce cn).memory = s.memory := by
  unfold State.onDebugNonce; split <;> simp

@[simp] theorem State.judgeToken_memory (cn : Conn) (id : BitVec 32) (issued : Nat) (l : List Byte) :
    (s.judgeToken cn id issued l).memory = s.memory := by unfold State.judgeToken; split <;> simp

@[simp] theorem State.onDebugToken_memory (cn : Conn) (id : BitVec 32) (off : Nat) (data : List Byte) :
    (s.onDebugToken cn id off data).memory = s.memory := by
  unfold State.onDebugToken
  dsimp only
  (repeat' split) <;> simp

@[simp] theorem State.setIde_memory (x : IdeStream) (v : IdeState) : (s.setIde x v).memory = s.memory := by
  unfold State.setIde; split <;> simp

@[simp] theorem State.doeSecure_memory {s f : State} (cn : Conn) (hf : f.memory = s.memory) :
    (s.doeSecure cn f).memory = s.memory := by unfold State.doeSecure; split <;> simp [hf]

@[simp] theorem State.doeSecure_canon {s f : State} (cn : Conn) (hm : s.memory.Canon) (hf : f.memory.Canon) :
    (s.doeSecure cn f).memory.Canon := by unfold State.doeSecure; split <;> simp [hm, hf]

@[simp] theorem State.ideReply_memory (op status : Nat) : (s.ideReply op status).memory = s.memory := by
  simp [State.ideReply]

@[simp] theorem State.onIdeQuery_memory (cn : Conn) (x : IdeStream) : (s.onIdeQuery cn x).memory = s.memory := by
  simp [State.onIdeQuery]

@[simp] theorem State.onKeyProg_memory (cn : Conn) (x : IdeStream) (set sub : Nat) :
    (s.onKeyProg cn x set sub).memory = s.memory := by
  unfold State.onKeyProg
  dsimp only
  (repeat' split) <;> simp

@[simp] theorem State.onSetGo_memory (cn : Conn) (x : IdeStream) (set sub : Nat) :
    (s.onSetGo cn x set sub).memory = s.memory := by
  unfold State.onSetGo
  dsimp only
  (repeat' split) <;> simp

@[simp] theorem State.tdiReply_memory (op status : Nat) (data : List Nat) :
    (s.tdiReply op status data).memory = s.memory := by simp [State.tdiReply]

@[simp] theorem State.setTsp_memory (w : Nat) (b : Bool) : (s.setTsp w b).memory = s.memory := by
  simp [State.setTsp]

@[simp] theorem State.onCdat_memory (entry : Nat) : (s.onCdat entry).memory = s.memory := by
  unfold State.onCdat; split <;> simp

@[simp] theorem State.relay_memory (cn : Conn) (r : Request) : (s.relay cn r).memory = s.memory := by
  unfold State.relay; split <;> simp

end

end Sys2Proof.Machine

end

section
/-! The operations that write the memories keep them in canonical form. -/

namespace Sys2Proof.Machine

/-! ### The parts of the contents -/

theorem foldl_canon {α : Type} (f : State → α → State) (hf : ∀ a x, a.memory.Canon → (f a x).memory.Canon)
    (l : List α) (s : State) (h : s.memory.Canon) : (l.foldl f s).memory.Canon := by
  induction l generalizing s with
  | nil => exact h
  | cons x l ih => exact ih _ (hf s x h)

theorem canon_ite {c : Prop} {_ : Decidable c} {t u : State} (ht : t.memory.Canon) (hu : u.memory.Canon) :
    (if c then t else u).memory.Canon := by
  split
  · exact ht
  · exact hu

theorem canon_ite_fst {α : Type} {c : Prop} {_ : Decidable c} {t u : State × α} (ht : t.1.memory.Canon)
    (hu : u.1.memory.Canon) : (if c then t else u).1.memory.Canon := by
  split
  · exact ht
  · exact hu


theorem rising_putBytes (l : List Byte) (m : SMap Byte) (a : Nat) (h : SMap.sorted m = true) :
    SMap.sorted (putBytes m a l) = true := by
  induction l generalizing m a with
  | nil => exact h
  | cons b l ih => exact ih _ _ (SMap.sorted_put m a b h)

theorem SMap.sorted_map {α β : Type} (f : Nat × α → β) (l : SMap α) (h : SMap.sorted l = true) :
    SMap.sorted (l.map fun x => (x.1, f x)) = true := by
  induction l with
  | nil => rfl
  | cons x l ih =>
    obtain ⟨habove, hl⟩ := (SMap.sorted_cons x.1 x.2 l).1 h
    refine (SMap.sorted_cons _ _ _).2 ⟨fun y hy => ?_, ih hl⟩
    obtain ⟨z, hz, rfl⟩ := List.mem_map.1 hy
    exact habove z hz

theorem canon_getD {x : Option State} {s : State} (hx : ∀ t, x = some t → t.memory.Canon) (hs : s.memory.Canon) :
    (x.getD s).memory.Canon := by
  cases x with
  | none => exact hs
  | some t => exact hx t rfl

theorem foldl_fst_canon {α β : Type} (f : State × β → α → State × β)
    (hf : ∀ a x, a.1.memory.Canon → (f a x).1.memory.Canon) (l : List α) (a : State × β) (h : a.1.memory.Canon) :
    (l.foldl f a).1.memory.Canon := by
  induction l generalizing a with
  | nil => exact h
  | cons x l ih => exact ih _ (hf a x h)

section
variable {s : State}

/-! ### Operations of `Ops` -/

/-- Memories with other device memory that is canonical. -/
theorem Contents.Canon.withCells {m : Contents} {l : List Host.Cell} (hm : m.Canon) (hl : Memory.wf l = true) :
    Contents.Canon (l, m.2) :=
  ⟨hl, hm.2⟩

@[simp] theorem State.setGranule_canon (g : Nat) (v : Granule) (hm : s.memory.Canon) :
    (s.setGranule g v).memory.Canon := by
  obtain ⟨hcells, hhost, hbar, hgranules⟩ := hm
  refine ⟨hcells, hhost, hbar, ?_⟩
  show SMap.sorted (if _ then _ else _) = true
  split
  · exact SMap.sorted_del _ _ hgranules
  · exact SMap.sorted_put _ _ _ hgranules

@[simp] theorem State.firstWrite_canon (g : Nat) (hm : s.memory.Canon) : (s.firstWrite g).memory.Canon := by
  unfold State.firstWrite
  split
  · exact hm
  · have h := State.setGranule_canon g { s.granule g with scrub := .clean } hm
    exact h.withCells (Memory.wf_zero _ _ _ h.1)

@[simp] theorem State.takeLine_canon (t : Tag) (line : Nat) (hm : s.memory.Canon) :
    (s.takeLine t line).memory.Canon := by
  refine hm.withCells (?_ : Memory.wf (if _ then _ else _) = true)
  split
  · exact hm.1
  · exact Memory.wf_zero _ _ _ hm.1

@[simp] theorem State.writeByte_canon (t : Tag) (pa : Nat) (b : Byte) (hm : s.memory.Canon) :
    (s.writeByte t pa b).memory.Canon := by
  have hfirst := State.firstWrite_canon (pa / granuleSize) hm
  have hline := State.takeLine_canon t (pa / 256) hm
  obtain ⟨hcells, hhost, hbar, hgranules⟩ := hm
  unfold State.writeByte
  split
  · exact hfirst.withCells (Memory.wf_set _ _ _ hfirst.1)
  · exact hfirst.withCells (Memory.wf_set _ _ _ hfirst.1)
  · exact hline.withCells (Memory.wf_set _ _ _ hline.1)
  · exact hline.withCells (Memory.wf_set _ _ _ hline.1)
  · exact ⟨hcells, SMap.sorted_put _ _ _ hhost, hbar, hgranules⟩
  all_goals exact ⟨hcells, hhost, hbar, hgranules⟩

@[simp] theorem State.writeBytes_canon (t : Tag) (pa : Nat) (l : List Byte) (hm : s.memory.Canon) :
    (s.writeBytes t pa l).memory.Canon := by
  induction l generalizing s pa with
  | nil => exact hm
  | cons b rest ih => exact ih _ (State.writeByte_canon t pa b hm)

@[simp] theorem State.hostWrite_canon (a : Nat) (l : List Byte) (hm : s.memory.Canon) :
    (s.hostWrite a l).memory.Canon := by
  obtain ⟨hcells, hhost, hbar, hgranules⟩ := hm
  refine ⟨hcells, ?_, hbar, hgranules⟩
  show SMap.sorted (if _ then _ else _) = true
  split
  · exact hhost
  · exact rising_putBytes _ _ _ hhost

/-! ### Operations of `CellOps` -/

@[simp] theorem State.writePieces_canon (t : Tag) (ps : List Piece) (l : List Byte) (hm : s.memory.Canon) :
    (s.writePieces t ps l).memory.Canon := by
  induction ps generalizing s l with
  | nil => exact hm
  | cons p rest ih => exact ih _ (State.writeBytes_canon t p.pa (l.take p.len) (by simp [hm]))

/-! ### Operations of `Mbox` -/

@[simp] theorem State.complete_canon (t : Taken) (r : Report) (hm : s.memory.Canon) :
    (s.complete t r).memory.Canon := by
  have h : (s.free.2.hostWrite (s.mail.cmplBase.toNat + t.slot * 64)
      (completionRecord t r s.power.frame (s.free.1 % 4000))).memory.Canon := State.hostWrite_canon _ _ (by simpa
          using hm)
  obtain ⟨hcells, hhost, hbar, hgranules⟩ := h
  exact ⟨hcells, hhost, Memory.wf_set _ (t.slot * 256) ownReturned hbar, hgranules⟩

@[simp] theorem State.completeSlot_canon (slot : Nat) (r : Report) (hm : s.memory.Canon) :
    (s.completeSlot slot r).memory.Canon := by unfold State.completeSlot; split <;> simp [hm]

@[simp] theorem State.giveData_canon (t : Taken) (addr len : Nat) (data : List Byte) (hm : s.memory.Canon) :
    (s.giveData t addr len data).memory.Canon := by simp [State.giveData, hm]

/-! ### Operations of `Protect` -/

@[simp] theorem State.putLine_canon (line : Nat) (l : List Byte) (hm : s.memory.Canon) :
    (s.putLine line l).memory.Canon :=
  hm.withCells (Memory.wf_setAll _ _ _ hm.1)

@[simp] theorem State.meets_canon (b : Option BadData) (hm : s.memory.Canon) : (s.meets b).1.memory.Canon := by
  unfold State.meets
  dsimp only
  (repeat' split) <;> simp [hm]

/-! ### Operations of `Work` -/

theorem State.vwrite_canon {s t : State} {p c va : Nat} {l : List Byte} (hm : s.memory.Canon)
    (h : s.vwrite p c va l = some t) :
    t.memory.Canon := by
  rw [State.vwrite] at h
  split at h
  · exact Option.some.inj h ▸ State.writePieces_canon _ _ _ (by simpa using hm)
  · cases h

@[simp] theorem State.vwrite_getD_canon {s d : State} (p c va : Nat) (l : List Byte) (hm : s.memory.Canon)
    (hd : d.memory.Canon) :
    ((s.vwrite p c va l).getD d).memory.Canon :=
  canon_getD (fun _ h => State.vwrite_canon hm h) hd

@[simp] theorem State.endStop_canon (stop : Option StopReq) (status : Nat) (hm : s.memory.Canon) :
    (s.endStop stop status).memory.Canon := by unfold State.endStop; split <;> simp [hm]

@[simp] theorem State.endSubmit_canon (u : Submit) (status stopStatus : Nat) (hm : s.memory.Canon) :
    (s.endSubmit u status stopStatus).memory.Canon := by
  rw [State.endSubmit]
  refine State.endStop_canon _ _ ?_
  rw [State.freezeTotals_memory, State.dropSubmit_memory]
  refine State.completeSlot_canon _ _ ?_
  split <;> simp [hm]

@[simp] theorem State.endOver_canon (u : Submit) (hm : s.memory.Canon) : (s.endOver u).memory.Canon := by
  unfold State.endOver; split <;> simp [hm]

@[simp] theorem State.keepOrEnd_canon (u : Submit) (hm : s.memory.Canon) : (s.keepOrEnd u).memory.Canon := by
  unfold State.keepOrEnd; split <;> simp [hm]

@[simp] theorem State.settle_canon (u : Submit) (hm : s.memory.Canon) : (s.settle u).memory.Canon := by
  simp [State.settle, hm]

@[simp] theorem State.finishSubmits_canon (f : Submit → Bool) (hm : s.memory.Canon) :
    (s.finishSubmits f).memory.Canon := by
  unfold State.finishSubmits
  refine foldl_canon _ (fun a x h => ?_) _ _ (by simp [hm])
  simp [h]

@[simp] theorem State.endCommand_canon (status : Nat) (t : Taken) (hm : s.memory.Canon) :
    (s.endCommand status t).memory.Canon := by
  unfold State.endCommand
  dsimp only
  (repeat' split) <;> simp [hm]

@[simp] theorem State.endCommands_canon (p c status : Nat) (but : Option Nat) (hm : s.memory.Canon) :
    (s.endCommands p c status but).memory.Canon := by
  unfold State.endCommands
  refine foldl_canon _ (fun a x h => ?_) _ _ (by simp [hm])
  simp [h]

@[simp] theorem State.freeFill_canon (t : Tag) (ps : List Piece) (hm : s.memory.Canon) :
    (s.freeFill t ps).memory.Canon :=
  State.writePieces_canon t ps _ (by simpa using hm)

@[simp] theorem State.cutAsync_canon (c : Nat) (hm : s.memory.Canon) : (s.cutAsync c).memory.Canon := by
  unfold State.cutAsync
  refine foldl_canon _ (fun a x h => ?_) _ _ (by simp [hm])
  simp [h]

@[simp] theorem State.cutShort_canon (p c : Nat) (hm : s.memory.Canon) : (s.cutShort p c).memory.Canon := by
  unfold State.cutShort
  refine foldl_canon _ (fun a x h => State.freeFill_canon _ _ h) _ _ ?_
  exact foldl_canon _ (fun a x h => State.cutAsync_canon _ h) _ _ hm

@[simp] theorem State.stopContext_canon (p c status : Nat) (hm : s.memory.Canon) :
    (s.stopContext p c status).memory.Canon := by
  unfold State.stopContext
  dsimp only
  (repeat' split) <;> simp [hm]

@[simp] theorem State.stopPart_canon (p status : Nat) (hm : s.memory.Canon) :
    (s.stopPart p status).memory.Canon := by
  unfold State.stopPart
  refine foldl_canon _ (fun a x h => ?_) _ _ (by simp [hm])
  simp [h]

@[simp] theorem State.stopOwner_canon (g status : Nat) (hm : s.memory.Canon) :
    (s.stopOwner g status).memory.Canon := by unfold State.stopOwner; split <;> simp [hm]

@[simp] theorem State.loseItem_canon (c : Nat) (unit : BitVec 32) (hm : s.memory.Canon) :
    (s.loseItem c unit).memory.Canon := by
  unfold State.loseItem
  dsimp only
  (repeat' split) <;> simp [hm]

@[simp] theorem State.fenceBlock_canon (b cause : Nat) (hm : s.memory.Canon) :
    (s.fenceBlock b cause).memory.Canon := by unfold State.fenceBlock; split <;> simp [hm]

@[simp] theorem State.isolate_canon (g cause : Nat) (hm : s.memory.Canon) : (s.isolate g cause).memory.Canon := by
  unfold State.isolate; split <;> simp [hm]

@[simp] theorem State.fenceBlockUp_canon (b cause : Nat) (hm : s.memory.Canon) :
    (s.fenceBlockUp b cause).memory.Canon := by
  unfold State.fenceBlockUp
  dsimp only
  (repeat' split) <;> simp [hm]

@[simp] theorem State.dropCell_canon (c cause : Nat) (hm : s.memory.Canon) : (s.dropCell c cause).memory.Canon := by
  unfold State.dropCell
  split
  · dsimp only
    split <;> simp [hm]
  · exact hm

@[simp] theorem State.fenceCell_canon (c cause : Nat) (hm : s.memory.Canon) :
    (s.fenceCell c cause).memory.Canon := by unfold State.fenceCell; split <;> simp [hm]

@[simp] theorem State.loseStack_canon (n : Nat) (hm : s.memory.Canon) : (s.loseStack n).memory.Canon := by
  unfold State.loseStack; split <;> simp [hm]

@[simp] theorem State.loseDimm_canon (d : Nat) (hm : s.memory.Canon) : (s.loseDimm d).memory.Canon := by
  unfold State.loseDimm
  split
  · refine foldl_canon _ (fun a p h => ?_) _ _ (by simp [hm])
    split <;> simp [h]
  · exact hm

@[simp] theorem State.memoryLimits_canon (pa : Nat) (hm : s.memory.Canon) : (s.memoryLimits pa).memory.Canon := by
  unfold State.memoryLimits
  split
  · split <;> simp [hm]
  · split <;> simp [hm]
  · exact hm

@[simp] theorem State.retirePage_canon (page : Nat) (cause : BitVec 2) (hm : s.memory.Canon) :
    (s.retirePage page cause).memory.Canon := by unfold State.retirePage; split <;> simp [hm]

@[simp] theorem State.retirePending_canon (g : Nat) (hm : s.memory.Canon) : (s.retirePending g).memory.Canon := by
  unfold State.retirePending
  refine foldl_canon _ (fun a x h => ?_) _ _ (by simp [hm])
  simp [h]

@[simp] theorem State.uncorrectable_canon (pa : Nat) (cause : BitVec 2) (hm : s.memory.Canon) :
    (s.uncorrectable pa cause).memory.Canon := by unfold State.uncorrectable; split <;> simp [hm]

@[simp] theorem State.stopGranule_canon (g : Nat) (hm : s.memory.Canon) : (s.stopGranule g).memory.Canon := by
  unfold State.stopGranule; split <;> simp [hm]

theorem State.readBad_canon {s t : State} {p c : Nat} {ps : List Piece} {e : Option Nat} (hm : s.memory.Canon)
    (h : s.readBad p c ps e = some t) :
    t.memory.Canon := by
  obtain ⟨x, -, rfl⟩ := Option.map_eq_some_iff.1 h
  simp [hm]

theorem State.readMeets_canon (b mk priv p c : Nat) (ps : List Piece) (e : ReadErr) (go : State → State)
    (hgo : ∀ t, t.memory.Canon → (go t).memory.Canon) (hm : s.memory.Canon) :
    (s.readMeets b mk priv p c ps e go).memory.Canon := by
  have h : (s.meets e.bad).1.memory.Canon := by simp [hm]
  unfold State.readMeets
  dsimp only
  split
  next t ht => exact State.readBad_canon h ht
  next =>
    split
    · simp [h]
    · simp [hgo _ h]

@[simp] theorem State.freeGranule_canon (g : Nat) (hm : s.memory.Canon) : (s.freeGranule g).memory.Canon := by
  simp [State.freeGranule, hm]

/-! ### Operations of `Issue` -/

@[simp] theorem State.consumeBad_canon (c pa : Nat) (hm : s.memory.Canon) : (s.consumeBad c pa).memory.Canon := by
  unfold State.consumeBad; split <;> simp [hm]

/-! ### Operations of `Memory` -/

@[simp] theorem State.setSignal_canon (t : Tag) (pa bit : Nat) (hm : s.memory.Canon) :
    (s.setSignal t pa bit).memory.Canon := by simp [State.setSignal, hm]

/-! ### Operations of `CellEvents` -/

@[simp] theorem State.gatherStore_canon (k : Cell) (a : Async) (i : Nat) (row : List Byte) (hm : s.memory.Canon) :
    (s.gatherStore k a i row).memory.Canon := by
  unfold State.gatherStore
  refine foldl_canon _ (fun a x h => ?_) _ _ (by simp [hm])
  simp [h]

@[simp] theorem State.dropHint_canon (p c : Nat) (hm : s.memory.Canon) : (s.dropHint p c).memory.Canon := by
  have h (va n) := hm.of_eq (s.vsnoop_memory p c va n)
  rw [State.dropHint]
  split
  · exact State.vwrite_getD_canon _ _ _ _ (h _ _) (h _ _)
  · exact h _ _

@[simp] theorem State.postHint_canon (g : Nat) (h : Hint) (hm : s.memory.Canon) :
    (s.postHint g h).memory.Canon := by
  unfold State.postHint
  dsimp only
  (repeat' split) <;> simp [hm]

@[simp] theorem State.gatherFault_canon (c : Nat) (a : Async) (cause : BitVec 8) (va : Nat) (hm : s.memory.Canon) :
    (s.gatherFault c a cause va).memory.Canon := by simp [State.gatherFault, hm]

@[simp] theorem State.gatherDone_canon (c : Nat) (a : Async) (rs : List LaneRes) (hm : s.memory.Canon) :
    (s.gatherDone c a rs).memory.Canon := by
  have h1 : ∀ (k : Cell) (t : Tag), ((List.range rs.length).foldl (fun x i =>
      match rs.getD i .skip with
      | .row ps _ _ => x.gatherStore k a i (s.readPieces t ps)
      | _ => x) s).memory.Canon := fun k t => by
    refine foldl_canon _ (fun x i h => ?_) _ _ hm
    split <;> simp [h]
  rw [State.gatherDone]
  simp only [State.count_memory, State.putEnd_memory]
  exact foldl_canon _ (fun a x h => State.postHint_canon _ _ h) _ _ (h1 _ _)

@[simp] theorem State.movePieces_canon (t : Tag) (all src dst : List Piece) (hm : s.memory.Canon) :
    (s.movePieces t all src dst).memory.Canon := by simp [State.movePieces, hm]

@[simp] theorem State.mcopyDone_canon (c : Nat) (a : Async) (hm : s.memory.Canon) :
    (s.mcopyDone c a).memory.Canon := by
  unfold State.mcopyDone
  dsimp only
  (repeat' split) <;> simp [hm]

/-! ### Operations of `UnitEvents` -/

@[simp] theorem State.tierWrite_canon (g : Nat) (h : Hint) (va : Nat) (l : List Byte) (hm : s.memory.Canon) :
    (s.tierWrite g h va l).1.memory.Canon := by
  rw [State.tierWrite]
  split
  next t ht => simp [State.vwrite_canon hm ht]
  next => exact hm

@[simp] theorem State.doneRecord_canon (g : Nat) (h : Hint) (word : Nat) (hm : s.memory.Canon) :
    (s.doneRecord g h word).1.memory.Canon := by
  have hr := hm.of_eq (s.tierRead_memory g h (s.ctx h.part h.ctx).tierCb.toNat 0x40)
  rw [State.doneRecord]
  split
  · exact hr
  · have hw (va l) := State.tierWrite_canon g h va l hr
    exact canon_ite_fst (State.tierWrite_canon _ _ _ _ (hw ..)) (hw ..)

@[simp] theorem State.endPromotion_canon (g : Nat) (h : Hint) (word : Nat) (hm : s.memory.Canon) :
    (s.endPromotion g h word).memory.Canon := by
  unfold State.endPromotion
  dsimp only
  (repeat' split) <;> simp [hm]

@[simp] theorem State.promotionFault_canon (g : Nat) (h : Hint) (pool : Nat) (hm : s.memory.Canon) :
    (s.promotionFault g h pool).memory.Canon := by simp [State.promotionFault, hm]

set_option maxRecDepth 1000 in
@[simp] theorem State.promote_canon (g : Nat) (h : Hint) (pool : Nat) (hm : s.memory.Canon) :
    (s.promote g h pool).memory.Canon := by
  rw [State.promote]
  split
  · refine canon_ite (State.endPromotion_canon _ _ _ hm) ?_
    extract_lets b s1 r
    have h1 : s1.memory.Canon :=
      (State.movePieces_canon _ _ _ _ (hm.of_eq (State.vsnoop_memory ..))).of_eq (State.count_memory ..)
    clear_value s1
    have hr : r.1.memory.Canon := h1.of_eq (State.tierRead_memory ..)
    clear_value r
    split
    · exact State.promotionFault_canon _ _ _ hr
    · refine canon_ite ?_ (State.endPromotion_canon _ _ _ hr)
      have hw (va l) := State.tierWrite_canon g h va l hr
      exact canon_ite (State.endPromotion_canon _ _ _ (hw ..)) (State.promotionFault_canon _ _ _ (hw ..))
  · exact State.promotionFault_canon _ _ _ hm

set_option maxRecDepth 1000 in
@[simp] theorem State.takeHint_canon (g : Nat) (h : Hint) (hm : s.memory.Canon) :
    (s.takeHint g h).memory.Canon := by
  have hr := hm.of_eq (s.tierRead_memory g h (s.ctx h.part h.ctx).tierCb.toNat 0x40)
  rw [State.takeHint]
  split
  · exact hr
  · refine canon_ite (State.dropHint_canon _ _ hr) ?_
    extract_lets q
    have hq : q.1.memory.Canon := hr.of_eq (State.tierRead_memory ..)
    clear_value q
    split
    · exact State.promotionFault_canon _ _ _ (hq.of_eq (State.free_memory _))
    · have hw (va l) := State.tierWrite_canon g h va l hq
      exact canon_ite (State.promote_canon _ _ _ (hw ..)) (State.promotionFault_canon _ _ _ (hw ..))

@[simp] theorem State.leaveService_canon (hm : s.memory.Canon) : s.leaveService.memory.Canon := by
  unfold State.leaveService
  dsimp only
  rw [State.memory_mk, State.memory_eta]
  refine foldl_canon _ (fun a t h => State.endCommand_canon _ _ h) _ _ ?_
  exact foldl_canon _ (fun a p h => State.stopPart_canon _ _ h) _ _ hm

@[simp] theorem State.splitRing_canon (hm : s.memory.Canon) : s.splitRing.memory.Canon := by
  have h : ∀ l : List (Nat × Nat), (l.foldl (fun a x => a.isolate x.2 0x09) s).memory.Canon := fun l =>
    foldl_canon _ (fun a x h => by simp [h]) _ _ hm
  unfold State.splitRing
  dsimp only
  split
  · exact h _
  · split
    · exact h _
    · exact State.leaveService_canon (h _)

/-! ### Operations of `Command` -/

@[simp] theorem State.giveBuf_canon (t : Taken) (data : List Byte) (hm : s.memory.Canon) :
    (s.giveBuf t data).memory.Canon := by simp [State.giveBuf, hm]

@[simp] theorem State.awaitSec_canon (t : Taken) (hm : s.memory.Canon) : (s.awaitSec t).memory.Canon := by
  unfold State.awaitSec
  dsimp only
  (repeat' split) <;> simp [hm]

@[simp] theorem State.assign_canon (gs : List Nat) (o : Owner) (hm : s.memory.Canon) :
    (s.assign gs o).memory.Canon := by
  unfold State.assign
  refine foldl_canon _ (fun a x h => ?_) _ _ (by simp [hm])
  simp [h]

@[simp] theorem State.ctxOpenForm_canon (t : Taken) (op : Nat) (list : List Byte) (hm : s.memory.Canon) :
    (s.ctxOpenForm t op list).memory.Canon := by
  unfold State.ctxOpenForm
  dsimp only
  (repeat' split) <;> simp [hm]

@[simp] theorem State.beginTeardown_canon (p c : Nat) (hm : s.memory.Canon) :
    (s.beginTeardown p c).memory.Canon := by simp [State.beginTeardown, hm]

@[simp] theorem State.endTeardown_canon (p c : Nat) (hm : s.memory.Canon) : (s.endTeardown p c).memory.Canon := by
  unfold State.endTeardown
  dsimp only
  rw [State.setCtx_memory]
  exact foldl_canon _ (fun a g h => State.freeGranule_canon _ h) _ _ (by simp [hm])

@[simp] theorem State.advance_canon (x : Transfer) (upto : Nat) (hm : s.memory.Canon) :
    (s.advance x upto).1.memory.Canon := by
  unfold State.advance
  dsimp only
  (repeat' split) <;> simp [hm]

@[simp] theorem State.endTransfer_canon (x : Transfer) (status moved stopStatus : Nat) (hm : s.memory.Canon) :
    (s.endTransfer x status moved stopStatus).memory.Canon := by simp [State.endTransfer, hm]

/-! ### Operations of `Sluice` -/

@[simp] theorem State.scrambleLines_canon (p c : Nat) (hm : s.memory.Canon) :
    (s.scrambleLines p c).memory.Canon := by
  unfold State.scrambleLines
  refine foldl_canon _ (fun a x h => ?_) _ _ (by simp [hm])
  simp [h]

/-! ### Operations of `CollRun` -/

@[simp] theorem State.holdBatch_canon (b : Batch) (hm : s.memory.Canon) : (s.holdBatch b).memory.Canon := by
  simp [State.holdBatch, hm]

@[simp] theorem State.endBatch_canon (b : Batch) (status idx stopStatus : Nat) (hm : s.memory.Canon) :
    (s.endBatch b status idx stopStatus).memory.Canon := by simp [State.endBatch, hm]

@[simp] theorem State.batchAfter_canon (b : Batch) (status : Nat) (ovf fell : Bool) (hm : s.memory.Canon) :
    (s.batchAfter b status ovf fell).memory.Canon := by
  unfold State.batchAfter
  dsimp only
  (repeat' split) <;> simp [hm]

@[simp] theorem State.endOp_canon (h status : Nat) (hm : s.memory.Canon) : (s.endOp h status).memory.Canon := by
  refine State.withOp_canon _ _ (fun k o => ?_) hm
  extract_lets c1 s1
  have h1 : s1.memory.Canon := hm.of_eq (State.setComm_memory ..)
  split
  · exact h1
  · exact State.batchAfter_canon _ _ _ _ (State.vwrite_getD_canon _ _ _ _ h1 h1)

theorem State.writeBuffer_canon {k : Comm} {o : CollOp} {which va : Nat} {l : List Byte} {r : State × List Piece}
    (hm : s.memory.Canon) (h : s.writeBuffer k o which va l = some r) :
    r.1.memory.Canon := by
  rw [State.writeBuffer] at h
  split at h
  · cases h
    exact State.writePieces_canon _ _ _ (by simpa using hm)
  · cases h

@[simp] theorem State.toScratch_canon (k : Comm) (o : CollOp) (pos : Nat) (c : Chunk) (hm : s.memory.Canon) :
    (s.toScratch k o pos c).memory.Canon := by
  rw [State.toScratch]
  split
  · exact hm
  · dsimp only
    split
    next r hr =>
      have h := State.writeBuffer_canon (by simpa using hm) hr
      simp [h]
    next => simp [hm]

@[simp] theorem State.doAdd_canon (h : Nat) (t : AddTask) (hm : s.memory.Canon) : (s.doAdd h t).memory.Canon := by
  have hadds : ∀ (l : List Chunk) (x : Chunk × State) (wide : Bool) (n : Nat),
      (l.foldl (fun (x : Chunk × State) b => x.2.addChunks wide n x.1 b) x).2.memory = x.2.memory := fun l => by
    induction l with
    | nil => exact fun _ _ _ => rfl
    | cons b l ih => exact fun x wide n => (ih _ wide n).trans (State.addChunks_memory ..)
  refine State.withOp_canon _ _ (fun k o => ?_) hm
  split
  · exact hm
  · split <;> simp [hm, hadds]

@[simp] theorem State.signalChunk_canon (k : Comm) (o : CollOp) (c : Nat) (hm : s.memory.Canon) :
    (s.signalChunk k o c).memory.Canon := by
  rw [State.signalChunk]
  split
  next p _ _ =>
    extract_lets s1
    have h1 : s1.memory.Canon := (State.setSignal_canon _ _ _ hm).of_eq (State.countAt_memory ..)
    split
    · split
      next r hr => exact State.writeBuffer_canon h1 hr
      next => exact h1
    · exact h1
  next => exact State.endOp_canon _ _ hm

@[simp] theorem State.noteWritten_canon (h a b : Nat) (ps : List Piece) (hm : s.memory.Canon) :
    (s.noteWritten h a b ps).memory.Canon := by
  refine State.withOp_canon _ _ (fun k o => ?_) hm
  exact foldl_canon _ (fun a x ha => State.signalChunk_canon _ _ _ ha) _ _ (by simpa using hm)

@[simp] theorem State.doDlv_canon (h : Nat) (t : DlvTask) (hm : s.memory.Canon) : (s.doDlv h t).memory.Canon := by
  refine State.withOp_canon _ _ (fun k o => ?_) hm
  have hset (o1) : (s.setOp k o1).memory.Canon := by rw [State.setOp_memory]; exact hm
  split
  · exact hm
  · split
    · exact State.endOp_canon _ _ hm
    · extract_lets o1 bad o2 dr a b ws l
      split_ifs
      · exact hset _
      · exact hset _
      · exact hset _
      · split
        next r hr =>
          refine State.noteWritten_canon _ _ _ _ ?_
          rw [State.readSource_memory]
          exact State.writeBuffer_canon (hset _) hr
        next => exact State.endOp_canon _ _ hm

@[simp] theorem State.pumpSends_canon (h : Nat) (ts : List SendTask) (hm : s.memory.Canon) :
    (s.pumpSends h ts).memory.Canon := by
  unfold State.pumpSends
  refine foldl_fst_canon _ (fun x t hx => ?_) _ _ hm
  split
  · exact hx
  · split
    · exact hx
    · dsimp only
      split
      · exact hx
      · split <;> simp [hx]

@[simp] theorem State.closeOp_canon (h : Nat) (status : CollOp → Nat) (hm : s.memory.Canon) :
    (s.closeOp h status).memory.Canon := by
  refine State.withOp_canon _ _ (fun k o => ?_) hm
  (repeat' split) <;> simp [hm]

@[simp] theorem State.finishOp_canon (h : Nat) (hm : s.memory.Canon) : (s.finishOp h).memory.Canon := by
  refine State.withOp_canon _ _ (fun k o => ?_) hm
  (repeat' split) <;> simp [hm]

@[simp] theorem State.pump_canon (h : Nat) (hm : s.memory.Canon) : (s.pump h).memory.Canon := by
  rw [State.pump]
  extract_lets
  split
  · exact hm
  · refine State.finishOp_canon _ ?_
    rw [State.grantMore_memory, State.releaseStages_memory]
    refine State.pumpSends_canon _ _ ?_
    refine foldl_canon _ (fun a t ha => State.doDlv_canon _ _ ha) _ _ ?_
    exact foldl_canon _ (fun a t ha => State.doAdd_canon _ _ ha) _ _ hm

@[simp] theorem State.takePan_canon (h : Nat) (hm : s.memory.Canon) : (s.takePan h).memory.Canon := by
  refine State.withOp_canon _ _ (fun k o => ?_) hm
  dsimp only
  (repeat' split) <;> simp [hm]

@[simp] theorem State.tryClaim_canon (h : Nat) (hm : s.memory.Canon) : (s.tryClaim h).memory.Canon := by
  refine State.withOp_canon _ _ (fun k o => ?_) hm
  (repeat' split) <;> simp [hm]

@[simp] theorem State.claimAll_canon (hm : s.memory.Canon) : s.claimAll.memory.Canon := by
  unfold State.claimAll
  refine foldl_canon _ (fun a x h => ?_) _ _ (by simp [hm])
  simp [h]

@[simp] theorem State.fallBack_canon (h : Nat) (hm : s.memory.Canon) : (s.fallBack h).memory.Canon := by
  refine State.withOp_canon _ _ (fun k o => ?_) hm
  dsimp only
  (repeat' split) <;> simp [hm]

@[simp] theorem State.askFallback_canon (h : Nat) (hm : s.memory.Canon) : (s.askFallback h).memory.Canon := by
  refine State.withOp_canon _ _ (fun k o => ?_) hm
  (repeat' split) <;> simp [hm]

@[simp] theorem State.releaseBarrier_canon (h : Nat) (hm : s.memory.Canon) : (s.releaseBarrier h).memory.Canon := by
  refine State.withOp_canon _ _ (fun k o => ?_) hm
  (repeat' split) <;> simp [hm]

@[simp] theorem State.stepBarrier_canon (h : Nat) (hm : s.memory.Canon) : (s.stepBarrier h).memory.Canon := by
  refine State.withOp_canon _ _ (fun k o => ?_) hm
  (repeat' split) <;> simp [hm]

@[simp] theorem State.sumCounts_canon (h : Nat) (hm : s.memory.Canon) : (s.sumCounts h).memory.Canon := by
  refine State.withOp_canon _ _ (fun k o => ?_) hm
  dsimp only
  (repeat' split) <;> simp [hm]

@[simp] theorem State.takeCount_canon (h j n : Nat) (hm : s.memory.Canon) : (s.takeCount h j n).memory.Canon := by
  refine State.withOp_canon _ _ (fun k o => ?_) hm
  split
  · exact hm
  · split
    · simp [hm]
    next t ht =>
      have h1 := State.vwrite_canon (by simpa using hm) ht
      refine State.sumCounts_canon _ ?_
      split <;> simp [h1]

@[simp] theorem State.keepForwarded_canon (k : Comm) (o : CollOp) (r : Ref) (c : Chunk) (hm : s.memory.Canon) :
    (s.keepForwarded k o r c).memory.Canon := by
  unfold State.keepForwarded
  split
  · split <;> simp [hm]
  · exact hm

@[simp] theorem State.takeChunk_canon (h : Nat) (f : FlowKey) (arg : Nat) (add : Partial → Partial)
    (hm : s.memory.Canon) :
    (s.takeChunk h f arg add).memory.Canon := by
  refine State.withOp_canon _ _ (fun k o => ?_) hm
  dsimp only
  (repeat' split) <;> simp [hm]

@[simp] theorem State.opPacket_canon (h j : Nat) (p : Packet) (hm : s.memory.Canon) :
    (s.opPacket h j p).memory.Canon := by
  refine State.withOp_canon _ _ (fun k x0 => ?_) hm
  have h0 (x) : (s.setOp k x).memory.Canon := hm.of_eq (State.setOp_memory ..)
  have h1 (x y) : ((s.setOp k x).setOp k y).memory.Canon := (h0 x).of_eq (State.setOp_memory ..)
  refine canon_ite (State.takeChunk_canon _ _ _ _ (h0 _)) (canon_ite (State.takeChunk_canon _ _ _ _ (h0 _)) ?_)
  refine canon_ite (canon_ite (State.finishOp_canon _ (h1 _ _)) (State.pump_canon _ (h1 _ _))) ?_
  refine canon_ite (State.tryClaim_canon _ (h1 _ _)) (canon_ite (State.takePan_canon _ (h1 _ _)) ?_)
  refine canon_ite (State.askFallback_canon _ (h0 _)) (canon_ite (State.fallBack_canon _ (h0 _)) ?_)
  refine canon_ite (State.takeCount_canon _ _ _ (h0 _)) (canon_ite (State.stepBarrier_canon _ (h1 _ _)) ?_)
  exact canon_ite (canon_ite (State.stepBarrier_canon _ (h1 _ _)) (State.releaseBarrier_canon _ (h0 _))) (h0 _)

@[simp] theorem State.recordEarly_canon (k : Comm) (j : Nat) (p : Packet) (bit : Nat) (hm : s.memory.Canon) :
    (s.recordEarly k j p bit).memory.Canon := by
  rw [State.recordEarly]
  split
  · exact hm
  · exact State.vwrite_getD_canon _ _ _ _ hm hm

/-- What an early packet asks of an operation, done where its bit is set. -/
theorem State.early_canon {a : State} (c : Bool) (h : Nat) (g : Comm → CollOp → State) (ha : a.memory.Canon)
    (hg : ∀ k o, (g k o).memory.Canon) :
    (if c then a.withOp h g else a).memory.Canon :=
  canon_ite (State.withOp_canon _ _ hg ha) ha

set_option maxRecDepth 1000 in
@[simp] theorem State.applyEarly_canon (h j : Nat) (hm : s.memory.Canon) : (s.applyEarly h j).memory.Canon := by
  refine State.withOp_canon _ _ (fun k o => ?_) hm
  extract_lets seq s1 f
  split
  · exact hm
  · refine canon_ite hm ?_
    extract_lets act s2 s3 s4 s5 s6 s7
    have h1 : s1.memory.Canon := State.vwrite_getD_canon _ _ _ _ hm hm
    have h2 : s2.memory.Canon := State.early_canon _ _ _ h1 fun _ _ => by simp [h1]
    have h3 : s3.memory.Canon := State.early_canon _ _ _ h2 fun _ _ => by simp [h2]
    have h4 : s4.memory.Canon := State.early_canon _ _ _ h3 fun _ _ => by simp [h3]
    have h5 : s5.memory.Canon := State.early_canon _ _ _ h4 fun _ _ => by simp [h4]
    have h6 : s6.memory.Canon := State.early_canon _ _ _ h5 fun _ _ => canon_ite (by simp [h5]) (by simp [h5])
    have h7 : s7.memory.Canon := State.early_canon _ _ _ h6 fun _ _ => by simp [h6]
    exact State.early_canon _ _ _ h7 fun _ _ => by simp [h7]

@[simp] theorem State.commPacket_canon (k : Comm) (j : Nat) (p : Packet) (hm : s.memory.Canon) :
    (s.commPacket k j p).memory.Canon := by
  unfold State.commPacket
  dsimp only
  (repeat' split) <;> simp [hm]

@[simp] theorem State.beginOp_canon (h : Nat) (hm : s.memory.Canon) : (s.beginOp h).memory.Canon := by
  have early : ∀ (n : Nat) (a : State), a.memory.Canon →
      ((List.range n).foldl (fun a j => a.applyEarly h j) a).memory.Canon := fun n a ha =>
    foldl_canon _ (fun b j hb => State.applyEarly_canon _ _ hb) _ _ ha
  refine State.withOp_canon _ _ (fun k o => ?_) hm
  dsimp only
  split
  · exact early _ _ (by simp [hm])
  · split
    · refine early _ _ (State.sumCounts_canon _ ?_)
      split <;> simp [hm]
    · split
      · refine early _ _ (State.claimAll_canon ?_)
        simp [hm]
      · refine State.pump_canon _ (early _ _ ?_)
        simp [hm]

@[simp] theorem State.startDesc_canon (k : Comm) (b : Batch) (hm : s.memory.Canon) :
    (s.startDesc k b).memory.Canon := by
  unfold State.startDesc
  dsimp only
  (repeat' split) <;> simp [hm]

/-! ### Operations of `Beacon` -/

@[simp] theorem State.beaconResult_canon (k : Comm) (c : Nat) (bseq : BitVec 32) (status : Nat) (ovf : Bool)
    (data : List Byte) (hm : s.memory.Canon) :
    (s.beaconResult k c bseq status ovf data).memory.Canon := by
  have h1 (va l) := State.vwrite_getD_canon k.part k.ctx va l hm hm
  have h2 (va l va' l') := State.vwrite_getD_canon k.part k.ctx va' l' (h1 va l) (h1 va l)
  rw [State.beaconResult]
  split
  · rw [State.countAt_memory, State.countAt_memory]
    exact State.setSignal_canon _ _ _ (h2 ..)
  · exact h2 ..

@[simp] theorem State.beaconEnd_canon (k : Comm) (c : Nat) (v : BeaconVal) (hm : s.memory.Canon) :
    (s.beaconEnd k c v).memory.Canon := by
  unfold State.beaconEnd
  dsimp only
  (repeat' split) <;> simp [hm]

@[simp] theorem State.beaconDown_canon (k : Comm) (c : Nat) (v : BeaconVal) (hm : s.memory.Canon) :
    (s.beaconDown k c v).memory.Canon := by simp [State.beaconDown, hm]

@[simp] theorem State.beaconStep_canon (k : Comm) (c : Nat) (hm : s.memory.Canon) :
    (s.beaconStep k c).memory.Canon := by
  unfold State.beaconStep
  dsimp only
  (repeat' split) <;> simp [hm]

@[simp] theorem State.beaconTrigger_canon {s0 : State} (c : Nat) (bseq : BitVec 32) (hm : s0.memory.Canon) :
    (s0.beaconTrigger c bseq).memory.Canon := by
  unfold State.beaconTrigger
  dsimp only
  (repeat' split) <;> simp [hm]

@[simp] theorem State.beaconPacket_canon (k : Comm) (j : Nat) (p : Packet) (hm : s.memory.Canon) :
    (s.beaconPacket k j p).memory.Canon := by
  unfold State.beaconPacket
  dsimp only
  (repeat' split) <;> simp [hm]

@[simp] theorem State.handOver_canon (k : Comm) (j : Nat) (p : Packet) (hm : s.memory.Canon) :
    (s.handOver k j p).memory.Canon := by unfold State.handOver; split <;> simp [hm]

@[simp] theorem State.ingress_canon (a : Arrival) (hm : s.memory.Canon) : (s.ingress a).memory.Canon := by
  unfold State.ingress
  split
  · simp [hm]
  · split
    · simp [hm]
    · split
      · simp [hm]
      · split <;> simp [hm]

@[simp] theorem State.drainArrived_canon (fuel : Nat) (hm : s.memory.Canon) :
    (s.drainArrived fuel).memory.Canon := by
  induction fuel generalizing s with
  | zero => exact hm
  | succ fuel ih =>
    unfold State.drainArrived
    split
    · exact hm
    · exact ih (by simp [hm])

@[simp] theorem State.deliverAll_canon (hm : s.memory.Canon) : s.deliverAll.memory.Canon := by
  simp [State.deliverAll, hm]

/-! ### Operations of `Collective` -/

theorem State.engineMeets_canon (k : Option Comm) (f : DataFault) (go : State → State)
    (hgo : ∀ t, t.memory.Canon → (go t).memory.Canon) (hm : s.memory.Canon) :
    (s.engineMeets k f go).memory.Canon := by
  unfold State.engineMeets
  split
  · exact hgo _ hm
  · exact hgo _ hm
  · simp [hm]
  · dsimp only
    split
    · simp [hm]
    · exact hgo _ (by simp [hm])

@[simp] theorem arrives_canon (t : Nat) (p : Packet) {s : State} (hm : s.memory.Canon) :
    (arrives t p s).memory.Canon := by unfold arrives; split <;> simp [hm]

@[simp] theorem State.enginePacket_canon (t : Nat) (p : Packet) (f : DataFault) (hm : s.memory.Canon) :
    (s.enginePacket t p f).memory.Canon :=
  State.engineMeets_canon _ _ _ (fun _ h => arrives_canon _ _ h) hm

@[simp] theorem State.takeData_canon (h vl : Nat) (payload : List Byte) (hm : s.memory.Canon) :
    (s.takeData h vl payload).memory.Canon := by
  rw [State.takeData]
  split
  · exact hm
  · extract_lets r s1
    have h1 : s1.memory.Canon := hm.of_eq (State.setPort_memory ..)
    split
    · simp [h1]
    · refine State.deliverAll_canon (foldl_canon _ (fun a x ha => ?_) _ _ h1)
      split <;> simp [ha]

/-! ### Operations of `Operations` -/

@[simp] theorem State.submitPoint_canon (u : Submit) (hm : s.memory.Canon) : (s.submitPoint u).memory.Canon := by
  unfold State.submitPoint
  split
  · exact hm
  · split
    · simp [hm]
    · split
      · exact hm
      · simp [hm]

@[simp] theorem State.transferPoint_canon (x : Transfer) (hm : s.memory.Canon) :
    (s.transferPoint x).memory.Canon := by
  rw [State.transferPoint]
  split
  · exact hm
  · extract_lets f upto r
    have hr : r.1.memory.Canon := State.advance_canon _ _ (hm.of_eq (State.free_memory _))
    split
    · simp [hr]
    · split <;> simp [hr]

@[simp] theorem State.batchPoint_canon (b : Batch) (hm : s.memory.Canon) : (s.batchPoint b).memory.Canon := by
  unfold State.batchPoint
  dsimp only
  (repeat' split) <;> simp [hm]

/-! ### Operations of `HostAccess` -/

@[simp] theorem State.stopConf_canon (all : Bool) (hm : s.memory.Canon) : (s.stopConf all).memory.Canon := by
  refine foldl_canon _ (fun a p ha => foldl_canon _ (fun b c hb => ?_) _ _ ha) _ _ hm
  split <;> simp [hb]

@[simp] theorem State.admissionLost_canon (hm : s.memory.Canon) : s.admissionLost.memory.Canon := by
  simp [State.admissionLost, hm]

@[simp] theorem State.hostAdmissionLost_canon (hm : s.memory.Canon) : s.hostAdmissionLost.memory.Canon := by
  simp [State.hostAdmissionLost, hm]

@[simp] theorem State.settleAdmission_canon (before : State) {s : State} (hm : s.memory.Canon) :
    (State.settleAdmission before s).memory.Canon := by
  unfold State.settleAdmission
  dsimp only
  split
  · simp [hm]
  · split <;> simp [hm]

@[simp] theorem State.setTdi_canon (t : TdiState) (hm : s.memory.Canon) : (s.setTdi t).memory.Canon := by
  simp [State.setTdi, hm]

@[simp] theorem State.tdiChange_canon (hm : s.memory.Canon) : s.tdiChange.memory.Canon := by
  unfold State.tdiChange; split <;> simp [hm]

@[simp] theorem State.hostStore_canon (pa : Nat) (l : List Byte) (hm : s.memory.Canon) :
    (s.hostStore pa l).memory.Canon := by
  induction l generalizing s pa with
  | nil => exact hm
  | cons b rest ih =>
    refine ih _ ?_
    split <;> simp [hm]

@[simp] theorem State.writeReg_canon (r : HostReg) (v : BitVec 64) (hm : s.memory.Canon) :
    (s.writeReg r v).memory.Canon := by
  unfold State.writeReg
  split
  · split
    · exact hm
    · split
      · split
        · exact hm
        · exact hm
      · split
        · exact hm
        · split
          · exact State.tdiChange_canon hm
          · exact hm
  · split <;> simp [hm]
  · split
    · exact State.tdiChange_canon hm
    · exact hm
  · exact State.tdiChange_canon hm

/-! ### Operations of `Counters` -/

@[simp] theorem State.startCnt_canon (t : Taken) (op : Nat) (hm : s.memory.Canon) :
    (s.startCnt t op).memory.Canon := by
  unfold State.startCnt
  dsimp only
  (repeat' split) <;> simp [hm]

@[simp] theorem State.runCnt_canon (q : CntPending) (hm : s.memory.Canon) : (s.runCnt q).memory.Canon := by
  unfold State.runCnt
  dsimp only
  (repeat' split) <;> simp [hm]

@[simp] theorem State.runCounters_canon (hm : s.memory.Canon) : s.runCounters.memory.Canon := by
  unfold State.runCounters
  refine foldl_canon _ (fun a x h => ?_) _ _ (by simp [hm])
  simp [h]

@[simp] theorem State.dropSample_canon (p c : Nat) (hm : s.memory.Canon) : (s.dropSample p c).memory.Canon := by
  rw [State.dropSample]
  split
  · exact State.vwrite_getD_canon _ _ _ _ hm hm
  · exact hm

@[simp] theorem State.stopSampling_canon (p c : Nat) (hm : s.memory.Canon) : (s.stopSampling p c).memory.Canon :=
  State.vwrite_getD_canon _ _ _ _ (by simpa using hm) (by simpa using hm)

set_option maxRecDepth 1000 in
@[simp] theorem State.spill_canon (c : Nat) (x : Sample) (hm : s.memory.Canon) : (s.spill c x).memory.Canon := by
  rw [State.spill]
  refine canon_ite hm ?_
  split
  · exact State.stopSampling_canon _ _ hm
  · refine canon_ite (State.dropSample_canon _ _ hm) ?_
    extract_lets va
    split
    · exact State.stopSampling_canon _ _ hm
    next t ht =>
      extract_lets s1
      have h1 : s1.memory.Canon := (State.vwrite_canon hm ht).of_eq (State.count_memory ..)
      split
      next u hu => exact State.vwrite_canon h1 hu
      next => exact State.stopSampling_canon _ _ hm

@[simp] theorem State.spillCell_canon (c : Nat) (hm : s.memory.Canon) : (s.spillCell c).memory.Canon := by
  unfold State.spillCell
  refine foldl_canon _ (fun a x h => ?_) _ _ (by simp [hm])
  simp [h]

@[simp] theorem State.tickSampling_canon (hm : s.memory.Canon) : s.tickSampling.memory.Canon := by
  unfold State.tickSampling
  split
  · exact foldl_canon _ (fun a c ha => State.spillCell_canon _ ha) _ _ hm
  · exact hm

/-! ### Operations of `Power` -/

@[simp] theorem State.finishWrites_canon (hm : s.memory.Canon) : s.finishWrites.memory.Canon := by
  unfold State.finishWrites
  refine foldl_canon _ (fun a x h => ?_) _ _ (by simp [hm])
  simp [h]

/-- The energy accounts of a frame lie in the work and in the power state. -/
theorem State.memory_accounts (s : State) (disp : Disp) (power : Power) :
    ({ s with disp, power } : State).memory = s.memory :=
  (rfl)

@[simp] theorem State.decideAll_canon (hm : s.memory.Canon) : s.decideAll.memory.Canon := by
  rw [State.decideAll]
  refine State.finishWrites_canon ?_
  rw [State.memory_accounts, State.outputs_memory, State.suspendStep_memory]
  refine State.finishSubmits_canon _ (Contents.Canon.of_eq ?_ (State.memory_accounts ..))
  refine foldl_canon _ (fun a x ha => canon_ite ha (ha.of_eq (State.setCtx_memory ..))) _ _ ?_
  refine foldl_canon _ (fun a x ha => ha.of_eq (State.setPart_memory ..)) _ _ ?_
  simp [hm]

/-! ### Operations of `Frame` -/

@[simp] theorem State.applySwap_canon (hm : s.memory.Canon) : s.applySwap.memory.Canon := by
  unfold State.applySwap; split <;> simp [hm]

@[simp] theorem State.applyWrites_canon (hm : s.memory.Canon) : s.applyWrites.memory.Canon := by
  refine foldl_canon _ (fun a w ha => ?_) _ _ (by simpa using hm)
  dsimp only
  refine State.completeSlot_canon _ _ ?_
  split
  · split <;> simp [ha]
  · exact ha

@[simp] theorem State.applyConfig_canon (hm : s.memory.Canon) : s.applyConfig.memory.Canon := by
  rw [State.applyConfig]
  refine State.runCounters_canon ?_
  rw [State.settleBeacons_memory, State.clearChanged_memory, State.memory_mk, State.memory_eta,
      State.applyDead_memory]
  refine State.applySwap_canon ?_
  rw [State.applyDead_memory]
  exact State.applyWrites_canon hm

@[simp] theorem State.applyOutputs_canon (hm : s.memory.Canon) : s.applyOutputs.memory.Canon := by
  simp [State.applyOutputs, hm]

/-! ### Operations of `Recovery` -/

@[simp] theorem State.killContext_canon (x : Nat × Nat) (hm : s.memory.Canon) : (s.killContext x).memory.Canon := by
  unfold State.killContext; split <;> simp [hm]

@[simp] theorem State.pendAll_canon (hm : s.memory.Canon) : s.pendAll.memory.Canon := by
  obtain ⟨hcells, hhost, hbar, hgranules⟩ := hm
  refine ⟨hcells, hhost, hbar, SMap.sorted_filter _ _ ?_⟩
  have h : (s.mem.granules.map fun x => if s.inDump (x.1 * granuleSize) then x
        else (x.1, ({ x.2 with scrub := .pending } : Granule)))
      = s.mem.granules.map fun x => (x.1, if s.inDump (x.1 * granuleSize) then x.2 else { x.2 with scrub := .pending
          }) :=
    List.map_congr_left fun x _ => by split <;> rfl
  rw [h]
  exact SMap.sorted_map _ _ hgranules

@[simp] theorem State.resetCompute_canon (hm : s.memory.Canon) : s.resetCompute.memory.Canon := by
  have h : (allContexts.foldl State.killContext s).memory.Canon :=
    foldl_canon _ (fun a x ha => State.killContext_canon _ ha) _ _ hm
  simp [State.resetCompute, h]

@[simp] theorem State.clearMailbox_canon (hm : s.memory.Canon) : s.clearMailbox.memory.Canon := by
  obtain ⟨hcells, hhost, -, hgranules⟩ := hm
  exact ⟨hcells, hhost, rfl, hgranules⟩

@[simp] theorem State.killTaken_canon (hm : s.memory.Canon) : s.killTaken.memory.Canon := by
  unfold State.killTaken
  refine foldl_canon _ (fun a x h => ?_) _ _ (by simp [hm])
  simp [h]

@[simp] theorem State.hangRecovery_canon (hm : s.memory.Canon) : s.hangRecovery.memory.Canon := by
  simp [State.hangRecovery, hm]

@[simp] theorem State.endRecovery_canon (hm : s.memory.Canon) : s.endRecovery.memory.Canon := by
  simp [State.endRecovery, hm]

@[simp] theorem State.checkCmd_canon (beat : Bool) (hm : s.memory.Canon) : (s.checkCmd beat).memory.Canon := by
  unfold State.checkCmd
  dsimp only
  split
  · exact hm
  · split
    · split
      · split <;> simp [hm]
      · exact hm
    · split
      · simp [hm]
      · split <;> simp [hm]

@[simp] theorem State.resetDie_canon (d : Nat) (hm : s.memory.Canon) : (s.resetDie d).memory.Canon := by
  unfold State.resetDie
  dsimp only
  rw [State.resetIodFabric_memory, State.memory_mk, State.memory_eta]
  exact foldl_canon _ (fun a h ha => State.endOp_canon _ _ ha) _ _ hm

/-! ### Operations of `Update` -/

@[simp] theorem State.pieceWritten_canon (hm : s.memory.Canon) : s.pieceWritten.memory.Canon := by
  unfold State.pieceWritten
  split
  · exact hm
  · split
    · exact hm
    · dsimp only
      split <;> simp [hm]

/-! ### Operations of `Start` -/

@[simp] theorem State.retireShared_canon (hm : s.memory.Canon) : s.retireShared.memory.Canon := by
  unfold State.retireShared
  refine foldl_canon _ (fun a x h => ?_) _ _ (by simp [hm])
  simp [h]

@[simp] theorem State.packageReset_canon (escalated : Bool) (hm : s.memory.Canon) :
    (s.packageReset escalated).memory.Canon := by
  unfold State.packageReset
  extract_lets s0 s1
  have h1 := State.resetCompute_canon (State.retireShared_canon hm)
  obtain ⟨hcells, hhost, hbar, -⟩ : s1.memory.Canon :=
    (State.clearMailbox_canon (by simpa using h1)).of_eq (State.dropLink_memory _)
  clear_value s1
  exact ⟨hcells, hhost, hbar, rfl⟩

@[simp] theorem State.startFence_canon (u : BitVec 32) (hm : s.memory.Canon) : (s.startFence u).memory.Canon := by
  unfold State.startFence
  dsimp only
  (repeat' split) <;> simp [hm]

@[simp] theorem State.retiredUnits_canon (hm : s.memory.Canon) : s.retiredUnits.memory.Canon := by
  refine foldl_canon _ (fun a d ha => State.loseDimm_canon _ ha) _ _ ?_
  exact foldl_canon _ (fun a n ha => State.loseStack_canon _ ha) _ _ hm

@[simp] theorem State.ringCheck_canon (hm : s.memory.Canon) : s.ringCheck.memory.Canon := by
  unfold State.ringCheck; split <;> simp [hm]

@[simp] theorem State.coldUnits_canon (f : StartFindings) (hm : s.memory.Canon) : (s.coldUnits f).memory.Canon := by
  unfold State.coldUnits
  dsimp only
  rw [State.memory_mk, State.memory_eta]
  refine State.ringCheck_canon (State.retiredUnits_canon ?_)
  exact foldl_canon _ (fun a u ha => State.startFence_canon _ ha) _ _ (by simpa using hm)

@[simp] theorem State.warmUnits_canon (f : StartFindings) (hm : s.memory.Canon) : (s.warmUnits f).memory.Canon := by
  simp [State.warmUnits, hm]

theorem State.runStart_canon (cold : Bool) (f : StartFindings) (units : State → State)
    (hunits : ∀ t, t.memory.Canon → (units t).memory.Canon) (hm : s.memory.Canon) :
    (s.runStart cold f units).memory.Canon := by
  unfold State.runStart
  dsimp only
  split
  · simp [hm]
  · split
    · simp [hm]
    · have h : ∀ t : State, t.memory = s.memory → (units t).memory.Canon := fun t ht => hunits t (ht ▸ hm)
      split
      · simp [h]
      · split <;> simp [h]

/-! ### Operations of `Board` -/

@[simp] theorem State.railsDown_canon (hm : s.memory.Canon) : s.railsDown.memory.Canon := by
  obtain ⟨-, hhost, -, -⟩ := hm
  rw [State.railsDown, State.memory_mk]
  exact ⟨rfl, hhost, rfl, rfl⟩

@[simp] theorem State.emergency_canon (cause : Nat) (r : InputReading) (sensor : Nat) (hm : s.memory.Canon) :
    (s.emergency cause r sensor).memory.Canon := by unfold State.emergency; split <;> simp [hm]

/-! ### Operations of `Attest` -/

@[simp] theorem State.onSetStop_canon (cn : Conn) (x : IdeStream) (set sub : Nat) (hm : s.memory.Canon) :
    (s.onSetStop cn x set sub).memory.Canon := by simp [State.onSetStop, hm]

@[simp] theorem State.onTdisp_canon (cn : Conn) (m : TdispMsg) (hm : s.memory.Canon) :
    (s.onTdisp cn m).memory.Canon := by
  refine State.doeSecure_canon _ hm ?_
  cases m with
  | getReport => dsimp only; split <;> simp [hm]
  | lockInterface => dsimp only; split <;> simp [hm]
  | startInterface => dsimp only; split <;> simp [hm]
  | tspEnable w => dsimp only; split <;> simp [hm]
  | tspDisable w => dsimp only; split <;> simp [hm]
  | _ => simp [hm]

@[simp] theorem State.effect_canon (cn : Conn) (a : Request) (hm : s.memory.Canon) :
    (s.effect cn a).memory.Canon := by unfold State.effect; split <;> simp [hm]

@[simp] theorem State.onRespond_canon (cn : Conn) (hm : s.memory.Canon) : (s.onRespond cn).memory.Canon := by
  unfold State.onRespond
  split <;> simp [hm]

@[simp] theorem State.atSec_canon (cn : Conn) (r : Request) (hm : s.memory.Canon) :
    (s.atSec cn r).memory.Canon := by
  unfold State.atSec
  split
  · simp [hm]
  · split <;> simp [hm]
  · split <;> simp [hm]

@[simp] theorem State.viaDoe_canon (cn : Conn) (r : Request) (hm : s.memory.Canon) :
    (s.viaDoe cn r).memory.Canon := by
  unfold State.viaDoe
  dsimp only
  (repeat' split) <;> simp [hm]

@[simp] theorem State.viaMctp_canon (cn : Conn) (r : Request) (hm : s.memory.Canon) :
    (s.viaMctp cn r).memory.Canon := by
  unfold State.viaMctp
  split
  · exact hm
  · split
    · simp [hm]
    · exact State.atSec_canon _ _ hm

@[simp] theorem State.answerWaiting_canon (hm : s.memory.Canon) : s.answerWaiting.memory.Canon := by
  unfold State.answerWaiting
  refine foldl_canon _ (fun a x h => ?_) _ _ (by simp [hm])
  simp [h]

end

end Sys2Proof.Machine

end

section
/-! Every command keeps the memories in canonical form: effects of cell instructions, what the commands answer, and the
arms of `exec`. -/

namespace Sys2Proof.Machine

/-! ## What an instruction of a cell does (R89, R95) -/

/-- The state that an effect gives, where it gives one, is canonical. -/
def Eff.Canon : Eff → Prop
  | .next t _ _ _ => t.memory.Canon
  | .exc _ _ => True
  | .stall t => t.memory.Canon

@[simp] theorem Eff.canon_next {t : State} {evs : List Ev} {rs ws : List Piece} :
    (Eff.next t evs rs ws).Canon ↔ t.memory.Canon :=
  .rfl

@[simp] theorem Eff.canon_exc (cause : BitVec 8) (va : Word) : (Eff.exc cause va).Canon := trivial

@[simp] theorem Eff.canon_stall {t : State} : (Eff.stall t).Canon ↔ t.memory.Canon := .rfl

theorem Eff.canon_ite {c : Prop} {_ : Decidable c} {d e : Eff} (hd : d.Canon) (he : e.Canon) :
    (if c then d else e).Canon := by
  split
  · exact hd
  · exact he

@[simp] theorem Eff.legal_canon (b : Bool) {e : Eff} (he : e.Canon) : (Eff.legal b e).Canon :=
  Eff.canon_ite he (Eff.canon_exc _ _)

@[simp] theorem aligned_canon (va : Word) (n : Nat) {e : Eff} (he : e.Canon) : (aligned va n e).Canon :=
  Eff.canon_ite he (Eff.canon_exc _ _)

section
variable {s : State} (hm : s.memory.Canon)
include hm

@[simp] theorem Eff.put_canon (c : Nat) (k : Cell) (evs : List Ev) : (Eff.put s c k evs).Canon := by
  simp [Eff.put, hm]

@[simp] theorem Eff.cell_canon (c : Nat) (k : Cell) (evs : List Ev) : (Eff.cell s c k evs).Canon :=
  Eff.put_canon hm ..

@[simp] theorem Eff.load_canon (c : Nat) (k : Cell) (ps : List Piece) (evs : List Ev) :
    (Eff.load s c k ps evs).Canon := by simp [Eff.load, hm]

@[simp] theorem Eff.store_canon (c : Nat) (k : Cell) (ps : List Piece) (l : List Byte) (evs : List Ev) :
    (Eff.store s c k ps l evs).Canon := by simp [Eff.store, hm]

theorem withPieces_canon (r : MemRes) (f : List Piece → Eff) (hf : ∀ ps, (f ps).Canon) :
    (withPieces s r f).Canon := by
  cases r with
  | ok ps => exact hf ps
  | fault cause va => exact Eff.canon_exc _ _
  | wait => exact hm

@[simp] theorem tmmaEff_canon (c : Nat) (o : TmmaOp) (k : Cell) : (tmmaEff s c o k).Canon := by
  unfold tmmaEff
  dsimp only
  split
  · simp
  · exact Eff.legal_canon _ (Eff.canon_ite (by simp) (Eff.cell_canon hm ..))

@[simp] theorem xtalPlain_canon (c : Nat) (k : Cell) (o : XtalTOp) (f : FFmt) (rows : Nat) :
    (xtalPlain s c k o f rows).Canon :=
  Eff.cell_canon hm ..

@[simp] theorem xtalMx_canon (c : Nat) (k : Cell) (o : XtalTOp) (f : FFmt) (rows : Nat) :
    (xtalMx s c k o f rows).Canon :=
  Eff.cell_canon hm ..

@[simp] theorem loadEff_canon (sgn : Bool) (c : Nat) (o : MOp) (k : Cell) : (loadEff sgn s c o k).Canon := by
  unfold loadEff
  split
  · simp
  · exact Eff.legal_canon _ (aligned_canon _ _ (withPieces_canon hm _ _ fun _ => Eff.load_canon hm ..))

@[simp] theorem storeEff_canon (c : Nat) (k : Cell) (ps : List Piece) (l : List Byte) :
    (storeEff s c k ps l).Canon :=
  Eff.store_canon hm ..

@[simp] theorem vldEff_canon (c : Nat) (o : MOp) (k : Cell) : (vldEff s c o k).Canon :=
  Eff.legal_canon _ (aligned_canon _ _ (withPieces_canon hm _ _ fun _ => Eff.load_canon hm ..))

@[simp] theorem vstEff_canon (c : Nat) (o : MOp) (k : Cell) : (vstEff s c o k).Canon :=
  Eff.legal_canon _ (aligned_canon _ _ (withPieces_canon hm _ _ fun _ => Eff.store_canon hm ..))

@[simp] theorem waitSuccess_canon (c : Nat) (k : Cell) (o : WaitsigOp) (pa w mask : Nat) :
    (waitSuccess s c k o pa w mask).Canon := by
  unfold waitSuccess
  simp only [Eff.canon_next, State.setCell_memory]
  split <;> simp [hm]

@[simp] theorem endItem_canon (c : Nat) (k : Cell) (e : Ending) : (endItem s c k e).Canon :=
  Eff.canon_ite (by simp [hm]) hm

@[simp] theorem branchTo_canon (c : Nat) (k : Cell) (taken : Bool) (off : BitVec 41) :
    (branchTo s c k taken off).Canon :=
  Eff.canon_ite (Eff.put_canon hm ..) (Eff.cell_canon hm ..)

@[simp] theorem vecResult_canon (c : Nat) (k : Cell) (o : VOp) (b lo n : Nat) (res : Nat → Nat × BitVec 7)
    (adjust : BitVec 7 → BitVec 7) :
    (vecResult s c k o b lo n res adjust).Canon :=
  Eff.cell_canon hm ..

@[simp] theorem brineResult_canon (c : Nat) (k : Cell) (o : VOp) (res : Nat → Nat × Bool) :
    (brineResult s c k o res).Canon :=
  Eff.cell_canon hm ..

end

/-! ## What a command answers -/

/-- The next state of an outcome, where it has one, is canonical. -/
def Canonical (r : Host.Outcome State Fault Refusal) : Prop := ∀ t, r = .next t → t.memory.Canon

@[simp] theorem canonical_next {t : State} : Canonical (.next t) ↔ t.memory.Canon :=
  ⟨fun h => h t rfl, fun h _ hu => Host.Outcome.next.inj hu ▸ h⟩

theorem canonical_ite {c : Prop} {_ : Decidable c} {q r : Host.Outcome State Fault Refusal} (hq : Canonical q)
    (hr : Canonical r) :
    Canonical (if c then q else r) := by
  split
  · exact hq
  · exact hr

section
variable {s : State} (hm : s.memory.Canon)
include hm

theorem State.finish_canon (c : Nat) (κ : Kind) (idle replayed : Bool) {e : Eff} (he : e.Canon) :
    (s.finish c κ idle replayed e).memory.Canon := by
  cases e with
  | next t evs rs ws => exact Contents.Canon.of_eq he (by simp [State.finish])
  | exc cause va => exact hm.of_eq (by simp [State.finish])
  | stall t => exact he

theorem State.issueAs_canon (c : Nat) (u : Upset) (κ : Kind) (idle : Cell → Bool) (f : State → Cell → Eff)
    (hf : ∀ t k, t.memory.Canon → (f t k).Canon) :
    Canonical (s.issueAs c u κ idle f) := by
  have h1 := State.meets_canon u.bad hm
  unfold State.issueAs
  extract_lets m s1 k e
  split
  · exact canonical_next.2 hm
  · split
    · simp [s1, m, h1]
    · have he : e.Canon := by
        unfold e
        split
        · exact Eff.canon_exc ..
        · exact hf _ _ h1
      split
      · simp [s1, m, h1]
      · rw [canonical_next, State.replay_memory, State.readCorrected_memory]
        exact State.finish_canon h1 _ _ _ _ he

theorem State.issue_canon (c : Nat) (u : Upset) (κ : Kind) (f : State → Cell → Eff)
    (hf : ∀ t k, t.memory.Canon → (f t k).Canon) :
    Canonical (s.issue c u κ f) :=
  State.issueAs_canon hm _ _ _ _ _ hf

theorem State.issueP_canon (c : Nat) (u : Upset) (κ : Kind) (ps : List (BitVec 4)) (f : State → Cell → Eff)
    (hf : ∀ t k, t.memory.Canon → (f t k).Canon) :
    Canonical (s.issueP c u κ ps f) := by
  unfold State.issueP
  split
  · exact canonical_next.2 hm
  · exact State.issue_canon hm _ _ _ _ hf

theorem State.issueG_canon (c : Nat) (u : Upset) (κ : Kind) (pg : BitVec 4) (pn : Bool) (ps : List (BitVec 4))
    (f : State → Cell → Eff) (hf : ∀ t k, t.memory.Canon → (f t k).Canon) :
    Canonical (s.issueG c u κ pg pn ps f) := by
  unfold State.issueG
  split
  · exact canonical_next.2 hm
  · exact State.issueAs_canon hm _ _ _ _ _ hf

theorem command_canon (slot op : Nat) (f : Taken → State) (hf : ∀ t, (f t).memory.Canon) :
    Canonical (command slot op s f) := by
  unfold command
  split
  · exact canonical_next.2 (hf _)
  · exact canonical_next.2 hm

theorem onPort_canon (pid : Nat) (f : Nat → Port → State) (hf : ∀ h p, (f h p).memory.Canon) :
    Canonical (onPort pid s f) := by
  unfold onPort
  split
  · exact canonical_next.2 (hf _ _)
  · exact canonical_next.2 hm

theorem ccc_canon {f : State} (hf : f.memory.Canon) : Canonical (ccc s f) := canonical_next.2 (canon_ite hf hm)

theorem pldm_canon {f : State} (hf : f.memory.Canon) : Canonical (pldm s f) :=
  ccc_canon hm (canon_ite (by simp [hm]) hf)

theorem tray_canon {f : State} (hf : f.memory.Canon) : Canonical (tray s f) := canonical_next.2 (canon_ite hf hm)

@[simp] theorem receive_canon (cn : Conn) (r : Request) : Canonical (receive cn r s) :=
  canonical_next.2 (canon_ite (State.viaDoe_canon _ _ hm) (State.viaMctp_canon _ _ hm))

@[simp] theorem atomic_canon (cas : Bool) (f : Nat → Nat → Nat → Nat → Option Nat) (c : Nat) (o : MOp) (u : Upset) :
    Canonical (atomic cas f c o u s) := by
  refine State.issue_canon hm _ _ _ _ fun t k ht => ?_
  split
  · refine Eff.legal_canon _ (aligned_canon _ _ (withPieces_canon ht _ _ fun ps => ?_))
    split
    · split
      · exact Eff.canon_exc ..
      · refine Eff.canon_ite ht ?_
        rw [Eff.canon_next, State.setCell_memory]
        split
        · exact State.writePieces_canon _ _ _ ht
        · exact ht.of_eq (State.recallPieces_memory ..)
    · exact ht
  · exact Eff.canon_exc ..

@[simp] theorem csrWrite_canon (f : Word → Word → Word) (clears : Bool) (c : Nat) (o : CsrOp) (u : Upset) :
    Canonical (csrWrite f clears c o u s) := by
  refine State.issue_canon hm _ _ _ _ fun t k ht => ?_
  dsimp only
  split
  · exact Eff.canon_exc ..
  · split
    · exact Eff.canon_exc ..
    · simp [ht]

@[simp] theorem scalarS_canon (f : Word → Word → Word) (c : Nat) (o : SOp) (u : Upset) :
    Canonical (scalarS f c o u s) :=
  State.issue_canon hm _ _ _ _ fun _ _ ht => Eff.cell_canon ht ..

@[simp] theorem scalarI_canon (f : Word → Word → Word) (c : Nat) (o : IOp) (u : Upset) :
    Canonical (scalarI f c o u s) :=
  State.issue_canon hm _ _ _ _ fun _ _ ht => Eff.cell_canon ht ..

@[simp] theorem branchB_canon (f : Word → Word → Bool) (c : Nat) (o : BOp) (u : Upset) :
    Canonical (branchB f c o u s) :=
  State.issue_canon hm _ _ _ _ fun _ _ ht => branchTo_canon ht ..

@[simp] theorem vecBinary_canon (okType : Nat → Bool) (f : Nat → Nat → Nat → Nat × BitVec 7) (c : Nat) (o : VOp)
    (u : Upset) :
    Canonical (vecBinary okType f c o u s) :=
  State.issueG_canon hm _ _ _ _ _ _ _ fun _ _ ht => Eff.legal_canon _ (vecResult_canon ht ..)

@[simp] theorem vecFma_canon (neg : Bool) (c : Nat) (o : VOp) (u : Upset) : Canonical (vecFma neg c o u s) :=
  State.issueG_canon hm _ _ _ _ _ _ _ fun _ _ ht => Eff.legal_canon _ (vecResult_canon ht ..)

@[simp] theorem vecFun_canon (f : Fun1) (c : Nat) (o : VOp) (u : Upset) : Canonical (vecFun f c o u s) := by
  refine State.issueG_canon hm _ _ _ _ _ _ _ fun t k ht => ?_
  split
  · exact Eff.legal_canon _ (vecResult_canon ht ..)
  · exact Eff.canon_exc ..

end

/-! ## What the host writes to the slots (R10, R199) -/

/-- Memories with other slots that are canonical. -/
theorem Contents.Canon.withSlots {m : Contents} {l : List Host.Cell} (hm : m.Canon) (hl : Memory.wf l = true) :
    Contents.Canon (m.1, m.2.1, l, m.2.2.2) := ⟨hm.1, hm.2.1, hl, hm.2.2.2⟩

theorem Mail.setOwn_canon {m : Mail} (slot : Nat) (b : Byte) (h : Memory.wf m.bar2 = true) :
    Memory.wf (m.setOwn slot b).bar2 = true :=
  Memory.wf_set _ _ _ h

theorem Mail.hostByte_canon {m : Mail} (off : Nat) (b : Byte) (h : Memory.wf m.bar2 = true) :
    Memory.wf (m.hostByte off b).bar2 = true := by
  unfold Mail.hostByte
  dsimp only
  split
  · exact h
  · split
    · exact h
    · split
      · exact Memory.wf_set _ _ _ h
      · split
        · exact Mail.setOwn_canon (off / 256) ownFree h
        · split
          · split
            · exact h
            · exact Mail.setOwn_canon (off / 256) ownPosted h
          · exact h

theorem Mail.hostBytes_canon (l : List Byte) {m : Mail} (off : Nat) (h : Memory.wf m.bar2 = true) :
    Memory.wf (m.hostBytes off l).bar2 = true := by
  induction l generalizing m off with
  | nil => exact h
  | cons b rest ih =>
    rw [Mail.hostBytes]
    split
    · exact Mail.hostByte_canon _ _ (ih _ h)
    · exact ih _ (Mail.hostByte_canon _ _ h)

section
variable {s : State} (hm : s.memory.Canon)
include hm

/-! ### Commands of `Mbox` -/

@[simp] theorem execSlotPost_canon (slot : Nat) : Canonical (execSlotPost slot s) := by
  have hown := hm.withSlots (Mail.setOwn_canon slot ownPosted hm.2.2.1)
  exact canonical_next.2 (canon_ite hm (canon_ite hm (canon_ite hm hown)))

@[simp] theorem execSlotWithdraw_canon (slot : Nat) : Canonical (execSlotWithdraw slot s) := by
  have hown := hm.withSlots (Mail.setOwn_canon slot ownFree hm.2.2.1)
  exact canonical_next.2 (canon_ite hm (canon_ite hm hown))

@[simp] theorem execSlotWrite_canon (off : Nat) (data : List Byte) : Canonical (execSlotWrite off data s) :=
  canonical_next.2 (canon_ite (hm.withSlots (Mail.hostBytes_canon _ _ hm.2.2.1)) hm)

@[simp] theorem execSlotTake_canon (slot : Nat) : Canonical (execSlotTake slot s) := by
  have hown := hm.withSlots (Mail.setOwn_canon slot ownTaken hm.2.2.1)
  unfold execSlotTake
  extract_lets t m s1
  have h1 : s1.memory.Canon := hown
  clear_value s1
  refine canonical_ite ?_ (canonical_next.2 hm)
  split
  · exact canonical_next.2 (State.complete_canon _ _ h1)
  · exact canonical_next.2 h1

@[simp] theorem execMbxCtlWrite_canon (v : BitVec 64) : Canonical (execMbxCtlWrite v s) := by
  unfold execMbxCtlWrite
  split <;> simp [hm]

@[simp] theorem execCmplBaseWrite_canon (v : BitVec 64) : Canonical (execCmplBaseWrite v s) := by
  unfold execCmplBaseWrite
  dsimp only
  (repeat' split) <;> simp [hm]

/-! ### Commands of `Matrix` -/

@[simp] theorem execTmma_canon (c : Nat) (o : TmmaOp) (u : Upset) : Canonical (execTmma c o u s) := by
  refine State.issueG_canon hm _ _ _ _ _ _ _ fun t k ht => ?_
  simp [ht]

@[simp] theorem execTwin_canon (c : Nat) (o : TwinOp) (u : Upset) : Canonical (execTwin c o u s) := by
  refine State.issue_canon hm _ _ _ _ fun t k ht => ?_
  simp [ht]

@[simp] theorem execTzero_canon (c : Nat) (t : BitVec 3) (u : Upset) : Canonical (execTzero c t u s) := by
  refine State.issue_canon hm _ _ _ _ fun t k ht => ?_
  dsimp only
  (repeat' split) <;> simp [ht]

@[simp] theorem execXtalT_canon (c : Nat) (o : XtalTOp) (u : Upset) : Canonical (execXtalT c o u s) := by
  refine State.issue_canon hm _ _ _ _ fun t k ht => ?_
  dsimp only
  (repeat' split) <;> simp [ht]

@[simp] theorem execTmovv_canon (c : Nat) (o : TMovOp) (u : Upset) : Canonical (execTmovv c o u s) := by
  refine State.issue_canon hm _ _ _ _ fun t k ht => ?_
  simp [ht]

@[simp] theorem execVmovt_canon (c : Nat) (o : TMovOp) (u : Upset) : Canonical (execVmovt c o u s) := by
  refine State.issue_canon hm _ _ _ _ fun t k ht => ?_
  simp [ht]

/-! ### Commands of `Memory` -/

@[simp] theorem execLd_canon (c : Nat) (o : MOp) (u : Upset) : Canonical (execLd c o u s) := by
  refine State.issue_canon hm _ _ _ _ fun t k ht => ?_
  simp [ht]

@[simp] theorem execLdu_canon (c : Nat) (o : MOp) (u : Upset) : Canonical (execLdu c o u s) := by
  refine State.issue_canon hm _ _ _ _ fun t k ht => ?_
  simp [ht]

@[simp] theorem execSt_canon (c : Nat) (o : MOp) (u : Upset) : Canonical (execSt c o u s) := by
  refine State.issue_canon hm _ _ _ _ fun t k ht => ?_
  split
  · exact Eff.canon_exc ..
  · exact Eff.legal_canon _ (aligned_canon _ _ (withPieces_canon ht _ _ fun _ => storeEff_canon ht ..))

@[simp] theorem execVld_canon (c : Nat) (o : MOp) (u : Upset) : Canonical (execVld c o u s) := by
  refine State.issue_canon hm _ _ _ _ fun t k ht => ?_
  simp [ht]

@[simp] theorem execVst_canon (c : Nat) (o : MOp) (u : Upset) : Canonical (execVst c o u s) := by
  refine State.issueG_canon hm _ _ _ _ _ _ _ fun t k ht => ?_
  simp [ht]

@[simp] theorem execVldw_canon (c : Nat) (o : MOp) (u : Upset) : Canonical (execVldw c o u s) := by
  refine State.issue_canon hm _ _ _ _ fun t k ht => ?_
  exact Eff.legal_canon _ (aligned_canon _ _ (withPieces_canon ht _ _ fun _ => by simp [ht]))

@[simp] theorem execVldx_canon (c : Nat) (o : MOp) (u : Upset) : Canonical (execVldx c o u s) := by
  refine State.issue_canon hm _ _ _ _ fun t k ht => ?_
  exact Eff.legal_canon _ (aligned_canon _ _ (withPieces_canon ht _ _ fun _ => by simp [ht]))

@[simp] theorem execVstx_canon (c : Nat) (o : MOp) (u : Upset) : Canonical (execVstx c o u s) := by
  refine State.issue_canon hm _ _ _ _ fun t k ht => ?_
  exact Eff.legal_canon _ (aligned_canon _ _ (withPieces_canon ht _ _ fun _ => by simp [ht]))

@[simp] theorem execVgather_canon (c : Nat) (o : MOp) (u : Upset) : Canonical (execVgather c o u s) := by
  refine State.issueG_canon hm _ _ _ _ _ _ _ fun t k ht => ?_
  split
  · exact Eff.canon_exc ..
  · exact Eff.legal_canon _ (withPieces_canon ht _ _ fun _ => Eff.load_canon ht ..)

@[simp] theorem execVscatter_canon (c : Nat) (o : MOp) (u : Upset) : Canonical (execVscatter c o u s) := by
  refine State.issueG_canon hm _ _ _ _ _ _ _ fun t k ht => ?_
  split
  · exact Eff.canon_exc ..
  · exact Eff.legal_canon _ (withPieces_canon ht _ _ fun _ => Eff.store_canon ht ..)

@[simp] theorem execVgatherp_canon (c : Nat) (o : GatherpOp) (u : Upset) : Canonical (execVgatherp c o u s) := by
  refine State.issueG_canon hm _ _ _ _ _ _ _ fun t k ht => Eff.canon_ite ht ?_
  refine withPieces_canon ht _ _ fun _ => Eff.canon_ite (Eff.canon_exc ..) ?_
  refine withPieces_canon ht _ _ fun _ => ?_
  rw [Eff.canon_next, State.setCell_memory, State.recallPieces_memory]
  exact ht

@[simp] theorem execMcopy_canon (c : Nat) (o : McopyOp) (u : Upset) : Canonical (execMcopy c o u s) := by
  refine State.issue_canon hm _ _ _ _ fun t k ht => ?_
  dsimp only
  refine Eff.legal_canon _ ?_
  (repeat' split) <;> simp [ht]

@[simp] theorem execWaitsig_canon (c : Nat) (o : WaitsigOp) (u : Upset) : Canonical (execWaitsig c o u s) := by
  refine State.issueP_canon hm _ _ _ _ _ fun t k ht => ?_
  dsimp only
  (repeat' split) <;> simp [ht]

@[simp] theorem execFence_canon (c : Nat) (o : FenceOp) (u : Upset) : Canonical (execFence c o u s) := by
  refine State.issue_canon hm _ _ _ _ fun t k ht => ?_
  split <;> simp [ht]

/-! ### Commands of `CellEvents` -/

@[simp] theorem execVgatherpComplete_canon (c id : Nat) (e : ReadErr) :
    Canonical (execVgatherpComplete c id e s) := by
  unfold execVgatherpComplete
  dsimp only
  (repeat' split) <;> simp [hm]

@[simp] theorem execMcopyComplete_canon (c id : Nat) (e : ReadErr) : Canonical (execMcopyComplete c id e s) := by
  unfold execMcopyComplete
  split
  · exact canonical_next.2 hm
  · exact canonical_next.2 (State.readMeets_canon _ _ _ _ _ _ _ _ (fun _ ht => State.mcopyDone_canon _ _ ht) hm)

@[simp] theorem execAsyncFault_canon (c : Nat) : Canonical (execAsyncFault c s) := by
  unfold execAsyncFault
  split <;> simp [hm]

@[simp] theorem execPreemptRequest_canon (c : Nat) : Canonical (execPreemptRequest c s) := by
  unfold execPreemptRequest
  split <;> simp [hm]

@[simp] theorem execCancelRequest_canon (c : Nat) : Canonical (execCancelRequest c s) := by
  unfold execCancelRequest
  split <;> simp [hm]

@[simp] theorem execForcedStop_canon (c : Nat) : Canonical (execForcedStop c s) := by
  unfold execForcedStop
  dsimp only
  (repeat' split) <;> simp [hm]

@[simp] theorem execWaitsigTimeout_canon (c : Nat) : Canonical (execWaitsigTimeout c s) := by
  unfold execWaitsigTimeout
  dsimp only
  split
  · exact canonical_ite (canonical_next.2 (State.finish_canon hm _ _ _ _ (Eff.cell_canon hm ..))) (canonical_next.2
      hm)
  · exact canonical_next.2 hm

@[simp] theorem execCellWatchdogMiss_canon (c : Nat) : Canonical (execCellWatchdogMiss c s) := by
  simp [execCellWatchdogMiss, hm]

/-! ### Commands of `UnitEvents` -/

@[simp] theorem execSramLineRefetch_canon (block line : Nat) (ok : Bool) :
    Canonical (execSramLineRefetch block line ok s) := by
  have hc (t : State) (ht : t.memory.Canon) (n evs) := ht.of_eq (t.count_memory block n 0 privFirmware clsMemory
      evs)
  refine canonical_ite ?_ (canonical_next.2 hm)
  extract_lets l s1 s2 m
  have h1 : s1.memory.Canon := hc _ hm _ _
  have h2 : s2.memory.Canon := hc _ h1 _ _
  have h3 (a bs) : Memory.wf (Cells.setAll s2.mem.cells a bs) = true := Memory.wf_setAll _ _ _ h2.1
  clear_value s1 s2
  split
  next src t _ _ =>
    refine canonical_next.2 (canon_ite ?_ (State.stopOwner_canon _ _ h2))
    generalize s.readBytes t src 256 = bs
    exact h2.withCells (h3 (l * 256) bs)
  · exact canonical_next.2 (State.stopOwner_canon _ _ h1)

@[simp] theorem execBlockFence_canon (block : Nat) (cause : BlockCause) :
    Canonical (execBlockFence block cause s) := by
  unfold execBlockFence
  split <;> simp [hm]

@[simp] theorem execStackLost_canon (stack : Nat) : Canonical (execStackLost stack s) := by
  unfold execStackLost
  split <;> simp [hm]

@[simp] theorem execRegionControllerFault_canon (region : Nat) :
    Canonical (execRegionControllerFault region s) := by
  unfold execRegionControllerFault
  split <;> simp [hm]

@[simp] theorem execDimmLost_canon (d : Nat) (why : DimmLoss) : Canonical (execDimmLost d why s) := by
  unfold execDimmLost
  split <;> simp [hm]

@[simp] theorem execPatrolScrub_canon (pa : Nat) (found : ScrubFinding) :
    Canonical (execPatrolScrub pa found s) := by
  have h : (match found with
      | .clean => s
      | .corrected => s.correctedError (pa / 4096)
      | .uncorrectable => (s.stopGranule (pa / granuleSize)).uncorrectable pa 3).memory.Canon := by
    cases found <;> simp [hm]
  unfold execPatrolScrub
  rw [canonical_next]
  split
  · exact canon_ite hm h
  · exact canon_ite hm h
  · exact hm

@[simp] theorem execGranuleZeroed_canon (g : Nat) : Canonical (execGranuleZeroed g s) := by
  unfold execGranuleZeroed
  split <;> simp [hm]

@[simp] theorem execTierPromotion_canon (region : Nat) (e : ReadErr) :
    Canonical (execTierPromotion region e s) := by
  unfold execTierPromotion
  split
  · exact canonical_next.2 hm
  · refine canonical_ite (canonical_next.2 hm) (canonical_next.2 ?_)
    exact State.readMeets_canon _ _ _ _ _ _ _ _ (fun _ ht => State.takeHint_canon _ _ ht) hm

@[simp] theorem execEdgeReplay_canon (edge sameFlit : Nat) : Canonical (execEdgeReplay edge sameFlit s) := by
  unfold execEdgeReplay
  dsimp only
  (repeat' split) <;> simp [hm]

@[simp] theorem execEdgeRetrainComplete_canon (edge : Nat) (ok : Bool) :
    Canonical (execEdgeRetrainComplete edge ok s) := by
  unfold execEdgeRetrainComplete
  dsimp only
  (repeat' split) <;> simp [hm]

/-! ### Commands of `Command` -/

@[simp] theorem execHello_canon (slot : Nat) : Canonical (execHello slot s) := by
  refine command_canon hm _ _ _ fun t => ?_
  dsimp only
  (repeat' split) <;> simp [hm]

@[simp] theorem execGetInfo_canon (slot : Nat) : Canonical (execGetInfo slot s) := by
  refine command_canon hm _ _ _ fun t => ?_
  dsimp only
  (repeat' split) <;> simp [hm]

@[simp] theorem execConfigWriteShadow_canon (slot : Nat) : Canonical (execConfigWriteShadow slot s) := by
  refine command_canon hm _ _ _ fun t => ?_
  dsimp only
  (repeat' split) <;> simp [hm]

@[simp] theorem execConfigSwap_canon (slot : Nat) : Canonical (execConfigSwap slot s) := by
  refine command_canon hm _ _ _ fun t => ?_
  dsimp only
  (repeat' split) <;> simp [hm]

@[simp] theorem execConfigRead_canon (slot : Nat) : Canonical (execConfigRead slot s) := by
  refine command_canon hm _ _ _ fun t => ?_
  split <;> simp [hm]

@[simp] theorem execPartCreate_canon (slot : Nat) : Canonical (execPartCreate slot s) := by
  refine command_canon hm _ _ _ fun t => ?_
  dsimp only
  (repeat' split) <;> simp [hm]

@[simp] theorem execPartDestroy_canon (slot : Nat) : Canonical (execPartDestroy slot s) := by
  refine command_canon hm _ _ _ fun t => canon_ite (State.complete_canon _ _ hm) (State.complete_canon _ _ ?_)
  rw [State.setPart_memory, State.resetRegions_memory]
  exact foldl_canon _ (fun _ _ ha => State.freeGranule_canon _ ha) _ _ (hm.of_eq (State.uncommit_memory ..))

@[simp] theorem execCtxOpen_canon (slot : Nat) (list : List Byte) : Canonical (execCtxOpen slot list s) :=
  canonical_ite (canonical_next.2 hm) (command_canon hm _ _ _ fun _ => State.ctxOpenForm_canon _ _ _ hm)

@[simp] theorem execCtxGrant_canon (slot : Nat) (list : List Byte) : Canonical (execCtxGrant slot list s) :=
  canonical_ite (canonical_next.2 hm) (command_canon hm _ _ _ fun _ => State.ctxOpenForm_canon _ _ _ hm)

@[simp] theorem execCtxShare_canon (slot : Nat) (list : List Byte) : Canonical (execCtxShare slot list s) :=
  canonical_ite (canonical_next.2 hm) (command_canon hm _ _ _ fun _ => State.ctxOpenForm_canon _ _ _ hm)

@[simp] theorem execCtxClose_canon (slot : Nat) : Canonical (execCtxClose slot s) := by
  refine command_canon hm _ _ _ fun t => ?_
  dsimp only
  (repeat' split) <;> simp [hm]

@[simp] theorem execTeardownDrainComplete_canon (part ctx : Nat) :
    Canonical (execTeardownDrainComplete part ctx s) := by
  unfold execTeardownDrainComplete
  split
  · exact canonical_next.2 hm
  next d _ =>
    have h2 : ((s.endCommands part ctx stCancelled d.slot).endTeardown part ctx).memory.Canon :=
      State.endTeardown_canon _ _ (State.endCommands_canon _ _ _ _ hm)
    rw [canonical_next]
    split
    · exact State.completeSlot_canon _ _ h2
    · exact h2

@[simp] theorem execSubmit_canon (slot : Nat) : Canonical (execSubmit slot s) := by
  refine command_canon hm _ _ _ fun t => ?_
  dsimp only
  (repeat' split) <;> simp [hm]

@[simp] theorem execCopy_canon (slot : Nat) : Canonical (execCopy slot s) := by
  refine command_canon hm _ _ _ fun t => ?_
  dsimp only
  (repeat' split) <;> simp [hm]

@[simp] theorem execFill_canon (slot : Nat) : Canonical (execFill slot s) := by
  refine command_canon hm _ _ _ fun t => ?_
  dsimp only
  (repeat' split) <;> simp [hm]

@[simp] theorem execScrub_canon (slot : Nat) : Canonical (execScrub slot s) := by
  refine command_canon hm _ _ _ fun t => ?_
  have hfree (gs : List Nat) : (gs.foldl State.freeGranule s).memory.Canon :=
    foldl_canon _ (fun _ _ ha => State.freeGranule_canon _ ha) _ _ hm
  extract_lets p pa n owner gs
  clear_value gs
  split
  · exact State.complete_canon _ _ hm
  · exact State.complete_canon _ _ (hfree _)

@[simp] theorem execMoverTransferComplete_canon (slot : Nat) (e : ReadErr) :
    Canonical (execMoverTransferComplete slot e s) := by
  unfold execMoverTransferComplete
  split
  · exact canonical_next.2 hm
  · refine canonical_ite (canonical_next.2 hm) (canonical_next.2 ?_)
    refine State.readMeets_canon _ _ _ _ _ _ _ _ (fun t ht => ?_) hm
    simp [ht]

/-! ### Commands of `Sluice` -/

@[simp] theorem execResidencySelect_canon (part : Nat) : Canonical (execResidencySelect part s) := by
  unfold execResidencySelect
  dsimp only
  (repeat' split) <;> simp [hm]

@[simp] theorem execQuantumExpiry_canon (part : Nat) : Canonical (execQuantumExpiry part s) := by
  unfold execQuantumExpiry
  dsimp only
  (repeat' split) <;> simp [hm]

@[simp] theorem execResidencyDrainTimeout_canon (part : Nat) : Canonical (execResidencyDrainTimeout part s) := by
  rw [execResidencyDrainTimeout]
  (repeat' split) <;> simp [hm]

@[simp] theorem execItemAdmit_canon (part : Nat) : Canonical (execItemAdmit part s) := by
  rw [execItemAdmit]
  (repeat' split) <;> simp [hm]

@[simp] theorem execItemEnding_canon (c : Nat) : Canonical (execItemEnding c s) := by
  unfold execItemEnding
  dsimp only
  (repeat' split) <;> simp [hm]

@[simp] theorem execSubmitAging_canon (slot : Nat) : Canonical (execSubmitAging slot s) := by
  rw [execSubmitAging]
  (repeat' split) <;> simp [hm]

@[simp] theorem execSuspendDrainTimeout_canon (slot : Nat) : Canonical (execSuspendDrainTimeout slot s) := by
  rw [execSuspendDrainTimeout]
  (repeat' split) <;> simp [hm]

/-! ### Commands of `Fabric` -/

@[simp] theorem execPortDetect_canon (pid : Nat) : Canonical (execPortDetect pid s) := by
  refine onPort_canon hm _ _ fun h p => ?_
  split <;> simp [hm]

@[simp] theorem execPortTrainingDone_canon (pid : Nat) (laneOk : BitVec 8) (reversed : Bool) (inverted : BitVec 8) :
    Canonical (execPortTrainingDone pid laneOk reversed inverted s) := by
  refine onPort_canon hm _ _ fun h p => ?_
  dsimp only
  (repeat' split) <;> simp [hm]

@[simp] theorem execEpIdFlit_canon (pid : Nat) (ep : BitVec 20) : Canonical (execEpIdFlit pid ep s) := by
  refine onPort_canon hm _ _ fun h p => ?_
  split <;> simp [hm]

@[simp] theorem execEpIdResend_canon (pid : Nat) : Canonical (execEpIdResend pid s) := by
  refine onPort_canon hm _ _ fun h p => ?_
  split <;> simp [hm]

@[simp] theorem execKeyAgreement_canon (pid : Nat) (e : PeerEvidence) : Canonical (execKeyAgreement pid e s) := by
  refine onPort_canon hm _ _ fun h p => ?_
  dsimp only
  (repeat' split) <;> simp [hm]

@[simp] theorem execReplayRequest_canon (pid : Nat) (ack : BitVec 12) :
    Canonical (execReplayRequest pid ack s) := by
  refine onPort_canon hm _ _ fun h p => ?_
  split <;> simp [hm]

@[simp] theorem execPortRetrain_canon (pid : Nat) : Canonical (execPortRetrain pid s) := by
  refine onPort_canon hm _ _ fun h p => ?_
  split <;> simp [hm]

@[simp] theorem execPortRetrainDone_canon (pid : Nat) (e : RetrainEnd) :
    Canonical (execPortRetrainDone pid e s) := by
  refine onPort_canon hm _ _ fun h p => ?_
  (repeat' apply canon_ite) <;> simp [hm]

@[simp] theorem execPortDownExpiry_canon (pid : Nat) : Canonical (execPortDownExpiry pid s) := by
  refine onPort_canon hm _ _ fun h p => ?_
  split <;> simp [hm]

@[simp] theorem execRekey_canon (pid : Nat) (e : PeerEvidence) : Canonical (execRekey pid e s) := by
  refine onPort_canon hm _ _ fun h p => ?_
  dsimp only
  (repeat' split) <;> simp [hm]

@[simp] theorem execRekeyOverrun_canon (pid : Nat) : Canonical (execRekeyOverrun pid s) := by
  refine onPort_canon hm _ _ fun h p => ?_
  split <;> simp [hm]

@[simp] theorem execPortCtlWrite_canon (pid : Nat) (v : BitVec 64) : Canonical (execPortCtlWrite pid v s) := by
  refine onPort_canon hm _ _ fun h p => ?_
  simp [hm]

@[simp] theorem execFabEpWrite_canon (v : BitVec 64) : Canonical (execFabEpWrite v s) := by
  unfold execFabEpWrite
  split <;> simp [hm]

@[simp] theorem execRouteWaitExpiry_canon (k : Nat) : Canonical (execRouteWaitExpiry k s) := by
  unfold execRouteWaitExpiry
  split <;> simp [hm]

@[simp] theorem execTimeFlit_canon (pid : Nat) (i : TimeInfo) : Canonical (execTimeFlit pid i s) := by
  refine onPort_canon hm _ _ fun h p => ?_
  split <;> simp [hm]

/-! ### Commands of `Collective` -/

@[simp] theorem execCommCreate_canon (slot : Nat) : Canonical (execCommCreate slot s) := by
  refine command_canon hm _ _ _ fun t => ?_
  dsimp only
  (repeat' split) <;> simp [hm]

@[simp] theorem execCommDestroy_canon (slot : Nat) : Canonical (execCommDestroy slot s) := by
  refine command_canon hm _ _ _ fun t => ?_
  dsimp only
  (repeat' split) <;> simp [hm]

@[simp] theorem execCollBatch_canon (slot : Nat) : Canonical (execCollBatch slot s) := by
  refine command_canon hm _ _ _ fun t => ?_
  dsimp only
  (repeat' split) <;> simp [hm]

@[simp] theorem execCollOpStart_canon (h : Nat) (f : DataFault) : Canonical (execCollOpStart h f s) := by
  unfold execCollOpStart
  rw [canonical_next]
  split
  · refine canon_ite hm (State.engineMeets_canon _ _ _ (fun _ ht => ?_) hm)
    exact State.deliverAll_canon (State.startDesc_canon _ _ ht)
  · exact hm

@[simp] theorem execPanSlotGrant_canon (pan : Nat) (f : DataFault) : Canonical (execPanSlotGrant pan f s) := by
  refine canonical_next.2 (canon_ite (State.engineMeets_canon _ _ _ (fun t ht => ?_) hm) hm)
  exact State.deliverAll_canon (State.claimAll_canon (ht.of_eq (State.servePan_memory ..)))

@[simp] theorem execPanWaitExpiry_canon (h : Nat) (f : DataFault) : Canonical (execPanWaitExpiry h f s) := by
  refine canonical_next.2 (canon_ite (State.engineMeets_canon _ _ _ (fun t ht => ?_) hm) hm)
  refine State.deliverAll_canon (State.askFallback_canon _ (State.withOp_canon _ _ (fun k o => ?_) ht))
  exact ht.of_eq (State.setOp_memory ..)

@[simp] theorem execCollTimeout_canon (h : Nat) : Canonical (execCollTimeout h s) :=
  canonical_next.2 (State.withOp_canon _ _ (fun _ _ => canon_ite (State.closeOp_canon _ _ hm) hm) hm)

@[simp] theorem execBatchSuspendTimeout_canon (slot : Nat) : Canonical (execBatchSuspendTimeout slot s) := by
  rw [execBatchSuspendTimeout]
  (repeat' split) <;> simp [hm]

@[simp] theorem execChdr_canon (p : Packet) (f : DataFault) : Canonical (execChdr p f s) := by simp [execChdr, hm]

@[simp] theorem execCdata_canon (p : Packet) (f : DataFault) : Canonical (execCdata p f s) := by
  simp [execCdata, hm]

@[simp] theorem execCredit_canon (p : Packet) (f : DataFault) : Canonical (execCredit p f s) := by
  simp [execCredit, hm]

@[simp] theorem execClaim_canon (p : Packet) (f : DataFault) : Canonical (execClaim p f s) := by
  simp [execClaim, hm]

@[simp] theorem execGo_canon (p : Packet) (f : DataFault) : Canonical (execGo p f s) := by simp [execGo, hm]

@[simp] theorem execFallbkUp_canon (p : Packet) (f : DataFault) : Canonical (execFallbkUp p f s) := by
  simp [execFallbkUp, hm]

@[simp] theorem execFallbkDn_canon (p : Packet) (f : DataFault) : Canonical (execFallbkDn p f s) := by
  simp [execFallbkDn, hm]

@[simp] theorem execCounts_canon (p : Packet) (f : DataFault) : Canonical (execCounts p f s) := by
  simp [execCounts, hm]

@[simp] theorem execBarUp_canon (p : Packet) : Canonical (execBarUp p s) := by simp [execBarUp, hm]

@[simp] theorem execBarDn_canon (p : Packet) : Canonical (execBarDn p s) := by simp [execBarDn, hm]

@[simp] theorem execBeaconAssign_canon (slot : Nat) : Canonical (execBeaconAssign slot s) := by
  refine command_canon hm _ _ _ fun t => ?_
  dsimp only
  (repeat' split) <;> simp [hm]

@[simp] theorem execBeaconTrigger_canon (chan : Nat) (bseq : BitVec 32) :
    Canonical (execBeaconTrigger chan bseq s) := by
  unfold execBeaconTrigger
  split <;> simp [hm]

@[simp] theorem execBeaconUp_canon (p : Packet) : Canonical (execBeaconUp p s) := by simp [execBeaconUp, hm]

@[simp] theorem execBeaconDn_canon (p : Packet) : Canonical (execBeaconDn p s) := by simp [execBeaconDn, hm]

@[simp] theorem execBeaconTimeout_canon (chan : Nat) : Canonical (execBeaconTimeout chan s) := by
  unfold execBeaconTimeout
  dsimp only
  (repeat' split) <;> simp [hm]

@[simp] theorem execFlitReceive_canon (pid : Nat) (f : Flit) : Canonical (execFlitReceive pid f s) := by
  refine onPort_canon hm _ _ fun h p => ?_
  dsimp only
  (repeat' split) <;> simp [hm]

@[simp] theorem execPacketRoute_canon (iod : Nat) (from? : Option Nat) (p : Packet) :
    Canonical (execPacketRoute iod from? p s) := by
  unfold execPacketRoute
  split <;> simp [hm]

@[simp] theorem execPacketIngress_canon (pid : Nat) (p : Packet) : Canonical (execPacketIngress pid p s) := by
  refine onPort_canon hm _ _ fun h p => ?_
  simp [hm]

/-! ### Commands of `Operations` -/

@[simp] theorem execSuspend_canon (slot : Nat) : Canonical (execSuspend slot s) := by
  have hc (t : Taken) (st : Nat) := State.complete_canon t (.of st) hm
  refine command_canon hm _ _ _ fun t => canon_ite (hc ..) ?_
  split
  · exact hc ..
  · exact canon_ite (hc ..) (canon_ite (hc ..) (canon_ite (hc ..) (hm.of_eq (State.applyStop_memory ..))))

@[simp] theorem execResume_canon (slot : Nat) : Canonical (execResume slot s) := by
  refine command_canon hm _ _ _ fun t => ?_
  dsimp only
  (repeat' split) <;> simp [hm]

@[simp] theorem execCancel_canon (slot : Nat) : Canonical (execCancel slot s) := by
  refine command_canon hm _ _ _ fun t => ?_
  dsimp only
  (repeat' split) <;> simp [hm]

@[simp] theorem execQuery_canon (slot : Nat) : Canonical (execQuery slot s) := by
  refine command_canon hm _ _ _ fun t => ?_
  dsimp only
  (repeat' split) <;> simp [hm]

@[simp] theorem execSuspendPoint_canon (slot : Nat) : Canonical (execSuspendPoint slot s) := by
  rw [execSuspendPoint]
  (repeat' split) <;> simp [hm]

/-! ### Commands of `HostAccess` -/

@[simp] theorem execHdmCommit_canon (w base size : Nat) : Canonical (execHdmCommit w base size s) := by
  unfold execHdmCommit
  dsimp only
  (repeat' split) <;> simp [hm]

@[simp] theorem execHostMemRead_canon (addr len : Nat) (tee : Bool) (e : ReadErr) :
    Canonical (execHostMemRead addr len tee e s) := by
  have h1 := State.meets_canon e.bad hm
  have hones (a) : ((s.ras rasTee addr).emit a).memory.Canon := by simp [hm]
  refine canonical_next.2 ?_
  split
  · exact hm
  · refine canon_ite hm (canon_ite (hones _) ?_)
    split
    · simp [h1]
    · have h2 (l : List Nat) (a) : (l.foldl State.holdLine ((s.meets e.bad).1.emit a)).memory.Canon := by simp [h1]
      split
      · exact (h2 ..).of_eq (State.correctedError_memory ..)
      · exact h2 ..

@[simp] theorem execHostMemWrite_canon (addr : Nat) (data : List Byte) (tee : Bool) :
    Canonical (execHostMemWrite addr data tee s) := by
  rw [execHostMemWrite]
  (repeat' split) <;> simp [hm]

@[simp] theorem execBiSnoopTimeout_canon (line part ctx : Nat) :
    Canonical (execBiSnoopTimeout line part ctx s) := by
  unfold execBiSnoopTimeout
  dsimp only
  (repeat' split) <;> simp [hm]

@[simp] theorem execCxlCacheTimeout_canon (part ctx : Nat) : Canonical (execCxlCacheTimeout part ctx s) := by
  unfold execCxlCacheTimeout
  split <;> simp [hm]

@[simp] theorem execRegisterWrite_canon (r : HostReg) (v : BitVec 64) : Canonical (execRegisterWrite r v s) := by
  unfold execRegisterWrite
  split <;> simp [hm]

/-! ### Commands of `Control` -/

@[simp] theorem execCsrr_canon (c : Nat) (o : CsrOp) (u : Upset) : Canonical (execCsrr c o u s) := by
  refine State.issue_canon hm _ _ _ _ fun t k ht => ?_
  split <;> simp [ht]

@[simp] theorem execScall_canon (c : Nat) (u : Upset) : Canonical (execScall c u s) := by
  refine State.issue_canon hm _ _ _ _ fun t k ht => ?_
  simp [ht]

@[simp] theorem execSret_canon (c : Nat) (u : Upset) : Canonical (execSret c u s) := by
  refine State.issue_canon hm _ _ _ _ fun t k ht => ?_
  split <;> simp [ht]

@[simp] theorem execSexit_canon (c : Nat) (b : BitVec 5) (u : Upset) : Canonical (execSexit c b u s) := by
  refine State.issue_canon hm _ _ _ _ fun t k ht => ?_
  split <;> simp [ht]

@[simp] theorem execIend_canon (c : Nat) (b : BitVec 5) (u : Upset) : Canonical (execIend c b u s) := by
  refine State.issue_canon hm _ _ _ _ fun t k ht => ?_
  simp [ht]

@[simp] theorem execBrk_canon (c : Nat) (u : Upset) : Canonical (execBrk c u s) :=
  State.issue_canon hm _ _ _ _ fun _ _ _ => Eff.canon_exc ..

@[simp] theorem execIfence_canon (c : Nat) (u : Upset) : Canonical (execIfence c u s) := by
  refine State.issue_canon hm _ _ _ _ fun t k ht => ?_
  simp [ht]

@[simp] theorem execMmuinv_canon (c : Nat) (b : BitVec 5) (all : Bool) (u : Upset) :
    Canonical (execMmuinv c b all u s) := by
  refine State.issue_canon hm _ _ _ _ fun t k ht => ?_
  split <;> simp [ht]

@[simp] theorem execNop_canon (c : Nat) (u : Upset) : Canonical (execNop c u s) := by
  refine State.issue_canon hm _ _ _ _ fun t k ht => ?_
  simp [ht]

@[simp] theorem execIllegalOpcode_canon (c : Nat) (w : BitVec 64) (u : Upset) :
    Canonical (execIllegalOpcode c w u s) := by
  refine State.issue_canon hm _ _ _ _ fun t k ht => ?_
  split <;> simp [ht]

/-! ### Commands of `Counters` -/

@[simp] theorem execCntConfigConfigure_canon (slot : Nat) : Canonical (execCntConfigConfigure slot s) :=
  canonical_ite (canonical_next.2 hm) (command_canon hm _ _ _ fun _ => State.startCnt_canon _ _ hm)

@[simp] theorem execCntConfigRead_canon (slot : Nat) : Canonical (execCntConfigRead slot s) :=
  canonical_ite (canonical_next.2 hm) (command_canon hm _ _ _ fun _ => State.startCnt_canon _ _ hm)

@[simp] theorem execCntConfigClear_canon (slot : Nat) : Canonical (execCntConfigClear slot s) :=
  canonical_ite (canonical_next.2 hm) (command_canon hm _ _ _ fun _ => State.startCnt_canon _ _ hm)

@[simp] theorem execSampleConfig_canon (slot : Nat) : Canonical (execSampleConfig slot s) := by
  refine command_canon hm _ _ _ fun t => ?_
  dsimp only
  (repeat' split) <;> simp [hm]

@[simp] theorem execSampleTaken_canon (c : Nat) (i : SampleInfo) : Canonical (execSampleTaken c i s) := by
  unfold execSampleTaken
  dsimp only
  (repeat' split) <;> simp [hm]

@[simp] theorem execSampleSpill_canon (c : Nat) : Canonical (execSampleSpill c s) := by
  unfold execSampleSpill
  split <;> simp [hm]

/-! ### Commands of `Estimator` -/

@[simp] theorem execCalibrationUpdate_canon : Canonical (execCalibrationUpdate s) := by
  unfold execCalibrationUpdate
  dsimp only
  (repeat' split) <;> simp [hm]

/-! ### Commands of `Power` -/

@[simp] theorem execDecideStep_canon : Canonical (execDecideStep s) := by
  unfold execDecideStep
  split <;> simp [hm]

@[simp] theorem execPowerCap_canon (slot : Nat) : Canonical (execPowerCap slot s) := by
  refine command_canon hm _ _ _ fun t => ?_
  dsimp only
  (repeat' split) <;> simp [hm]

@[simp] theorem execPowerFixedEnter_canon (slot : Nat) : Canonical (execPowerFixedEnter slot s) := by
  refine canonical_ite (canonical_next.2 hm) (command_canon hm _ _ _ fun t => ?_)
  dsimp only
  split
  · split
    · simp [hm]
    · split <;> simp [hm]
  · simp [hm]

@[simp] theorem execPowerFixedLeave_canon (slot : Nat) : Canonical (execPowerFixedLeave slot s) := by
  refine canonical_ite (canonical_next.2 hm) (command_canon hm _ _ _ fun t => ?_)
  split
  · simp [hm]
  · split <;> simp [hm]

@[simp] theorem execEnergyReadTotals_canon (slot : Nat) : Canonical (execEnergyReadTotals slot s) := by
  refine canonical_ite (canonical_next.2 hm) (command_canon hm _ _ _ fun t => ?_)
  dsimp only
  split <;> simp [hm]

@[simp] theorem execEnergyReadTelemetry_canon (slot : Nat) : Canonical (execEnergyReadTelemetry slot s) := by
  refine canonical_ite (canonical_next.2 hm) (command_canon hm _ _ _ fun t => ?_)
  dsimp only
  split <;> simp [hm]

@[simp] theorem execEnergyReadStatus_canon (slot : Nat) : Canonical (execEnergyReadStatus slot s) := by
  refine canonical_ite (canonical_next.2 hm) (command_canon hm _ _ _ fun t => ?_)
  split <;> simp [hm]

/-! ### Commands of `Frame` -/

@[simp] theorem execFrameTick_canon (m : Snapshot) : Canonical (execFrameTick m s) := by
  have h1 : s.telemetry.sendVectors.commitLog.memory.Canon := by simp [hm]
  have h2 (p) : ({ s.telemetry.sendVectors.commitLog.tickSampling with power := p } : State).nextFrame.memory.Canon
      := by
    simp [hm]
  have h3 {t : State} (ht : t.memory.Canon) :
      (t.publish.applyConfig.applyOutputs.latch m).correctSubmits.correctFrame.sendTimes.linkTurn.memory.Canon := by
    simp [ht]
  have h4 (p) : ({ s.telemetry.sendVectors.commitLog with power := p } : State).nextFrame.memory.Canon := by
    simp [hm]
  exact canonical_next.2 (canon_ite hm (canon_ite (h3 (h2 _)) (h4 _)))

@[simp] theorem execActStep_canon (b : Bool) : Canonical (execActStep b s) := by
  unfold execActStep
  dsimp only
  (repeat' split) <;> simp [hm]

@[simp] theorem execStateCopy_canon (good : Bool) : Canonical (execStateCopy good s) := by
  unfold execStateCopy
  split <;> simp [hm]

@[simp] theorem execFrameOverrun_canon : Canonical (execFrameOverrun s) := by
  unfold execFrameOverrun
  split <;> simp [hm]

@[simp] theorem execCtlTakeover_canon (why : TakeoverCause) : Canonical (execCtlTakeover why s) := by
  unfold execCtlTakeover
  dsimp only
  (repeat' split) <;> simp [hm]

@[simp] theorem execSafeState_canon : Canonical (execSafeState s) := by
  unfold execSafeState
  dsimp only
  (repeat' split) <;> simp [hm]

@[simp] theorem execTrimUpdate_canon (region : Nat) (short : Bool) (step : Nat) :
    Canonical (execTrimUpdate region short step s) := by
  unfold execTrimUpdate
  dsimp only
  (repeat' split) <;> simp [hm]

@[simp] theorem execDroop_canon (region : Nat) (deep : Bool) : Canonical (execDroop region deep s) := by
  unfold execDroop
  split <;> simp [hm]

@[simp] theorem execDroopRecovery_canon (region : Nat) : Canonical (execDroopRecovery region s) := by
  unfold execDroopRecovery
  split <;> simp [hm]

/-! ### Commands of `Recovery` -/

@[simp] theorem execHostPerstAssert_canon : Canonical (execHostPerstAssert s) := by
  unfold execHostPerstAssert
  dsimp only
  (repeat' split) <;> simp [hm]

@[simp] theorem execHostPerstDeassert_canon (flit256 : Bool) : Canonical (execHostPerstDeassert flit256 s) := by
  unfold execHostPerstDeassert
  dsimp only
  (repeat' split) <;> simp [hm]

@[simp] theorem execDumpSummaryWrite_canon : Canonical (execDumpSummaryWrite s) := by
  unfold execDumpSummaryWrite
  split <;> simp [hm]

@[simp] theorem execDumpRead_canon (slot : Nat) : Canonical (execDumpRead slot s) := by
  refine command_canon hm _ _ _ fun t => ?_
  dsimp only
  (repeat' split) <;> simp [hm]

@[simp] theorem execLogReadEvents_canon (slot : Nat) : Canonical (execLogReadEvents slot s) := by
  refine canonical_ite (canonical_next.2 hm) (command_canon hm _ _ _ fun t => ?_)
  dsimp only
  split <;> simp [hm]

@[simp] theorem execLogReadRecord_canon (slot : Nat) : Canonical (execLogReadRecord slot s) := by
  refine canonical_ite (canonical_next.2 hm) (command_canon hm _ _ _ fun t => ?_)
  split <;> simp [hm]

@[simp] theorem execHeartbeatCheck_canon (cmd ctl sec : Bool) : Canonical (execHeartbeatCheck cmd ctl sec s) := by
  unfold execHeartbeatCheck
  split <;> simp [hm]

@[simp] theorem execFirstHeartbeatTimeout_canon (comp : Nat) : Canonical (execFirstHeartbeatTimeout comp s) := by
  unfold execFirstHeartbeatTimeout
  dsimp only
  (repeat' split) <;> simp [hm]

@[simp] theorem execLampWatchdog_canon : Canonical (execLampWatchdog s) := by
  unfold execLampWatchdog
  split <;> simp [hm]

@[simp] theorem execIodFabricError_canon (iod : Nat) : Canonical (execIodFabricError iod s) := by
  unfold execIodFabricError
  split <;> simp [hm]

/-! ### Commands of `Update` -/

@[simp] theorem execFwStage_canon (slot : Nat) (data : List Byte) : Canonical (execFwStage slot data s) := by
  refine command_canon hm _ _ _ fun t => ?_
  dsimp only
  (repeat' split) <;> simp [hm]

@[simp] theorem execStagingTimeout_canon : Canonical (execStagingTimeout s) := by
  unfold execStagingTimeout
  dsimp only
  (repeat' split) <;> simp [hm]

@[simp] theorem execFwActivate_canon (slot : Nat) : Canonical (execFwActivate slot s) := by
  refine command_canon hm _ _ _ fun t => ?_
  dsimp only
  (repeat' split) <;> simp [hm]

@[simp] theorem execFwCommit_canon (slot : Nat) : Canonical (execFwCommit slot s) := by
  refine command_canon hm _ _ _ fun t => ?_
  dsimp only
  (repeat' split) <;> simp [hm]

@[simp] theorem execFwStatus_canon (slot : Nat) : Canonical (execFwStatus slot s) := by
  refine command_canon hm _ _ _ fun t => ?_
  split <;> simp [hm]

/-! ### Commands of `Start` -/

@[simp] theorem execColdStart_canon (f : StartFindings) : Canonical (execColdStart f s) := by
  refine canonical_next.2 (canon_ite hm ?_)
  refine State.runStart_canon _ _ _ (fun t ht => State.coldUnits_canon _ ht) ?_
  rw [State.readFlash_memory]
  dsimp only
  split <;> simp [hm]

@[simp] theorem execWarmStart_canon (bootsel : BitVec 2) (f : StartFindings) :
    Canonical (execWarmStart bootsel f s) := by
  have h1 (b p) : ((({ s with board := b } : State).persist p).openDebug.readFlash f).memory.Canon := by simp [hm]
  have h2 (b p) := State.runStart_canon false f (fun a => a.warmUnits f) (fun _ ht => State.warmUnits_canon _ ht)
      (h1 b p)
  exact canonical_next.2 (canon_ite hm (canon_ite (h2 _ _) ((h2 _ _).of_eq (State.measChanged_memory ..))))

/-! ### Commands of `Board` -/

@[simp] theorem execInputApplied_canon : Canonical (execInputApplied s) := by simp [execInputApplied, hm]

@[simp] theorem execInputLoss_canon (r : InputReading) : Canonical (execInputLoss r s) := by
  simp [execInputLoss, hm]

@[simp] theorem execUndervolt_canon (r : InputReading) : Canonical (execUndervolt r s) := by
  simp [execUndervolt, hm]

@[simp] theorem execOvervolt_canon (r : InputReading) : Canonical (execOvervolt r s) := by simp [execOvervolt, hm]

@[simp] theorem execOvercurrent_canon (r : InputReading) : Canonical (execOvercurrent r s) := by
  simp [execOvercurrent, hm]

@[simp] theorem execRailFault_canon (r : InputReading) : Canonical (execRailFault r s) := by
  simp [execRailFault, hm]

@[simp] theorem execVddSbLoss_canon : Canonical (execVddSbLoss s) := by
  unfold execVddSbLoss
  split <;> simp [hm]

@[simp] theorem execPwrEnAssert_canon (o : PowerUp) : Canonical (execPwrEnAssert o s) := by
  unfold execPwrEnAssert
  split <;> simp [hm]

@[simp] theorem execPwrEnDeassert_canon : Canonical (execPwrEnDeassert s) := by
  unfold execPwrEnDeassert
  dsimp only
  (repeat' split) <;> simp [hm]

@[simp] theorem execColdResetAssert_canon : Canonical (execColdResetAssert s) := by
  unfold execColdResetAssert
  dsimp only
  (repeat' split) <;> simp [hm]

@[simp] theorem execColdResetDeassert_canon (slotId : BitVec 6) (bootsel : BitVec 2) (o : PowerUp) :
    Canonical (execColdResetDeassert slotId bootsel o s) := by
  unfold execColdResetDeassert
  dsimp only
  (repeat' split) <;> simp [hm]

@[simp] theorem execLamplighterReady_canon (o : PowerUp) : Canonical (execLamplighterReady o s) := by
  unfold execLamplighterReady
  split <;> simp [hm]

@[simp] theorem execWarmReset_canon : Canonical (execWarmReset s) := by
  unfold execWarmReset
  dsimp only
  (repeat' split) <;> simp [hm]

@[simp] theorem execHangEscalation_canon : Canonical (execHangEscalation s) := by
  unfold execHangEscalation
  split <;> simp [hm]

@[simp] theorem execRestartHoldoffExpiry_canon (o : PowerUp) : Canonical (execRestartHoldoffExpiry o s) := by
  unfold execRestartHoldoffExpiry
  split <;> simp [hm]

@[simp] theorem execFlashWriteComplete_canon (o : PowerUp) : Canonical (execFlashWriteComplete o s) := by
  unfold execFlashWriteComplete
  dsimp only
  (repeat' split) <;> simp [hm]

@[simp] theorem execSnuffer_canon : Canonical (execSnuffer s) := by
  unfold execSnuffer
  dsimp only
  (repeat' split) <;> simp [hm]

@[simp] theorem execSnufferPowerOff_canon (r : InputReading) : Canonical (execSnufferPowerOff r s) := by
  unfold execSnufferPowerOff
  split <;> simp [hm]

@[simp] theorem execCoolantStopDeassert_canon (o : PowerUp) : Canonical (execCoolantStopDeassert o s) := by
  simp [execCoolantStopDeassert, hm]

@[simp] theorem execCoolantStopRelease_canon : Canonical (execCoolantStopRelease s) := by
  unfold execCoolantStopRelease
  split <;> simp [hm]

@[simp] theorem execThermalTrip_canon (sensor : Nat) (reading : Int) (r : InputReading) :
    Canonical (execThermalTrip sensor reading r s) := by
  unfold execThermalTrip
  split <;> simp [hm]

@[simp] theorem execTripHoldoffExpiry_canon (o : PowerUp) : Canonical (execTripHoldoffExpiry o s) := by
  unfold execTripHoldoffExpiry
  split <;> simp [hm]

@[simp] theorem execSrefclkPresent_canon : Canonical (execSrefclkPresent s) := by
  unfold execSrefclkPresent
  dsimp only
  (repeat' split) <;> simp [hm]

@[simp] theorem execFrameSyncPresent_canon : Canonical (execFrameSyncPresent s) := by
  simp [execFrameSyncPresent, hm]

@[simp] theorem execFrameSyncAbsent_canon : Canonical (execFrameSyncAbsent s) := by simp [execFrameSyncAbsent, hm]

/-! ### Commands of `Tray` -/

@[simp] theorem execCoolantReport_canon (m : CoolantMsg) (o : PowerUp) : Canonical (execCoolantReport m o s) := by
  refine tray_canon hm ?_
  dsimp only
  (repeat' split) <;> simp [hm]

@[simp] theorem execCoolantReportStale_canon : Canonical (execCoolantReportStale s) := by
  unfold execCoolantReportStale
  split <;> simp [hm]

@[simp] theorem execCoolantHoldExpiry_canon : Canonical (execCoolantHoldExpiry s) := by
  unfold execCoolantHoldExpiry
  split <;> simp [hm]

@[simp] theorem execRackCeiling_canon (w : Nat) : Canonical (execRackCeiling w s) := by
  refine tray_canon hm ?_
  split <;> simp [hm]

@[simp] theorem execServiceClear_canon : Canonical (execServiceClear s) := by
  refine tray_canon hm ?_
  split <;> simp [hm]

@[simp] theorem execFabRead_canon (iod off count : Nat) : Canonical (execFabRead iod off count s) := by
  refine tray_canon hm ?_
  (repeat' apply canon_ite) <;> simp [hm]

@[simp] theorem execFabWrite_canon (iod off : Nat) (vals : List (BitVec 64)) :
    Canonical (execFabWrite iod off vals s) := by
  refine tray_canon hm ?_
  (repeat' apply canon_ite) <;> simp [hm]

@[simp] theorem execTrayFwCommit_canon (comp : Nat) : Canonical (execTrayFwCommit comp s) := by
  refine tray_canon hm ?_
  dsimp only
  (repeat' split) <;> simp [hm]

@[simp] theorem execTelemRead_canon (frame : Nat) : Canonical (execTelemRead frame s) := by
  refine tray_canon hm ?_
  simp [hm]

@[simp] theorem execIodReset_canon (iod : Nat) : Canonical (execIodReset iod s) := by
  have ha (t : State) (ht : t.memory.Canon) (c st l) := ht.of_eq (t.answer_memory c st l)
  exact tray_canon hm (canon_ite (ha _ hm ..) (canon_ite (ha _ hm ..) (canon_ite
    (ha _ (State.resetDie_canon _ hm) ..) (ha _ hm ..))))

@[simp] theorem execGetState_canon : Canonical (execGetState s) := by
  refine tray_canon hm ?_
  simp [hm]

/-! ### Commands of `Sideband` -/

@[simp] theorem execSetdasa_canon (addr : BitVec 7) : Canonical (execSetdasa addr s) := by
  refine ccc_canon hm ?_
  simp [hm]

@[simp] theorem execSetaasa_canon : Canonical (execSetaasa s) := by
  refine ccc_canon hm ?_
  simp [hm]

@[simp] theorem execEntdaa_canon (addr : BitVec 7) : Canonical (execEntdaa addr s) := by
  refine ccc_canon hm ?_
  simp [hm]

@[simp] theorem execRstdaa_canon : Canonical (execRstdaa s) := by
  refine ccc_canon hm ?_
  simp [hm]

@[simp] theorem execGetmrl_canon : Canonical (execGetmrl s) := by
  refine ccc_canon hm ?_
  simp [hm]

@[simp] theorem execGetmwl_canon : Canonical (execGetmwl s) := by
  refine ccc_canon hm ?_
  simp [hm]

@[simp] theorem execGetstatus_canon : Canonical (execGetstatus s) := by
  refine ccc_canon hm ?_
  simp [hm]

@[simp] theorem execGetbcr_canon : Canonical (execGetbcr s) := by
  refine ccc_canon hm ?_
  simp [hm]

@[simp] theorem execGetdcr_canon : Canonical (execGetdcr s) := by
  refine ccc_canon hm ?_
  simp [hm]

@[simp] theorem execGetpid_canon : Canonical (execGetpid s) := by
  refine ccc_canon hm ?_
  simp [hm]

@[simp] theorem execSetEndpointId_canon (eid : BitVec 8) : Canonical (execSetEndpointId eid s) := by
  refine ccc_canon hm ?_
  split <;> simp [hm]

@[simp] theorem execGetEndpointId_canon : Canonical (execGetEndpointId s) := by
  refine ccc_canon hm ?_
  simp [hm]

@[simp] theorem execGetMctpVersionSupport_canon : Canonical (execGetMctpVersionSupport s) := by
  refine ccc_canon hm ?_
  simp [hm]

@[simp] theorem execGetMessageTypeSupport_canon : Canonical (execGetMessageTypeSupport s) := by
  refine ccc_canon hm ?_
  simp [hm]

@[simp] theorem execGetVendorDefinedMessageSupport_canon : Canonical (execGetVendorDefinedMessageSupport s) := by
  refine ccc_canon hm ?_
  simp [hm]

@[simp] theorem execGetTid_canon : Canonical (execGetTid s) := by
  refine pldm_canon hm ?_
  simp [hm]

@[simp] theorem execSetTid_canon (tid : BitVec 8) : Canonical (execSetTid tid s) := by
  refine pldm_canon hm ?_
  simp [hm]

@[simp] theorem execGetPldmVersion_canon (type : Nat) : Canonical (execGetPldmVersion type s) := by
  refine pldm_canon hm ?_
  simp [hm]

@[simp] theorem execGetPldmTypes_canon : Canonical (execGetPldmTypes s) := by
  refine pldm_canon hm ?_
  simp [hm]

@[simp] theorem execGetPldmCommands_canon (type : Nat) : Canonical (execGetPldmCommands type s) := by
  refine pldm_canon hm ?_
  simp [hm]

@[simp] theorem execUnsupportedPldmCommand_canon (x x' : Nat) : Canonical (execUnsupportedPldmCommand x x' s) := by
  refine ccc_canon hm ?_
  simp [hm]

@[simp] theorem execGetPdrRepositoryInfo_canon : Canonical (execGetPdrRepositoryInfo s) := by
  refine pldm_canon hm ?_
  simp [hm]

@[simp] theorem execGetPdr_canon (handle : Nat) : Canonical (execGetPdr handle s) := by
  refine pldm_canon hm ?_
  split <;> simp [hm]

@[simp] theorem execGetSensorReading_canon (id : Nat) : Canonical (execGetSensorReading id s) := by
  refine pldm_canon hm ?_
  (repeat' apply canon_ite) <;> simp [hm]

@[simp] theorem execGetStateSensorReadings_canon (id : Nat) : Canonical (execGetStateSensorReadings id s) := by
  refine pldm_canon hm ?_
  split <;> simp [hm]

@[simp] theorem execPollForPlatformEventMessage_canon (ack : Bool) :
    Canonical (execPollForPlatformEventMessage ack s) := by
  refine pldm_canon hm ?_
  split <;> simp [hm]

@[simp] theorem execEventMessageSupported_canon : Canonical (execEventMessageSupported s) := by
  refine pldm_canon hm ?_
  simp [hm]

@[simp] theorem execRequestUpdate_canon : Canonical (execRequestUpdate s) := by
  refine ccc_canon hm ?_
  split <;> simp [hm]

@[simp] theorem execPassComponentTable_canon (comps : List Nat) : Canonical (execPassComponentTable comps s) := by
  refine ccc_canon hm ?_
  split <;> simp [hm]

@[simp] theorem execUpdateComponent_canon (comp : Nat) : Canonical (execUpdateComponent comp s) := by
  refine canonical_next.2 ?_
  (repeat' apply canon_ite) <;> simp [hm]

@[simp] theorem execRequestFirmwareData_canon (data : List Byte) : Canonical (execRequestFirmwareData data s) := by
  refine ccc_canon hm ?_
  split
  · split <;> simp [hm]
  · exact hm

@[simp] theorem execActivateFirmware_canon : Canonical (execActivateFirmware s) := by
  refine canonical_next.2 ?_
  (repeat' apply canon_ite) <;> simp [hm]

@[simp] theorem execCancelUpdateComponent_canon : Canonical (execCancelUpdateComponent s) := by
  refine ccc_canon hm ?_
  (repeat' apply canon_ite) <;> simp [hm]

@[simp] theorem execCancelUpdate_canon : Canonical (execCancelUpdate s) := by
  refine ccc_canon hm ?_
  dsimp only
  (repeat' split) <;> simp [hm]

/-! ### Commands of `Attest` -/

@[simp] theorem execCosigExpiry_canon (id : BitVec 32) : Canonical (execCosigExpiry id s) := by
  simp [execCosigExpiry, hm]

@[simp] theorem execActivationComplete_canon (pauseUs : Nat) : Canonical (execActivationComplete pauseUs s) := by
  unfold execActivationComplete
  dsimp only
  (repeat' split) <;> simp [hm]

@[simp] theorem execActivationTimeout_canon : Canonical (execActivationTimeout s) := by
  unfold execActivationTimeout
  dsimp only
  (repeat' split) <;> simp [hm]

/-! ### Commands of `Scalar` -/

@[simp] theorem execLui_canon (c : Nat) (o : IOp) (u : Upset) : Canonical (execLui c o u s) := by
  refine State.issue_canon hm _ _ _ _ fun t k ht => ?_
  simp [ht]

@[simp] theorem execJal_canon (c : Nat) (o : IOp) (u : Upset) : Canonical (execJal c o u s) := by
  refine State.issue_canon hm _ _ _ _ fun t k ht => ?_
  simp [ht]

@[simp] theorem execJalr_canon (c : Nat) (o : IOp) (u : Upset) : Canonical (execJalr c o u s) := by
  refine State.issue_canon hm _ _ _ _ fun t k ht => ?_
  dsimp only
  (repeat' split) <;> simp [ht]

@[simp] theorem execBpany_canon (c : Nat) (o : BPOp) (u : Upset) : Canonical (execBpany c o u s) := by
  refine State.issueP_canon hm _ _ _ _ _ fun t k ht => ?_
  simp [ht]

@[simp] theorem execBpnone_canon (c : Nat) (o : BPOp) (u : Upset) : Canonical (execBpnone c o u s) := by
  refine State.issueP_canon hm _ _ _ _ _ fun t k ht => ?_
  simp [ht]

/-! ### Commands of `Vector` -/

@[simp] theorem execVcmp_canon (c : Nat) (o : VOp) (u : Upset) : Canonical (execVcmp c o u s) := by
  refine State.issueG_canon hm _ _ _ _ _ _ _ fun t k ht => ?_
  simp [ht]

@[simp] theorem execVsel_canon (c : Nat) (o : VOp) (u : Upset) : Canonical (execVsel c o u s) := by
  refine State.issueG_canon hm _ _ _ _ _ _ _ fun t k ht => ?_
  simp [ht]

@[simp] theorem execVcvt_canon (c : Nat) (o : VOp) (u : Upset) : Canonical (execVcvt c o u s) := by
  refine State.issueG_canon hm _ _ _ _ _ _ _ fun t k ht => ?_
  simp [ht]

@[simp] theorem execVperm_canon (c : Nat) (o : VOp) (u : Upset) : Canonical (execVperm c o u s) := by
  refine State.issueG_canon hm _ _ _ _ _ _ _ fun t k ht => ?_
  simp [ht]

@[simp] theorem execVreduce_canon (c : Nat) (o : VOp) (u : Upset) : Canonical (execVreduce c o u s) := by
  refine State.issueG_canon hm _ _ _ _ _ _ _ fun t k ht => ?_
  simp [ht]

@[simp] theorem execVext_canon (c : Nat) (o : VOp) (u : Upset) : Canonical (execVext c o u s) := by
  refine State.issueG_canon hm _ _ _ _ _ _ _ fun t k ht => ?_
  simp [ht]

@[simp] theorem execVins_canon (c : Nat) (o : VOp) (u : Upset) : Canonical (execVins c o u s) := by
  refine State.issueG_canon hm _ _ _ _ _ _ _ fun t k ht => ?_
  simp [ht]

@[simp] theorem execViota_canon (c : Nat) (o : VOp) (u : Upset) : Canonical (execViota c o u s) := by
  refine State.issueG_canon hm _ _ _ _ _ _ _ fun t k ht => ?_
  simp [ht]

@[simp] theorem execVtob_canon (c : Nat) (o : VOp) (u : Upset) : Canonical (execVtob c o u s) := by
  refine State.issueG_canon hm _ _ _ _ _ _ _ fun t k ht => ?_
  simp [ht]

@[simp] theorem execVbadd_canon (c : Nat) (o : VOp) (u : Upset) : Canonical (execVbadd c o u s) := by
  refine State.issueG_canon hm _ _ _ _ _ _ _ fun t k ht => ?_
  simp [ht]

@[simp] theorem execXtalV_canon (c : Nat) (o : VOp) (u : Upset) : Canonical (execXtalV c o u s) := by
  refine State.issueG_canon hm _ _ _ _ _ _ _ fun t k ht => ?_
  split
  · exact Eff.legal_canon _ (by simp [vecResult, Eff.cell, Eff.put, ht])
  · exact Eff.canon_exc ..

@[simp] theorem execVtopk_canon (c : Nat) (o : VOp) (u : Upset) : Canonical (execVtopk c o u s) := by
  refine State.issueG_canon hm _ _ _ _ _ _ _ fun t k ht => ?_
  simp [ht]

/-! ### All commands -/

theorem exec_canon (i : Instr) : Canonical (exec i s) := by
  unfold exec
  split
  all_goals simp [hm, execAdd, execSub, execAnd, execOr, execXor, execSll, execSrl, execSra, execSlt, execSltu,
    execMul, execMulh, execMulhu, execDiv, execDivu, execRem, execRemu, execMin, execMax, execAddi, execAndi,
    execOri, execXori, execSlli, execSrli, execSrai, execVadd, execVsub, execVmul, execVmin, execVmax, execVand,
    execVor, execVxor, execVsll, execVsrl, execVsra, execVrcp, execVrsqrt, execVexp2, execVlog2, execVfma,
    execVfnma, execBeq, execBne, execBlt, execBge, execBltu, execBgeu, execAmoadd, execAmoswap, execAmocas,
    execAmomin, execAmomax, execAmoand, execAmoor, execCsrw, execCsrs, execCsrc, execGetMeasurements,
    execGetCertificate, execChallenge, execKeyExchange, execRespondIfReady, execCosigFetch, execPqChainGet,
    execDebugNonce, execDebugToken, execIdeKmQuery, execKeyProg, execKSetGo, execKSetStop, execTdispRequest,
    execGetVersion, execGetCapabilities, execNegotiateAlgorithms, execGetDigests, execFinish, execEndSession,
    execKeyUpdate, execSpdmHeartbeat, execChunkSend, execChunkGet, execCdatTableAccess]

end

/-- Settles O56: a step runs the front command, and each command keeps the memories canonical (`exec_canon`). -/
theorem memoryStaysCanonical : Obligations.MemoryStaysCanonical := by
  intro s t hm hstep
  cases hq : s.pending with
  | nil =>
    rw [stepRunsFrontCommand.2 s hq] at hstep
    exact Host.Outcome.next.inj hstep ▸ hm
  | cons i l =>
    rw [step, hq] at hstep
    exact exec_canon (s := { s with pending := l }) hm i t hstep

end Sys2Proof.Machine

end

section
/-! Requests over I3C: common command codes and MCTP control. -/

namespace Sys2Proof.Machine

/-! ## What Lamplighter answers (R478) -/

section
variable {s : State}

theorem ccc_answered (h : s.lampAnswers = true) (f : State) : ccc s f = .next f := by rw [ccc, if_pos h]

theorem ccc_muted (h : s.lampAnswers = false) (f : State) : ccc s f = .next s := by simp [ccc, h]

theorem State.takeAddress_of_none (h : s.side.dynAddr = none) (a : BitVec 7) :
    s.takeAddress a = { s with side := { s.side with dynAddr := some a } } := by
  simp [State.takeAddress, h]

theorem State.takeAddress_of_some {b : BitVec 7} (h : s.side.dynAddr = some b) (a : BitVec 7) : s.takeAddress a = s := by
  simp [State.takeAddress, h]

theorem exec_bus_muted (h : s.lampAnswers = false) (a : BitVec 7) (e : BitVec 8) :
    ∀ i ∈ [Instr.setdasa a, .setaasa, .entdaa a, .rstdaa, .getmrl, .getmwl, .getstatus, .getbcr, .getdcr, .getpid,
      .setEndpointId e, .getEndpointId, .getMctpVersionSupport, .getMessageTypeSupport, .getVendorDefinedMessageSupport],
    exec i s = .next s := by
  simp only [List.forall_mem_cons, List.not_mem_nil, false_implies, implies_true, and_true]
  and_intros <;> exact ccc_muted h _

theorem setEndpointId_answers (h : s.lampAnswers = true) {e : BitVec 8} (h0 : e ≠ 0) (hff : e ≠ 0xFF) :
    Answers (.setEndpointId e) s fun t => t.side = { s.side with eid := e } ∧ t.out = s.out ++ [.mctp 0 [e.toNat]] :=
  Answers.of_next (ccc_answered h _) (if_neg (not_or.2 ⟨h0, hff⟩)) ⟨rfl, rfl⟩

theorem exec_setEndpointId_invalid (h : s.lampAnswers = true) {e : BitVec 8} (he : e = 0 ∨ e = 0xFF) :
    exec (.setEndpointId e) s = .next (s.emit (.mctp 2 [])) :=
  (ccc_answered h _).trans (congrArg _ (if_pos he))

theorem getstatus_answers (h : s.lampAnswers = true) :
    Answers .getstatus s fun t => (∃ n, t.out = s.out ++ [.i3c [n]]) ∧ t.side = s.side :=
  Answers.of_next (ccc_answered h _) rfl ⟨⟨_, rfl⟩, rfl⟩

end

/-- Settles O50, command by command. -/
theorem busAndTransport : Obligations.BusAndTransport := by
  refine fun s => ⟨exec_bus_muted, fun h => ⟨fun a hfree => ⟨?_, ?_⟩, fun a b htaken => ?_, ccc_answered h _, ?_,
    getstatus_answers h, ccc_answered h _, ccc_answered h _, ccc_answered h _,
    fun e => ⟨setEndpointId_answers h, exec_setEndpointId_invalid h⟩, ccc_answered h _, ccc_answered h _,
    ccc_answered h _, ccc_answered h _⟩⟩
  · have htake (i) (hi : exec i s = ccc s (s.takeAddress a)) := (hi.trans (ccc_answered h _)).trans
      (congrArg _ (State.takeAddress_of_none hfree a))
    simp only [List.forall_mem_cons, List.not_mem_nil, false_implies, implies_true, and_true]
    exact ⟨htake _ rfl, htake _ rfl⟩
  · exact (ccc_answered h _).trans (congrArg _ (State.takeAddress_of_none hfree _))
  · have hkept (i x) (hi : exec i s = ccc s (s.takeAddress x)) := (hi.trans (ccc_answered h _)).trans
      (congrArg _ (State.takeAddress_of_some htaken x))
    simp only [List.forall_mem_cons, List.not_mem_nil, false_implies, implies_true, and_true]
    exact ⟨hkept _ _ rfl, hkept _ _ rfl, hkept _ _ rfl⟩
  · simp only [List.forall_mem_cons, List.not_mem_nil, false_implies, implies_true, and_true]
    exact ⟨ccc_answered h _, ccc_answered h _⟩

end Sys2Proof.Machine

end

section
/-! PLDM base and monitoring: what the boot ROM refuses, the sensors of the repository, and the event queue. -/

namespace Sys2Proof.Machine

section
variable {s : State}

/-! ## What is served (R481, R490) -/

theorem pldm_refused (h : s.lampAnswers = true) (hrom : s.board.bootsel = 3) (f : State) :
    pldm s f = .next (s.emit (.pldm .errorUnsupportedPldmCmd [])) :=
  (ccc_answered h _).trans (congrArg _ (if_pos hrom))

theorem pldm_served (h : s.lampAnswers = true) (hboot : s.board.bootsel ≠ 3) (f : State) : pldm s f = .next f :=
  (ccc_answered h _).trans (congrArg _ (if_neg hboot))

theorem exec_monitoring_rom (h : s.lampAnswers = true) (hrom : s.board.bootsel = 3) (id handle type : Nat)
    (tid : BitVec 8) (ack : Bool) :
    ∀ i ∈ [Instr.getTid, .setTid tid, .getPldmVersion type, .getPldmTypes, .getPldmCommands type,
      .getPdrRepositoryInfo, .getPdr handle, .getSensorReading id, .getStateSensorReadings id,
      .pollForPlatformEventMessage ack, .eventMessageSupported],
    exec i s = .next (s.emit (.pldm .errorUnsupportedPldmCmd [])) := by
  simp only [List.forall_mem_cons, List.not_mem_nil, false_implies, implies_true, and_true]
  and_intros <;> exact pldm_refused h hrom _

/-! ## Types and their commands (R484) -/

theorem pldmVersion_unlisted {type : Nat} (h0 : type ≠ 0) (h2 : type ≠ 2) (h5 : type ≠ 5) : pldmVersion type = none := by
  simp [pldmVersion, h0, h2, h5]

theorem pldmCommands_unlisted {type : Nat} (h0 : type ≠ 0) (h2 : type ≠ 2) (h5 : type ≠ 5) :
    pldmCommands type = none := by
  simp [pldmCommands, h0, h2, h5]

/-! ## Sensors (R485, R486) -/

theorem State.length_sensorIds : s.sensorIds.length = 8 + 192 + 2 * s.side.pdrPorts.length := by
  simp [State.sensorIds]; omega

theorem State.mem_sensorIds_port {h : Nat} (hh : h ∈ s.side.pdrPorts) : 0x200 + h ∈ s.sensorIds := by
  simp [State.sensorIds, hh]

theorem not_numericId_port (h : Nat) : numericId (0x200 + h) = false := by
  simp [numericId]; omega

/-- A number that names a half is that of a port, below 128. -/
theorem State.lt_of_halfNamed {h n : Nat} (hn : s.halfNamed h = some n) : h < 128 := by
  unfold State.halfNamed at hn
  split at hn
  next hc => exact hc.1
  next => cases hn

theorem State.stateSensor_port {h : Nat} (hup : s.board.railsUp = true) (hn : s.halfNamed h = some (halfOf h)) :
    s.stateSensor (0x200 + h) = some (s.port (halfOf h)).states := by
  have hlt := State.lt_of_halfNamed hn
  have h10 : 0x200 + h ≠ 0x10 := by omega
  have h11 : 0x200 + h ≠ 0x11 := by omega
  have h12 : 0x200 + h ≠ 0x12 := by omega
  have h13 : 0x200 + h ≠ 0x13 := by omega
  have h300 : 0x200 + h < 0x300 := by omega
  simp only [State.stateSensor, if_neg h10, if_neg h11, if_neg h12, if_neg h13, if_pos h300, if_pos hup,
    Nat.add_sub_cancel_left, hn, Option.map_some]

end

section
variable {s : State} (h : s.lampAnswers = true) (hboot : s.board.bootsel ≠ 3)
include h hboot

theorem getPdr_answers {handle x : Nat} (hx : s.sensorIds[handle - 1]? = some x) :
    Answers (.getPdr handle) s fun t => ∃ next, t.out = s.out ++ [.pldm .success [x, next]] ∧ t.side = s.side :=
  ⟨s.good [x, if max handle 1 < s.sensorIds.length then max handle 1 + 1 else 0],
    (pldm_served h hboot _).trans (by rw [hx]), _, rfl, rfl⟩

theorem exec_getPdr_unknown {handle : Nat} (hx : s.sensorIds[handle - 1]? = none) :
    exec (.getPdr handle) s = .next (s.emit (.pldm .invalidRecordHandle [])) :=
  (pldm_served h hboot _).trans (by rw [hx]; rfl)

theorem exec_getSensorReading_unknown {id : Nat} (hid : numericId id = false) :
    exec (.getSensorReading id) s = .next (s.emit (.pldm .invalidSensorId [])) :=
  (pldm_served h hboot _).trans (congrArg _ (if_pos (by simp [hid])))

theorem exec_getSensorReading_up {id : Nat} (hid : numericId id = true) (hup : s.board.railsUp = true) :
    exec (.getSensorReading id) s = .next (s.emit (.sensor id (s.numericUp id))) :=
  (pldm_served h hboot _).trans (by simp [hid, hup])

theorem exec_getSensorReading_down {id : Nat} (hid : numericId id = true) (hdown : s.board.railsUp = false)
    (hlt : 3 < id) : exec (.getSensorReading id) s = .next (s.emit (.sensor id none)) :=
  (pldm_served h hboot _).trans (by simp [hid, hdown, hlt])

theorem getSensorReading_standby {id : Nat} (hid : numericId id = true) (hdown : s.board.railsUp = false)
    (hle : id ≤ 3) : Answers (.getSensorReading id) s fun t => ∃ n : Nat, t.out = s.out ++ [.sensor id (some n)] :=
  Answers.of_next (u := s.free.2.emit (.sensor id (some s.free.1)))
    ((pldm_served h hboot _).trans (by simp [hid, hdown, hle])) rfl ⟨_, rfl⟩

theorem exec_getStateSensorReadings {id : Nat} (hid : numericId id = false) (hmem : id ∈ s.sensorIds) :
    exec (.getStateSensorReadings id) s = .next (s.emit (.states id (s.stateSensor id))) :=
  (pldm_served h hboot _).trans (congrArg _ (if_neg (by simp [hid, hmem])))

theorem exec_getStateSensorReadings_unknown {id : Nat} (hid : numericId id = true ∨ id ∉ s.sensorIds) :
    exec (.getStateSensorReadings id) s = .next (s.emit (.pldm .invalidSensorId [])) :=
  (pldm_served h hboot _).trans (congrArg _ (if_pos (by simpa using hid)))

theorem exec_getStateSensorReadings_port {n : Nat} (hup : s.board.railsUp = true) (hn : s.halfNamed n = some (halfOf n))
    (hmem : n ∈ s.side.pdrPorts) : exec (.getStateSensorReadings (0x200 + n)) s =
      .next (s.emit (.states (0x200 + n) (some (s.port (halfOf n)).states))) := by
  rw [exec_getStateSensorReadings h hboot (not_numericId_port n) (State.mem_sensorIds_port hmem),
    State.stateSensor_port hup hn]

/-! ## The event queue (R482, R483) -/

theorem poll_answers {e : TrayEvent} {l : List TrayEvent} (hq : s.side.queue = e :: l) :
    Answers (.pollForPlatformEventMessage false) s fun t => t.out = s.out ++ [.pldmEvent e s.side.discarded] ∧
      t.side.queue = s.side.queue ∧ t.side.polled = true :=
  Answers.of_next (pldm_served h hboot _)
    (show s.pollEvent = { s with side := { s.side with polled := true, discarded := 0 } }.emit
      (.pldmEvent e s.side.discarded) by rw [State.pollEvent, hq]) ⟨rfl, rfl, rfl⟩

theorem exec_poll_empty (hq : s.side.queue = []) :
    exec (.pollForPlatformEventMessage false) s = .next (s.emit (.pldm .success [])) :=
  (pldm_served h hboot _).trans (congrArg _ (show s.pollEvent = _ by rw [State.pollEvent, hq]; rfl))

theorem ack_answers (hp : s.side.polled = true) : Answers (.pollForPlatformEventMessage true) s fun t =>
    t.side.queue = s.side.queue.drop 1 ∧ t.side.polled = false ∧
      t.board.alert = (s.board.alert && !(s.side.queue.drop 1).isEmpty) := by
  refine Answers.of_next (pldm_served h hboot _) (if_pos hp) ⟨rfl, rfl, ?_⟩
  show (if s.side.queue.drop 1 = [] then false else s.board.alert) = _
  cases s.side.queue.drop 1 <;> simp

theorem exec_ack_unread (hp : s.side.polled = false) :
    exec (.pollForPlatformEventMessage true) s = .next (s.emit (.pldm .success [])) :=
  (pldm_served h hboot _).trans (congrArg _ (show s.ackEvent = _ by rw [State.ackEvent, if_neg (by simp [hp])]; rfl))

end

/-- Settles O51: what the boot ROM refuses, then request by request. -/
theorem pldmMonitoring : Obligations.PldmMonitoring := by
  refine fun s id handle type cmd tid ack => ⟨fun h => ⟨ccc_answered h _, fun hrom =>
    exec_monitoring_rom h hrom id handle type tid ack⟩, fun h hboot => ?_⟩
  have served (f : State) := pldm_served h hboot f
  refine ⟨served _, Answers.of_next (served _) rfl ⟨rfl, rfl⟩, ⟨served _, served _⟩, fun h0 h2 h5 => ⟨?version, ?commands⟩,
    served _, fun y _ l hl => ?listed, ?info, fun x => getPdr_answers h hboot, exec_getPdr_unknown h hboot,
    exec_getSensorReading_unknown h hboot, exec_getSensorReading_up h hboot,
    fun hid hdown => ⟨exec_getSensorReading_down h hboot hid hdown, getSensorReading_standby h hboot hid hdown⟩,
    exec_getStateSensorReadings h hboot (by decide) (by simp [State.sensorIds]),
    exec_getStateSensorReadings h hboot (by decide) (by simp [State.sensorIds]),
    exec_getStateSensorReadings_unknown h hboot, fun n => exec_getStateSensorReadings_port h hboot,
    fun e l => poll_answers h hboot, exec_poll_empty h hboot, ack_answers h hboot, exec_ack_unread h hboot, served _⟩
  case version => exact (served _).trans (by rw [pldmVersion_unlisted h0 h2 h5]; rfl)
  case commands => exact (served _).trans (by rw [pldmCommands_unlisted h0 h2 h5]; rfl)
  case listed => exact (served _).trans (by rw [hl]; rfl)
  case info => exact (served _).trans (by rw [State.length_sensorIds]; rfl)

end Sys2Proof.Machine

end

section
/-! SPDM requests that reach the security controller, and the vendor-defined ones among them: co-signatures, the
post-quantum chain and debug tokens. -/

namespace Sys2Proof.Machine

/-! ## Who answers (R420, R421, R490) -/

/-- A request of the connection reaches the security controller or its relay: over DOE the link is up and the command
processor runs; over MCTP Lamplighter serves and no start is under way. -/
def State.Reached (s : State) (cn : Conn) : Prop :=
  if cn.tr = .doe then s.board.cxlUp = true ∧ s.cmdPaused = false
  else s.lampAnswers = true ∧ s.board.bootsel ≠ 3 ∧ s.board.railsUp = true ∧ s.board.coldDue = false ∧
    s.board.warmDue = false

section
variable {s : State} {cn : Conn}

theorem State.reached_doe (htr : cn.tr = .doe) : s.Reached cn ↔ s.board.cxlUp = true ∧ s.cmdPaused = false :=
  iff_of_eq (if_pos htr)

theorem State.reached_mctp (htr : cn.tr ≠ .doe) : s.Reached cn ↔ s.lampAnswers = true ∧ s.board.bootsel ≠ 3 ∧
    s.board.railsUp = true ∧ s.board.coldDue = false ∧ s.board.warmDue = false :=
  iff_of_eq (if_neg htr)

theorem receive_reached (h : s.Reached cn) (r : Request) : receive cn r s = .next (s.atSec cn r) := by
  by_cases htr : cn.tr = .doe
  · obtain ⟨hup, hrun⟩ := (State.reached_doe htr).1 h
    exact receive_doe r htr hup hrun
  · obtain ⟨hlamp, hboot, hrails, hcold, hwarm⟩ := (State.reached_mctp htr).1 h
    exact congrArg _ ((if_neg htr).trans
      ((if_neg (by simpa [hlamp, hrails, hcold] using hboot)).trans (if_neg (by simp [hwarm]))))

/-- A request that the security controller serves. -/
theorem receive_served (h : s.Reached cn) (hsec : s.secServes = true) (r : Request) (f : State)
    (hr : s.atSec cn r = if s.secServes then f else s.relay cn r) : receive cn r s = .next f :=
  (receive_reached h r).trans (congrArg _ (hr.trans (if_pos hsec)))

end

/-! ## Co-signatures and the post-quantum chain (R419) -/

section
variable {s : State} {cn : Conn} {id : BitVec 32} {off len : Nat}

theorem State.out_vendor (code status : Nat) (data : List Byte) :
    (s.vendor cn code status id data).out = s.out ++ [.vendor cn.tr code status id data] := rfl

theorem State.giveRange_inside (code : Nat) {l : List Byte} (hlen : len ≤ 4096) (hend : off + len ≤ l.length) :
    s.giveRange cn code id l off len = s.vendor cn code vrDone id ((l.drop off).take len) :=
  if_neg (by omega)

theorem State.giveRange_outside (code : Nat) {l : List Byte} (h : 4096 < len ∨ l.length < off + len) :
    s.giveRange cn code id l off len = s.vendor cn code vrRange id [] :=
  if_pos h

theorem State.onPqChainGet_range (hlen : len ≤ 4096) (hend : off + len ≤ (s.chain 1).length) :
    s.onPqChainGet cn 0 off len = s.vendor cn 0x02 vrDone 0 (((s.chain 1).drop off).take len) :=
  (if_pos rfl).trans (State.giveRange_inside 0x02 hlen hend)

/-- A co-signature can be fetched by its identifier, on its own connection, for 10 s. -/
def State.cosigHeld (s : State) (cn : Conn) (id : BitVec 32) : Option Cosig :=
  s.sec.cosigs.find? fun x => x.id == id && x.conn == cn && decide (s.power.frame.toNat ≤ x.frame + tenSeconds)

theorem State.onCosigFetch_held {x : Cosig} (h : s.cosigHeld cn id = some x) :
    s.onCosigFetch cn id off len = s.giveRange cn 0x01 id x.sig off len := by
  rw [State.cosigHeld] at h
  rw [State.onCosigFetch, h]

theorem State.onCosigFetch_gone (h : s.cosigHeld cn id = none) :
    s.onCosigFetch cn id off len = s.vendor cn 0x01 vrUnknownId id [] := by
  rw [State.cosigHeld] at h
  rw [State.onCosigFetch, h]

theorem State.cosigHeld_eq_none
    (h : ∀ x ∈ s.sec.cosigs, x.id = id → x.conn = cn → x.frame + 500000 < s.power.frame.toNat) :
    s.cosigHeld cn id = none := by
  refine List.find?_eq_none.2 fun x hx => ?_
  have hold := h x hx
  rw [Bool.and_eq_true, Bool.and_eq_true, beq_iff_eq, beq_iff_eq]
  rintro ⟨⟨hid, hcn⟩, hfresh⟩
  exact absurd (of_decide_eq_true hfresh) (Nat.not_le.2 (hold hid hcn))

end

/-! ## Debug tokens (R431, R432) -/

section
variable {s : State} {cn : Conn} {id : BitVec 32} {off issued : Nat} {data : List Byte}

theorem State.onDebugToken_refused (h : cn.tr = .doe ∨ s.fuses.keysetDev = false ∨ s.fuses.debugFuse = true) :
    s.onDebugToken cn id off data = s.vendor cn 0x04 vrRefused id [] :=
  if_pos (by simpa using h)

/-- The place of a piece of a token decides: it is refused out of place, judged as the last, and kept before. -/
theorem State.onDebugToken_piece (htr : cn.tr ≠ .doe) (hdev : s.fuses.keysetDev = true)
    (hfuse : s.fuses.debugFuse = false) (hnonce : s.sec.nonce = some (id, issued)) (hdata : data.length ≤ 4096) :
    s.onDebugToken cn id off data =
      let l := s.sec.token ++ data
      if off ≠ s.sec.token.length ∨ tokenLen < l.length then s.vendor cn 0x04 vrRange id []
      else if l.length = tokenLen then s.judgeToken cn id issued l
      else { s with sec := { s.sec with token := l } }.vendor cn 0x04 vrDone id [] := by
  have hlong : ¬4096 < data.length := by omega
  rw [State.onDebugToken, if_neg (by simp [htr, hdev, hfuse]), hnonce]
  simp [hlong]

theorem State.onDebugToken_kept (htr : cn.tr ≠ .doe) (hdev : s.fuses.keysetDev = true)
    (hfuse : s.fuses.debugFuse = false) (hnonce : s.sec.nonce = some (id, issued)) (hdata : data.length ≤ 4096)
    (hpart : (s.sec.token ++ data).length < tokenLen) : s.onDebugToken cn id s.sec.token.length data =
      { s with sec := { s.sec with token := s.sec.token ++ data } }.vendor cn 0x04 vrDone id [] :=
  (State.onDebugToken_piece htr hdev hfuse hnonce hdata).trans
    ((if_neg (not_or.2 ⟨not_not.2 rfl, Nat.not_lt.2 hpart.le⟩)).trans (if_neg hpart.ne))

/-- A whole token spends the nonce, whether it is accepted or not. -/
theorem State.onDebugToken_whole (htr : cn.tr ≠ .doe) (hdev : s.fuses.keysetDev = true)
    (hfuse : s.fuses.debugFuse = false) (hnonce : s.sec.nonce = some (id, issued)) (hdata : data.length ≤ 4096)
    (hwhole : (s.sec.token ++ data).length = tokenLen) : s.onDebugToken cn id s.sec.token.length data =
      if s.tokenOk id issued (s.sec.token ++ data) then
        { s with sec := { s.sec with nonce := none, token := [],
                                     tokenScope := some (BitVec.ofNat 32 (gatherDesc (s.sec.token ++ data) 4 4)) } }.vendor
          cn 0x04 vrDone id []
      else { s with sec := { s.sec with nonce := none, token := [] } }.vendor cn 0x04 vrRefused id [] :=
  (State.onDebugToken_piece htr hdev hfuse hnonce hdata).trans
    ((if_neg (not_or.2 ⟨not_not.2 rfl, Nat.not_lt.2 hwhole.le⟩)).trans (if_pos hwhole))

theorem State.onDebugToken_misplaced (htr : cn.tr ≠ .doe) (hdev : s.fuses.keysetDev = true)
    (hfuse : s.fuses.debugFuse = false) (hnonce : s.sec.nonce = some (id, issued)) (hdata : data.length ≤ 4096)
    (hoff : off ≠ s.sec.token.length) : s.onDebugToken cn id off data = s.vendor cn 0x04 vrRange id [] :=
  (State.onDebugToken_piece htr hdev hfuse hnonce hdata).trans (if_pos (.inl hoff))

end

/-- Settles O54, request by request. -/
theorem vendorRequests : Obligations.VendorRequests := by
  intro s cn hsec hreach
  have served (r : Request) (f : State) (hr : s.atSec cn r = if s.secServes then f else s.relay cn r) :
      receive cn r s = .next f := receive_served hreach hsec r f hr
  refine ⟨fun id off len => ⟨fun x hx hlen => ⟨fun hmax hend => ?cosig, fun hout => ?cosigRange⟩, fun hold => ?cosigGone,
      fun hid => ?chainUnknown, fun hmax hend => ?chain⟩,
    fun htr => ⟨?nonceDoe, fun id off data => ?tokenDoe⟩, fun htr => ?nonce, fun href id off data => ?tokenRefused,
    fun htr hdev hfuse id issued hnonce data hdata => ?token,
    fun id => ⟨_, rfl, rfl, rfl, fun x => ?expiry⟩⟩
  case cosig =>
    exact (served _ _ rfl).trans (congrArg _ ((State.onCosigFetch_held hx).trans
      (State.giveRange_inside 0x01 hmax (hend.trans_eq hlen.symm))))
  case cosigRange =>
    exact (served _ _ rfl).trans (congrArg _ ((State.onCosigFetch_held hx).trans
      (State.giveRange_outside 0x01 (hlen ▸ hout))))
  case cosigGone =>
    exact (served _ _ rfl).trans (congrArg _ (State.onCosigFetch_gone (State.cosigHeld_eq_none hold)))
  case chainUnknown => exact (served _ _ rfl).trans (congrArg _ (if_neg hid))
  case chain => exact (served _ _ rfl).trans (congrArg _ (State.onPqChainGet_range hmax hend))
  case nonceDoe => exact (served _ _ rfl).trans (congrArg _ (if_pos htr))
  case tokenDoe => exact (served _ _ rfl).trans (congrArg _ (State.onDebugToken_refused (.inl htr)))
  case nonce =>
    exact Answers.of_next (served .debugNonce _ rfl) (if_neg (by simp [htr]))
      ⟨rfl, rfl, rfl, by rw [State.out_vendor, htr]; rfl⟩
  case tokenRefused => exact (served _ _ rfl).trans (congrArg _ (State.onDebugToken_refused (.inr href)))
  case token =>
    have hmctp : cn.tr ≠ .doe := by simp [htr]
    refine ⟨fun hpart => ?_, fun hwhole => ?_, fun other hother => ?_⟩
    · exact Answers.of_next (served (.debugToken id _ data) _ rfl)
        (State.onDebugToken_kept hmctp hdev hfuse hnonce hdata hpart)
        ⟨rfl, rfl, by rw [State.out_vendor, htr]; rfl⟩
    · refine Answers.of_next (served (.debugToken id _ data) _ rfl)
        (State.onDebugToken_whole hmctp hdev hfuse hnonce hdata hwhole) ?_
      split
      · exact ⟨rfl, rfl, rfl, by rw [State.out_vendor, htr]; rfl⟩
      · exact ⟨rfl, rfl, rfl, by rw [State.out_vendor, htr]; rfl⟩
    · exact (served _ _ rfl).trans
        (congrArg _ (State.onDebugToken_misplaced hmctp hdev hfuse hnonce hdata hother))
  case expiry =>
    refine List.mem_filter.trans (and_congr_right fun _ => ?_)
    rw [Bool.or_eq_true, bne_iff_ne, imp_iff_not_or]
    exact or_congr_right (decide_eq_true_iff (p := s.power.frame.toNat < x.frame + 500000))

end Sys2Proof.Machine
end

section
/-! SPDM: who answers a request on each transport, and what the security controller answers to each that it serves. -/

namespace Sys2Proof.Machine

/-! ## Requests that do not reach the security controller (R420, R421, R490) -/

/-- MCTP is up: Lamplighter serves, and no cold start is under way. -/
def State.MctpUp (s : State) : Prop :=
  s.lampAnswers = true ∧ s.board.bootsel ≠ 3 ∧ s.board.railsUp = true ∧ s.board.coldDue = false

section
variable {s : State} {cn : Conn}

theorem receive_linkDown (htr : cn.tr = .doe) (hdown : s.board.cxlUp = false) (r : Request) : receive cn r s = .next s :=
  congrArg _ ((if_pos htr).trans (if_pos (by simp [State.hostUp, hdown])))

theorem receive_mctpDown (htr : cn.tr = .mctp) (hdown : ¬s.MctpUp) (r : Request) : receive cn r s = .next s := by
  refine congrArg _ ((if_neg (by simp [htr])).trans (if_pos ?_))
  by_contra hup
  simp only [Bool.not_eq_true, Bool.or_eq_false_iff, Bool.not_eq_false', beq_eq_false_iff_ne] at hup
  exact hdown (by simpa [State.MctpUp, and_assoc] using hup)

theorem receive_busy (htr : cn.tr = .mctp) (hup : s.MctpUp) (hwarm : s.board.warmDue = true) (r : Request) :
    receive cn r s = .next (s.emit (.spdmError .mctp .busy [])) := by
  obtain ⟨hlamp, hboot, hrails, hcold⟩ := hup
  refine congrArg _ ((if_neg (by simp [htr])).trans
    ((if_neg (by simpa [hlamp, hrails, hcold] using hboot)).trans ((if_pos hwarm).trans ?_)))
  rw [State.refuse, htr]

theorem State.reached_plain {tr : Transport} (h : (tr = .mctp ∧ s.MctpUp ∧ s.board.warmDue = false) ∨
    (tr = .doe ∧ s.board.cxlUp = true ∧ s.cmdPaused = false)) : s.Reached { tr, session := none } := by
  rcases h with ⟨rfl, ⟨hlamp, hboot, hrails, hcold⟩, hwarm⟩ | ⟨rfl, hup, hrun⟩
  · exact (State.reached_mctp (by simp)).2 ⟨hlamp, hboot, hrails, hcold, hwarm⟩
  · exact (State.reached_doe rfl).2 ⟨hup, hrun⟩

/-- A request that comes while the command processor is paused waits in the mailbox. -/
theorem receive_waits (htr : cn.tr = .doe) (hup : s.board.cxlUp = true) (hpause : s.cmdPaused = true) (r : Request) :
    receive cn r s = .next { s with sec := { s.sec with waiting := s.sec.waiting ++ [(cn, r)] } } :=
  congrArg _ ((if_pos htr).trans ((if_neg (by simp [State.hostUp, hup])).trans (if_pos hpause)))

/-- The relay answers while the security controller cannot, and keeps the request. -/
theorem receive_relayed (h : s.Reached cn) (hsec : s.secServes = false) (hplain : cn.session = none) (r : Request)
    {f : State} (hr : s.atSec cn r = if s.secServes then f else s.relay cn r) :
    ∃ t, receive cn r s = .next t ∧ t.out = s.out ++ [.spdmError cn.tr .responseNotReady [19, 2]] ∧
      (∃ q, (cn, q) ∈ t.sec.deferred) ∧ t.sec.sessions = s.sec.sessions := by
  have hrelay : s.relay cn r = _ := if_neg (by simp [hplain])
  exact ⟨_, (receive_reached h r).trans (congrArg _ (hr.trans ((if_neg (by simp [hsec])).trans hrelay))), rfl,
    ⟨r, List.mem_cons_self⟩, rfl⟩

/-! ## `RESPOND_IF_READY` (R420) -/

theorem exec_respondIfReady (h : s.Reached cn) (hsec : s.secServes = true) :
    exec (.respondIfReady cn) s = .next (s.onRespond cn) :=
  (receive_reached h _).trans (congrArg _ (if_pos hsec))

theorem exec_respondIfReady_notReady (h : s.Reached cn) (hsec : s.secServes = false) :
    exec (.respondIfReady cn) s = .next (s.notReady cn) :=
  (receive_reached h _).trans (congrArg _ (if_neg (by simp [hsec])))

theorem State.onRespond_none (h : ∀ x ∈ s.sec.deferred, x.1.tr ≠ cn.tr) :
    s.onRespond cn = s.emit (.spdmError cn.tr .unexpectedRequest []) := by
  have hfind : (s.sec.deferred.find? fun x => x.1.tr == cn.tr) = none :=
    List.find?_eq_none.2 fun x hx => by simpa using h x hx
  rw [State.onRespond, hfind]
  rfl

theorem State.onRespond_only {r : Request} (h : s.sec.deferred = [(cn, r)]) :
    s.onRespond cn = { s with sec := { s.sec with deferred := [] } }.effect cn r := by
  simp [State.onRespond, h]

/-! ## Negotiation (R413) -/

theorem State.nego_setNego (h : s.sec.nego.length = 2) (n : Nego) : (s.setNego cn n).nego cn = n :=
  getD_setAt_same _ _ (by split <;> omega)

end

section
variable {s : State} {cn : Conn}

theorem State.whenAgreed_agreed (h : s.agreed cn = true) (f : State) : s.whenAgreed cn f = f := if_pos h

theorem State.whenAgreed_not (h : s.agreed cn = false) (f : State) :
    s.whenAgreed cn f = s.emit (.spdmError cn.tr .unexpectedRequest []) := if_neg (by simp [h])

theorem State.whenSecure_inside (h : s.inSession cn = true) (f : State) : s.whenSecure cn f = f := if_pos h

theorem State.whenSecure_outside (h : s.inSession cn = false) (f : State) :
    s.whenSecure cn f = s.emit (.spdmError cn.tr .unexpectedRequest []) := if_neg (by simp [h])

@[simp] theorem State.random_out : s.random.2.out = s.out := by
  simp only [State.random]
  split <;> rfl

end

/-! ## Measurements (R414 to R417) -/

theorem askedBlocks_eq_none {block : Nat} (hlo : 8 < block) (hhi : block ≠ 0xFF) : askedBlocks block = none := by
  rw [askedBlocks, if_neg (by omega), if_neg hhi, if_neg (by omega)]

section
variable {s : State} {cn : Conn} {block : Nat}

theorem State.onGetMeasurements_invalid (h : s.agreed cn = true) (hask : askedBlocks block = none) {signed : Bool} :
    s.onGetMeasurements cn block signed = s.emit (.spdmError cn.tr .invalidRequest []) := by
  rw [State.onGetMeasurements, State.whenAgreed_agreed h, hask]
  rfl

theorem State.onGetMeasurements_unsigned (h : s.agreed cn = true) {l : List Nat} (hask : askedBlocks block = some l) :
    s.onGetMeasurements cn block false = s.reply cn .measurements (s.measRecord l none) := by
  rw [State.onGetMeasurements, State.whenAgreed_agreed h, hask]
  rfl

theorem State.onGetMeasurements_signed (h : s.agreed cn = true) {l : List Nat} (hask : askedBlocks block = some l) :
    s.onGetMeasurements cn block true = ((s.sign (s.signedRecord l)).2.newCosig cn (s.cosign l)).reply cn .measurements
      (s.signedRecord l ++ (s.sign (s.signedRecord l)).1) := by
  rw [State.onGetMeasurements, State.whenAgreed_agreed h, hask]
  rfl

end

/-! ## Sessions (R413) -/

section
variable {s : State} {cn : Conn}

theorem State.onKeyExchange_opened (hplain : cn.session = none) (hneg : (s.nego cn).session = true)
    (hroom : (s.sessionsOf cn.tr).length < 4) :
    (s.onKeyExchange cn).sec.sessions =
        s.sec.sessions ++ [{ id := s.sec.nextSession, tr := cn.tr, established := false, secret := s.random.1 }] ∧
      (s.onKeyExchange cn).sec.nextSession = s.sec.nextSession + 1 ∧
      ∃ l, (s.onKeyExchange cn).out = s.out ++ [.spdm cn.tr .keyExchangeRsp l] ∧ (s.onKeyExchange cn).sec.large = l := by
  rw [State.onKeyExchange, if_neg (by simp [hplain, hneg]), if_neg (by omega)]
  exact ⟨rfl, rfl, _, congrArg (· ++ _) State.random_out, rfl⟩

theorem State.onKeyExchange_full (hplain : cn.session = none) (hneg : (s.nego cn).session = true)
    (hfull : 4 ≤ (s.sessionsOf cn.tr).length) :
    s.onKeyExchange cn = s.emit (.spdmError cn.tr .sessionLimitExceeded []) := by
  rw [State.onKeyExchange, if_neg (by simp [hplain, hneg]), if_pos hfull]
  rfl

theorem State.inSession_of_mem {id : Nat} (hid : cn.session = some id) {x : Session} (hx : x ∈ s.sec.sessions)
    (hxid : x.id = id) (htr : x.tr = cn.tr) (hopen : x.established = true) : s.inSession cn = true := by
  rw [State.inSession, hid]
  exact List.any_eq_true.2 ⟨x, hx, by simp [hxid, htr, hopen]⟩

/-- The sessions after `FINISH` of one. -/
def establish (id : Nat) (x : Session) : Session := if x.id = id then { x with established := true } else x

theorem State.onFinish_opened {id : Nat} (hid : cn.session = some id) {x : Session} (hx : x ∈ s.sec.sessions)
    (hxid : x.id = id) (htr : x.tr = cn.tr) (hnew : x.established = false) : s.onFinish cn =
      { s with sec := { s.sec with sessions := s.sec.sessions.map (establish id) } }.reply cn .finishRsp [] := by
  have hopened : (s.sec.sessions.any fun y => y.id == id && y.tr == cn.tr && !y.established) = true :=
    List.any_eq_true.2 ⟨x, hx, by simp [hxid, htr, hnew]⟩
  rw [State.onFinish, hid]
  exact if_pos hopened

theorem State.inSession_endSession (s : State) (cn : Conn) (h : s.inSession cn = true) :
    (s.onEndSession cn).inSession cn = false := by
  rw [State.onEndSession, State.whenSecure_inside h]
  cases hid : cn.session with
  | none => simp [State.inSession, hid]
  | some id =>
    simp only [State.inSession, hid]
    refine List.any_eq_false.2 fun x hx => ?_
    have hne : x.id ≠ id := by simpa using (List.mem_filter.1 hx).2
    simp [hne]

end

/-! ## Plain requests -/

/-- The requests that a requester can send outside a session, each at the security controller or its relay. -/
theorem exec_plainRequests (cn : Conn) (a : AlgOffer) (slot off len : Nat) :
    ∀ i ∈ [Instr.getVersion cn, .getCapabilities cn, .negotiateAlgorithms cn a, .getDigests cn,
      .getCertificate cn slot off len, .challenge cn slot, .getMeasurements cn slot true, .keyExchange cn],
    ∃ r, ∀ s, exec i s = receive cn r s ∧ s.atSec cn r = if s.secServes then s.effect cn r else s.relay cn r := by
  simp only [List.forall_mem_cons, List.not_mem_nil, false_implies, implies_true, and_true]
  and_intros <;> exact ⟨_, fun _ => ⟨rfl, rfl⟩⟩

/-- Settles O53: who answers on a transport, then what is answered to each request. -/
theorem spdm : Obligations.Spdm := by
  refine ⟨fun s tr a slot off len => ⟨fun i hi => ?silent, fun hreach => ⟨fun hsec => ?relay, fun hsec => ?respond⟩,
    fun htr hup hpause i hi => ?waits⟩, fun s cn hsec hnego hreach => ?served⟩
  case silent =>
    obtain ⟨r, hr⟩ : ∃ r, exec i s = receive { tr, session := none } r s := by
      rcases List.mem_cons.1 hi with rfl | hi
      · exact ⟨_, rfl⟩
      · obtain ⟨r, hr⟩ := exec_plainRequests _ a slot off len i hi
        exact ⟨r, (hr s).1⟩
    exact ⟨fun htr hdown => hr.trans (receive_linkDown htr hdown r), fun htr hdown => hr.trans (receive_mctpDown htr hdown r),
      fun htr hup hwarm => hr.trans (receive_busy htr hup hwarm r)⟩
  case relay =>
    have hreach := State.reached_plain hreach
    refine ⟨fun i hi => ?_, exec_respondIfReady_notReady hreach hsec⟩
    obtain ⟨r, hr⟩ := exec_plainRequests _ a slot off len i hi
    obtain ⟨hexec, hat⟩ := hr s
    obtain ⟨t, ht, hout⟩ := receive_relayed hreach hsec rfl r hat
    exact ⟨t, hexec.trans ht, hout⟩
  case respond =>
    have hreach := State.reached_plain hreach
    refine ⟨fun hnone => (exec_respondIfReady hreach hsec).trans (congrArg _ (State.onRespond_none hnone)),
      fun honly hnego => Answers.of_next (exec_respondIfReady hreach hsec) (State.onRespond_only honly) ⟨rfl, rfl, ?_⟩⟩
    exact congrArg Nego.version (State.nego_setNego (s := { s with sec := { s.sec with deferred := [] } }) hnego _)
  case waits =>
    obtain ⟨r, hr⟩ := exec_plainRequests _ a slot off len i hi
    exact ⟨_, (hr s).1.trans (receive_waits htr hup hpause r), rfl, r, rfl⟩
  case served =>
    have served (r : Request) (f : State) (hr : s.atSec cn r = if s.secServes then f else s.relay cn r) :
        receive cn r s = .next f := receive_served hreach hsec r f hr
    refine ⟨Answers.of_next (served .getVersion _ rfl) rfl ⟨⟨rfl, rfl⟩, State.nego_setNego hnego _⟩, fun hv => ?caps,
      fun hv => (served .getCapabilities _ rfl).trans (congrArg _ (if_neg (by simp [hv]))), fun a hc => ?algs,
      fun a hc => (served (.negotiateAlgorithms a) _ rfl).trans (congrArg _ (if_neg (by simp [hc]))),
      fun hag slot off len block signed handle seq last data => ?notAgreed, fun hag => ?agreed,
      fun hplain hneg => ⟨fun hroom => ⟨_, served .keyExchange _ rfl, State.onKeyExchange_opened hplain hneg hroom⟩,
        fun hfull => (served .keyExchange _ rfl).trans (congrArg _ (State.onKeyExchange_full hplain hneg hfull))⟩,
      fun id hid x hx hxid htr hnew => ?finish, fun hout => ?outside, fun hin => ?inside⟩
    case caps =>
      exact Answers.of_next (served .getCapabilities _ rfl) (if_pos hv)
        ⟨⟨rfl, rfl⟩, congrArg Nego.caps (State.nego_setNego hnego _)⟩
    case algs =>
      exact Answers.of_next (served (.negotiateAlgorithms a) _ rfl) (if_pos hc)
        ⟨congrArg Nego.algs (State.nego_setNego hnego _), _, ⟨rfl, rfl⟩, rfl⟩
    case notAgreed =>
      simp only [List.forall_mem_cons, List.not_mem_nil, false_implies, implies_true, and_true]
      and_intros <;> exact (served _ _ rfl).trans (congrArg _ (State.whenAgreed_not hag _))
    case agreed =>
      have agreed (f : State) := State.whenAgreed_agreed hag f
      refine ⟨Answers.of_next (served .getDigests _ rfl) (agreed _) ⟨rfl, rfl⟩, fun off len hoff => ?certificate,
        fun slot off len hbad =>
          (served (.getCertificate slot off len) _ rfl).trans (congrArg _ ((agreed _).trans (if_pos hbad))),
        ?challenge, fun block hlo hhi signed => ?noBlock, fun block l hl => ⟨?unsigned, ?signed⟩,
        fun handle last data => ?chunkSend, fun handle seq hpart => ?chunkGet⟩
      case certificate =>
        exact Answers.of_next (served (.getCertificate 0 off len) _ rfl) ((agreed _).trans (if_neg (by simp; omega)))
          ⟨rfl, rfl⟩
      case challenge =>
        exact Answers.of_next (served (.challenge 0) _ rfl) ((agreed _).trans (if_neg (by simp)))
          ⟨_, length_padTo 384 _, rfl, rfl⟩
      case noBlock =>
        exact (served (.getMeasurements block signed) _ rfl).trans
          (congrArg _ (State.onGetMeasurements_invalid hag (askedBlocks_eq_none hlo hhi)))
      case unsigned =>
        exact Answers.of_next (served (.getMeasurements block false) _ rfl) (State.onGetMeasurements_unsigned hag hl)
          ⟨⟨rfl, rfl⟩, rfl⟩
      case signed =>
        exact Answers.of_next (served (.getMeasurements block true) _ rfl) (State.onGetMeasurements_signed hag hl)
          ⟨⟨_, length_padTo 384 _, rfl, rfl⟩, List.mem_append_right _ (List.mem_singleton.2 rfl), length_padTo _ _, rfl⟩
      case chunkSend =>
        exact Answers.of_next (served (.chunkSend handle 0 data) _ rfl) ((agreed _).trans (if_pos rfl))
          ⟨rfl, rfl, rfl, rfl⟩
      case chunkGet =>
        exact Answers.of_next (served (.chunkGet handle seq) _ rfl) ((agreed _).trans (if_neg hpart)) ⟨rfl, rfl⟩
    case finish =>
      have hin := List.mem_map_of_mem (f := establish id) hx
      exact Answers.of_next (served .finish _ rfl) (State.onFinish_opened hid hx hxid htr hnew)
        ⟨State.inSession_of_mem hid hin (by simp [establish, hxid]) (by simp [establish, hxid, htr])
          (by simp [establish, hxid]), rfl, rfl⟩
    case outside =>
      simp only [List.forall_mem_cons, List.not_mem_nil, false_implies, implies_true, and_true]
      and_intros <;> exact (served _ _ rfl).trans (congrArg _ (State.whenSecure_outside hout _))
    case inside =>
      have secure (f : State) := State.whenSecure_inside hin f
      have hend := s.inSession_endSession cn hin
      rw [State.onEndSession, secure] at hend
      exact ⟨Answers.of_next (served .endSession _ rfl) (secure _)
          ⟨hend, ⟨rfl, rfl⟩, fun x hx => by simpa using (List.mem_filter.1 hx).2⟩,
        Answers.of_next (served .keyUpdate _ rfl) (secure _) ⟨⟨rfl, rfl⟩, rfl⟩,
        Answers.of_next (served .heartbeat _ rfl) (secure _) ⟨⟨rfl, rfl⟩, rfl⟩⟩

end Sys2Proof.Machine
end

section
/-! Firmware update over PLDM: the pull of an image, piece by piece, and the activations that follow. -/

namespace Sys2Proof.Machine

/-! ## The begin of an activation (R448, R449) -/

/-- The boot record is in flash, and nothing else is written with it. -/
theorem State.setBootEntry_eq (s : State) (c : Nat) (e : BootEntry) : ∃ f, s.setBootEntry c e = { s with flash := f } := by
  unfold State.setBootEntry State.writeBoot
  dsimp only
  split
  · exact ⟨_, rfl⟩
  · exact ⟨_, rfl⟩

/-- What an activation keeps from its begin to its end. -/
def Activation.key (a : Activation) : Nat × Option Nat × Bool := (a.comp, a.slot, a.fromB)

/-- The turn of a port changes ports, and which ports are left. -/
theorem State.linkNext_eq (s : State) (a : Activation) (l : List Nat) : ∃ f b, b.key = a.key ∧
    s.linkNext a l = { s with fabric := f, upd := { s.upd with activation := some b } } := by
  induction l with
  | nil => exact ⟨_, { a with linkLeft := [] }, rfl, rfl⟩
  | cons h rest ih =>
    unfold State.linkNext
    dsimp only
    split
    · exact ⟨_, { a with linkLeft := rest }, rfl, rfl⟩
    · split
      · exact ⟨_, { a with linkLeft := rest }, rfl, rfl⟩
      · exact ih

theorem State.linkTurn_eq {s : State} {a : Activation} (ha : s.upd.activation = some a) : ∃ f b, b.key = a.key ∧
    s.linkTurn = { s with fabric := f, upd := { s.upd with activation := some b } } := by
  have hkeep : s = { s with fabric := s.fabric, upd := { s.upd with activation := some a } } := by rw [← ha]
  unfold State.linkTurn
  rw [ha]
  dsimp only
  split
  · exact s.linkNext_eq a _
  · exact ⟨_, a, rfl, hkeep⟩

/-- The begin of an activation: the boot record names the new image, and the former ones still run. -/
theorem State.beginActivation_fields (s : State) (c : Nat) (slot : Option Nat) :
    let t := s.beginActivation c slot
    (∃ a, t.upd = { s.upd with activation := some a } ∧ a.key = (c, slot, (s.bootEntry c).activeB)) ∧
      t.flash = (s.setBootEntry c { s.bootEntry c with activeB := !(s.bootEntry c).activeB, pending := false }).flash ∧
      t.sec.runningImages = s.sec.runningImages ∧ t.mail = s.mail ∧ (c = 2 → t.sec.sessions = []) ∧
      (c = 4 → t.power.handover = true) := by
  obtain ⟨f, hf⟩ := s.setBootEntry_eq c { s.bootEntry c with activeB := !(s.bootEntry c).activeB, pending := false }
  unfold State.beginActivation
  dsimp only
  rw [hf]
  split
  next h1 => exact ⟨⟨_, rfl, rfl⟩, rfl, rfl, rfl, by omega, by omega⟩
  next =>
  split
  next h2 => exact ⟨⟨_, rfl, rfl⟩, rfl, rfl, rfl, fun _ => by simp [State.resetSec, Security.endSessions], by omega⟩
  next =>
  split
  next h4 => exact ⟨⟨_, rfl, rfl⟩, rfl, rfl, rfl, by omega, fun _ => rfl⟩
  next h2 h4 =>
    let hs := if c = 5 then s.linkedHalves else []
    let a : Activation := { comp := c, slot, fromB := (s.bootEntry c).activeB, linkDown := hs, linkLeft := hs }
    obtain ⟨g, b, hkey, hb⟩ :=
      State.linkTurn_eq (s := { s with flash := f, upd := { s.upd with activation := some a } }) rfl
    rw [hb]
    exact ⟨⟨b, rfl, hkey⟩, rfl, rfl, rfl, fun h => absurd h h2, fun h => absurd h h4⟩

/-! ## The pull of an image (R488, R489) -/

theorem gatherDesc_append_left (l m : List Byte) {off n : Nat} (h : off + n ≤ l.length) :
    gatherDesc (l ++ m) off n = gatherDesc l off n := by
  rw [gatherDesc, gatherDesc, List.drop_append_of_le_length (by omega), List.take_append_of_le_length (by simp; omega)]

section
variable {g : Staging}

theorem Staging.wants_unchecked (h : g.checked = false) : g.wants = 4096 := by
  simp [Staging.wants, Staging.total, h, pullSize]

theorem Staging.wants_checked (h : g.checked = true) :
    g.wants = min 4096 (imageHead + gatherDesc g.bytes 0x14 4 - g.bytes.length) := by
  simp [Staging.wants, Staging.total, h, pullSize]

/-- A staging with a piece more. -/
def Staging.add (g : Staging) (l : List Byte) (frame : Nat) : Staging :=
  { g with bytes := g.bytes ++ l, lastFrame := frame }

/-- Once the header is there, a piece leaves so much less to pull. -/
theorem Staging.wants_add (h : g.checked = true) (hhead : imageHead ≤ g.bytes.length) (l : List Byte) (frame : Nat) :
    (g.add l frame).wants =
      min 4096 (imageHead + gatherDesc g.bytes 0x14 4 - g.bytes.length - l.length) := by
  have hlen : 0x14 + 4 ≤ g.bytes.length := hhead.trans' (by decide)
  rw [Staging.wants_checked (g := g.add l frame) h]
  show min 4096 (imageHead + gatherDesc (g.bytes ++ l) 0x14 4 - (g.bytes ++ l).length) = _
  rw [gatherDesc_append_left _ _ hlen, List.length_append, Nat.sub_add_eq]

end

section
variable {s : State} {g : Staging}

theorem State.goOn_piece (h : g.checked = true) (hw : g.wants ≠ 0) : s.goOn g =
    { s with upd := { s.upd with staging := some g } }.pull g.bytes.length g.wants := by
  rw [State.goOn, if_pos h, if_neg hw]

theorem State.goOn_last (h : g.checked = true) (hw : g.wants = 0) : s.goOn g = s.finishPldm g := by
  rw [State.goOn, if_pos h, if_pos hw]

theorem State.goOn_header (h : g.checked = false) (hlen : g.bytes.length < 24576) : s.goOn g =
    { s with upd := { s.upd with staging := some g } }.pull g.bytes.length 4096 := by
  rw [State.goOn, if_neg (by simp [h])]
  exact if_pos hlen

theorem State.goOn_rejected (h : g.checked = false) (hlen : 24576 ≤ g.bytes.length) {st : Nat}
    (hst : s.stagingStatus g.comp (rawHeaderOk g.bytes)
      (parseImage (Config.imageSigned s.fuses.keysetDev s.fuses.rootRsa s.fuses.rootSlh g.bytes) g.bytes) = some st) :
    s.goOn g = s.endPldm [.transferComplete (transferResult st)] := by
  rw [State.goOn, if_neg (by simp [h]), if_neg (show ¬g.bytes.length < headBytes from Nat.not_lt.2 hlen)]
  dsimp only
  rw [hst]

/-- The flash record of a component whose image in slot B (`b`) or A is whole. -/
def State.staged (s : State) (g : Staging) : State :=
  (s.setImage g.toB g.comp (some (parseImage true g.bytes))).setBootEntry g.comp
    { (s.bootEntry g.comp).setValid g.toB true with pending := true }

theorem State.closeStaging_whole (h : digestOk g.bytes = true) : s.closeStaging g =
    ((s.staged g).dropStaging.log evFwStaged srcSec (BitVec.ofNat 32 g.comp) (parseImage true g.bytes).version, true) :=
  if_pos h

theorem State.setImage_eq (s : State) (b : Bool) (c : Nat) (i : Option Image) :
    ∃ f, s.setImage b c i = { s with flash := f } := by
  cases b <;> exact ⟨_, rfl⟩

theorem State.staged_eq (s : State) (g : Staging) : ∃ f, s.staged g = { s with flash := f } := by
  obtain ⟨f, hf⟩ := s.setImage_eq g.toB g.comp (some (parseImage true g.bytes))
  rw [State.staged, hf]
  exact State.setBootEntry_eq _ _ _

theorem State.closeStaging_broken (h : digestOk g.bytes = false) : s.closeStaging g = (s.dropStaging, false) :=
  if_neg (by simp [h])

/-- The image is whole: the staging of the component ends, and a good digest makes it one of those applied. -/
theorem State.finishPldm_fields (s : State) (g : Staging) :
    let whole := digestOk g.bytes
    let t := s.finishPldm g
    t.upd.staging = none ∧ t.upd.pldm.comp = none ∧
      t.upd.pldm.applied = (if whole then s.upd.pldm.applied ++ [g.comp] else s.upd.pldm.applied) ∧
      t.out = s.out ++ (if whole then [.transferComplete 0, .verifyComplete 0, .applyComplete 0]
        else [.transferComplete 0, .verifyComplete 1]) := by
  unfold State.finishPldm
  dsimp only
  cases h : digestOk g.bytes with
  | false =>
    rw [State.closeStaging_broken h]
    exact ⟨rfl, rfl, rfl, rfl⟩
  | true =>
    obtain ⟨f, hf⟩ := s.staged_eq g
    obtain ⟨m, f', b, r, q, hlog⟩ :=
      (s.staged g).dropStaging.log_eq evFwStaged srcSec (BitVec.ofNat 32 g.comp) (parseImage true g.bytes).version
    rw [State.closeStaging_whole h, hlog, hf]
    exact ⟨rfl, rfl, rfl, rfl⟩

end

/-! ## The commands (R447, R488 to R490) -/

section
variable {s : State} (hlamp : s.lampAnswers = true)
include hlamp

theorem exec_requestUpdate_refused (h : s.upd.pldm.mode = true ∨ s.mailboxUpdate = true) :
    exec .requestUpdate s = .next (s.emit (.pldm .alreadyInUpdateMode [])) :=
  (ccc_answered hlamp _).trans (congrArg _ (if_pos (by simpa using h)))

theorem requestUpdate_answers (hmode : s.upd.pldm.mode = false) (hbox : s.mailboxUpdate = false) :
    Answers .requestUpdate s fun t =>
      t.upd.pldm.mode = true ∧ t.upd.pldm.table = [] ∧ t.out = s.out ++ [.pldm .success []] ∧ t.flash = s.flash :=
  Answers.of_next (ccc_answered hlamp _) (if_neg (by simp [hmode, hbox])) ⟨rfl, rfl, rfl, rfl⟩

theorem exec_update_notInMode (hmode : s.upd.pldm.mode = false) (hfree : s.upd.staging = none) (comps : List Nat)
    (comp : Nat) : ∀ i ∈ [Instr.passComponentTable comps, .updateComponent comp, .activateFirmware,
      .cancelUpdateComponent, .cancelUpdate],
    exec i s = .next (s.emit (.pldm .notInUpdateMode [])) := by
  have hout : (!s.upd.pldm.mode) = true := by simp [hmode]
  have refused (f : State) : ccc s (if !s.upd.pldm.mode then s.bad .notInUpdateMode else f) =
      .next (s.emit (.pldm .notInUpdateMode [])) := (ccc_answered hlamp _).trans (congrArg _ (if_pos hout))
  simp only [List.forall_mem_cons, List.not_mem_nil, false_implies, implies_true, and_true]
  exact ⟨refused _, (congrArg (ccc s) (if_neg (by simp [hfree]))).trans (refused _), refused _, refused _, refused _⟩

/-! ### The pieces -/

section
variable {c : Nat} {g : Staging} (hc : s.upd.pldm.comp = some c) (hg : s.upd.staging = some g) {data : List Byte}
include hc hg

theorem exec_requestFirmwareData (data : List Byte) : exec (.requestFirmwareData data) s = .next
    (if data.length < g.wants then s.pull g.bytes.length g.wants
      else s.goOn (g.add (data.take g.wants) s.power.frame.toNat)) :=
  (ccc_answered hlamp _).trans (by rw [hc, hg]; rfl)

/-- A whole piece is added to the staging. -/
theorem exec_requestFirmwareData_whole (hlen : g.wants ≤ data.length) :
    exec (.requestFirmwareData data) s = .next (s.goOn (g.add (data.take g.wants) s.power.frame.toNat)) :=
  (exec_requestFirmwareData hlamp hc hg data).trans (congrArg _ (if_neg (Nat.not_lt.2 hlen)))

theorem requestFirmwareData_header (hck : g.checked = false) (hlen : 4096 ≤ data.length)
    (hhead : g.bytes.length + 4096 < 24576) : Answers (.requestFirmwareData data) s fun t =>
      (∃ x, t.upd.staging = some x ∧ x.bytes = g.bytes ++ data.take 4096 ∧ x.comp = g.comp) ∧
      t.out = s.out ++ [.requestFirmwareData (g.bytes.length + 4096) 4096] ∧ t.flash = s.flash := by
  have hwants := Staging.wants_unchecked hck
  have hnew : (g.bytes ++ data.take 4096).length = g.bytes.length + 4096 := by simp [hlen]
  have hexec := exec_requestFirmwareData_whole hlamp hc hg (hwants.trans_le hlen)
  rw [hwants] at hexec
  refine Answers.of_next hexec (State.goOn_header (g := g.add _ _) hck (hnew.trans_lt hhead)) ⟨⟨_, rfl, rfl, rfl⟩, ?_, rfl⟩
  rw [← hnew]
  rfl

theorem requestFirmwareData_rejected (hck : g.checked = false) (hlen : 4096 ≤ data.length)
    (hhead : 24576 ≤ g.bytes.length + 4096) {l : List Byte} (hl : g.bytes ++ data.take 4096 = l) {st : Nat}
    (hst : s.stagingStatus g.comp (rawHeaderOk l)
      (parseImage (Config.imageSigned s.fuses.keysetDev s.fuses.rootRsa s.fuses.rootSlh l) l) = some st) :
    Answers (.requestFirmwareData data) s fun t => t.upd.staging = none ∧ t.upd.pldm.comp = none ∧ t.flash = s.flash ∧
      t.out = s.out ++ [.transferComplete (transferResult st)] := by
  subst hl
  have hwants := Staging.wants_unchecked hck
  have hnew : (g.bytes ++ data.take 4096).length = g.bytes.length + 4096 := by simp [hlen]
  have hexec := exec_requestFirmwareData_whole hlamp hc hg (hwants.trans_le hlen)
  rw [hwants] at hexec
  exact Answers.of_next hexec (State.goOn_rejected (g := g.add _ _) hck (hhead.trans_eq hnew.symm) hst)
    ⟨rfl, rfl, rfl, rfl⟩

/-- A piece that is not the last leaves bytes to pull. -/
theorem requestFirmwareData_piece (hck : g.checked = true)
    (hleft : g.wants < imageHead + gatherDesc g.bytes 0x14 4 - g.bytes.length) (hhead : imageHead ≤ g.bytes.length)
    (hlen : g.wants ≤ data.length) : Answers (.requestFirmwareData data) s fun t =>
      (∃ x, t.upd.staging = some x ∧ x.bytes = g.bytes ++ data.take g.wants) ∧ t.flash = s.flash := by
  have hmore : (g.add (data.take g.wants) s.power.frame.toNat).wants ≠ 0 := by
    rw [Staging.wants_add hck hhead, List.length_take_of_le hlen]
    omega
  exact Answers.of_next (exec_requestFirmwareData_whole hlamp hc hg hlen) (State.goOn_piece (g := g.add _ _) hck hmore)
    ⟨⟨_, rfl, rfl⟩, rfl⟩

/-- The last piece leaves none. -/
theorem requestFirmwareData_last (hck : g.checked = true)
    (hleft : g.wants = imageHead + gatherDesc g.bytes 0x14 4 - g.bytes.length) (hhead : imageHead ≤ g.bytes.length)
    (hlen : g.wants ≤ data.length) :
    let whole := digestOk (g.bytes ++ data.take g.wants)
    Answers (.requestFirmwareData data) s fun t => t.upd.staging = none ∧ t.upd.pldm.comp = none ∧
      t.upd.pldm.applied = (if whole then s.upd.pldm.applied ++ [g.comp] else s.upd.pldm.applied) ∧
      t.out = s.out ++ (if whole then [.transferComplete 0, .verifyComplete 0, .applyComplete 0]
        else [.transferComplete 0, .verifyComplete 1]) := by
  have hnone : (g.add (data.take g.wants) s.power.frame.toNat).wants = 0 := by
    rw [Staging.wants_add hck hhead, List.length_take_of_le hlen]
    omega
  exact Answers.of_next (exec_requestFirmwareData_whole hlamp hc hg hlen) (State.goOn_last (g := g.add _ _) hck hnone)
    (s.finishPldm_fields _)

end

/-! ### In update mode -/

section
variable (hmode : s.upd.pldm.mode = true)
include hmode

theorem ccc_inMode (f : State) : ccc s (if !s.upd.pldm.mode then s.bad .notInUpdateMode else f) = .next f :=
  (ccc_answered hlamp _).trans (congrArg _ (if_neg (by simp [hmode])))

theorem exec_updateComponent (hby : s.upd.staging.all (fun g => g.byPldm) = true) (comp : Nat) {f : State}
    (hf : execUpdateComponent comp s = ccc s (if s.upd.staging.any (fun g => !g.byPldm) then s.bad .updateInProgress
      else if !s.upd.pldm.mode then s.bad .notInUpdateMode else f)) : exec (.updateComponent comp) s = .next f := by
  have hfree : ¬s.upd.staging.any (fun g => !g.byPldm) = true := by
    cases hg : s.upd.staging with
    | none => simp
    | some g => simpa [hg] using hby
  exact (hf.trans (congrArg (ccc s) (if_neg hfree))).trans (ccc_inMode hlamp hmode f)

theorem updateComponent_answers (hby : s.upd.staging.all (fun g => g.byPldm) = true)
    (hcomp : s.upd.pldm.comp = none) (hqueue : s.upd.pldm.queue = none) {comp : Nat} (hmem : comp ∈ s.upd.pldm.table)
    (h1 : 1 ≤ comp) (h6 : comp ≤ 6) : Answers (.updateComponent comp) s fun t =>
      t.upd.pldm = { s.upd.pldm with comp := some comp } ∧
      (∃ g, t.upd.staging = some g ∧ g.comp = comp ∧ g.byPldm = true ∧ g.bytes = [] ∧ g.toB = s.stagesB comp) ∧
      t.out = s.out ++ [.pldm .success [], .requestFirmwareData 0 4096] ∧ t.flash = s.flash := by
  refine Answers.of_next (exec_updateComponent hlamp hmode hby comp rfl)
    ((if_neg (by simp [hcomp, hqueue])).trans (if_neg (by simp [hmem, h1, h6])))
    ⟨rfl, ⟨_, rfl, rfl, rfl, rfl, rfl⟩, ?_, rfl⟩
  exact List.append_assoc _ _ _

theorem exec_updateComponent_error (hby : s.upd.staging.all (fun g => g.byPldm) = true)
    (hcomp : s.upd.pldm.comp = none) (hqueue : s.upd.pldm.queue = none) {comp : Nat}
    (hbad : comp ∉ s.upd.pldm.table ∨ comp = 0 ∨ 6 < comp) :
    exec (.updateComponent comp) s = .next (s.emit (.pldm .error [])) :=
  (exec_updateComponent hlamp hmode hby comp rfl).trans
    (congrArg _ ((if_neg (by simp [hcomp, hqueue])).trans (if_pos (by simp; omega))))

theorem cancelUpdate_answers : Answers .cancelUpdate s fun t => t.upd.pldm.mode = false ∧ t.flash = s.flash := by
  refine ⟨_, ccc_inMode hlamp hmode _, rfl, ?_⟩
  dsimp only
  split <;> rfl

theorem exec_activateFirmware_busy {c : Nat} (hcomp : s.upd.pldm.comp = some c) :
    exec .activateFirmware s = .next (s.emit (.pldm .invalidState [])) :=
  (ccc_inMode hlamp hmode _).trans (congrArg _ (if_pos (by simp [hcomp])))

theorem exec_activateFirmware (hcomp : s.upd.pldm.comp = none) (hqueue : s.upd.pldm.queue = none)
    (hboot : s.board.bootsel ≠ 3) {l : List Nat} (hl : (s.upd.pldm.table.filter fun c => s.upd.pldm.applied.contains c) = l) :
    exec .activateFirmware s = .next (s.activateNext l) :=
  hl ▸ (ccc_inMode hlamp hmode _).trans (congrArg _ ((if_neg (by simp [hcomp, hqueue])).trans (if_neg hboot)))

end
end

/-! ### Activations, one after another (R488) -/

section
variable {s : State} {c : Nat} {l : List Nat}

theorem State.activateNext_refused {st : Nat} (h : s.activateRefusal c = some st) : s.activateNext (c :: l) =
    { s with upd := { s.upd with pldm := { s.upd.pldm with queue := none } } }.emit (.pldm .activationNotRequired []) := by
  rw [State.activateNext, h]

theorem State.activateNext_begun (h : s.activateRefusal c = none) (h6 : c ≠ 6) (hup : s.board.railsUp = true) :
    s.activateNext (c :: l) = { s.beginActivation c none with
      upd := { (s.beginActivation c none).upd with pldm := { (s.beginActivation c none).upd.pldm with queue := some l } } } := by
  rw [State.activateNext, h]
  exact if_neg (by simp [h6, hup])

end

/-- Settles O52, command by command. -/
theorem pldmUpdate : Obligations.PldmUpdate := by
  refine fun s hlamp => ⟨exec_requestUpdate_refused hlamp, requestUpdate_answers hlamp, exec_update_notInMode hlamp,
    fun hmode hby => ?_⟩
  have inMode (f : State) := ccc_inMode hlamp hmode f
  refine ⟨fun comps => Answers.of_next (inMode _) rfl ⟨rfl, rfl⟩, fun comp hcomp hqueue =>
      ⟨updateComponent_answers hlamp hmode hby hcomp hqueue, exec_updateComponent_error hlamp hmode hby hcomp hqueue⟩,
    fun c g hc hg => ⟨fun data hshort => (exec_requestFirmwareData hlamp hc hg data).trans (congrArg _ (if_pos hshort)),
      fun data => requestFirmwareData_header hlamp hc hg,
      fun data hck hlen hhead => fun st hst => requestFirmwareData_rejected hlamp hc hg hck hlen hhead rfl hst,
      fun data hck _ hleft hhead hlen => requestFirmwareData_piece hlamp hc hg hck hleft hhead hlen,
      fun data hck _ hleft hhead hlen => requestFirmwareData_last hlamp hc hg hck hleft hhead hlen,
      Answers.of_next (inMode _) (if_pos (by simp [hc])) ⟨rfl, rfl, rfl⟩, exec_activateFirmware_busy hlamp hmode hc⟩,
    fun hcomp => (inMode _).trans (congrArg _ (if_neg (by simp [hcomp]))), cancelUpdate_answers hlamp hmode,
    fun hcomp hqueue hboot hnone => ⟨_, exec_activateFirmware hlamp hmode hcomp hqueue hboot hnone, rfl, rfl⟩,
    fun hcomp hqueue hboot c l hcl => ⟨fun href h6 hup => ?begun, fun st href => ?refused⟩⟩
  case begun =>
    obtain ⟨⟨a, hupd, hkey⟩, -, hsec, -⟩ := s.beginActivation_fields c none
    refine Answers.of_next (exec_activateFirmware hlamp hmode hcomp hqueue hboot hcl)
      (State.activateNext_begun href h6 hup) ⟨⟨a, ?_, congrArg Prod.fst hkey, congrArg (fun k => k.2.1) hkey⟩, rfl, hsec⟩
    exact congrArg Update.activation hupd
  case refused =>
    exact Answers.of_next (exec_activateFirmware hlamp hmode hcomp hqueue hboot hcl) (State.activateNext_refused href)
      ⟨rfl, rfl⟩

end Sys2Proof.Machine
end

section
/-! Firmware images: the boot record, the staging of an image, its activation, and the floors. -/

namespace Sys2Proof.Machine

/-! ## The boot record (R444) -/

section
variable {s : State} {c d : Nat} {b : Bool}

/-- A record written to the copy that does not govern governs from then on. -/
theorem State.boot_writeBoot (hseq : s.flash.boot.seq + 1 < 2 ^ 32) (l : List BootEntry) :
    (s.writeBoot l).flash.boot = { seq := s.flash.boot.seq + 1, crcGood := true, entries := l } := by
  have hmod := Nat.mod_eq_of_lt hseq
  rw [State.writeBoot]
  by_cases hr : s.flash.boot = s.flash.boot0
  · rw [if_pos hr, hmod]
    refine if_neg ?_
    simp [hr]
  · rw [if_neg hr, hmod]
    have hone : s.flash.boot = s.flash.boot1 := by
      unfold Flash.boot at hr ⊢
      split at hr
      · exact absurd rfl hr
      · next h => exact if_neg h
    refine if_pos ?_
    simp [hone]

theorem State.slots_writeBoot (s : State) (l : List BootEntry) :
    (s.writeBoot l).flash.slotA = s.flash.slotA ∧ (s.writeBoot l).flash.slotB = s.flash.slotB := by
  unfold State.writeBoot
  dsimp only
  split
  · exact ⟨rfl, rfl⟩
  · exact ⟨rfl, rfl⟩

/-- Entries and images are read from flash alone. -/
theorem State.bootEntry_of_flash {t : State} (h : t.flash = s.flash) (c : Nat) : t.bootEntry c = s.bootEntry c := by
  rw [State.bootEntry, h, State.bootEntry]

theorem State.image_of_flash {t : State} (h : t.flash = s.flash) (b : Bool) (c : Nat) : t.image b c = s.image b c := by
  rw [State.image, h, State.image]

theorem State.bootEntry_setBootEntry_same (hlen : s.flash.boot.entries.length = 6)
    (hseq : s.flash.boot.seq + 1 < 2 ^ 32) (h1 : 1 ≤ c) (h6 : c ≤ 6) (e : BootEntry) :
    (s.setBootEntry c e).bootEntry c = e := by
  rw [State.bootEntry, State.setBootEntry, State.boot_writeBoot hseq]
  exact getD_setAt_same _ _ (by omega)

theorem State.bootEntry_setBootEntry_other (hseq : s.flash.boot.seq + 1 < 2 ^ 32) (h1 : 1 ≤ c) (hd : 1 ≤ d) (hne : d ≠ c)
    (e : BootEntry) : (s.setBootEntry c e).bootEntry d = s.bootEntry d := by
  rw [State.bootEntry, State.setBootEntry, State.boot_writeBoot hseq]
  exact getD_setAt_other _ _ (by omega)

theorem State.image_setBootEntry (s : State) (c : Nat) (e : BootEntry) (b : Bool) (d : Nat) :
    (s.setBootEntry c e).image b d = s.image b d := by
  obtain ⟨hA, hB⟩ := s.slots_writeBoot (setAt s.flash.boot.entries (c - 1) e)
  rw [State.image, State.setBootEntry, hA, hB, State.image]

theorem State.upd_setBootEntry (s : State) (c : Nat) (e : BootEntry) : (s.setBootEntry c e).upd = s.upd := by
  obtain ⟨f, hf⟩ := s.setBootEntry_eq c e
  rw [hf]

theorem State.sec_setBootEntry (s : State) (c : Nat) (e : BootEntry) : (s.setBootEntry c e).sec = s.sec := by
  obtain ⟨f, hf⟩ := s.setBootEntry_eq c e
  rw [hf]

theorem State.boot_setImage (s : State) (b : Bool) (c : Nat) (i : Option Image) :
    (s.setImage b c i).flash.boot = s.flash.boot := by
  cases b <;> rfl

theorem State.bootEntry_setImage (s : State) (b : Bool) (c : Nat) (i : Option Image) (d : Nat) :
    (s.setImage b c i).bootEntry d = s.bootEntry d := by
  rw [State.bootEntry, State.boot_setImage, State.bootEntry]

theorem State.image_setImage_same (hA : s.flash.slotA.length = 6) (hB : s.flash.slotB.length = 6) (h1 : 1 ≤ c)
    (h6 : c ≤ 6) (i : Option Image) : (s.setImage b c i).image b c = i := by
  cases b
  · exact getD_setAt_same _ _ (by omega)
  · exact getD_setAt_same _ _ (by omega)

theorem State.image_setImage_none (s : State) (b : Bool) (c : Nat) : (s.setImage b c none).image b c = none := by
  have hnone (l : List (Option Image)) : (setAt l (c - 1) none).getD (c - 1) none = none := by
    rw [setAt, List.getD_eq_getElem?_getD, List.getElem?_set_self']
    cases l[c - 1]? <;> rfl
  cases b
  · exact hnone _
  · exact hnone _

theorem State.image_setImage_otherSlot (s : State) (b : Bool) (c : Nat) (i : Option Image) (d : Nat) :
    (s.setImage b c i).image (!b) d = s.image (!b) d := by
  cases b <;> rfl

end

/-! ## What events and completions leave alone -/

/-- An event that is logged changes the persistent record of flash alone. -/
theorem State.log_flash (s : State) (e : BitVec 16) (src : BitVec 8) (o a : BitVec 32) :
    ∃ p, (s.log e src o a).flash = { s.flash with persist := p } := by
  unfold State.log
  dsimp only
  split
  · exact ⟨_, rfl⟩
  · split
    · exact ⟨_, rfl⟩
    · exact ⟨_, rfl⟩

/-- What requests leave alone: updates, flash, the images that run, the requests that wait, and the pause. -/
def State.firm (s : State) : Update × Flash × List (Option Image) × List (Conn × Request) × Bool :=
  (s.upd, s.flash, s.sec.runningImages, s.sec.waiting, s.sec.paused)

theorem State.firm_of_still {s t : State} (h : t.still = s.still) : t.firm = s.firm :=
  (congrArg State.firm h :)

section
variable (s : State) (cn : Conn)

theorem State.firm_random : s.random.2.firm = s.firm := by
  simp only [State.random]
  split <;> rfl

variable {s cn}

theorem State.firm_ite {p : Prop} [Decidable p] {a b : State} (ha : a.firm = s.firm) (hb : b.firm = s.firm) :
    (if p then a else b).firm = s.firm := by
  split
  · exact ha
  · exact hb

theorem State.firm_whenAgreed {f : State} (h : f.firm = s.firm) : (s.whenAgreed cn f).firm = s.firm := State.firm_ite h rfl

theorem State.firm_whenSecure {f : State} (h : f.firm = s.firm) : (s.whenSecure cn f).firm = s.firm := State.firm_ite h rfl

theorem State.firm_doeSecure {f : State} (h : f.firm = s.firm) : (s.doeSecure cn f).firm = s.firm :=
  State.firm_ite (State.firm_whenSecure h) rfl

theorem State.firm_settleAdmission (before t : State) : (State.settleAdmission before t).firm = t.firm := by
  refine State.firm_of_still ?_
  unfold State.settleAdmission
  dsimp only
  split
  · simp [State.admissionLost]
  · split
    · simp [State.hostAdmissionLost]
    · rfl

theorem State.firm_setIde (x : IdeStream) (v : IdeState) : (s.setIde x v).firm = s.firm := by cases x <;> rfl

theorem State.firm_onTdisp (m : TdispMsg) : (s.onTdisp cn m).firm = s.firm := by
  refine State.firm_doeSecure ?_
  have hset (t : TdiState) : (s.setTdi t).firm = s.firm := State.firm_settleAdmission _ _
  cases m with
  | getVersion => rfl
  | getCapabilities => rfl
  | getReport => exact State.firm_ite rfl rfl
  | getState => rfl
  | lockInterface => exact State.firm_ite (hset _) rfl
  | startInterface => exact State.firm_ite (hset _) rfl
  | stopInterface => exact hset _
  | tspEnable w => exact State.firm_ite rfl rfl
  | tspDisable w => exact State.firm_ite rfl rfl

theorem State.firm_onDebugToken (id : BitVec 32) (off : Nat) (data : List Byte) :
    (s.onDebugToken cn id off data).firm = s.firm := by
  refine State.firm_ite rfl ?_
  cases s.sec.nonce with
  | none => rfl
  | some n => exact State.firm_ite rfl (State.firm_ite rfl (State.firm_ite (State.firm_ite rfl rfl) rfl))

/-- A request is answered from what the security controller holds; it changes no image and no update. -/
theorem State.firm_effect (r : Request) : (s.effect cn r).firm = s.firm := by
  cases r with
  | getVersion => rfl
  | getCapabilities => exact State.firm_ite rfl rfl
  | negotiateAlgorithms a => exact State.firm_ite rfl rfl
  | getDigests => exact State.firm_whenAgreed rfl
  | getCertificate slot off len => exact State.firm_whenAgreed (State.firm_ite rfl rfl)
  | challenge slot => exact State.firm_whenAgreed (State.firm_ite rfl rfl)
  | getMeasurements block signed =>
    refine State.firm_whenAgreed ?_
    cases askedBlocks block with
    | none => rfl
    | some l => exact State.firm_ite rfl rfl
  | keyExchange => exact State.firm_ite rfl (State.firm_ite rfl s.firm_random)
  | finish =>
    show (s.onFinish cn).firm = s.firm
    unfold State.onFinish
    cases cn.session with
    | none => rfl
    | some id => exact State.firm_ite rfl rfl
  | endSession => exact State.firm_whenSecure rfl
  | keyUpdate => exact State.firm_whenSecure rfl
  | heartbeat => exact State.firm_whenSecure rfl
  | chunkSend handle seq data => exact State.firm_whenAgreed (State.firm_ite rfl (State.firm_ite rfl rfl))
  | chunkGet handle seq => exact State.firm_whenAgreed (State.firm_ite rfl rfl)
  | cosigFetch id off len =>
    show (s.onCosigFetch cn id off len).firm = s.firm
    unfold State.onCosigFetch
    split
    · exact State.firm_ite rfl rfl
    · rfl
  | pqChainGet id off len => exact State.firm_ite (State.firm_ite rfl rfl) rfl
  | debugNonce => exact State.firm_ite rfl rfl
  | debugToken id off data => exact State.firm_onDebugToken id off data
  | ideKmQuery x => exact State.firm_doeSecure rfl
  | keyProg x set sub => exact State.firm_doeSecure (State.firm_ite rfl (State.firm_setIde x _))
  | kSetGo x set sub => exact State.firm_doeSecure (State.firm_ite (State.firm_setIde x _) rfl)
  | kSetStop x set sub => exact State.firm_doeSecure ((State.firm_settleAdmission _ _).trans (State.firm_setIde x _))
  | tdisp m => exact State.firm_onTdisp m
  | cdat entry => exact State.firm_ite rfl rfl
  | respondIfReady => rfl

theorem State.firm_onRespond : (s.onRespond cn).firm = s.firm := by
  unfold State.onRespond
  split
  · exact State.firm_effect _
  · rfl

theorem State.firm_atSec (r : Request) : (s.atSec cn r).firm = s.firm := by
  have hserved (h : s.atSec cn r = if s.secServes then s.effect cn r else s.relay cn r) : (s.atSec cn r).firm = s.firm :=
    (congrArg State.firm h).trans (State.firm_ite (State.firm_effect r) (State.firm_ite rfl rfl))
  cases r with
  | cdat entry => exact State.firm_ite rfl rfl
  | respondIfReady => exact State.firm_ite State.firm_onRespond rfl
  | _ => exact hserved rfl

/-- The requests that waited for the end of an activation wait no longer. -/
theorem State.firm_answerWaiting (s : State) :
    s.answerWaiting.firm = { s with sec := { s.sec with waiting := [] } }.firm :=
  foldl_keeps State.firm _ (fun a _ => a.firm_atSec _) _ _

end

/-! ## Staging (R439, R445, R446) -/

section
variable {s : State} {slot : Nat} {t : Taken}

theorem State.stageFieldsOk_comp (h : s.stageFieldsOk slot = true) : 1 ≤ s.body slot 0 1 ∧ s.body slot 0 1 ≤ 6 := by
  simp only [State.stageFieldsOk, Bool.and_eq_true, decide_eq_true_eq] at h
  obtain ⟨⟨⟨h1, h6, -⟩, -⟩, -⟩ := h
  exact ⟨h1, h6⟩

theorem State.stagesB_normal (h : s.board.bootsel = 0) (c : Nat) : s.stagesB c = !(s.bootEntry c).activeB :=
  if_neg (by simp [h])

theorem State.stagingStatus_normal (h : s.board.bootsel = 0) (c : Nat) (raw : Bool) (i : Image) :
    s.stagingStatus c raw i = s.checkImage c raw i := by
  unfold State.stagingStatus
  split
  next st hst => rw [if_neg (by simp [h]), hst]
  next hst => exact hst.symm

/-- A first piece that passes: the slot that is not active is no longer valid, and its image is gone. -/
theorem State.openStaging_flash (hboot : s.board.bootsel = 0) (hlen : s.flash.boot.entries.length = 6)
    (hseq : s.flash.boot.seq + 1 < 2 ^ 32) {c : Nat} (h1 : 1 ≤ c) (h6 : c ≤ 6) :
    let b := !(s.bootEntry c).activeB
    let u := s.openStaging c false []
    u.bootEntry c = { (s.bootEntry c).setValid b false with pending := false } ∧ u.image b c = none ∧
      u.image (!b) c = s.image (!b) c ∧ ∀ d, 1 ≤ d → d ≠ c → u.bootEntry d = s.bootEntry d := by
  dsimp only
  let v := (s.setBootEntry c { (s.bootEntry c).setValid (s.stagesB c) false with pending := false })
  have hflash : (s.openStaging c false []).flash = (v.setImage (s.stagesB c) c none).flash := rfl
  simp only [State.bootEntry_of_flash hflash, State.image_of_flash hflash, State.bootEntry_setImage]
  rw [← State.stagesB_normal hboot c, State.image_setImage_none, State.image_setImage_otherSlot, State.image_setBootEntry]
  exact ⟨State.bootEntry_setBootEntry_same hlen hseq h1 h6 _, rfl, rfl,
    fun d hd hne => State.bootEntry_setBootEntry_other hseq h1 hd hne _⟩

end

/-! ### `FW_STAGE` -/

section
variable {s : State} {slot : Nat} {t : Taken} (h : s.startable slot opFwStage = some t)
include h

theorem exec_fwStage_badField (hf : s.stageFieldsOk slot = false) (data : List Byte) :
    exec (.fwStage slot data) s = .next (s.complete t (.of stBadField)) :=
  (command_of_startable h _).trans (congrArg _ (if_pos (by simp [hf])))

theorem exec_fwStage_wrongState (hf : s.stageFieldsOk slot = true) (hboot : s.board.bootsel ≠ 0) (data : List Byte) :
    exec (.fwStage slot data) s = .next (s.complete t (.of stWrongState)) :=
  (command_of_startable h _).trans
    (congrArg _ ((if_neg (by simp [hf])).trans (if_pos (by simpa [State.bootNormal] using hboot))))

/-- Past the checks of fields and of the boot mode. -/
theorem exec_fwStage_checked (hf : s.stageFieldsOk slot = true) (hboot : s.board.bootsel = 0) (data : List Byte)
    {f : Taken → State} (hexec : exec (.fwStage slot data) s = command slot opFwStage s fun t =>
      if !s.stageFieldsOk slot then s.complete t (.of stBadField)
      else if !s.bootNormal then s.complete t (.of stWrongState) else f t) :
    exec (.fwStage slot data) s = .next (f t) :=
  (hexec.trans (command_of_startable h _)).trans
    (congrArg _ ((if_neg (by simp [hf])).trans (if_neg (by simp [State.bootNormal, hboot]))))

theorem exec_fwStage_busy (hf : s.stageFieldsOk slot = true) (hboot : s.board.bootsel = 0)
    (hbusy : s.stageBusy (s.body slot 0 1) = true) (data : List Byte) :
    exec (.fwStage slot data) s = .next (s.complete t (.of stBusy)) :=
  (exec_fwStage_checked h hf hboot data rfl).trans (congrArg _ (if_pos hbusy))

section
variable (hf : s.stageFieldsOk slot = true) (hboot : s.board.bootsel = 0) (hbusy : s.stageBusy (s.body slot 0 1) = false)
include hf hboot hbusy

theorem exec_fwStage_waits (hwaits : s.pieceWaits (s.body slot 0 1) = true) (data : List Byte) :
    exec (.fwStage slot data) s = .next s :=
  (exec_fwStage_checked h hf hboot data rfl).trans (congrArg _ ((if_neg (by simp [hbusy])).trans (if_pos hwaits)))

theorem exec_fwStage_piece (hfree : s.pieceWaits (s.body slot 0 1) = false) (data : List Byte)
    {f : Taken → State} (hexec : exec (.fwStage slot data) s = command slot opFwStage s fun t =>
      if !s.stageFieldsOk slot then s.complete t (.of stBadField)
      else if !s.bootNormal then s.complete t (.of stWrongState)
      else if s.stageBusy (s.body slot 0 1) then s.complete t (.of stBusy)
      else if s.pieceWaits (s.body slot 0 1) then s else f t) :
    exec (.fwStage slot data) s = .next (f t) :=
  (exec_fwStage_checked h hf hboot data hexec).trans
    (congrArg _ ((if_neg (by simp [hbusy])).trans (if_neg (by simp [hfree]))))

section
variable (hfree : s.pieceWaits (s.body slot 0 1) = false) (hone : s.body slot 1 1 = 1) (hoff : s.body slot 4 4 = 0)
  (data : List Byte)
include hfree hone hoff

/-- A first piece, of which more will follow. -/
theorem exec_fwStage_first {i : Image} (hi : parseImage (Config.imageSigned s.fuses.keysetDev s.fuses.rootRsa
      s.fuses.rootSlh (padTo (s.body slot 0x10 4) data)) (padTo (s.body slot 0x10 4) data) = i) :
    exec (.fwStage slot data) s = .next (
      match s.checkImage (s.body slot 0 1) (rawHeaderOk (padTo (s.body slot 0x10 4) data)) i with
      | some st => s.dropStaging.complete t (.of st)
      | none => (s.dropStaging.openStaging (s.body slot 0 1) false []).stagePiece t false (padTo (s.body slot 0x10 4) data)) := by
  subst hi
  have hlast : decide (2 ≤ s.body slot 1 1) = false := by simp [hone]
  refine (exec_fwStage_piece h hf hboot hbusy hfree data rfl).trans (congrArg _ ((if_pos (by simp [hone])).trans ?_))
  dsimp only
  rw [hlast, if_neg (by simp [hoff]), State.stagingStatus_normal (s := s.dropStaging) hboot]
  rfl

theorem exec_fwStage_rejected {i : Image} (hi : parseImage (Config.imageSigned s.fuses.keysetDev s.fuses.rootRsa
      s.fuses.rootSlh (padTo (s.body slot 0x10 4) data)) (padTo (s.body slot 0x10 4) data) = i) {st : Nat}
    (hst : s.checkImage (s.body slot 0 1) (rawHeaderOk (padTo (s.body slot 0x10 4) data)) i = some st) :
    exec (.fwStage slot data) s = .next (s.dropStaging.complete t (.of st)) := by
  rw [exec_fwStage_first h hf hboot hbusy hfree hone hoff data hi, hst]

theorem exec_fwStage_opened {i : Image} (hi : parseImage (Config.imageSigned s.fuses.keysetDev s.fuses.rootRsa
      s.fuses.rootSlh (padTo (s.body slot 0x10 4) data)) (padTo (s.body slot 0x10 4) data) = i)
    (hst : s.checkImage (s.body slot 0 1) (rawHeaderOk (padTo (s.body slot 0x10 4) data)) i = none) :
    exec (.fwStage slot data) s = .next
      ((s.dropStaging.openStaging (s.body slot 0 1) false []).stagePiece t false (padTo (s.body slot 0x10 4) data)) := by
  rw [exec_fwStage_first h hf hboot hbusy hfree hone hoff data hi, hst]

end

section
variable (hfree : s.pieceWaits (s.body slot 0 1) = false) (heven : s.body slot 1 1 % 2 = 0) (data : List Byte)
include hfree heven

theorem exec_fwStage_next : exec (.fwStage slot data) s = .next (match s.stagedBytes (s.body slot 0 1) with
    | none => s.complete t (.of stBadField)
    | some old =>
      let piece := padTo (s.body slot 0x10 4) data
      let last := decide (2 ≤ s.body slot 1 1)
      if s.body slot 4 4 ≠ old.length ∨
          last ∧ (old ++ piece).length ≠ (parseImage true (old ++ piece)).bodySize + imageHead
        then s.complete t (.of stBadField)
      else s.stagePiece t last piece) :=
  (exec_fwStage_piece h hf hboot hbusy hfree data rfl).trans (congrArg _ (if_neg (by simp [heven])))

theorem exec_fwStage_notStaged (hnone : s.stagedBytes (s.body slot 0 1) = none) :
    exec (.fwStage slot data) s = .next (s.complete t (.of stBadField)) :=
  (exec_fwStage_next h hf hboot hbusy hfree heven data).trans (by rw [hnone])

theorem exec_fwStage_displaced {old : List Byte} (hold : s.stagedBytes (s.body slot 0 1) = some old)
    (hoff : s.body slot 4 4 ≠ old.length) : exec (.fwStage slot data) s = .next (s.complete t (.of stBadField)) :=
  (exec_fwStage_next h hf hboot hbusy hfree heven data).trans (by rw [hold]; exact congrArg _ (if_pos (.inl hoff)))

end

theorem exec_fwStage_middle (hfree : s.pieceWaits (s.body slot 0 1) = false) (hzero : s.body slot 1 1 = 0)
    (data : List Byte) {old : List Byte} (hold : s.stagedBytes (s.body slot 0 1) = some old)
    (hoff : s.body slot 4 4 = old.length) : exec (.fwStage slot data) s =
      .next (s.stagePiece t false (padTo (s.body slot 0x10 4) data)) := by
  have hlast : decide (2 ≤ s.body slot 1 1) = false := by simp [hzero]
  refine (exec_fwStage_next h hf hboot hbusy hfree (by simp [hzero]) data).trans ?_
  rw [hold, hlast]
  exact congrArg _ (if_neg (by simp [hoff]))

end
end

section
variable {s : State} {g : Staging}

theorem State.stagedBytes_eq_some {c : Nat} {old : List Byte} (h : s.stagedBytes c = some old) :
    ∃ g, s.upd.staging = some g ∧ g.comp = c ∧ g.bytes = old := by
  unfold State.stagedBytes at h
  split at h
  next g hg =>
    split at h
    next hc => 
      have hcomp : g.comp = c := by simp_all
      exact ⟨g, hg, hcomp, Option.some.inj h⟩
    next => cases h
  next => cases h

theorem State.stagePiece_staging (hg : s.upd.staging = some g) (t : Taken) (last : Bool) (piece : List Byte) :
    (s.stagePiece t last piece).upd.staging =
      some { g with bytes := g.bytes ++ piece, lastFrame := s.power.frame.toNat, slot := some t.slot, last } :=
  congrArg (Option.map _) hg

theorem State.stagePiece_flash (t : Taken) (last : Bool) (piece : List Byte) :
    (s.stagePiece t last piece).flash = s.flash := rfl

/-- A first piece changes the slot that is not active, and no other component. -/
theorem State.stageFirst_flash (hboot : s.board.bootsel = 0) (hlen : s.flash.boot.entries.length = 6)
    (hseq : s.flash.boot.seq + 1 < 2 ^ 32) {c : Nat} (h1 : 1 ≤ c) (h6 : c ≤ 6) (t : Taken) (piece : List Byte) :
    let b := !(s.bootEntry c).activeB
    let u := (s.dropStaging.openStaging c false []).stagePiece t false piece
    u.bootEntry c = { (s.bootEntry c).setValid b false with pending := false } ∧ u.image b c = none ∧
      u.image (!b) c = s.image (!b) c ∧ ∀ d, 1 ≤ d → d ≠ c → u.bootEntry d = s.bootEntry d := by
  have hstage := (s.dropStaging.openStaging c false []).stagePiece_flash t false piece
  have hdrop : s.dropStaging.flash = s.flash := rfl
  have hopen := State.openStaging_flash (s := s.dropStaging) hboot hlen hseq h1 h6
  simp only [State.bootEntry_of_flash hstage, State.image_of_flash hstage]
  simpa only [State.bootEntry_of_flash hdrop, State.image_of_flash hdrop] using hopen

/-! ### Pieces in flash -/

theorem State.pieceWritten_more {slot : Nat} (hg : s.upd.staging = some g) (hs : g.slot = some slot)
    (hlast : g.last = false) : s.pieceWritten =
      State.completeSlot { s with upd := { s.upd with staging := some { g with slot := none } } } slot
        { Report.of stDone with r0 := g.bytes.length } := by
  rw [State.pieceWritten, hg]
  dsimp only
  rw [hs]
  exact if_neg (by simp [hlast])

theorem State.pieceWritten_last {slot : Nat} (hg : s.upd.staging = some g) (hs : g.slot = some slot)
    (hlast : g.last = true) : s.pieceWritten = (s.closeStaging g).1.completeSlot slot
      { Report.of (if (s.closeStaging g).2 then stDone else stAuthFail) with r0 := g.bytes.length } := by
  rw [State.pieceWritten, hg]
  dsimp only
  rw [hs]
  exact if_pos hlast

end

section
variable (s : State)

@[simp] theorem State.image_log (e : BitVec 16) (src : BitVec 8) (o a : BitVec 32) (b : Bool) (c : Nat) :
    (s.log e src o a).image b c = s.image b c := by
  obtain ⟨p, hp⟩ := s.log_flash e src o a
  rw [State.image, hp, State.image]

@[simp] theorem State.bootEntry_log (e : BitVec 16) (src : BitVec 8) (o a : BitVec 32) (c : Nat) :
    (s.log e src o a).bootEntry c = s.bootEntry c := by
  obtain ⟨p, hp⟩ := s.log_flash e src o a
  rw [State.bootEntry, hp]
  rfl

theorem State.bootEntry_complete (t : Taken) (r : Report) (c : Nat) : (s.complete t r).bootEntry c = s.bootEntry c :=
  State.bootEntry_of_flash (s := s) (t := s.complete t r) rfl c

@[simp] theorem State.completeSlot_evtLast (slot : Nat) (r : Report) :
    (s.completeSlot slot r).mail.evtLast = s.mail.evtLast := by
  unfold State.completeSlot
  split <;> rfl

theorem State.complete_upd (t : Taken) (r : Report) : (s.complete t r).upd = s.upd := rfl

@[simp] theorem State.image_completeSlot (slot : Nat) (r : Report) (b : Bool) (c : Nat) :
    (s.completeSlot slot r).image b c = s.image b c :=
  State.image_of_flash (State.flash_of_still (s.still_completeSlot slot r)) b c

@[simp] theorem State.bootEntry_completeSlot (slot : Nat) (r : Report) (c : Nat) :
    (s.completeSlot slot r).bootEntry c = s.bootEntry c :=
  State.bootEntry_of_flash (State.flash_of_still (s.still_completeSlot slot r)) c

@[simp] theorem State.firm_completeSlot (slot : Nat) (r : Report) : (s.completeSlot slot r).firm = s.firm :=
  State.firm_of_still (s.still_completeSlot slot r)

end

theorem State.upd_of_firm {s t : State} (h : t.firm = s.firm) : t.upd = s.upd := congrArg Prod.fst h

theorem State.flash_of_firm {s t : State} (h : t.firm = s.firm) : t.flash = s.flash := congrArg (fun x => x.2.1) h

section
variable {s : State} {g : Staging} {slot : Nat}

/-- A good digest makes the image the pending one of its slot. -/
theorem State.staged_flash (h1 : 1 ≤ g.comp) (h6 : g.comp ≤ 6) (hlen : s.flash.boot.entries.length = 6)
    (hseq : s.flash.boot.seq + 1 < 2 ^ 32) (hA : s.flash.slotA.length = 6) (hB : s.flash.slotB.length = 6) :
    (s.staged g).image g.toB g.comp = some (parseImage true g.bytes) ∧
      (s.staged g).bootEntry g.comp = { (s.bootEntry g.comp).setValid g.toB true with pending := true } := by
  have hboot := s.boot_setImage g.toB g.comp (some (parseImage true g.bytes))
  rw [State.staged, State.image_setBootEntry, State.image_setImage_same hA hB h1 h6]
  exact ⟨rfl, State.bootEntry_setBootEntry_same (hboot ▸ hlen) (hboot ▸ hseq) h1 h6 _⟩

variable (o : PowerUp) (hbusy : s.board.recordBusy = false) (hg : s.upd.staging = some g) (hs : g.slot = some slot)
include hbusy hg hs

theorem exec_flashWriteComplete_piece (hlast : g.last = false) : exec (.flashWriteComplete o) s = .next
    (State.completeSlot { s with upd := { s.upd with staging := some { g with slot := none } } } slot
      { Report.of stDone with r0 := g.bytes.length }) :=
  congrArg _ ((if_neg (by simp [hbusy])).trans (State.pieceWritten_more hg hs hlast))

theorem exec_flashWriteComplete_last (hlast : g.last = true) : exec (.flashWriteComplete o) s = .next
    ((s.closeStaging g).1.completeSlot slot
      { Report.of (if (s.closeStaging g).2 then stDone else stAuthFail) with r0 := g.bytes.length }) :=
  congrArg _ ((if_neg (by simp [hbusy])).trans (State.pieceWritten_last hg hs hlast))

theorem flashWriteComplete_broken (hlast : g.last = true) (hd : digestOk g.bytes = false) :
    Answers (.flashWriteComplete o) s fun u => u.upd.staging = none ∧ u.flash = s.flash := by
  refine ⟨_, exec_flashWriteComplete_last o hbusy hg hs hlast, ?_⟩
  beta_reduce
  rw [State.upd_of_firm (State.firm_completeSlot ..), State.flash_of_firm (State.firm_completeSlot ..),
    State.closeStaging_broken hd]
  exact ⟨rfl, rfl⟩

theorem flashWriteComplete_whole (hlast : g.last = true) (hd : digestOk g.bytes = true) (h1 : 1 ≤ g.comp)
    (h6 : g.comp ≤ 6) (hlen : s.flash.boot.entries.length = 6) (hseq : s.flash.boot.seq + 1 < 2 ^ 32)
    (hA : s.flash.slotA.length = 6) (hB : s.flash.slotB.length = 6) : Answers (.flashWriteComplete o) s fun u =>
      u.upd.staging = none ∧ u.image g.toB g.comp = some (parseImage true g.bytes) ∧
      u.bootEntry g.comp = { (s.bootEntry g.comp).setValid g.toB true with pending := true } := by
  refine ⟨_, exec_flashWriteComplete_last o hbusy hg hs hlast, ?_⟩
  beta_reduce
  rw [State.upd_of_firm (State.firm_completeSlot ..), State.image_completeSlot, State.bootEntry_completeSlot,
    State.closeStaging_whole hd, State.image_log, State.bootEntry_log]
  obtain ⟨m, f, b, r, q, hlog⟩ :=
    (s.staged g).dropStaging.log_eq evFwStaged srcSec (BitVec.ofNat 32 g.comp) (parseImage true g.bytes).version
  rw [hlog]
  exact ⟨rfl, State.staged_flash h1 h6 hlen hseq hA hB⟩

end

/-! ### Timeout and status (R446, R452) -/

theorem State.length_statusEntry (s : State) (c : Nat) : (s.statusEntry c).length = 32 := by
  simp [State.statusEntry, length_leBytes]

theorem State.length_fwRecord (s : State) : s.fwRecord.length = 208 := by
  simp [State.fwRecord, length_leBytes, List.length_flatMap, State.length_statusEntry]

theorem stagingTimeout_answers {s : State} {g : Staging} (hg : s.upd.staging = some g) (hs : g.slot = none)
    (hold : g.lastFrame + 3000000 ≤ s.power.frame.toNat) :
    Answers .stagingTimeout s fun u => u.upd.staging = none ∧ u.flash = s.flash := by
  have hdue : g.slot.isNone = true ∧ g.lastFrame + 3000000 ≤ s.power.frame.toNat := ⟨by simp [hs], hold⟩
  have hexec : exec .stagingTimeout s = .next { s.dropStaging with
      upd := { s.dropStaging.upd with pldm := { s.dropStaging.upd.pldm with comp := none } } } := by
    refine congrArg Host.Outcome.next ?_
    rw [hg]
    exact if_pos hdue
  exact ⟨_, hexec, rfl, rfl⟩

theorem exec_stagingTimeout_none {s : State} (h : s.upd.staging = none) : exec .stagingTimeout s = .next s := by
  refine congrArg Host.Outcome.next ?_
  rw [h]

section
variable {s : State} {slot : Nat} {t : Taken} (h : s.startable slot opFwStatus = some t)
include h

theorem exec_fwStatus_badField (hbuf : s.bufOk slot = false) :
    exec (.fwStatus slot) s = .next (s.complete t (.of stBadField)) :=
  (command_of_startable h _).trans (congrArg _ (if_pos (by simp [hbuf])))

theorem fwStatus_answers (hbuf : s.bufOk slot = true) :
    Answers (.fwStatus slot) s fun u => u.mail.own slot = 3 ∧ u.upd = s.upd ∧ u.flash = s.flash :=
  Answers.of_next (command_of_startable h _) (if_neg (by simp [hbuf]))
    ⟨State.startable_slot h ▸ State.complete_own _ t _, rfl, rfl⟩

end

/-! ## Activation (R448, R449) -/

section
variable {s : State} {slot : Nat} {t : Taken} (h : s.startable slot opFwActivate = some t)
include h

theorem exec_fwActivate_badField (hc : s.body slot 0 1 = 0 ∨ 6 < s.body slot 0 1) :
    exec (.fwActivate slot) s = .next (s.complete t (.of stBadField)) :=
  (command_of_startable h _).trans (congrArg _ (if_pos (by simp; omega)))

section
variable (h1 : 1 ≤ s.body slot 0 1) (h6 : s.body slot 0 1 ≤ 6)
include h1 h6

theorem exec_fwActivate_refused {st : Nat} (hst : s.activateRefusal (s.body slot 0 1) = some st) :
    exec (.fwActivate slot) s = .next (s.complete t (.of st)) := by
  refine (command_of_startable h _).trans (congrArg _ ((if_neg (by simp; omega)).trans ?_))
  rw [hst]

theorem exec_fwActivate (hst : s.activateRefusal (s.body slot 0 1) = none) : exec (.fwActivate slot) s = .next
    (if s.body slot 0 1 = 3 ∧ s.earlierTaken t = true then s
      else if s.body slot 0 1 = 6 then (s.activateBoot 6).complete t { Report.of stDone with
        r0 := (((s.activateBoot 6).activeImage 6).map fun i => i.version.toNat).getD 0 }
      else (s.beginActivation (s.body slot 0 1) (some slot)).markStarted slot) := by
  refine (command_of_startable h _).trans (congrArg _ ((if_neg (by simp; omega)).trans ?_))
  rw [hst]

end

theorem exec_fwActivate_waits (hc : s.body slot 0 1 = 3) (hst : s.activateRefusal (s.body slot 0 1) = none)
    (hearly : s.earlierTaken t = true) : exec (.fwActivate slot) s = .next s :=
  (exec_fwActivate h (by omega) (by omega) hst).trans (congrArg _ (if_pos ⟨hc, hearly⟩))

/-- The boot record names the new image, which nothing runs yet. -/
theorem fwActivate_answers (h1 : 1 ≤ s.body slot 0 1) (h5 : s.body slot 0 1 ≤ 5)
    (hlen : s.flash.boot.entries.length = 6) (hseq : s.flash.boot.seq + 1 < 2 ^ 32)
    (hst : s.activateRefusal (s.body slot 0 1) = none) (hearly : s.body slot 0 1 ≠ 3 ∨ s.earlierTaken t = false) :
    Answers (.fwActivate slot) s fun u =>
      let e := s.bootEntry (s.body slot 0 1)
      u.bootEntry (s.body slot 0 1) = { e with activeB := !e.activeB, pending := false } ∧
      (∃ a, u.upd.activation = some a ∧ a.comp = s.body slot 0 1 ∧ a.slot = some slot ∧ a.fromB = e.activeB) ∧
      u.sec.runningImages = s.sec.runningImages ∧ (s.body slot 0 1 = 2 → u.sec.sessions = []) ∧
      (s.body slot 0 1 = 4 → u.power.handover = true) := by
  have hearly' : ¬(s.body slot 0 1 = 3 ∧ s.earlierTaken t = true) := by rintro ⟨hc, he⟩; simp [hc, he] at hearly
  obtain ⟨⟨a, hupd, hkey⟩, hflash, himages, -, hsessions, hhandover⟩ :=
    s.beginActivation_fields (s.body slot 0 1) (some slot)
  simp only [Activation.key, Prod.mk.injEq] at hkey
  refine ⟨_, (exec_fwActivate h h1 (by omega) hst).trans (congrArg _ ((if_neg hearly').trans (if_neg (by omega)))), ?_,
    ⟨a, congrArg Update.activation hupd, hkey⟩, himages, hsessions, hhandover⟩
  exact (State.bootEntry_of_flash (s := s.setBootEntry _ _) hflash _).trans
    (State.bootEntry_setBootEntry_same hlen hseq h1 (by omega) _)

/-- `MEMT` has nothing to serve: the boot record is written, and the command is done. -/
theorem fwActivate_memt (hc : s.body slot 0 1 = 6) (hlen : s.flash.boot.entries.length = 6)
    (hseq : s.flash.boot.seq + 1 < 2 ^ 32) (hst : s.activateRefusal (s.body slot 0 1) = none) :
    Answers (.fwActivate slot) s fun u =>
      (u.bootEntry 6).activeB = !(s.bootEntry 6).activeB ∧ u.mail.own slot = 3 ∧ u.upd = s.upd := by
  have hentry := State.bootEntry_setBootEntry_same hlen hseq (by omega : 1 ≤ 6) (by omega)
    { s.bootEntry 6 with activeB := !(s.bootEntry 6).activeB, pending := false }
  refine ⟨_, (exec_fwActivate h (by omega) (by omega) hst).trans
    (congrArg _ ((if_neg (by omega)).trans (if_pos hc))), ?_, ?_, ?_⟩
  · exact congrArg BootEntry.activeB ((State.bootEntry_complete ..).trans hentry)
  · exact State.startable_slot h ▸ State.complete_own _ t _
  · exact (State.complete_upd (s.activateBoot 6) t _).trans (s.upd_setBootEntry 6 _)

end

/-! ### The end of an activation -/

section
variable (s : State) (e : BitVec 16) (src : BitVec 8) (o a : BitVec 32)

@[simp] theorem State.log_upd : (s.log e src o a).upd = s.upd := by
  obtain ⟨m, f, b, r, q, h⟩ := s.log_eq e src o a
  rw [h]

@[simp] theorem State.log_sec : (s.log e src o a).sec = s.sec := by
  obtain ⟨m, f, b, r, q, h⟩ := s.log_eq e src o a
  rw [h]

@[simp] theorem State.log_fuses : (s.log e src o a).fuses = s.fuses := by
  obtain ⟨m, f, b, r, q, h⟩ := s.log_eq e src o a
  rw [h]

@[simp] theorem State.log_out : (s.log e src o a).out = s.out := by
  obtain ⟨m, f, b, r, q, h⟩ := s.log_eq e src o a
  rw [h]

@[simp] theorem State.log_boot : (s.log e src o a).flash.boot = s.flash.boot := by
  obtain ⟨p, hp⟩ := s.log_flash e src o a
  rw [hp]
  rfl

@[simp] theorem State.log_evtLast : (s.log e src o a).mail.evtLast = e := (s.log_fields e src o a).2.2.1

end

/-- A component that runs an image from now on. -/
theorem State.runImage_fields (s : State) (c : Nat) (i : Option Image) :
    let t := s.runImage c i
    t.upd = s.upd ∧ t.flash = s.flash ∧ t.sec.runningImages = setAt s.sec.runningImages (c - 1) i ∧
      t.sec.waiting = s.sec.waiting := by
  unfold State.runImage
  dsimp only
  split
  · exact ⟨rfl, rfl, rfl, rfl⟩
  · exact ⟨rfl, rfl, rfl, rfl⟩

/-- The new image serves. -/
theorem State.serve_fields (s : State) (a : Activation) :
    let t := s.serve a
    t.upd.activation = none ∧ t.sec.runningImages = setAt s.sec.runningImages (a.comp - 1) (s.activeImage a.comp) ∧
      t.sec.waiting = s.sec.waiting ∧ (a.comp = 2 → t.sec.paused = false) ∧ t.flash.boot = s.flash.boot ∧
      t.mail.evtLast = evMeasChanged := by
  obtain ⟨-, hflash, himages, hwaiting⟩ := s.runImage_fields a.comp (s.activeImage a.comp)
  unfold State.serve
  simp only [State.measChanged, State.log_upd, State.log_sec, State.log_boot, State.log_evtLast]
  split
  · exact ⟨rfl, himages, hwaiting, fun _ => rfl, congrArg Flash.boot hflash, trivial⟩
  next h2 => exact ⟨rfl, himages, hwaiting, fun h => absurd h h2, congrArg Flash.boot hflash, trivial⟩

/-- What the end of an activation leaves, past the answers to the requests that waited. -/
theorem State.firm_answered (s : State) (slot : Nat) (r : Report) : (s.answerWaiting.completeSlot slot r).firm =
    { s with sec := { s.sec with waiting := [] } }.firm :=
  (State.firm_completeSlot ..).trans (State.firm_answerWaiting s)

/-- The former image is in use again; requests that waited are still to be answered. -/
def State.reloaded (s : State) (a : Activation) : State :=
  let s1 := s.setBootEntry a.comp { s.bootEntry a.comp with activeB := a.fromB }
  let s1 := if a.comp = 2 then s1.deriveKeys (s1.sec.runningImages.getD 1 none) else s1
  { s1 with
    upd := { s1.upd with activation := none }
    power := { s1.power with handover := s1.power.handover && a.comp != 4 }
    sec := { s1.sec with paused := s1.sec.paused && a.comp != 2 }
    rcv := { s1.rcv with secHeld := s1.rcv.secHeld && a.comp != 2 } }

theorem State.reloaded_fields (s : State) (a : Activation) :
    let t := s.reloaded a
    t.upd.activation = none ∧ t.flash = (s.setBootEntry a.comp { s.bootEntry a.comp with activeB := a.fromB }).flash ∧
      t.sec.runningImages = s.sec.runningImages := by
  have hsec := congrArg Security.runningImages
    (s.sec_setBootEntry a.comp { s.bootEntry a.comp with activeB := a.fromB })
  unfold State.reloaded
  dsimp only
  split
  · exact ⟨rfl, rfl, hsec⟩
  · exact ⟨rfl, rfl, hsec⟩

section
variable {s : State} {a : Activation} {slot : Nat} (ha : s.upd.activation = some a)
include ha

theorem exec_activationComplete_notReady (us : Nat) (h : s.activationReady a = false) :
    exec (.activationComplete us) s = .next s := by
  refine congrArg Host.Outcome.next ?_
  rw [ha]
  exact if_pos (by simp [h])

theorem exec_activationComplete (us : Nat) (hs : a.slot = some slot) (h : s.activationReady a = true) :
    ∃ r, exec (.activationComplete us) s = .next ((s.serve a).answerWaiting.completeSlot slot r) := by
  refine ⟨{ Report.of stDone with
    r0 := (((s.serve a).answerWaiting.activeImage a.comp).map fun i => i.version.toNat).getD 0, r1 := us
    r2 := (a.linkDown.filter fun h => !(s.port h).inService).length }, congrArg Host.Outcome.next ?_⟩
  rw [ha]
  refine (if_neg (by simp [h])).trans ?_
  dsimp only
  rw [hs]

theorem activationComplete_answers (us : Nat) (hs : a.slot = some slot) (hready : s.activationReady a = true)
    (h1 : 1 ≤ a.comp) (h6 : a.comp ≤ 6) (hlen : s.sec.runningImages.length = 6) :
    Answers (.activationComplete us) s fun u =>
      u.upd.activation = none ∧ u.sec.runningImages.getD (a.comp - 1) none = s.activeImage a.comp ∧
      (s.sec.waiting = [] → u.mail.evtLast = evMeasChanged) ∧ u.sec.waiting = [] ∧ (a.comp = 2 → u.sec.paused = false) ∧
      u.flash.boot = s.flash.boot := by
  obtain ⟨r, hexec⟩ := exec_activationComplete ha us hs hready
  obtain ⟨hact, himages, hwaiting, hpaused, hboot, hevt⟩ := s.serve_fields a
  have hfirm := (s.serve a).firm_answered slot r
  simp only [State.firm, Prod.mk.injEq] at hfirm
  obtain ⟨hupd, hflash, himages', hwaiting', hpaused'⟩ := hfirm
  refine ⟨_, hexec, (congrArg Update.activation hupd).trans hact, ?_, fun hnone => ?_, hwaiting',
    fun h2 => hpaused'.trans (hpaused h2), (congrArg Flash.boot hflash).trans hboot⟩
  · rw [himages', himages]
    exact getD_setAt_same _ _ (by omega)
  · rw [State.completeSlot_evtLast, State.answerWaiting, hwaiting, hnone]
    exact hevt

theorem exec_activationTimeout (hs : a.slot = some slot) : exec .activationTimeout s = .next
    ((s.reloaded a).answerWaiting.completeSlot slot { Report.of stIncompatible with r0 := 0xFF }) := by
  refine congrArg Host.Outcome.next ?_
  rw [ha]
  dsimp only
  rw [hs]
  rfl

theorem activationTimeout_answers (hs : a.slot = some slot) (hlen : s.flash.boot.entries.length = 6)
    (hseq : s.flash.boot.seq + 1 < 2 ^ 32) (h1 : 1 ≤ a.comp) (h6 : a.comp ≤ 6) :
    Answers .activationTimeout s fun u => u.upd.activation = none ∧ (u.bootEntry a.comp).activeB = a.fromB ∧
      u.sec.runningImages = s.sec.runningImages ∧ u.sec.waiting = [] := by
  obtain ⟨hact, hflash, himages⟩ := s.reloaded_fields a
  have hfirm := (s.reloaded a).firm_answered slot { Report.of stIncompatible with r0 := 0xFF }
  simp only [State.firm, Prod.mk.injEq] at hfirm
  obtain ⟨hupd, hflash', himages', hwaiting', -⟩ := hfirm
  refine ⟨_, exec_activationTimeout ha hs, (congrArg Update.activation hupd).trans hact, ?_, himages'.trans himages,
    hwaiting'⟩
  rw [State.bootEntry_of_flash (hflash'.trans hflash), State.bootEntry_setBootEntry_same hlen hseq h1 h6]

end

theorem exec_activation_none {s : State} (h : s.upd.activation = none) (us : Nat) :
    exec (.activationComplete us) s = .next s ∧ exec .activationTimeout s = .next s := by
  constructor
  · refine congrArg Host.Outcome.next ?_
    rw [h]
  · refine congrArg Host.Outcome.next ?_
    rw [h]

/-! ## Floors (R440, R441) -/

section
variable {s : State} {c : Nat}

theorem State.commitRefusal_none (h : s.commitRefusal c = none) : 1 ≤ c ∧ c ≤ 6 := by
  unfold State.commitRefusal at h
  split at h
  · cases h
  next hc => simpa [Nat.one_le_iff_ne_zero] using hc

theorem State.raiseFloor_kept (h : ((s.activeImage c).map fun i => i.svn).getD 0 ≤ s.floor c) : s.raiseFloor c = s := by
  unfold State.raiseFloor
  split
  · rfl
  next i hi => exact if_pos (by simpa [hi] using h)

theorem State.raiseFloor_raised {i : Image} (hi : s.activeImage c = some i) (hlt : s.floor c < i.svn) :
    (s.raiseFloor c).fuses = { s.fuses with svnFloor := setAt s.fuses.svnFloor (c - 1) i.svn } ∧
      (s.raiseFloor c).out = s.out := by
  unfold State.raiseFloor
  rw [hi]
  dsimp only
  rw [if_neg (Nat.not_le.2 hlt), State.measChanged, State.log_fuses, State.log_out]
  split
  · obtain ⟨f, hf⟩ := State.setBootEntry_eq
      { s with fuses := { s.fuses with svnFloor := setAt s.fuses.svnFloor (c - 1) i.svn } } c
      ((s.bootEntry c).setValid (!(s.bootEntry c).activeB) false)
    rw [hf]
    exact ⟨rfl, rfl⟩
  · exact ⟨rfl, rfl⟩

/-- The floor rises to the version of the active image, and never falls; the other floors stay. -/
theorem State.raiseFloor_fields (h1 : 1 ≤ c) (h6 : c ≤ 6) (hlen : s.fuses.svnFloor.length = 6) :
    (s.raiseFloor c).floor c = max (s.floor c) (((s.activeImage c).map fun i => i.svn).getD 0) ∧
      (∀ d, 1 ≤ d → d ≠ c → (s.raiseFloor c).floor d = s.floor d) ∧ (s.raiseFloor c).out = s.out := by
  by_cases hle : ((s.activeImage c).map fun i => i.svn).getD 0 ≤ s.floor c
  · rw [State.raiseFloor_kept hle]
    exact ⟨(max_eq_left hle).symm, fun _ _ _ => rfl, rfl⟩
  · cases hi : s.activeImage c with
    | none => simp [hi] at hle
    | some i =>
      have hlt : s.floor c < i.svn := by simpa [hi] using hle
      obtain ⟨hfuses, hout⟩ := State.raiseFloor_raised hi hlt
      refine ⟨?_, fun d hd hne => ?_, hout⟩
      · rw [State.floor, hfuses]
        exact (getD_setAt_same _ _ (by omega)).trans (max_eq_right hlt.le).symm
      · rw [State.floor, hfuses]
        exact getD_setAt_other _ _ (by omega)

end

section
variable {s : State} {slot : Nat} {t : Taken} (h : s.startable slot opFwCommit = some t)
include h

theorem exec_fwCommit_refused {st : Nat} (hst : s.commitRefusal (s.body slot 0 1) = some st) :
    exec (.fwCommit slot) s = .next (
      s.complete t { Report.of st with r0 := if st = stBadField then 0 else s.floor (s.body slot 0 1) }) :=
  (command_of_startable h _).trans (by dsimp only; rw [hst])

theorem exec_fwCommit (hst : s.commitRefusal (s.body slot 0 1) = none) :
    exec (.fwCommit slot) s = .next ((s.raiseFloor (s.body slot 0 1)).complete t
      { Report.of stDone with r0 := (s.raiseFloor (s.body slot 0 1)).floor (s.body slot 0 1) }) :=
  (command_of_startable h _).trans (by dsimp only; rw [hst])

end

section
variable {s : State} {c : Nat} (hlamp : s.lampAnswers = true) (hboot : s.board.bootsel ≠ 3)
include hlamp hboot

theorem exec_trayFwCommit_notReady (hsec : s.secServes = false) :
    exec (.trayFwCommit c) s = .next (s.answer 0x06 trNotReady []) :=
  (tray_answered hlamp hboot _).trans (congrArg _ (if_pos (by simp [hsec])))

theorem exec_trayFwCommit_refused (hsec : s.secServes = true) {st : Nat} (hst : s.commitRefusal c = some st) :
    exec (.trayFwCommit c) s = .next (s.answer 0x06 (trCode st) []) := by
  refine (tray_answered hlamp hboot _).trans (congrArg _ ((if_neg (by simp [hsec])).trans ?_))
  rw [hst]

theorem trayFwCommit_answers (hsec : s.secServes = true) (hst : s.commitRefusal c = none)
    (hlen : s.fuses.svnFloor.length = 6) : Answers (.trayFwCommit c) s fun u =>
      u.floor c = max (s.floor c) (((s.activeImage c).map fun i => i.svn).getD 0) ∧
      u.out = s.out ++ [.tray 0x06 trOk (leBytes 4 (u.floor c))] := by
  obtain ⟨h1, h6⟩ := State.commitRefusal_none hst
  obtain ⟨hfloor, -, hout⟩ := State.raiseFloor_fields h1 h6 hlen
  have hexec : exec (.trayFwCommit c) s =
      .next ((s.raiseFloor c).answer 0x06 trOk (leBytes 4 ((s.raiseFloor c).floor c))) := by
    refine (tray_answered hlamp hboot _).trans (congrArg _ ((if_neg (by simp [hsec])).trans ?_))
    rw [hst]
  exact ⟨_, hexec, hfloor, congrArg (· ++ _) hout⟩

end

/-- Settles O48: the rows of staging, then those of activations and floors. -/
theorem firmware : Obligations.Firmware := by
  refine ⟨fun s slot t ht => ⟨fun h data => ⟨fun hf => exec_fwStage_badField h hf data,
      fun hf hboot => exec_fwStage_wrongState h hf hboot data, fun hf hboot =>
      ⟨fun hbusy => exec_fwStage_busy h hf hboot hbusy data,
        fun hbusy hwaits => exec_fwStage_waits h hf hboot hbusy hwaits data,
        fun hbusy hfree hone hoff => ?first, fun hbusy hfree heven => ?next⟩⟩,
    fun o g hbusy hg hs => ⟨exec_flashWriteComplete_piece o hbusy hg hs, flashWriteComplete_broken o hbusy hg hs,
      flashWriteComplete_whole o hbusy hg hs⟩,
    fun g => stagingTimeout_answers, exec_stagingTimeout_none, s.length_fwRecord,
    fun h => ⟨exec_fwStatus_badField h, fwStatus_answers h⟩⟩, fun s slot t ht => ⟨fun h =>
    ⟨exec_fwActivate_badField h, fun h1 h6 st => exec_fwActivate_refused h h1 h6, exec_fwActivate_waits h,
      fun h1 h5 hboot => fwActivate_answers h h1 h5 hboot.1 hboot.2,
      fun hc hboot => fwActivate_memt h hc hboot.1 hboot.2⟩,
    fun hnone => exec_activation_none hnone 0,
    fun a us ha hs => ⟨exec_activationComplete_notReady ha us, activationComplete_answers ha us hs,
      fun hboot => activationTimeout_answers ha hs hboot.1 hboot.2⟩,
    fun h => ⟨fun st => exec_fwCommit_refused h, fun hst hlen => ?commit⟩,
    fun comp hlamp hboot => ⟨exec_trayFwCommit_notReady hlamp hboot,
      fun hsec => ⟨fun st => exec_trayFwCommit_refused hlamp hboot hsec, trayFwCommit_answers hlamp hboot hsec⟩⟩⟩⟩
  case first =>
    refine ⟨fun st hst => ⟨_, exec_fwStage_rejected h hf hboot hbusy hfree hone hoff data rfl hst, rfl, rfl, ?_⟩,
      fun hnone hlen hseq => ?_⟩
    · exact ht ▸ State.complete_own _ t _
    · obtain ⟨h1, h6⟩ := State.stageFieldsOk_comp hf
      exact ⟨_, exec_fwStage_opened h hf hboot hbusy hfree hone hoff data rfl hnone,
        ⟨_, State.stagePiece_staging rfl t false _, rfl, rfl, State.stagesB_normal hboot _, congrArg some ht, rfl⟩,
        State.stageFirst_flash hboot hlen hseq h1 h6 t _⟩
  case next =>
    refine ⟨exec_fwStage_notStaged h hf hboot hbusy hfree heven data,
      fun old hold hoff => exec_fwStage_displaced h hf hboot hbusy hfree heven data hold hoff, fun old hold hoff hzero => ?_⟩
    obtain ⟨g, hg, hcomp, rfl⟩ := State.stagedBytes_eq_some hold
    exact ⟨_, exec_fwStage_middle h hf hboot hbusy hfree hzero data hold hoff, _, State.stagePiece_staging hg t false _,
      hcomp, rfl, congrArg some ht⟩
  case commit =>
    obtain ⟨h1, h6⟩ := State.commitRefusal_none hst
    obtain ⟨hfloor, hothers, -⟩ := State.raiseFloor_fields h1 h6 hlen
    exact ⟨_, exec_fwCommit h hst, hfloor, ht ▸ State.complete_own _ t _, hothers⟩

end Sys2Proof.Machine
end

section
/-! The reset of the fabric of an I/O die: its ports, its counters and its pan slots, and the cells that it leaves. -/

namespace Sys2Proof.Machine

/-! ## Operations that end leave the cells (R281, R453) -/

section
variable (s : State)

theorem State.completeSlot_cells (slot : Nat) (r : Report) : (s.completeSlot slot r).cells = s.cells := by
  unfold State.completeSlot
  split <;> rfl

theorem State.endStop_cells (stop : Option StopReq) (status : Nat) : (s.endStop stop status).cells = s.cells := by
  unfold State.endStop
  split
  · exact s.completeSlot_cells _ _
  · rfl

theorem State.settleResidency_cells (p : Nat) : (s.settleResidency p).cells = s.cells := by
  have hnote (t : State) (c : Nat) : (t.noteWaiting p c).cells = t.cells := by
    unfold State.noteWaiting
    dsimp only
    split <;> rfl
  unfold State.settleResidency
  split
  · dsimp only
    split
    · exact hnote _ _
    · rfl
  · rfl

theorem State.holdBatch_cells (b : Batch) : (s.holdBatch b).cells = s.cells := by
  rw [State.holdBatch, State.settleResidency_cells, State.endStop_cells]
  exact s.completeSlot_cells _ _

theorem State.endBatch_cells (b : Batch) (status idx stopStatus : Nat) :
    (s.endBatch b status idx stopStatus).cells = s.cells := by
  rw [State.endBatch, State.settleResidency_cells, State.endStop_cells]
  exact s.completeSlot_cells _ _

theorem State.batchAfter_cells (b : Batch) (status : Nat) (ovf fell : Bool) :
    (s.batchAfter b status ovf fell).cells = s.cells := by
  unfold State.batchAfter
  dsimp only
  split
  · split
    · exact s.endBatch_cells ..
    · exact s.holdBatch_cells _
  · split
    · rfl
    · exact s.endBatch_cells ..

theorem State.endOp_cells (h status : Nat) : (s.endOp h status).cells = s.cells := by
  unfold State.endOp State.withOp
  split
  next k _ =>
    split
    next o _ =>
      dsimp only
      generalize hs1 : State.setComm _ _ = s1
      have hcells : s1.cells = s.cells := by rw [← hs1]; rfl
      split
      · exact hcells
      · exact (State.batchAfter_cells ..).trans (State.cells_getD hcells fun _ => State.vwrite_cells)
    next => rfl
  next => rfl

end

/-! ## A change of each port of a list -/

/-- A step changes one port by `g` and no other. -/
def PortStep (f : State → Nat → State) (g : Port → Port) : Prop :=
  ∀ a h, h < a.fabric.ports.length → (f a h).fabric.ports = setAt a.fabric.ports h (g (a.port h))

theorem PortStep.port {f : State → Nat → State} {g : Port → Port} (hf : PortStep f g) {l : List Nat} (hl : l.Nodup)
    (s : State) (hlen : ∀ h ∈ l, h < s.fabric.ports.length) (j : Nat) :
    (l.foldl f s).port j = if j ∈ l then g (s.port j) else s.port j := by
  induction l generalizing s with
  | nil => rfl
  | cons h l ih =>
    obtain ⟨hnot, hl⟩ := List.nodup_cons.1 hl
    have hh := hlen h List.mem_cons_self
    have hports := hf s h hh
    have hstep : (f s h).fabric.ports.length = s.fabric.ports.length := by rw [hports, setAt, List.length_set]
    rw [List.foldl_cons, ih hl (f s h) fun x hx => hstep ▸ hlen x (List.mem_cons_of_mem _ hx)]
    by_cases hj : j = h
    · subst hj
      rw [if_neg hnot, if_pos List.mem_cons_self, State.port, hports]
      exact getD_setAt_same _ _ hh
    · have hsame : (f s h).port j = s.port j := by
        rw [State.port, hports]
        exact getD_setAt_other _ _ hj
      simp [hsame, hj]

theorem PortStep.length {f : State → Nat → State} {g : Port → Port} (hf : PortStep f g) {l : List Nat} (s : State)
    (hlen : ∀ h ∈ l, h < s.fabric.ports.length) : (l.foldl f s).fabric.ports.length = s.fabric.ports.length := by
  induction l generalizing s with
  | nil => rfl
  | cons h l ih =>
    have hstep : (f s h).fabric.ports.length = s.fabric.ports.length := by
      rw [hf s h (hlen h List.mem_cons_self), setAt, List.length_set]
    exact (ih (f s h) fun x hx => hstep ▸ hlen x (List.mem_cons_of_mem _ hx)).trans hstep

/-! ## The reset of a die (R281) -/

/-- A half that leaves its link at a reset. -/
def Port.takenDown (k : Port) : Port :=
  { k.unlink (if k.st = .disabled then .disabled else .down) with disable := false, cause := 0 }

/-- One half leaves its link, with its event. -/
def State.takeHalfDown (a : State) (h : Nat) : State :=
  (if (true && (a.port h).inService) = true then
    a.log evPortDown srcLink (BitVec.ofNat 32 (pidOf h)) ((a.port h).cause.setWidth 32) else a).setPort h (a.port h).takenDown

theorem State.takeHalfDown_step : PortStep State.takeHalfDown Port.takenDown := by
  intro a h _
  rw [State.takeHalfDown, State.setPort]
  dsimp only
  split
  · rw [State.log_fabric]
  · rfl

def State.clearCounters (a : State) (h : Nat) : State := a.setPort h { a.port h with counters := Vector.replicate 10 0 }

theorem State.clearCounters_step : PortStep State.clearCounters fun k => { k with counters := Vector.replicate 10 0 } :=
  fun _ _ _ => rfl

section
variable (s : State) (d : Nat)

def dieHalves (d : Nat) : List Nat := (List.range 72).filter fun h => iodOf h == d

/-- The halves of a die leave their links, and their counters are cleared. -/
def State.downHalves : State :=
  ((List.range 18).map (18 * d + ·)).foldl State.clearCounters ((dieHalves d).foldl State.takeHalfDown s)

/-- The tables of the die are those of reset, and what it held is lost. -/
def State.clearDie : State :=
  { (s.downHalves d).setFabBlock d FabBlock.reset with fabric := { ((s.downHalves d).setFabBlock d FabBlock.reset).fabric with
      waiting := ((s.downHalves d).setFabBlock d FabBlock.reset).fabric.waiting.filter fun w => w.iod != d
      arrived := ((s.downHalves d).setFabBlock d FabBlock.reset).fabric.arrived.filter fun w => w.iod != d } }

theorem State.resetIodFabric_eq : s.resetIodFabric d =
    (((List.range 9).map (9 * d + ·)).foldl State.settlePort (s.clearDie d)).retime := rfl

theorem State.downHalves_port {h : Nat} (hlen : s.fabric.ports.length = 72) (hh : h < 72) (hd : iodOf h = d) :
    (s.downHalves d).port h = { (s.port h).takenDown with counters := Vector.replicate 10 0 } := by
  have hdie : ∀ x ∈ dieHalves d, x < s.fabric.ports.length := fun x hx =>
    hlen ▸ List.mem_range.1 (List.mem_filter.1 hx).1
  have hlen' := State.takeHalfDown_step.length s hdie
  have hdown := State.takeHalfDown_step.port (List.nodup_range.filter _) s hdie h
  rw [if_pos (by simp [hh, hd])] at hdown
  have hmem : h ∈ (List.range 18).map (18 * d + ·) := by
    simp only [List.mem_map, List.mem_range]
    exact ⟨h % 18, by omega, by rw [iodOf] at hd; omega⟩
  have hrange : ∀ x ∈ (List.range 18).map (18 * d + ·), x < ((dieHalves d).foldl State.takeHalfDown s).fabric.ports.length := by
    intro x hx
    simp only [List.mem_map, List.mem_range] at hx
    obtain ⟨y, hy, rfl⟩ := hx
    rw [hlen', hlen]
    rw [iodOf] at hd
    omega
  have hnodup : ((List.range 18).map (18 * d + ·)).Nodup :=
    List.nodup_range.map fun x y hxy => Nat.add_left_cancel hxy
  rw [State.downHalves, State.clearCounters_step.port hnodup _ hrange, if_pos hmem, dieHalves, hdown]

theorem State.port_clearDie (h : Nat) : (s.clearDie d).port h = (s.downHalves d).port h := by
  unfold State.clearDie
  generalize s.downHalves d = u
  rfl

theorem Port.Settles.counters {k k' : Port} (h : k.Settles k') : k'.counters = k.counters := by
  obtain rfl | ⟨-, -, rfl⟩ := h
  · rfl
  · rfl

theorem State.port_settlePortsOf (l : List Nat) (a : State) (j : Nat) :
    (a.port j).Settles ((l.foldl State.settlePort a).port j) := by
  induction l generalizing a with
  | nil => exact .inl rfl
  | cons p l ih => exact (a.port_settlePort p j).trans (ih _)

/-- A half of the die is down with its counters at 0; one that was Disabled stays so or goes on to Detect. -/
theorem State.resetIodFabric_port {h : Nat} (hlen : s.fabric.ports.length = 72) (hh : h < 72) (hd : iodOf h = d) :
    let k := (s.resetIodFabric d).port h
    k.counters = Vector.replicate 10 0 ∧ ((s.port h).st ≠ .disabled → k.st = .down) ∧
      ((s.port h).st = .disabled → k.st = .disabled ∨ k.st = .detect) := by
  have hsettles := State.port_settlePortsOf ((List.range 9).map (9 * d + ·)) (s.clearDie d) h
  have hport := (s.port_clearDie d h).trans (s.downHalves_port d hlen hh hd)
  have hcounters : ((s.clearDie d).port h).counters = Vector.replicate 10 0 := congrArg Port.counters hport
  have hst : ((s.clearDie d).port h).st = if (s.port h).st = .disabled then .disabled else .down :=
    congrArg Port.st hport
  have hsame := State.port_retime (((List.range 9).map (9 * d + ·)).foldl State.settlePort (s.clearDie d)) h
  rw [← hsame, ← State.resetIodFabric_eq] at hsettles
  obtain ⟨-, -, hstate, -⟩ := hsettles.fields
  have hzero := hsettles.counters.trans hcounters
  dsimp only
  generalize (s.resetIodFabric d).port h = k at hzero hstate
  refine ⟨hzero, fun hne => ?_, fun he => ?_⟩
  · rw [if_neg hne] at hst
    rcases hstate with hk | ⟨hdis, -⟩
    · exact hk.trans hst
    · cases hst.symm.trans hdis
  · rw [if_pos he] at hst
    rcases hstate with hk | ⟨-, hdetect⟩
    · exact .inl (hk.trans hst)
    · exact .inr hdetect

/-- Cells and engines, which the reset of the fabric of a die leaves alone. -/
def State.work (s : State) : SMap Cell × Coll := (s.cells, s.coll)

theorem State.work_takeHalfDown (h : Nat) : (s.takeHalfDown h).work = s.work := by
  unfold State.takeHalfDown
  split
  · obtain ⟨m, f, b, r, q, hlog⟩ :=
      s.log_eq evPortDown srcLink (BitVec.ofNat 32 (pidOf h)) ((s.port h).cause.setWidth 32)
    rw [hlog]
    rfl
  · rfl

theorem State.work_settlePort (p : Nat) : (s.settlePort p).work = s.work := by
  have hmode : (s.applyMode p).work = s.work := by
    unfold State.applyMode
    split
    · split <;> rfl
    · rfl
  rw [State.settlePort_eq]
  split
  · exact hmode
  · refine (foldl_keeps State.work _ (fun a h => ?_) _ _).trans hmode
    unfold State.settleHalf
    split <;> rfl

theorem State.work_retime : s.retime.work = s.work := by
  unfold State.retime
  dsimp only
  split
  · rfl
  · split
    · split <;> rfl
    · split
      · rfl
      · split <;> rfl

theorem State.work_clearDie : (s.clearDie d).work = (s.downHalves d).work := by
  unfold State.clearDie
  generalize s.downHalves d = u
  rfl

theorem State.work_resetIodFabric : (s.resetIodFabric d).work = s.work := by
  rw [State.resetIodFabric_eq, State.work_retime, foldl_keeps State.work _ State.work_settlePort, State.work_clearDie,
    State.downHalves,
    foldl_keeps State.work State.clearCounters fun _ _ => rfl, foldl_keeps State.work _ State.work_takeHalfDown]

/-- What the reset of a die leaves of ports, pan slots and cells. -/
theorem State.resetDie_fields : (s.resetDie d).coll.panUsed.getD d 0 = 0 ∧ (s.resetDie d).cells = s.cells ∧
    (s.fabric.ports.length = 72 → ∀ h, h < 72 → iodOf h = d →
      let k := (s.resetDie d).port h
      k.counters = Vector.replicate 10 0 ∧ ((s.port h).st ≠ .disabled → k.st = .down) ∧
        ((s.port h).st = .disabled → k.st = .disabled ∨ k.st = .detect)) := by
  have hfab := foldl_keeps State.fabric _ (fun a h => a.endOp_fabric h stUnitFailed)
    ((s.coll.comms.filter fun k => k.onDie d).map (·.handle)) s
  have hcells := foldl_keeps State.cells _ (fun a h => a.endOp_cells h stUnitFailed)
    ((s.coll.comms.filter fun k => k.onDie d).map (·.handle)) s
  unfold State.resetDie
  dsimp only
  generalize List.foldl _ s _ = s0 at hfab hcells ⊢
  generalize hu : ({ s0 with coll := _ } : State) = u
  have hufab : u.fabric = s.fabric := by rw [← hu]; exact hfab
  have hucells : u.cells = s.cells := by rw [← hu]; exact hcells
  have hupan : u.coll.panUsed.getD d 0 = 0 := by
    rw [← hu]
    by_cases hd : d < s0.coll.panUsed.length
    · exact getD_setAt_same _ _ hd
    · exact List.getD_eq_default _ _ (by simpa [setAt] using hd)
  have hwork := u.work_resetIodFabric d
  simp only [State.work, Prod.mk.injEq] at hwork
  obtain ⟨hcells', hcoll'⟩ := hwork
  refine ⟨by rw [hcoll', hupan], hcells'.trans hucells, fun hlen h hh hd => ?_⟩
  have hport : u.port h = s.port h := by rw [State.port, hufab, State.port]
  rw [← hport]
  exact u.resetIodFabric_port d (by rw [hufab, hlen]) hh hd

end

end Sys2Proof.Machine
end

section
/-! The compute-side reset: what it leaves of the persistent record, of the alert and of the commands that were taken. -/

namespace Sys2Proof.Machine

/-! ## The record of hangs and the alert (R453, R458, R469) -/

/-- Hang recoveries, their history, and the number of captures. -/
def State.tally (s : State) : BitVec 32 × List (BitVec 64) × BitVec 64 :=
  (s.flash.persist.hangsLife, s.flash.persist.hangTimes, s.flash.dumpSeq)

/-- From `s` to `t` the record of hangs has not changed, and an alert that was on is on. -/
def State.Onward (s t : State) : Prop := t.tally = s.tally ∧ (s.board.alert = true → t.board.alert = true)

theorem State.Onward.refl (s : State) : s.Onward s := ⟨rfl, id⟩

theorem State.Onward.trans {s t u : State} (h : s.Onward t) (g : t.Onward u) : s.Onward u :=
  ⟨g.1.trans h.1, g.2 ∘ h.2⟩

theorem State.Onward.foldl {α : Type} (f : State → α → State) (hf : ∀ (a : State) x, a.Onward (f a x)) (l : List α)
    (s : State) : s.Onward (l.foldl f s) := by
  induction l generalizing s with
  | nil => exact .refl s
  | cons x l ih => exact (hf s x).trans (ih _)

theorem State.onward_of_still {s t : State} (h : t.still = s.still) : s.Onward t := by
  have hboard : t.board = s.board := show t.still.board = s.still.board from congrArg State.board h
  rw [State.Onward, State.tally, State.flash_of_still h, hboard]
  exact ⟨rfl, id⟩

section
variable (s : State)

theorem State.onward_log (e : BitVec 16) (src : BitVec 8) (o a : BitVec 32) : s.Onward (s.log e src o a) := by
  unfold State.log
  dsimp only
  split
  · exact ⟨rfl, id⟩
  · split
    · exact ⟨rfl, fun _ => rfl⟩
    · exact ⟨rfl, id⟩

theorem State.onward_loseStack (n : Nat) : s.Onward (s.loseStack n) := by
  unfold State.loseStack
  split
  · exact State.Onward.trans (t := { s.noteFence (unitId 4 n 0 0x06) (some (n / 4)) with
      units := { (s.noteFence (unitId 4 n 0 0x06) (some (n / 4))).units with
        hbm := putBit (s.noteFence (unitId 4 n 0 0x06) (some (n / 4))).units.hbm n false } }) ⟨rfl, id⟩
      (State.onward_of_still (State.still_stopOwner _ _ _))
  · exact .refl s

theorem State.onward_loseDimm (d : Nat) : s.Onward (s.loseDimm d) := by
  unfold State.loseDimm
  split
  · dsimp only
    generalize hs : ({ s.noteFence (unitId 7 d 0 0x06) none with units := _ } : State) = s2
    have hnote : s.Onward s2 := by rw [← hs]; exact ⟨rfl, id⟩
    refine hnote.trans (.foldl _ (fun a p => ?_) _ _)
    split
    · exact State.onward_of_still (State.still_stopPart _ _ _)
    · exact .refl a
  · exact .refl s

theorem State.onward_memoryLimits (pa : Nat) : s.Onward (s.memoryLimits pa) := by
  unfold State.memoryLimits
  split
  · split
    · exact s.onward_loseStack _
    · exact .refl s
  · split
    · exact s.onward_loseDimm _
    · exact .refl s
  · exact .refl s

theorem State.onward_retirePage (page : Nat) (cause : BitVec 2) : s.Onward (s.retirePage page cause) := by
  unfold State.retirePage
  split
  · exact .refl s
  · exact State.Onward.trans (State.Onward.trans (t := { s with
      flash := { s.flash with retired := putPage s.flash.retired { page, retired := true, cause } } }) ⟨rfl, id⟩
      (State.onward_log _ _ _ _ _)) (State.onward_memoryLimits _ _)

theorem State.onward_freeGranule (g : Nat) : s.Onward (s.freeGranule g) :=
  State.Onward.trans (t := s.setGranule g { owner := .free, scrub := .pending }) ⟨rfl, id⟩
    (.foldl _ (fun a _ => a.onward_retirePage _ _) _ _)

theorem State.still_advanceCtx (p c : Nat) : (s.advanceCtx p c).still = s.still := s.still_setCtx p c _

theorem State.still_beginTeardown (p c : Nat) : (s.beginTeardown p c).still = s.still := by
  rw [State.beginTeardown, State.still_setCtx, State.still_advanceCtx]
  exact s.still_cutShort p c

theorem State.onward_endTeardown (p c : Nat) : s.Onward (s.endTeardown p c) := by
  unfold State.endTeardown
  exact ((State.onward_of_still (s.still_freeCells p c)).trans (.foldl _ State.onward_freeGranule _ _)).trans
    (State.onward_of_still (State.still_setCtx _ _ _ _))

theorem State.onward_killContext (x : Nat × Nat) : s.Onward (s.killContext x) := by
  unfold State.killContext
  split
  · exact State.onward_of_still (s.still_advanceCtx _ _)
  · exact (State.onward_of_still (s.still_beginTeardown _ _)).trans (State.onward_endTeardown _ _ _)

theorem State.onward_resetPresent : s.Onward s.resetPresent := by
  unfold State.resetPresent
  dsimp only
  split
  · exact .foldl State.resetRegion (fun _ _ => ⟨rfl, id⟩) _ _
  · exact ⟨rfl, id⟩

theorem State.onward_resetCompute : s.Onward s.resetCompute := by
  have hkill := State.Onward.foldl _ State.onward_killContext allContexts s
  unfold State.resetCompute
  generalize allContexts.foldl State.killContext s = u at hkill ⊢
  dsimp only
  exact (hkill.trans ⟨rfl, id⟩).trans (State.onward_resetPresent _)

end

/-! ## The commands that were taken (R458) -/

/-- Commands taken, and pages to retire. -/
def State.inHand (s : State) : List Taken × List RetiredPage := (s.mail.taken, s.flash.retired)

section
variable (s : State)

theorem State.inHand_resetPresent : s.resetPresent.inHand = s.inHand := by
  unfold State.resetPresent
  dsimp only
  split
  · exact foldl_keeps State.inHand State.resetRegion (fun _ _ => rfl) _ _
  · rfl

theorem State.inHand_beginTeardown (p c : Nat) : (s.beginTeardown p c).inHand = s.inHand := by
  obtain ⟨m, o, k, b, f, hcut⟩ := s.touches_cutShort p c
  rw [State.beginTeardown, hcut]
  rfl

variable {s} (hdone : ∀ x ∈ s.flash.retired, x.retired = true)
include hdone

/-- No page of a granule waits to retire. -/
theorem State.freeGranule_idle (g : Nat) : s.freeGranule g = s.setGranule g { owner := .free, scrub := .pending } := by
  have hnone : (s.flash.retired.filter fun r => !r.retired && r.page / 512 == g) = [] :=
    List.filter_eq_nil_iff.2 fun x hx => by simp [hdone x hx]
  rw [State.freeGranule, State.retirePending]
  show List.foldl _ _ (s.flash.retired.filter fun r => !r.retired && r.page / 512 == g) = _
  rw [hnone]
  rfl

end

theorem foldl_inHand {α : Type} (f : State → α → State)
    (hf : ∀ (a : State) x, (∀ y ∈ a.flash.retired, y.retired = true) → (f a x).inHand = a.inHand) (l : List α)
    {s : State} (hdone : ∀ x ∈ s.flash.retired, x.retired = true) : (l.foldl f s).inHand = s.inHand := by
  induction l generalizing s with
  | nil => rfl
  | cons x l ih =>
    have hstep := hf s x hdone
    have hretired : (f s x).flash.retired = s.flash.retired := congrArg Prod.snd hstep
    exact (ih (s := f s x) (hretired ▸ hdone)).trans hstep

section
variable {s : State} (hdone : ∀ x ∈ s.flash.retired, x.retired = true)
include hdone

theorem State.inHand_endTeardown (p c : Nat) : (s.endTeardown p c).inHand = s.inHand := by
  unfold State.endTeardown
  refine (foldl_inHand State.freeGranule (fun a g ha => ?_) _ (s := s.freeCells p c) hdone)
  rw [State.freeGranule_idle ha]
  rfl

theorem State.inHand_killContext (x : Nat × Nat) : (s.killContext x).inHand = s.inHand := by
  unfold State.killContext
  split
  · rfl
  · have hbegin := s.inHand_beginTeardown x.1 x.2
    have hretired : (s.beginTeardown x.1 x.2).flash.retired = s.flash.retired := congrArg Prod.snd hbegin
    exact (State.inHand_endTeardown (hretired ▸ hdone) x.1 x.2).trans hbegin

/-- Where no page waits to retire, a compute-side reset completes no command. -/
theorem State.inHand_resetCompute : s.resetCompute.inHand = s.inHand := by
  have hkill := foldl_inHand State.killContext (fun a x ha => State.inHand_killContext ha x) allContexts hdone
  unfold State.resetCompute
  generalize allContexts.foldl State.killContext s = u at hkill ⊢
  dsimp only
  exact (State.inHand_resetPresent _).trans hkill

end

/-- What a compute-side reset leaves of the mailbox and the dispatcher. -/
theorem State.resetCompute_fields (s : State) : s.resetCompute.mail.ready = false ∧ s.resetCompute.disp = resetDisp ∧
    s.resetCompute.mail.resetGen = s.mail.resetGen := by
  obtain ⟨-, -, hgen, -⟩ := State.fields_of_kept s.kept_resetCompute
  have hready (u : State) : (u.resetPresent.mail.ready, u.resetPresent.disp) = (u.mail.ready, u.disp) := by
    unfold State.resetPresent
    dsimp only
    split
    · exact foldl_keeps (fun a : State => (a.mail.ready, a.disp)) State.resetRegion (fun _ _ => rfl) _ _
    · rfl
  have hboth : (s.resetCompute.mail.ready, s.resetCompute.disp) = (false, resetDisp) := by
    unfold State.resetCompute
    generalize allContexts.foldl State.killContext s = u
    exact hready _
  obtain ⟨hready', hdisp⟩ := Prod.mk.inj hboth
  exact ⟨hready', hdisp, hgen⟩

end Sys2Proof.Machine
end

section
/-! Heartbeats and what follows them; the persistent record, the event log and the crash dump as they are read. -/

namespace Sys2Proof.Machine

/-! ## The begin of a hang recovery (R458, R469, R471) -/

/-- The hang is counted and logged, before compute resets. -/
def State.hangNoted (s : State) : State :=
  ((s.persist fun p => { p with
    hangsLife := p.hangsLife + 1, hangTimes := (p.hangTimes ++ [p.poweredS]).drop 1 }).logHang 2).alertOn

theorem State.log_taken (s : State) (e : BitVec 16) (src : BitVec 8) (o a : BitVec 32) :
    (s.log e src o a).mail.taken = s.mail.taken := by
  unfold State.log
  dsimp only
  split
  · rfl
  · split <;> rfl

theorem State.hangNoted_fields (s : State) :
    let p := s.flash.persist
    s.hangNoted.tally = (p.hangsLife + 1, (p.hangTimes ++ [p.poweredS]).drop 1, s.flash.dumpSeq) ∧
      s.hangNoted.board.alert = true ∧ s.hangNoted.mail.resetGen = s.mail.resetGen ∧ s.hangNoted.inHand = s.inHand := by
  dsimp only
  unfold State.hangNoted
  generalize hs1 : s.persist _ = s1
  have htally : s1.tally = (s.flash.persist.hangsLife + 1, (s.flash.persist.hangTimes ++ [s.flash.persist.poweredS]).drop 1,
      s.flash.dumpSeq) := by rw [← hs1]; rfl
  have hgen : s1.mail.resetGen = s.mail.resetGen := by rw [← hs1]; rfl
  have hhand : s1.inHand = s.inHand := by rw [← hs1]; rfl
  obtain ⟨-, -, hlog, -⟩ := State.fields_of_kept (s1.kept_log evHang srcLamp (BitVec.ofNat 32 2) (BitVec.ofNat 32 s1.recentHangs))
  refine ⟨(s1.onward_log ..).1.trans htally, rfl, hlog.trans hgen, ?_⟩
  rw [← hhand]
  exact Prod.ext (s1.log_taken ..) (s1.log_retired ..)

theorem State.hangRecovery_fields (s : State) :
    let p := s.flash.persist
    let t := s.hangRecovery
    t.mail.resetGen = s.mail.resetGen ∧ t.mail.ready = false ∧ t.disp = resetDisp ∧
      t.board.alert = true ∧ t.rcv.hang = some s.power.frame ∧ t.rcv.cmdHeld = true ∧
      t.rcv.killed = (s.mail.taken.map fun k => (k.slot, s.endReport stKilled k)) ∧
      ((∀ x ∈ s.flash.retired, x.retired = true) → t.mail.taken = s.mail.taken) ∧
      t.flash.persist.hangsLife = p.hangsLife + 1 ∧ t.flash.persist.hangTimes = (p.hangTimes ++ [p.poweredS]).drop 1 ∧
      t.flash.dumpSeq = s.flash.dumpSeq + 1 ∧ t.rcv.summaryDue.isSome = true := by
  obtain ⟨htally, halert, hgen, hhand⟩ := s.hangNoted_fields
  obtain ⟨honward, hon⟩ := s.hangNoted.onward_resetCompute
  obtain ⟨hready, hdisp, hgen'⟩ := s.hangNoted.resetCompute_fields
  have htaken (hdone : ∀ x ∈ s.flash.retired, x.retired = true) : s.hangNoted.resetCompute.inHand = s.inHand := by
    have hretired : s.hangNoted.flash.retired = s.flash.retired := congrArg Prod.snd hhand
    exact (State.inHand_resetCompute (hretired ▸ hdone)).trans hhand
  have hrec : s.hangRecovery = { s.hangNoted.resetCompute.capture s.mail.resetGen with
      rcv := { (s.hangNoted.resetCompute.capture s.mail.resetGen).rcv with
        hang := some s.power.frame, killed := s.mail.taken.map fun t => (t.slot, s.endReport stKilled t), cmdHeld := true
        fails := setAt (s.hangNoted.resetCompute.capture s.mail.resetGen).rcv.fails 0 0 } } := by
    unfold State.hangRecovery State.hangNoted
    rfl
  dsimp only
  rw [hrec]
  replace hon := hon halert
  rw [htally] at honward
  rw [hgen] at hgen'
  generalize s.hangNoted.resetCompute = u at *
  obtain ⟨hlife, htimes, hseq⟩ : u.flash.persist.hangsLife = _ ∧ u.flash.persist.hangTimes = _ ∧ u.flash.dumpSeq = _ := by
    simpa only [State.tally, Prod.mk.injEq] using honward
  exact ⟨hgen', hready, hdisp, hon, rfl, rfl, rfl, fun hdone => congrArg Prod.fst (htaken hdone), hlife, htimes,
    congrArg (· + 1) hseq, rfl⟩

/-! ## The end of a hang recovery (R458, R461, R462) -/

/-- Commands that are completed one after another are no longer taken. -/
theorem State.taken_completeAll (r : Taken → Report) (l : List Taken) (s : State) :
    (l.foldl (fun a t => a.complete t (r t)) s).mail.taken = s.mail.taken.filter fun x => l.all fun t => x.slot != t.slot := by
  induction l generalizing s with
  | nil => simp
  | cons t l ih =>
    rw [List.foldl_cons, ih, State.complete_taken, List.filter_filter]
    simp [Bool.and_comm]

theorem State.killTaken_taken (s : State) : s.killTaken.mail.taken = [] := by
  rw [State.killTaken, State.taken_completeAll]
  refine List.filter_eq_nil_iff.2 fun x hx => ?_
  simp only [List.all_eq_true, bne_iff_ne, not_forall, not_not]
  exact ⟨x, hx, rfl⟩

/-- What the test of the latch may rest on, and what a hang recovery shows of its end. -/
def State.service (s : State) : List Taken × BitVec 32 × Bool × BitVec 32 × Bool × List (BitVec 64) :=
  (s.mail.taken, s.mail.resetGen, s.rcv.cmdHeld, s.flash.persist.hangsLife, s.flash.persist.oos, s.flash.persist.hangTimes)

theorem State.service_log (s : State) (e : BitVec 16) (src : BitVec 8) (o a : BitVec 32) :
    (s.log e src o a).service = s.service := by
  unfold State.log
  dsimp only
  split
  · rfl
  · split <;> rfl

theorem State.service_latchOut (s : State) : s.latchOut.service =
    (s.mail.taken, s.mail.resetGen, s.rcv.cmdHeld, s.flash.persist.hangsLife, true, s.flash.persist.hangTimes) :=
  State.service_log _ evOutOfService srcLamp 0 _

/-- The latch is set when the third last recovery lies no more than 3,600 s back. -/
theorem State.outTest_fields {s : State} {x y z : BitVec 64} (h : s.flash.persist.hangTimes = [x, y, z]) :
    let t := s.outTest
    t.mail.taken = s.mail.taken ∧ t.mail.resetGen = s.mail.resetGen ∧ t.rcv.cmdHeld = s.rcv.cmdHeld ∧
      t.flash.persist.hangsLife = s.flash.persist.hangsLife ∧
      (t.flash.persist.oos = true ↔ s.flash.persist.oos = true ∨ x ≠ 0 ∧ z.toNat ≤ x.toNat + 3600) := by
  have hlatch := s.service_latchOut
  simp only [State.service, Prod.mk.injEq] at hlatch
  obtain ⟨htaken, hgen, hheld, hlife, hoos, -⟩ := hlatch
  unfold State.outTest
  rw [h]
  dsimp only
  split
  next hc =>
    obtain ⟨hx, hz, -⟩ := hc
    exact ⟨htaken, hgen, hheld, hlife, iff_of_true hoos (.inr ⟨hx, hz⟩)⟩
  next hc =>
    refine ⟨rfl, rfl, rfl, rfl, (or_iff_left_of_imp ?_).symm⟩
    rintro ⟨hx, hz⟩
    by_contra hn
    exact hc ⟨hx, hz, by simpa using hn⟩

theorem State.still_killTaken (s : State) : s.killTaken.still = s.still :=
  foldl_keeps State.still _ (fun _ _ => State.still_complete _ _ _) _ _

theorem State.endRecovery_fields {s : State} {x y z : BitVec 64} (h : s.flash.persist.hangTimes = [x, y, z]) :
    let t := s.endRecovery
    t.mail.resetGen = s.mail.resetGen + 1 ∧ t.mail.ready = true ∧ t.mail.taken = [] ∧ t.rcv.hang = none ∧
      t.rcv.cmdHeld = s.rcv.cmdHeld ∧ t.flash.persist.hangsLife = s.flash.persist.hangsLife ∧
      (t.flash.persist.oos = true ↔ s.flash.persist.oos = true ∨ x ≠ 0 ∧ z.toNat ≤ x.toNat + 3600) := by
  have hstill := s.still_killTaken
  have hflash := State.flash_of_still hstill
  have hrcv : s.killTaken.rcv = s.rcv := show s.killTaken.still.rcv = s.still.rcv from congrArg State.rcv hstill
  have hgen : s.killTaken.mail.resetGen = s.mail.resetGen := by
    refine foldl_keeps (fun a : State => a.mail.resetGen) _ (fun a t => ?_) _ _
    rfl
  have hadv : s.killTaken.advanceGen.flash = s.flash := hflash
  obtain ⟨htaken, hgen', hheld, hlife, hoos⟩ := State.outTest_fields (s := s.killTaken.advanceGen) (hadv ▸ h)
  refine ⟨hgen'.trans (congrArg (· + 1) hgen), rfl, htaken.trans s.killTaken_taken, rfl,
    hheld.trans (congrArg Recovery.cmdHeld hrcv), hlife.trans (by rw [hadv]), ?_⟩
  rw [hadv] at hoos
  exact hoos

/-! ## The checks (R455, R456, R459) -/

section
variable {s : State}

theorem State.checkCmd_paused (h : s.board.hostPerst = true ∨ ∃ a, s.upd.activation = some a ∧ a.comp = 3) (beat : Bool) :
    s.checkCmd beat = s := by
  refine if_pos ?_
  rcases h with h | ⟨a, ha, hc⟩
  · simp [h]
  · simp [ha, hc]

theorem State.checkCmd_held (h : s.rcv.cmdHeld = true) : s.checkCmd false = s := by
  by_cases hoff : (s.board.hostPerst || s.upd.activation.any fun a => a.comp == 3) = true
  · exact if_pos hoff
  · exact (if_neg hoff).trans ((if_pos h).trans (if_neg Bool.false_ne_true))

section
variable (hperst : s.board.hostPerst = false) (hact : s.upd.activation = none)
include hperst hact

theorem State.checkCmd_watched (beat : Bool) (hheld : s.rcv.cmdHeld = false) : s.checkCmd beat =
    if beat then { s with rcv := { s.rcv with fails := setAt s.rcv.fails 0 0 } }
    else if 2 ≤ s.rcv.fails.getD 0 0 then s.hangRecovery
    else { s with rcv := { s.rcv with fails := setAt s.rcv.fails 0 (s.rcv.fails.getD 0 0 + 1) } } := by
  unfold State.checkCmd
  dsimp only
  rw [if_neg (by simp [hperst, hact]), if_neg (by simp [hheld])]

theorem State.checkCmd_back (hheld : s.rcv.cmdHeld = true) (hhang : s.rcv.hang.isSome = true) :
    s.checkCmd true = State.endRecovery { s with rcv := { s.rcv with cmdHeld := false } } := by
  unfold State.checkCmd
  dsimp only
  rw [if_neg (by simp [hperst, hact]), if_pos hheld, if_pos rfl, if_pos hhang]

end

/-- Failures counted as in `l`. -/
def State.withFails (s : State) (l : List Nat) : State := { s with rcv := { s.rcv with fails := l } }

/-- The check of the control processors counts in its own place. -/
theorem State.checkCtl_eq (s : State) (beat : Bool) : ∃ l, s.checkCtl beat = s.withFails l ∧
    l.length = s.rcv.fails.length ∧ ∀ i d, i ≠ 1 → l.getD i d = s.rcv.fails.getD i d := by
  unfold State.checkCtl
  split
  · exact ⟨_, rfl, rfl, fun _ _ _ => rfl⟩
  · exact ⟨_, rfl, List.length_set, fun i d hi => getD_setAt_other _ _ hi⟩

theorem State.checkSec_silent (h : s.sec.error = true ∨ ∃ a, s.upd.activation = some a ∧ a.comp = 2) (beat : Bool) :
    s.checkSec beat = s := by
  refine if_pos ?_
  rcases h with h | ⟨a, ha, hc⟩
  · simp [h]
  · simp [ha, hc]

/-- A heartbeat of the security controller clears its count, or lets it serve again. -/
theorem State.checkSec_beat (s : State) : ∃ l h k n,
    s.checkSec true = { s with freeCtr := n, sec := k, rcv := { s.rcv with fails := l, secHeld := h } } ∧
      ∀ d, l.getD 0 d = s.rcv.fails.getD 0 d := by
  unfold State.checkSec
  dsimp only
  split
  · exact ⟨_, _, _, _, rfl, fun _ => rfl⟩
  · split
    · exact ⟨s.rcv.fails, _, _, _, rfl, fun _ => rfl⟩
    · split
      · exact ⟨_, _, _, _, rfl, fun _ => rfl⟩
      · exact ⟨_, _, _, _, rfl, fun d => getD_setAt_other _ _ (by omega)⟩

/-- What follows the check of the command processor where the other two beat. -/
theorem State.checkOthers_eq (s : State) (ctl : Bool) : ∃ l h k n, (s.checkCtl ctl).checkSec true =
    { s with freeCtr := n, sec := k, rcv := { s.rcv with fails := l, secHeld := h } } ∧
      ∀ d, l.getD 0 d = s.rcv.fails.getD 0 d := by
  obtain ⟨l, hl, -, hother⟩ := s.checkCtl_eq ctl
  obtain ⟨l', h, k, n, hsec, hzero⟩ := (s.checkCtl ctl).checkSec_beat
  rw [hl] at hsec hzero
  exact ⟨l', h, k, n, hl ▸ hsec, fun d => (hzero d).trans (hother 0 d (by omega))⟩

section
variable (hup : s.board.railsUp = true) (hstarted : s.started = true) (hframe : s.power.frame.toNat % 50 = 1)

theorem exec_heartbeatCheck_idle (h : ¬(s.board.railsUp = true ∧ s.started = true ∧ s.power.frame.toNat % 50 = 1))
    (cmd ctl sec : Bool) : exec (.heartbeatCheck cmd ctl sec) s = .next s := by
  refine congrArg _ (if_neg ?_)
  simp only [Bool.and_eq_true, beq_iff_eq]
  rintro ⟨⟨⟨hup, hstarted⟩, hframe⟩, -⟩
  exact h ⟨hup, hstarted, hframe⟩

theorem exec_heartbeatCheck_lamp {a : Activation} (ha : s.upd.activation = some a) (hc : a.comp = 1) (cmd ctl sec : Bool) :
    exec (.heartbeatCheck cmd ctl sec) s = .next s :=
  congrArg _ (if_neg (by simp [State.lampPaused, ha, hc]))

include hup hstarted hframe

theorem exec_heartbeatCheck (hlamp : s.lampPaused = false) (cmd ctl sec : Bool) :
    exec (.heartbeatCheck cmd ctl sec) s = .next (((s.checkCmd cmd).checkCtl ctl).checkSec sec) :=
  congrArg _ (if_pos (by simp [hup, hstarted, hframe, hlamp]))

end
end

/-! ### The command processor (R455, R458) -/

section
variable {s : State} (hup : s.board.railsUp = true) (hstarted : s.started = true)
  (hframe : s.power.frame.toNat % 50 = 1)
include hup hstarted hframe

theorem heartbeatCheck_secPaused {a : Activation} (ha : s.upd.activation = some a) (hc : a.comp = 2)
    (hheld : s.rcv.cmdHeld = true) (ctl sec : Bool) : Answers (.heartbeatCheck false ctl sec) s fun t =>
      t.sec = s.sec ∧ t.rcv.fails.getD 2 9 = s.rcv.fails.getD 2 9 := by
  obtain ⟨l, hl, -, hother⟩ := s.checkCtl_eq ctl
  have hctl : ((s.checkCmd false).checkCtl ctl).checkSec sec = s.withFails l := by
    rw [State.checkCmd_held hheld, hl, State.checkSec_silent (s := s.withFails l) (.inr ⟨a, ha, hc⟩)]
  exact Answers.of_next (exec_heartbeatCheck hup hstarted hframe (by simp [State.lampPaused, ha, hc]) _ _ _) hctl
    ⟨rfl, hother 2 9 (by omega)⟩

theorem heartbeatCheck_cmdPaused {a : Activation} (ha : s.upd.activation = some a) (hc : a.comp = 3)
    (herror : s.sec.error = true) (cmd ctl sec : Bool) : Answers (.heartbeatCheck cmd ctl sec) s fun t =>
      t.mail = s.mail ∧ t.rcv.hang = s.rcv.hang ∧ t.rcv.fails.getD 0 9 = s.rcv.fails.getD 0 9 := by
  obtain ⟨l, hl, -, hother⟩ := s.checkCtl_eq ctl
  have hctl : ((s.checkCmd cmd).checkCtl ctl).checkSec sec = s.withFails l := by
    rw [State.checkCmd_paused (.inr ⟨a, ha, hc⟩), hl, State.checkSec_silent (s := s.withFails l) (.inl herror)]
  exact Answers.of_next (exec_heartbeatCheck hup hstarted hframe (by simp [State.lampPaused, ha, hc]) _ _ _) hctl
    ⟨rfl, rfl, hother 0 9 (by omega)⟩

section
variable (hact : s.upd.activation = none)
include hact

theorem exec_heartbeatCheck_free (cmd ctl sec : Bool) :
    exec (.heartbeatCheck cmd ctl sec) s = .next (((s.checkCmd cmd).checkCtl ctl).checkSec sec) :=
  exec_heartbeatCheck hup hstarted hframe (by simp [State.lampPaused, hact]) _ _ _

/-- Where the other two beat, the answer is that of the command processor's check. -/
theorem heartbeatCheck_cmd (cmd : Bool) {u : State} (hu : s.checkCmd cmd = u) {p : State → Prop}
    (hp : ∀ l h k n, (∀ d, l.getD 0 d = u.rcv.fails.getD 0 d) →
      p { u with freeCtr := n, sec := k, rcv := { u.rcv with fails := l, secHeld := h } }) :
    Answers (.heartbeatCheck cmd true true) s p := by
  obtain ⟨l, h, k, n, hothers, hzero⟩ := u.checkOthers_eq true
  refine Answers.of_next (exec_heartbeatCheck_free hup hstarted hframe hact cmd true true) ?_ (hp l h k n hzero)
  rw [hu]
  exact hothers

section
variable (hperst : s.board.hostPerst = false)
include hperst

section
variable (hheld : s.rcv.cmdHeld = false)
include hheld

theorem heartbeatCheck_beat (hlen : s.rcv.fails.length = 3) : Answers (.heartbeatCheck true true true) s fun t =>
    t.rcv.fails.getD 0 9 = 0 ∧ t.mail = s.mail ∧ t.cells = s.cells :=
  heartbeatCheck_cmd hup hstarted hframe hact true
    ((State.checkCmd_watched hperst hact true hheld).trans (if_pos rfl))
    fun _ _ _ _ hl => ⟨(hl 9).trans (getD_setAt_same _ _ (by omega)), rfl, rfl⟩

theorem heartbeatCheck_miss (hlen : s.rcv.fails.length = 3) (hn : s.rcv.fails.getD 0 0 < 2) :
    Answers (.heartbeatCheck false true true) s fun t =>
      t.rcv.fails.getD 0 9 = s.rcv.fails.getD 0 0 + 1 ∧ t.mail = s.mail ∧ t.cells = s.cells :=
  heartbeatCheck_cmd hup hstarted hframe hact false
    ((State.checkCmd_watched hperst hact false hheld).trans ((if_neg (by simp)).trans (if_neg (Nat.not_le.2 hn))))
    fun _ _ _ _ hl => ⟨(hl 9).trans (getD_setAt_same _ _ (by omega)), rfl, rfl⟩

/-- The third failure in a row begins a hang recovery. -/
theorem heartbeatCheck_hang (hn : 2 ≤ s.rcv.fails.getD 0 0) : Answers (.heartbeatCheck false true true) s fun t =>
    let p := s.flash.persist
    t.mail.resetGen = s.mail.resetGen ∧ t.mail.ready = false ∧ t.disp = resetDisp ∧
      t.board.alert = true ∧ t.rcv.hang = some s.power.frame ∧ t.rcv.cmdHeld = true ∧
      t.rcv.killed = (s.mail.taken.map fun k => (k.slot, s.endReport stKilled k)) ∧
      ((∀ x ∈ s.flash.retired, x.retired = true) → t.mail.taken = s.mail.taken) ∧
      t.flash.persist.hangsLife = p.hangsLife + 1 ∧ t.flash.persist.hangTimes = (p.hangTimes ++ [p.poweredS]).drop 1 ∧
      t.flash.dumpSeq = s.flash.dumpSeq + 1 ∧ t.rcv.summaryDue.isSome = true := by
  have hcheck := (State.checkCmd_watched hperst hact false hheld).trans ((if_neg (by simp)).trans (if_pos hn))
  have hfields := s.hangRecovery_fields
  generalize s.hangRecovery = u at hcheck hfields
  exact heartbeatCheck_cmd hup hstarted hframe hact false hcheck fun _ _ _ _ _ => hfields

end

/-- The first heartbeat that is found after it ends the recovery. -/
theorem heartbeatCheck_back (hheld : s.rcv.cmdHeld = true) (hhang : s.rcv.hang.isSome = true) {x y z : BitVec 64}
    (h : s.flash.persist.hangTimes = [x, y, z]) : Answers (.heartbeatCheck true true true) s fun t =>
      t.mail.resetGen = s.mail.resetGen + 1 ∧ t.mail.ready = true ∧ t.mail.taken = [] ∧ t.rcv.hang = none ∧
      t.rcv.cmdHeld = false ∧ t.flash.persist.hangsLife = s.flash.persist.hangsLife ∧
      (t.flash.persist.oos = true ↔ s.flash.persist.oos = true ∨ x ≠ 0 ∧ z.toNat ≤ x.toNat + 3600) :=
  heartbeatCheck_cmd hup hstarted hframe hact true (State.checkCmd_back hperst hact hheld hhang)
    fun _ _ _ _ _ => State.endRecovery_fields (s := { s with rcv := { s.rcv with cmdHeld := false } }) h

end

end
end

/-! ### The security controller and the control processors (R456, R459) -/

section
variable {s : State}

theorem State.checkSec_missed (hact : s.upd.activation = none) (hsec : s.rcv.secHeld = false) (herror : s.sec.error = false)
    (hrun : s.sec.running = true) (hpause : s.sec.paused = false) : s.checkSec false =
      if 2 ≤ s.rcv.fails.getD 2 0 then (s.logHang 1).alertOn.resetSec
      else s.withFails (setAt s.rcv.fails 2 (s.rcv.fails.getD 2 0 + 1)) := by
  unfold State.checkSec
  dsimp only
  rw [if_neg (by simp [herror, hrun, hact]), if_neg (by simp [hsec]), if_neg (by simp [hpause]),
    if_neg Bool.false_ne_true]
  rfl

theorem State.resetSec_fields (s : State) : s.resetSec.sec.sessions = [] ∧ s.resetSec.sec.paused = true ∧
    s.resetSec.rcv.secHeld = true ∧ s.resetSec.board = s.board ∧ s.resetSec.cells = s.cells :=
  ⟨by simp [State.resetSec, Security.endSessions], rfl, rfl, rfl, rfl⟩

theorem State.checkCtl_missed (h : s.controlRuns = true) :
    s.checkCtl false = s.withFails (setAt s.rcv.fails 1 (min 3 (s.rcv.fails.getD 1 0 + 1))) :=
  if_neg (by simp [h])

theorem State.hangAlert_fields (s : State) (n : Nat) :
    (s.logHang n).alertOn.board.alert = true ∧ (s.logHang n).alertOn.cells = s.cells :=
  ⟨rfl, (s.log_fields evHang srcLamp (BitVec.ofNat 32 n) (BitVec.ofNat 32 s.recentHangs)).2.1⟩

section
variable (hup : s.board.railsUp = true) (hstarted : s.started = true) (hframe : s.power.frame.toNat % 50 = 1)
  (hact : s.upd.activation = none) (hheld : s.rcv.cmdHeld = true)
include hup hstarted hframe hact hheld

theorem exec_heartbeatCheck_held (ctl sec : Bool) :
    exec (.heartbeatCheck false ctl sec) s = .next ((s.checkCtl ctl).checkSec sec) :=
  (exec_heartbeatCheck_free hup hstarted hframe hact false ctl sec).trans (by rw [State.checkCmd_held hheld])

theorem heartbeatCheck_ctl (hlen : s.rcv.fails.length = 3) (hruns : s.controlRuns = true) (herror : s.sec.error = true) :
    Answers (.heartbeatCheck false false false) s fun t =>
      t.rcv.fails.getD 1 9 = min 3 (s.rcv.fails.getD 1 0 + 1) ∧ t.power = s.power ∧ t.mail = s.mail := by
  have hexec := exec_heartbeatCheck_held hup hstarted hframe hact hheld false false
  rw [State.checkCtl_missed hruns] at hexec
  have hsilent := State.checkSec_silent
    (s := s.withFails (setAt s.rcv.fails 1 (min 3 (s.rcv.fails.getD 1 0 + 1)))) (.inl herror) false
  exact Answers.of_next hexec hsilent
    ⟨getD_setAt_same _ _ (by omega), rfl, rfl⟩

section
variable (hsec : s.rcv.secHeld = false) (herror : s.sec.error = false) (hrun : s.sec.running = true)
  (hpause : s.sec.paused = false)
include hsec herror hrun hpause

/-- The check of the security controller, past that of the control processors. -/
theorem exec_heartbeatCheck_sec : ∃ l, exec (.heartbeatCheck false true false) s = .next
    (if 2 ≤ s.rcv.fails.getD 2 0 then ((s.withFails l).logHang 1).alertOn.resetSec
      else s.withFails (setAt l 2 (s.rcv.fails.getD 2 0 + 1))) ∧ (s.rcv.fails.length = 3 → l.length = 3) := by
  obtain ⟨l, hl, hlen, hother⟩ := s.checkCtl_eq true
  refine ⟨l, (exec_heartbeatCheck_held hup hstarted hframe hact hheld true false).trans ?_, fun h => hlen.trans h⟩
  rw [hl, State.checkSec_missed (s := s.withFails l) hact hsec herror hrun hpause]
  have hn : (s.withFails l).rcv.fails.getD 2 0 = s.rcv.fails.getD 2 0 := hother 2 0 (by omega)
  rw [hn]
  rfl

theorem heartbeatCheck_secMiss (hlen : s.rcv.fails.length = 3) (hn : s.rcv.fails.getD 2 0 < 2) :
    Answers (.heartbeatCheck false true false) s fun t =>
      t.rcv.fails.getD 2 9 = s.rcv.fails.getD 2 0 + 1 ∧ t.sec = s.sec ∧ t.mail = s.mail := by
  obtain ⟨l, hexec, hl⟩ := exec_heartbeatCheck_sec hup hstarted hframe hact hheld hsec herror hrun hpause
  exact Answers.of_next hexec (if_neg (Nat.not_le.2 hn)) ⟨getD_setAt_same _ _ (by have := hl hlen; omega), rfl, rfl⟩

/-- The third failure in a row resets the security controller. -/
theorem heartbeatCheck_secReset (hn : 2 ≤ s.rcv.fails.getD 2 0) : Answers (.heartbeatCheck false true false) s fun t =>
    t.sec.sessions = [] ∧ t.sec.paused = true ∧ t.rcv.secHeld = true ∧ t.board.alert = true ∧ t.cells = s.cells := by
  obtain ⟨l, hexec, -⟩ := exec_heartbeatCheck_sec hup hstarted hframe hact hheld hsec herror hrun hpause
  obtain ⟨hsessions, hpaused, hheld', hboard, hcells⟩ := ((s.withFails l).logHang 1).alertOn.resetSec_fields
  obtain ⟨halert, hcells'⟩ := (s.withFails l).hangAlert_fields 1
  exact Answers.of_next hexec (if_pos hn) ⟨hsessions, hpaused, hheld', by rw [hboard, halert], hcells.trans hcells'⟩

end
end
end

/-! ## First heartbeats and the watchdog of Lamplighter (R457, R466) -/

section
variable {s : State}

/-- A start that fails: what the clause on first heartbeats asks. -/
theorem State.startFail_fields (s : State) : (s.startFail 3).flash.persist.startResult = 3 ∧
    (s.startFail 3).mail.ready = false ∧ (s.startFail 3).board.alert = true ∧ (s.startFail 3).cells = s.cells :=
  ⟨rfl, rfl, rfl, rfl⟩

theorem exec_firstHeartbeatTimeout_sec (hup : s.board.railsUp = true) (hheld : s.rcv.secHeld = true)
    (hrun : s.sec.running = true) : exec (.firstHeartbeatTimeout 2) s = .next (s.startFail 3) :=
  congrArg _ (if_pos (by simp [hup, hheld, hrun]))

theorem exec_firstHeartbeatTimeout_cmd (hup : s.board.railsUp = true) (hheld : s.rcv.cmdHeld = true)
    (hperst : s.board.hostPerst = false) : exec (.firstHeartbeatTimeout 3) s = .next (s.startFail 3) :=
  congrArg _ (if_pos (by simp [hup, hheld, hperst]))

theorem exec_firstHeartbeatTimeout_ctl (hup : s.board.railsUp = true) (hheld : s.rcv.ctlHeld = true) :
    exec (.firstHeartbeatTimeout 4) s = .next (s.startFail 3) :=
  congrArg _ (if_pos (by simp [hup, hheld]))

theorem exec_firstHeartbeatTimeout_idle {c : Nat} (h : s.board.railsUp = false ∨ ¬(c = 2 ∨ c = 3 ∨ c = 4)) :
    exec (.firstHeartbeatTimeout c) s = .next s := by
  refine congrArg _ (if_neg ?_)
  rcases h with h | h
  · simp [h]
  · obtain ⟨h2, h3, h4⟩ : c ≠ 2 ∧ c ≠ 3 ∧ c ≠ 4 := by simpa only [not_or] using h
    simp [h2, h3, h4]

theorem lampWatchdog_answers (h : s.board.lampReady = true) : Answers .lampWatchdog s fun t =>
    t.rcv.fails = [0, 0, 0] ∧ t.board.alert = true ∧ t.mail.evtLast = evHang ∧ t.parts = s.parts ∧ t.cells = s.cells ∧
    ∀ x, x ∈ t.sec.sessions ↔ x ∈ s.sec.sessions ∧ x.tr = .doe := by
  have hsec : (s.logHang 0).alertOn.sec = s.sec := s.log_sec ..
  have hparts : (s.logHang 0).alertOn.parts = s.parts := s.log_parts ..
  refine Answers.of_next (i := .lampWatchdog) rfl (if_pos h)
    ⟨rfl, rfl, s.log_evtLast .., hparts, (s.hangAlert_fields 0).2, fun x => ?_⟩
  show x ∈ (s.logHang 0).alertOn.sec.sessions.filter (fun x => !(x.tr == .mctp)) ↔ _
  rw [hsec, List.mem_filter]
  refine and_congr_right fun _ => ?_
  cases x.tr <;> simp

theorem exec_lampWatchdog_down (h : s.board.lampReady = false) : exec .lampWatchdog s = .next s :=
  congrArg _ (if_neg (by simp [h]))

/-! ## A fault of the fabric of an I/O die (R453, R460) -/

theorem iodFabricError_answers {d : Nat} (hd : d < 4) (hup : s.board.railsUp = true) : Answers (.iodFabricError d) s fun t =>
    t.fabBlock d = FabBlock.reset ∧ (∀ e, e ≠ d → t.fabBlock e = s.fabBlock e) ∧ t.coll.panUsed.getD d 0 = 0 ∧
    (s.sized → ∀ h, h < 72 → iodOf h = d → (t.port h).counters = Vector.replicate 10 0 ∧
      ((s.port h).st ≠ .disabled → (t.port h).st = .down) ∧
      ((s.port h).st = .disabled → (t.port h).st = .disabled ∨ (t.port h).st = .detect)) ∧
    t.cells = s.cells := by
  have hexec : exec (.iodFabricError d) s = .next (s.resetDie d) := by
    have hcond : (s.board.railsUp && decide (d < 4)) = true := by simp [hup, hd]
    exact congrArg Host.Outcome.next (if_pos hcond)
  obtain ⟨hpan, hcells, hports⟩ := s.resetDie_fields d
  have hblock := s.fabBlock_resetDie d
  generalize s.resetDie d = t at hexec hpan hcells hports hblock
  refine ⟨t, hexec, ?_, fun e he => ?_, hpan, fun hsized => ?_, hcells⟩
  · rw [hblock, if_pos rfl]
  · rw [hblock, if_neg he]
  · obtain ⟨-, -, hlen, -⟩ := hsized
    exact hports hlen

theorem exec_iodFabricError_idle {d : Nat} (h : 4 ≤ d ∨ s.board.railsUp = false) :
    exec (.iodFabricError d) s = .next s := by
  refine congrArg _ (if_neg ?_)
  rcases h with h | h
  · simp [Nat.not_lt.2 h]
  · simp [h]

end

/-! ## The persistent record and the summaries (R469, R472, R473) -/

theorem Persist.length_bytes (p : Persist) : p.bytes.length = 256 := by
  simp [Persist.bytes, Persist.body, length_padTo, length_leBytes]

section
variable {s : State}

theorem exec_dumpSummaryWrite_none (h : s.rcv.summaryDue = none) : exec .dumpSummaryWrite s = .next s := by
  refine congrArg Host.Outcome.next ?_
  rw [h]

/-- A summary goes to the older of the two areas. -/
theorem dumpSummaryWrite_answers {d : Dump} (h : s.rcv.summaryDue = some d) : Answers .dumpSummaryWrite s fun t =>
    t.rcv.summaryDue = none ∧ t.flash.persist = s.flash.persist ∧
    (dumpAge s.flash.summaryA ≤ dumpAge s.flash.summaryB →
      t.flash.summaryA = some d ∧ t.flash.summaryB = s.flash.summaryB) ∧
    (dumpAge s.flash.summaryB < dumpAge s.flash.summaryA →
      t.flash.summaryB = some d ∧ t.flash.summaryA = s.flash.summaryA) ∧
    (∀ x, s.rcv.dump = some x → t.rcv.dump = some { x with summaryWritten := true }) := by
  refine ⟨_, rfl, ?_⟩
  rw [h]
  refine ⟨rfl, rfl, fun hle => ?_, fun hlt => ?_, fun x hx => congrArg (Option.map _) hx⟩
  · exact ⟨if_pos (by simpa using hle), if_pos (by simpa using hle)⟩
  · exact ⟨if_neg (by simpa using hlt), if_neg (by simpa using hlt)⟩

end

/-! ## Reading the log and the dump (R470, R474) -/

section
variable {s : State} {slot : Nat} {t : Taken}

section
variable (h : s.startable slot opLogRead = some t)
include h

theorem exec_logReadRecord (hbuf : s.bufOk slot = true) (hop : s.body slot 0 1 = 1) :
    exec (.logReadRecord slot) s = .next (s.giveBuf t s.flash.persist.bytes) :=
  ((if_neg (by simp [hop])).trans (command_of_startable h _)).trans (congrArg _ (if_neg (by simp [hbuf])))

theorem exec_logReadEvents (hbuf : s.bufOk slot = true) (hop : s.body slot 0 1 = 0) :
    let all := s.flash.log ++ s.rcv.fresh
    let l := all.filter fun e => decide (s.body slot 0x18 8 ≤ e.seq)
    let n := s.body slot 0x10 4
    let next := s.flash.persist.nextSeq.toNat
    exec (.logReadEvents slot) s = .next (
      (s.hostWrite (s.body slot 8 8) ((l.take (n / 32)).flatMap LogEntry.bytes)).complete t { Report.of stDone with
        r0 := 32 * l.length, r1 := 32 * min (n / 32) l.length, r2 := (all.head?.map (·.seq)).getD next, r3 := next
        flags := if n / 32 < l.length then cflagTrunc else 0 }) := by
  refine ((if_neg (by simp [hop])).trans (command_of_startable h _)).trans
    (congrArg _ ((if_neg (by simp [hbuf, hop])).trans ?_))
  cases s.flash.log ++ s.rcv.fresh <;> rfl

theorem exec_logReadEvents_reserved (hop : 2 ≤ s.body slot 0 1) :
    exec (.logReadEvents slot) s = .next (s.complete t (.of stBadField)) := by
  have h1 : s.body slot 0 1 ≠ 1 := by omega
  have h0 : s.body slot 0 1 ≠ 0 := by omega
  exact ((if_neg h1).trans (command_of_startable h _)).trans (congrArg _ (if_pos (.inl h0)))

end

section
variable (h : s.startable slot opDumpRead = some t) (hsrc : s.body slot 0 1 ≤ 2) (hbuf : s.bufOk slot = true)
  (hlen : s.body slot 0x10 4 ≤ 16 * mib)
include h hsrc hbuf hlen

theorem exec_dumpRead_none (hd : s.dumpObject (s.body slot 0 1) = none) :
    exec (.dumpRead slot) s = .next (s.complete t (.of stWrongState)) := by
  refine (command_of_startable h _).trans (congrArg _ ((if_neg (by simp [hbuf]; omega)).trans ?_))
  rw [hd]

theorem exec_dumpRead {d : Dump} (hd : s.dumpObject (s.body slot 0 1) = some d) : exec (.dumpRead slot) s = .next
    (let n := s.body slot 0x10 4
      let off := s.body slot 4 4
      if d.bytes.length ≤ off then s.complete t (.of stBadField)
      else (s.hostWrite (s.body slot 8 8) ((d.bytes.drop off).take n)).complete t { Report.of stDone with
        r0 := d.bytes.length - off, r1 := min n (d.bytes.length - off), r2 := d.seq.toNat
        flags := if n < d.bytes.length - off then cflagTrunc else 0 }) := by
  refine (command_of_startable h _).trans (congrArg _ ((if_neg (by simp [hbuf]; omega)).trans ?_))
  rw [hd]

end
end

/-- Settles O47: the checks one by one, then first heartbeats, the faults of a die, and what is read of log and dump. -/
theorem recoveryAndDumps : Obligations.RecoveryAndDumps := by
  refine ⟨⟨fun s cmd ctl sec h => exec_heartbeatCheck_idle h cmd ctl sec, fun s cmd ctl sec a ha =>
      ⟨fun hc => exec_heartbeatCheck_lamp ha hc cmd ctl sec,
        fun hc hup hstarted hframe hheld => heartbeatCheck_secPaused hup hstarted hframe ha hc hheld ctl sec,
        fun hc hup hstarted hframe herror => heartbeatCheck_cmdPaused hup hstarted hframe ha hc herror cmd ctl sec⟩,
      fun s hup hstarted hframe hlen => ⟨fun hperst hact hheld => ⟨heartbeatCheck_beat hup hstarted hframe hact hperst hheld hlen,
          heartbeatCheck_miss hup hstarted hframe hact hperst hheld hlen,
          fun hn _ => heartbeatCheck_hang hup hstarted hframe hact hperst hheld hn⟩,
        fun hperst hact hheld hhang x y z => heartbeatCheck_back hup hstarted hframe hact hperst hheld hhang,
        fun hact hsec herror hrun hpause hheld =>
          ⟨heartbeatCheck_secMiss hup hstarted hframe hact hheld hsec herror hrun hpause hlen,
            heartbeatCheck_secReset hup hstarted hframe hact hheld hsec herror hrun hpause⟩,
        fun hact hruns hheld herror => heartbeatCheck_ctl hup hstarted hframe hact hheld hlen hruns herror⟩,
      fun s => ⟨fun hup => ⟨fun hheld hrun => ⟨_, exec_firstHeartbeatTimeout_sec hup hheld hrun, s.startFail_fields⟩,
          fun hheld hperst => ⟨_, exec_firstHeartbeatTimeout_cmd hup hheld hperst, s.startFail_fields⟩,
          fun hheld => ⟨_, exec_firstHeartbeatTimeout_ctl hup hheld, s.startFail_fields⟩⟩,
        fun c => exec_firstHeartbeatTimeout_idle, lampWatchdog_answers, exec_lampWatchdog_down,
        fun d => iodFabricError_answers, fun d => exec_iodFabricError_idle⟩⟩,
    Persist.length_bytes, fun s => ⟨exec_dumpSummaryWrite_none, fun d => dumpSummaryWrite_answers⟩,
    fun s slot t ht => ⟨fun h hbuf => ⟨exec_logReadRecord h hbuf, exec_logReadEvents h hbuf, exec_logReadEvents_reserved h⟩,
      fun h hsrc hbuf hlen => ⟨exec_dumpRead_none h hsrc hbuf hlen, fun d hd => ⟨fun hoff => ?_, fun hoff => ?_⟩⟩⟩⟩
  · exact (exec_dumpRead h hsrc hbuf hlen hd).trans (congrArg _ (if_pos hoff))
  · exact (exec_dumpRead h hsrc hbuf hlen hd).trans (congrArg _ (if_neg (Nat.not_le.2 hoff)))

end Sys2Proof.Machine
end
